-- ==== Sys2Proof/Word.lean ====
section
/-! DEFINITION. The word types of the model (R7, R8) and the keyed table every sparse piece of state uses. -/

namespace Sys2Proof

/-- A byte. -/
abbrev U8 := BitVec 8
/-- A 16-bit field. -/
abbrev U16 := BitVec 16
/-- A 32-bit register, or a counter that wraps from 0xFFFF_FFFF to 0. -/
abbrev U32 := BitVec 32
/-- A 64-bit field or counter. -/
abbrev U64 := BitVec 64

/-- A byte string, first byte first. -/
abbrev Bytes := List U8

/-- A table by natural-number key, held in one canonical form: keys strictly rising (`Machine.KMap.wf`). -/
abbrev KMap (α : Type) := List (Nat × α)

end Sys2Proof
end

