-- ==== Sys2Proof/Syntax.lean ====
section
/-! DEFINITION. The commands and events of spec/opcode_table.json: one constructor of `Instr` per row, with the
operands the row's rules give it. The first operand `t` of every constructor is the PTP instant, in ns, at which
the command or event happens (R202, R288). -/

namespace Sys2Proof

/-- A command in flight: taken from mailbox `n` with its tag (R65), or the `i`-th command of a cue (R293). -/
inductive CmdRef where
  | mbx (n tag : Nat)
  | cue (c i : Nat)
  deriving DecidableEq, Repr, Inhabited

/-- How the PCI Express link changes state (R53, R429, source HOST): into L0 with the speed it trained to, in 0.1 GT/s, and its
width. -/
inductive PcieChange where
  | toL0 (speed width : Nat)
  | toL1 | toL2 | toD3 | lost | aerUncorrectable
  deriving DecidableEq, Repr

/-- What a boot stage found (R499 to R503): the stacks that trained, the cores and spindles that passed self-test, the
step of R379 whose retry missed too, whether the RTC was kept, the trim records that failed in one copy and in both, keyed by
2 × (1024 × item + instance) + 1 for a live one (R453), and whether retention bank 7 passed its check (R470). -/
structure BootReport where
  stack0 : Bool
  stack1 : Bool
  coresOk : U8
  spindlesOk : BitVec 256
  missed : Option Nat
  rtcHeld : Bool
  trimOne : List Nat
  trimNone : List Nat
  bank7Ok : Bool
  deriving DecidableEq, Repr

/-- An in-band datagram as it arrives on a port (R77, R78): addressing, whether it is an IPv4 fragment, and its UDP
payload. -/
structure Datagram where
  port : Nat
  dstIp : U32
  udpPort : Nat
  srcIp : U32
  srcUdp : Nat
  fragment : Bool
  payload : Bytes
  deriving DecidableEq, Repr

/-- One RTP packet of an ST 2110-20 stream (R111 to R114). `pixels` are the decoded code triples (Y/Cb/Cr or R/G/B);
`row` and `offset` place the first of them. `cut` says that it had queued its cut-through threshold
in words before its end (R28), `poison` how many of its words were delivered poisoned (R26). -/
structure VideoPkt where
  port : Nat
  group : U32
  udpPort : Nat
  srcIp : U32
  seq : U16
  ts : U32
  marker : Bool
  row : Nat
  offset : Nat
  pixels : List (Nat × Nat × Nat)
  bytes : Nat
  cut : Bool
  poison : Nat
  deriving DecidableEq, Repr

/-- One RTP packet of an ST 2110-30 stream (R117, R118): samples by channel, L24 two's complement. `poison` says how many of its
words fail their parity in the ingress bobbin (R26). -/
structure AudioPkt where
  port : Nat
  group : U32
  udpPort : Nat
  srcIp : U32
  seq : U16
  rtpTime : Nat
  samples : List (List Int)
  bytes : Nat
  poison : Nat
  deriving DecidableEq, Repr

/-- One E1.31 data packet (R121, R122). `poison` says how many of its words fail their parity in the ingress bobbin (R26). -/
structure SacnPkt where
  port : Nat
  dst : U32
  udpPort : Nat
  univ : Nat
  cid : BitVec 128
  prio : Nat
  seq : U8
  startCode : U8
  preview : Bool
  terminated : Bool
  discovery : Bool
  data : Bytes
  bytes : Nat
  poison : Nat
  deriving DecidableEq, Repr

/-- One E1.31 synchronization packet (R124): its destination and the synchronization universe it names. -/
structure SyncPkt where
  dst : U32
  udpPort : Nat
  univ : Nat
  deriving DecidableEq, Repr

/-- The class of a received frame's destination address (R268). -/
inductive Cast where
  | uni | multi | broad
  deriving DecidableEq, Repr

/-- The error of a received frame, in the order of R268. -/
inductive RxErr where
  | symbol | align | runt | jabber | fcs | length
  deriving DecidableEq, Repr

/-- A received frame that no specific receive step takes (R268). `ez` is the TYPE nibble of an Ezond Link frame. -/
structure RxFrame where
  port : Nat
  len : Nat
  cast : Cast
  err : Option RxErr
  ez : Option Nat
  ptp : Bool
  pause : Bool
  video : Bool
  deriving DecidableEq, Repr

/-- The common header of a tile frame as received (R226). -/
structure TileHdr where
  port : Nat
  chain : Nat
  toEnd : Nat
  gen : U16
  hop : Nat
  len : Nat
  deriving DecidableEq, Repr

/-- One entry of a REPORT (R240). -/
structure ReportEntry where
  pixel : Nat
  channel : Nat
  st : Nat
  deriving DecidableEq, Repr

/-- A REPORT (R240). -/
structure Report where
  epoch : U32
  status : U16
  held : Nat
  temp : Int
  rseq : U16
  pseq : U16
  entries : List ReportEntry
  deriving DecidableEq, Repr

/-- A REPLY to DISCOVER (R246); latencies in units of 2^-6 ns, 10G first. -/
structure Reply where
  hop : Nat
  maxVer : Nat
  formats : Nat
  vendor : U32
  model : U32
  serial : U64
  width : Nat
  height : Nat
  speeds : Nat
  latF : List Nat
  latR : List Nat
  deriving DecidableEq, Repr

/-- An Announce as the best master clock algorithm reads it (R278). -/
structure Announce where
  port : Nat
  domain : Nat
  gmId : U64
  prio1 : Nat
  clockClass : Nat
  accuracy : Nat
  variance : Nat
  prio2 : Nat
  steps : Nat
  srcId : U64
  utcOffset : Int
  deriving DecidableEq, Repr

/-- The exchange a PTP event completes (R280): the four timestamps, in ns, of a Sync and Delay exchange. On a two-step port
`tsId` is the timestamp identifier of its Delay_Req, whose entry gives the third (R279). -/
structure PtpExchange where
  port : Nat
  t1 : Int
  t2 : Int
  t3 : Int
  t4 : Int
  tsId : Nat
  deriving DecidableEq, Repr

/-- The PTP messages a port sends: on its interval timers (R277), and the Follow_Up of a Sync (R279). -/
inductive PtpTx where
  | sync | announce | delayReq | followUp
  deriving DecidableEq, Repr

/-- An SMPTE timecode word as TIME_LTC lays it out, in frames counted from 00:00:00:00, with its rate code (R286). -/
structure LtcWord where
  tc : U32
  rate : Nat
  deriving DecidableEq, Repr

/-- The outcome of an I2C transaction of a colour sensor (R310, R311): three channel results, or a failure. -/
inductive I2cResult where
  | ok (ch0 ch1 ch2 : Nat)
  | failed
  deriving DecidableEq, Repr

/-- How an RDM response arrived (R328, R329). -/
inductive RdmAnswer where
  | good (responseType : Nat) (data : Bytes)
  | badChecksum
  | discovered (uid : BitVec 48)
  | muted (uid : BitVec 48)
  deriving DecidableEq, Repr

/-- The decision a recovery measurement reports for one calibration instance (R450, R456): the DATA bytes of the new
record and the measured facts the plausibility windows need: `inl` in thousandths of an LSB, and `cellPpm` the four cells'
results for the METER reference or, for a LANE, how far its two terminations lie from 50 Ω, in ppm. -/
structure CalResult where
  inst : Nat
  data : Bytes
  clipped : Bool
  inl : Nat
  cellPpm : List Int
  deriving DecidableEq, Repr

/-- One decimated sample of every metering input (R387, R388): for each ISENSE path the coarse and fine sample in
thousandths of full scale. -/
structure MeterSample where
  coarse : List Int
  fine : List Int
  deriving DecidableEq, Repr

/-- One power sample of a circuit (R391): active power in mW, reactive in mvar, apparent in mVA, and its duration in ns. -/
structure PowerSample where
  circuit : Nat
  p : Int
  q : Int
  s : Nat
  ns : Nat
  deriving DecidableEq, Repr

/-- A window's measurements of one circuit (R389), in the units of METER_MEASURE (R403). -/
structure WindowQty where
  circuit : Nat
  vrms : Nat
  irms : Nat
  p : Int
  q : Int
  s : Nat
  pf : Int
  freq : Nat
  thdV : Nat
  thdI : Nat
  h1V : Nat
  h1I : Nat
  harmV : List Nat
  harmI : List Nat
  deriving DecidableEq, Repr

/-- A partner HELLO (R415). -/
structure Hello where
  cgen : U16
  side : Nat
  role : Nat
  hbCode : Nat
  calm : Bool
  serial : U32
  counter : Nat
  fingerprint : U32
  drillEpoch : U32
  deriving DecidableEq, Repr

/-- A DIGEST segment (R415). -/
structure DigestSeg where
  cgen : U16
  epoch : U32
  seg : Nat
  nseg : Nat
  offset : Nat
  data : Bytes
  deriving DecidableEq, Repr

/-- An UP as the radio received it (R345, R350). -/
structure AirUp where
  radio : Nat
  node : Nat
  event : U16
  sn : Bool
  nesn : Bool
  kind : Nat
  body : Bytes
  crcOk : Bool
  deriving DecidableEq, Repr

/-- One constructor per row of spec/opcode_table.json. -/
inductive Instr where
  -- reset and boot
  | powerOn (t : Nat) (vbatHeld compatLow : Bool)
  | resetNAssert (t : Nat) (lowNs : Nat)
  | pciePerst (t : Nat) (asserted : Bool)
  | pcieLinkStateChange (t : Nat) (c : PcieChange)
  | bootStageDone (t : Nat) (r : BootReport)
  -- direct registers and rings
  | mbxTailDoorbell (t n v : Nat)
  | mbxRheadWrite (t n v : Nat)
  | mbxEnable (t n : Nat) (v : U32)
  | mbxDisable (t n : Nat) (v : U32)
  | hifIntMaskWrite (t : Nat) (v : U32)
  | hifIntStatClear (t : Nat) (v : U32)
  | fltViolClear (t : Nat) (v : U32)
  | fltStickyClear (t k : Nat) (v : U32)
  | macHalfClear (t port : Nat) (hi : Bool) (v : U32)
  | tsOvfClear (t port : Nat) (v : U32)
  | underrunClear (t : Nat) (v : U32)
  | reelCursorWrite (t : Nat) (v : U32)
  | reelWindowLoadDone (t : Nat)
  | registerWrite (t off : Nat) (v : U32)
  | bar0AccessViolation (t off : Nat) (write : Bool) (size be : Nat)
  -- the command path
  | commandTake (t n : Nat) (entry payload : Bytes)
  | unsupported (t : Nat) (r : CmdRef)
  | threadDispatch (t core : Nat)
  | threadQuantumExpiry (t core : Nat)
  | classFloorWindow (t timedNs commandNs backgroundNs : Nat)
  | responseWrite (t n : Nat)
  | eventWrite (t : Nat)
  | commandDeadline (t : Nat) (r : CmdRef)
  | mailboxDrainTimeout (t n : Nat)
  | tagMemoryExpiry (t n tag : Nat)
  | inbandDatagram (t : Nat) (d : Datagram)
  | sysNop (t : Nat) (r : CmdRef)
  | sysIdent (t : Nat) (r : CmdRef)
  | mbxAbort (t : Nat) (r : CmdRef)
  | mbxInbandSet (t : Nat) (r : CmdRef)
  | mbxKeySet (t : Nat) (r : CmdRef)
  -- wall and placement
  | wallDefine (t : Nat) (r : CmdRef)
  | wallActivate (t : Nat) (r : CmdRef)
  | wallStatus (t : Nat) (r : CmdRef)
  | placeProfile (t : Nat) (r : CmdRef)
  | placePin (t : Nat) (r : CmdRef)
  | placeUnpin (t : Nat) (r : CmdRef)
  | placeReport (t : Nat) (r : CmdRef)
  -- weave
  | weaveLoad (t : Nat) (r : CmdRef)
  | weaveTable (t : Nat) (r : CmdRef)
  | weaveParam (t : Nat) (r : CmdRef)
  | weaveStatus (t : Nat) (r : CmdRef)
  | weaveCounters (t : Nat) (r : CmdRef)
  -- ingest
  | ingestVideoDefine (t : Nat) (r : CmdRef)
  | ingestAudioDefine (t : Nat) (r : CmdRef)
  | ingestTapDefine (t : Nat) (r : CmdRef)
  | ingestSacnMapDefine (t : Nat) (r : CmdRef)
  | ingestPlaneDefine (t : Nat) (r : CmdRef)
  | ingestPlaneSubmit (t : Nat) (r : CmdRef)
  | planeCopyDone (t source : Nat) (image : Bytes)
  | ingestRemove (t : Nat) (r : CmdRef)
  | ingestCounters (t : Nat) (r : CmdRef)
  | ingestTapRead (t : Nat) (r : CmdRef)
  -- frame store
  | storeCorrLoad (t : Nat) (r : CmdRef)
  | storeCorrPersist (t : Nat) (r : CmdRef)
  | corrPersistDone (t tile : Nat)
  | storeCorrRestore (t : Nat) (r : CmdRef)
  | corrRestoreDone (t tile : Nat)
  | storeScrubSet (t : Nat) (r : CmdRef)
  | storeStatus (t : Nat) (r : CmdRef)
  | storeCounters (t : Nat) (r : CmdRef)
  | storeInject (t : Nat) (r : CmdRef)
  | scrubStep (t key err : Nat)
  | dramTempCross (t stack : Nat) (temp : Int)
  -- scheduling
  | schedStatus (t : Nat) (r : CmdRef)
  | schedCounters (t : Nat) (r : CmdRef)
  | schedTakeSet (t : Nat) (r : CmdRef)
  | schedSpindle (t : Nat) (r : CmdRef)
  | schedDrainSet (t : Nat) (r : CmdRef)
  | schedClassSet (t : Nat) (r : CmdRef)
  | schedThreads (t : Nat) (r : CmdRef)
  | drainTimeout (t function inst : Nat)
  -- mode
  | modeSet (t : Nat) (r : CmdRef)
  | modeStatus (t : Nat) (r : CmdRef)
  | modeCalmSet (t : Nat) (r : CmdRef)
  | modeCalmExit (t : Nat) (r : CmdRef)
  -- link and ports
  | linkStatus (t : Nat) (r : CmdRef)
  | linkEnum (t : Nat) (r : CmdRef)
  | linkTile (t : Nat) (r : CmdRef)
  | linkCounters (t : Nat) (r : CmdRef)
  | linkGenSet (t : Nat) (r : CmdRef)
  | portConfig (t : Nat) (r : CmdRef)
  | portStatus (t : Nat) (r : CmdRef)
  | portCounters (t : Nat) (r : CmdRef)
  -- time and cues
  | timePtpSet (t : Nat) (r : CmdRef)
  | timePtpPort (t : Nat) (r : CmdRef)
  | timeStatus (t : Nat) (r : CmdRef)
  | timeLock (t : Nat) (r : CmdRef)
  | timeTrigger (t : Nat) (r : CmdRef)
  | timeLtcSet (t : Nat) (r : CmdRef)
  | timeRtcSet (t : Nat) (r : CmdRef)
  | cueSchedule (t : Nat) (r : CmdRef)
  | cueCancel (t : Nat) (r : CmdRef)
  | cueStatus (t : Nat) (r : CmdRef)
  -- health
  | healthProbeSet (t : Nat) (r : CmdRef)
  | healthDefectRead (t : Nat) (r : CmdRef)
  | healthDefectClear (t : Nat) (r : CmdRef)
  | healthThermalSet (t : Nat) (r : CmdRef)
  | healthTile (t : Nat) (r : CmdRef)
  | healthZoneSet (t : Nat) (r : CmdRef)
  | healthSensorDefine (t : Nat) (r : CmdRef)
  | healthSensorReference (t : Nat) (r : CmdRef)
  | healthZoneRead (t : Nat) (r : CmdRef)
  | healthSensorRead (t : Nat) (r : CmdRef)
  -- fixtures
  | fixOutputDefine (t : Nat) (r : CmdRef)
  | fixFixtureDefine (t : Nat) (r : CmdRef)
  | fixSet (t : Nat) (r : CmdRef)
  | fixSafeSet (t : Nat) (r : CmdRef)
  | fixConfig (t : Nat) (r : CmdRef)
  | fixRdm (t : Nat) (r : CmdRef)
  | fixRdmDiscover (t : Nat) (r : CmdRef)
  | fixRdmUids (t : Nat) (r : CmdRef)
  | fixCounters (t : Nat) (r : CmdRef)
  -- Ezond Air
  | airNetSet (t : Nat) (r : CmdRef)
  | airRadioDefine (t : Nat) (r : CmdRef)
  | airBandDefine (t : Nat) (r : CmdRef)
  | airRadioEnable (t : Nat) (r : CmdRef)
  | airCrowdDefine (t : Nat) (r : CmdRef)
  | airNodeAdd (t : Nat) (r : CmdRef)
  | airChmap (t : Nat) (r : CmdRef)
  | airSend (t : Nat) (r : CmdRef)
  | airRecv (t : Nat) (r : CmdRef)
  | airStatus (t : Nat) (r : CmdRef)
  | airNodeStatus (t : Nat) (r : CmdRef)
  | airCounters (t : Nat) (r : CmdRef)
  -- power
  | powerEnter (t : Nat) (r : CmdRef)
  | powerEntryDone (t : Nat)
  | powerExit (t : Nat) (r : CmdRef)
  | powerFeedSet (t : Nat) (r : CmdRef)
  | powerPaceSet (t : Nat) (r : CmdRef)
  | powerWakeSet (t : Nat) (r : CmdRef)
  | powerCmpSet (t : Nat) (r : CmdRef)
  | powerStatus (t : Nat) (r : CmdRef)
  | powerWakeReport (t : Nat) (r : CmdRef)
  -- metering
  | meterInputSet (t : Nat) (r : CmdRef)
  | meterCircuitSet (t : Nat) (r : CmdRef)
  | meterRead (t : Nat) (r : CmdRef)
  | meterMeasure (t : Nat) (r : CmdRef)
  | meterHarmonics (t : Nat) (r : CmdRef)
  | meterPulseSet (t : Nat) (r : CmdRef)
  | meterSaveSet (t : Nat) (r : CmdRef)
  | meterClear (t : Nat) (r : CmdRef)
  | meterCoefSet (t : Nat) (r : CmdRef)
  | meterCapSet (t : Nat) (r : CmdRef)
  | meterCapStatus (t : Nat) (r : CmdRef)
  -- twin
  | twinConfig (t : Nat) (r : CmdRef)
  | twinStatus (t : Nat) (r : CmdRef)
  | twinDrill (t : Nat) (r : CmdRef)
  | twinCounters (t : Nat) (r : CmdRef)
  -- faults
  | faultStatus (t : Nat) (r : CmdRef)
  | faultReactSet (t : Nat) (r : CmdRef)
  | faultSafeSet (t : Nat) (r : CmdRef)
  | faultCounters (t : Nat) (r : CmdRef)
  | faultReturn (t : Nat) (r : CmdRef)
  | faultInject (t : Nat) (r : CmdRef)
  -- calibration
  | calStatus (t : Nat) (r : CmdRef)
  | calSet (t : Nat) (r : CmdRef)
  | calRun (t : Nat) (r : CmdRef)
  | calTrimRead (t : Nat) (r : CmdRef)
  | calCounters (t : Nat) (r : CmdRef)
  | calRestoreFactory (t : Nat) (r : CmdRef)
  -- reel
  | reelStatus (t : Nat) (r : CmdRef)
  | reelRead (t : Nat) (r : CmdRef)
  | reelClear (t : Nat) (r : CmdRef)
  | reelNote (t : Nat) (r : CmdRef)
  -- update
  | updateBegin (t : Nat) (r : CmdRef)
  | updateWrite (t : Nat) (r : CmdRef)
  | updateVerify (t : Nat) (r : CmdRef)
  | updateActivate (t : Nat) (r : CmdRef)
  | updateConfirm (t : Nat) (r : CmdRef)
  | updateStatus (t : Nat) (r : CmdRef)
  | updateLock (t : Nat) (r : CmdRef)
  | updateLoadDone (t : Nat)
  | handoverBlockRead (t : Nat)
  | updateConfirmation (t : Nat)
  | healthWindowExpiry (t : Nat)
  | fallbackBlockWritten (t : Nat) (written : Bool)
  | ownerKeyLockoutExpiry (t : Nat)
  | interlockPinChange (t pin : Nat) (high : Bool)
  -- pace and fabric
  | paceWindowEnd (t : Nat) (fabric : Nat)
  | paceEvaluation (t : Nat)
  | railSettled (t : Nat)
  | junctionTempChange (t : Nat) (tenths : Int)
  | bobbinWrite (t id : Nat) (word : U64) (eoi poison : Bool)
  | bobbinRead (t id : Nat) (parityOk : Bool)
  | bobbinFlush (t id : Nat)
  -- frames
  | frameBoundary (t : Nat)
  | placementLeadExpiry (t : Nat)
  | sacnKeepalive (t out : Nat)
  | commitCopySend (t copy : Nat)
  | skeinGuardExpiry (t : Nat)
  | probeQueue (t port : Nat)
  | takeIssue (t spindle : Nat)
  | takeTimeout (t spindle : Nat)
  | pixelComplete (t spindle : Nat) (internalPoison : Bool)
  | hankComplete (t spindle : Nat)
  | bankGate (t bank : Nat)
  | spindleStall (t spindle : Nat)
  -- receive
  | videoPacket (t : Nat) (p : VideoPkt)
  | fcsVerdict (t port : Nat) (ok : Bool)
  | audioPacket (t : Nat) (p : AudioPkt)
  | audioSampleDue (t : Nat)
  | sacnDataPacket (t : Nat) (p : SacnPkt)
  | sacnSyncPacket (t port : Nat) (p : SyncPkt)
  | sacnSourceTimeout (t univ : Nat) (cid : BitVec 128)
  | streamLostTimeout (t kind id : Nat)
  | igmpQuery (t port : Nat) (group : U32)
  | pauseFrame (t port opcode quanta : Nat)
  | pauseQuantaExpiry (t port : Nat)
  | frameTransmitStart (t port : Nat)
  | ackRx (t : Nat) (h : TileHdr) (epoch : U32) (count : Nat)
  | nakRx (t : Nat) (h : TileHdr) (epoch : U32) (base : Nat) (missing : U64)
  | ackWaitExpiry (t tile : Nat)
  | reportRx (t : Nat) (h : TileHdr) (r : Report)
  | replyRx (t : Nat) (h : TileHdr) (r : Reply)
  | discoverCollectEnd (t chain : Nat)
  | echoRx (t : Nat) (h : TileHdr) (seq : U16) (turn rtt : Nat)
  | measureRotation (t port : Nat)
  | enumerationDone (t chain : Nat)
  | speedConfirmRx (t : Nat) (h : TileHdr) (speed : Nat)
  | speedConfirmTimeout (t port : Nat)
  | lineRetrained (t port : Nat)
  | lockChange (t port : Nat) (lock signal anDone : Bool)
  | lockLossTimeout (t port : Nat)
  -- time
  | ptpAnnounceRx (t : Nat) (a : Announce)
  | ptpEventRx (t : Nat) (x : PtpExchange)
  | ptpMessageTx (t port : Nat) (k : PtpTx)
  | announceTimeout (t port : Nat)
  | ltcWord (t : Nat) (w : LtcWord)
  | ltcLossTimeout (t : Nat)
  | rtcSecond (t : Nat)
  | triggerFire (t n : Nat)
  | cueFire (t cue : Nat)
  | cueCommandDone (t cue : Nat)
  -- health
  | detectProbeDue (t port : Nat)
  | probeResultTimeout (t tile : Nat)
  | sensorSampleDue (t sensor : Nat)
  | i2cTransactionDone (t sensor : Nat) (res : I2cResult)
  | sensorRetry (t sensor : Nat)
  | tempStaleTimeout (t tile : Nat)
  -- fixtures
  | dmxFrameStart (t port : Nat)
  | rdmRequestSend (t port : Nat)
  | rdmResponse (t port : Nat) (a : RdmAnswer)
  | rdmResponseTimeout (t port : Nat)
  | streamTerminatedSend (t out : Nat)
  -- Ezond Air
  | superframeStart (t : Nat)
  | beaconSend (t radio : Nat) (busy : Bool)
  | recoveryBeaconSend (t radio : Nat) (busy : Bool)
  | crowdSend (t radio slot : Nat) (busy : Bool)
  | anchorDownSend (t node : Nat) (busy : Bool)
  | upRx (t : Nat) (u : AirUp)
  | joinReqRx (t radio : Nat) (eui : U64)
  | resyncRx (t : Nat) (u : AirUp)
  | budgetBucketRoll (t radio band : Nat)
  | supervisionTimeout (t node : Nat)
  | recoveryHoldExpiry (t radio : Nat)
  -- power
  | feedLevelChange (t feed : Nat) (mV : Int)
  | feedLiveQualified (t feed : Nat)
  | carryReturnTimeout (t : Nat)
  | lastGaspEnd (t : Nat)
  | railOutOfRange (t rail : Nat)
  | junctionTrip (t : Nat)
  | comparatorDebounced (t n : Nat) (holds : Bool)
  | rtcAlarm (t : Nat)
  | gpioWakeEdge (t pin : Nat) (rising : Bool)
  | pcieWake (t : Nat)
  | linkActivityWake (t port : Nat)
  | wakeStepDone (t : Nat) (badBanks : U8) (badDram : U32) (csaOk : Bool)
  | wakeStepTimeout (t : Nat)
  | wakeRepeat (t : Nat)
  -- metering
  | meterSample (t : Nat) (m : MeterSample)
  | meterPowerSample (t : Nat) (p : PowerSample)
  | meterWindowEnd (t : Nat) (w : WindowQty)
  | capCorrectionUpdate (t : Nat)
  | capTargetCompute (t : Nat)
  | meterSaveDue (t : Nat)
  | meterSaveVerify (t : Nat) (ok : Bool)
  | pulseStart (t n : Nat)
  | pulseEnd (t n : Nat)
  -- twin
  | helloSend (t : Nat)
  | helloRx (t : Nat) (h : Hello)
  | twinLinkTimeout (t : Nat)
  | digestSegmentRx (t : Nat) (d : DigestSeg)
  | dackRx (t : Nat) (epoch : U32)
  | roleInRegistered (t : Nat) (high : Bool)
  | heartbeatPulse (t : Nat)
  -- faults
  | healthWordTimeout (t : Nat)
  | faultDetection (t source cause : Nat) (values : List Int)
  | lullExpiry (t source : Nat)
  | returnStepDone (t source : Nat) (ok : Bool)
  -- calibration
  | dieTempRead (t : Nat) (controller power : Int)
  | calMeasurementDone (t item : Nat) (results : List CalResult)
  | calApplyStep (t item : Nat)
  | calDiscardRetry (t item inst : Nat)
  -- reel
  | reelRecordWrite (t : Nat) (verified : Bool)
  | sectorSwitchDone (t : Nat)
  | squallWrite (t : Nat)
  -- the rest of the table
  | resetNRelease (t : Nat) (compatLow : Bool)
  | feedBusBelow7v (t : Nat) (below vbat : Bool)
  | faultSourceQuiet (t source : Nat)
  | receivedFrame (t : Nat) (f : RxFrame)
  | corrLoadDone (t tile : Nat) (data : Bytes)
  | weaveLoadDone (t : Nat)
  | vmodFoldBack (t g : Nat) (folded : Bool)
  deriving DecidableEq, Repr

end Sys2Proof
end

