-- ==== Sys2Proof/Decode.lean ====
section
/-! DEFINITION. The words of spec/opcode_table.json: its rows give no bits, so no word spells a command. The mailbox
commands are told apart by their OPCODE as they are taken (`Machine/Mailbox.lean`). -/

namespace Sys2Proof

/-- The command that a word of the table's bits spells: none, since the table gives its rows no bits. -/
def decodeTableWord (_nbits _w : Nat) : Option Instr := none

end Sys2Proof
end

