-- ==== Sys2Proof/Config.lean ====
section
/-! DEFINITION. What one device fixes and what the manual leaves open: the fuses (R5), the running image's version,
and the free values. No constant here has a body, so no proof can see a value of it; each is named in
notes/assumptions/. -/

namespace Sys2Proof.Config

/-- The six lot characters as places in the letters A to Z and then the digits 0 to 9, first at index 0 (R5). -/
opaque lotPlace : Fin 6 → Fin 36
/-- A lot character in ASCII (R5). -/
def lot (i : Fin 6) : U8 :=
  BitVec.ofNat 8 (if (lotPlace i).val < 26 then 65 + (lotPlace i).val else 22 + (lotPlace i).val)
/-- The wafer number less 1: wafers are numbered 1 to 25 (R5). -/
opaque waferBelow : Fin 25
/-- The wafer number (R5). -/
def wafer : U8 := BitVec.ofNat 8 (waferBelow.val + 1)
/-- The die column (R5). -/
opaque dieX : U8
/-- The die row (R5). -/
opaque dieY : U8
/-- The package serial less 1: no serial is 0 (R5). -/
opaque serialBelow : Fin 4294967295
/-- The package serial (R5). -/
def serial : U32 := BitVec.ofNat 32 (serialBelow.val + 1)
/-- The stepping (R5). -/
opaque stepping : U8
/-- The grade, 0 C or 1 I (R5). -/
opaque grade : Bool
/-- Whether RESET_N low for the given time, 1 µs or more and less than 10 µs, resets the device (R495): the manual
leaves it open. -/
opaque shortResetTakes : Nat → Bool
/-- Which of two contenders an arbiter grants, at the given draw (R27, R73, R442): true for the first named. -/
opaque arbiter : Nat → Bool
/-- The PCI Vendor ID assigned to Casvex Semiconductor (R53): the manual does not give its value. -/
opaque vendorId : U16
/-- The words less 1 of a bobbin whose size the manual does not give, by its identifier (R26). -/
opaque bobbinWords (id : Nat) : Nat
/-- The 6 bytes of a port's own address on its network, which the manual does not give (R225). -/
opaque portAddress (port : Nat) : Fin 6 → U8

/-- A value the manual leaves free, at the given draw, below the given bound. -/
opaque freeBelow (bound draw : Nat) : Nat

/-- The fixed hash of tile number and bank number that ranks the banks for correction data (R139). -/
opaque bankHash (tile bank : Nat) : U32

/-- The mean square a BAND tap's filter has at an instant, in units of 2^-96 (R119): IEC 61260-1 class 2 bounds the
filter's response, it does not fix it. -/
opaque bandSquare (tap now : Nat) : Nat

/-- The ESTA manufacturer identifier of the RDM controller's UID (R328): the manual does not give its value. -/
opaque rdmManufacturer : U16

/-- The default CID, built from the serial in a way the manual does not give (R323). -/
opaque defaultCid : Fin 16 → U8

/-- The size of the board's flash in MiB above the least of 16 (R497): 16 MiB to 1 GiB. -/
opaque flashExtraMib : Fin 1009

/-- The device's PTP clockIdentity (R277): the manual does not give it. -/
opaque clockIdentity : U64

/-- The time to send the last skeins, in ns, which a placement of the given number adds to the 50 µs retry guard as its
tail allowance: the manual does not give how it is computed. -/
opaque tailNs (placement : Nat) : Nat

/-- The DATA of an instance's factory trim record (R452): final test makes it for each device. -/
opaque trimFactory (item inst : Nat) : Fin 48 → U8

/-- The TEMP of an instance's factory trim record, in 0.1 °C (R452). -/
opaque trimFactoryTemp (item inst : Nat) : Int

/-- Key fuse 0, programmed at final test (R480). (DESIGN CHOICE, log 7) -/
opaque keyFuse : Fin 32 → U8

/-- The Golden slot of the flash, programmed by the board maker (R478, R497). -/
opaque goldenImage : Bytes

/-- The text in the DETAIL of an INTERNAL record (R462), at the given draw: ASCII of the firmware's own. (DESIGN CHOICE, log 17) -/
opaque internalText (draw : Nat) : Fin 32 → BitVec 7

end Sys2Proof.Config
end

