-- ==== Sys2Proof/Machine/Bits.lean ====
section
/-! DEFINITION. Bytes and fields: little-endian and big-endian packing (R8), two's complement, the CRC-32 of IEEE
802.3 (R82, R461), and SHA-256 and HMAC-SHA-256 (R77). -/

namespace Sys2Proof.Machine

/-- The `n` low bytes of `v`, least significant first. -/
def leN (n v : Nat) : Bytes := (List.range n).map fun i => BitVec.ofNat 8 (v / 2 ^ (8 * i))

/-- The `n` low bytes of `v`, most significant first. -/
def beN (n v : Nat) : Bytes := (leN n v).reverse

/-- The number whose bytes are `b`, least significant first. -/
def leNat (b : Bytes) : Nat := b.foldr (fun x acc => x.toNat + 256 * acc) 0

/-- The number whose bytes are `b`, most significant first. -/
def beNat (b : Bytes) : Nat := b.foldl (fun acc x => 256 * acc + x.toNat) 0

/-- The byte of `b` at offset `o`, 0 past its end. -/
def byteAt (b : Bytes) (o : Nat) : U8 := b.getD o 0#8

/-- The `n`-byte little-endian field of `b` at offset `o`. -/
def field (b : Bytes) (o n : Nat) : Nat := leNat ((List.range n).map fun i => byteAt b (o + i))

/-- The `n` bytes of `b` from offset `o`, 0 past its end. -/
def bytesAt (b : Bytes) (o n : Nat) : Bytes := (List.range n).map fun i => byteAt b (o + i)

/-- `v` read as an `n`-bit two's complement number. -/
def signedN (n v : Nat) : Int :=
  let w := v % 2 ^ n
  if w < 2 ^ (n - 1) then (w : Int) else (w : Int) - (2 ^ n : Nat)

/-- The signed `n`-byte little-endian field of `b` at offset `o`. -/
def sfield (b : Bytes) (o n : Nat) : Int := signedN (8 * n) (field b o n)

/-- An integer as an `n`-bit two's complement number. -/
def twos (n : Nat) (v : Int) : Nat := (v % (2 ^ n : Nat)).toNat

/-- `n` zero bytes. -/
def zeros (n : Nat) : Bytes := List.replicate n 0#8

/-- Byte strings, each padded or cut to `n` bytes. -/
def padTo (n : Nat) (b : Bytes) : Bytes := (b ++ zeros n).take n

/-- The bit `i` of `v`. -/
def bit (v i : Nat) : Bool := Nat.testBit v i

/-- 1 for true, 0 for false. -/
def b2n (b : Bool) : Nat := if b then 1 else 0

/-- A number with the bit `i` set, or cleared. -/
def setBit (v i : Nat) (b : Bool) : Nat :=
  if Nat.testBit v i then (if b then v else v - 2 ^ i) else (if b then v + 2 ^ i else v)

/-- The number whose bits are the flags of `l`, first at bit 0. -/
def bitsOf (l : List Bool) : Nat := l.foldr (fun b acc => b2n b + 2 * acc) 0

/-- The positions below `n` at which `v` has a 1. -/
def setBits (n v : Nat) : List Nat := (List.range n).filter fun i => Nat.testBit v i

/-- An integer held to the range `lo` to `hi`. -/
def clampI (lo hi v : Int) : Int := if v < lo then lo else if hi < v then hi else v

/-- A natural number held to the range `lo` to `hi`. -/
def clampN (lo hi v : Nat) : Nat := if v < lo then lo else if hi < v then hi else v

/-- One bit of a reflected CRC-32. -/
def crcBit (c : BitVec 32) : BitVec 32 := if c.getLsbD 0 then (c >>> 1) ^^^ 0xEDB88320#32 else c >>> 1

/-- One byte of a reflected CRC-32. -/
def crcByte (c : BitVec 32) (b : U8) : BitVec 32 :=
  crcBit (crcBit (crcBit (crcBit (crcBit (crcBit (crcBit (crcBit (c ^^^ b.setWidth 32))))))))

/-- The CRC-32 of IEEE 802.3. -/
def crc32 (b : Bytes) : BitVec 32 := ~~~ (b.foldl crcByte 0xFFFFFFFF#32)

/-- One bit of a CRC-16 of polynomial 0x1021, most significant bit first. -/
def crc16Bit (c : BitVec 16) : BitVec 16 := if c.getLsbD 15 then (c <<< 1) ^^^ 0x1021#16 else c <<< 1

/-- A CRC-16 of polynomial 0x1021 from 0xFFFF, most significant bit first. -/
def crc16 (b : Bytes) : BitVec 16 :=
  b.foldl (fun (c : BitVec 16) (x : U8) => crc16Bit (crc16Bit (crc16Bit (crc16Bit (crc16Bit (crc16Bit (crc16Bit
    (crc16Bit (c ^^^ BitVec.ofNat 16 (x.toNat * 256)))))))))) 0xFFFF#16

/-- The 64 round constants of SHA-256. -/
def shaK : List (BitVec 32) :=
  [0x428a2f98#32, 0x71374491#32, 0xb5c0fbcf#32, 0xe9b5dba5#32, 0x3956c25b#32, 0x59f111f1#32, 0x923f82a4#32, 0xab1c5ed5#32,
   0xd807aa98#32, 0x12835b01#32, 0x243185be#32, 0x550c7dc3#32, 0x72be5d74#32, 0x80deb1fe#32, 0x9bdc06a7#32, 0xc19bf174#32,
   0xe49b69c1#32, 0xefbe4786#32, 0x0fc19dc6#32, 0x240ca1cc#32, 0x2de92c6f#32, 0x4a7484aa#32, 0x5cb0a9dc#32, 0x76f988da#32,
   0x983e5152#32, 0xa831c66d#32, 0xb00327c8#32, 0xbf597fc7#32, 0xc6e00bf3#32, 0xd5a79147#32, 0x06ca6351#32, 0x14292967#32]
  ++
  [0x27b70a85#32, 0x2e1b2138#32, 0x4d2c6dfc#32, 0x53380d13#32, 0x650a7354#32, 0x766a0abb#32, 0x81c2c92e#32, 0x92722c85#32,
   0xa2bfe8a1#32, 0xa81a664b#32, 0xc24b8b70#32, 0xc76c51a3#32, 0xd192e819#32, 0xd6990624#32, 0xf40e3585#32, 0x106aa070#32,
   0x19a4c116#32, 0x1e376c08#32, 0x2748774c#32, 0x34b0bcb5#32, 0x391c0cb3#32, 0x4ed8aa4a#32, 0x5b9cca4f#32, 0x682e6ff3#32,
   0x748f82ee#32, 0x78a5636f#32, 0x84c87814#32, 0x8cc70208#32, 0x90befffa#32, 0xa4506ceb#32, 0xbef9a3f7#32, 0xc67178f2#32]

/-- The next word of SHA-256's message schedule, from the last sixteen (latest first). -/
def shaNextW (w : List (BitVec 32)) : BitVec 32 :=
  let w15 := w.getD 14 0
  let w2 := w.getD 1 0
  let s0 := w15.rotateRight 7 ^^^ w15.rotateRight 18 ^^^ (w15 >>> 3)
  let s1 := w2.rotateRight 17 ^^^ w2.rotateRight 19 ^^^ (w2 >>> 10)
  w.getD 15 0 + s0 + w.getD 6 0 + s1

/-- SHA-256's message schedule of 64 words, from the sixteen words of a block. -/
def shaSchedule (block : List (BitVec 32)) : List (BitVec 32) :=
  ((List.range 48).foldl (fun acc _ => shaNextW acc :: acc) block.reverse).reverse

/-- One round of SHA-256 on the eight working variables. -/
def shaRound (v : List (BitVec 32)) (kw : BitVec 32 × BitVec 32) : List (BitVec 32) :=
  match v with
  | [a, b, c, d, e, f, g, h] =>
    let s1 := e.rotateRight 6 ^^^ e.rotateRight 11 ^^^ e.rotateRight 25
    let ch := (e &&& f) ^^^ ((~~~ e) &&& g)
    let t1 := h + s1 + ch + kw.1 + kw.2
    let s0 := a.rotateRight 2 ^^^ a.rotateRight 13 ^^^ a.rotateRight 22
    let mj := (a &&& b) ^^^ (a &&& c) ^^^ (b &&& c)
    [t1 + (s0 + mj), a, b, c, d + t1, e, f, g]
  | _ => v

/-- SHA-256's compression of one 64-byte block. -/
def shaBlock (h : List (BitVec 32)) (block : Bytes) : List (BitVec 32) :=
  let ws := (List.range 16).map fun i => BitVec.ofNat 32 (beNat (bytesAt block (4 * i) 4))
  List.zipWith (· + ·) h ((shaK.zip (shaSchedule ws)).foldl shaRound h)

/-- The blocks of a byte string, `n` bytes each, at most `fuel` of them. -/
def chunks (n : Nat) : Nat → Bytes → List Bytes
  | 0, _ => []
  | fuel + 1, b => if b.isEmpty then [] else b.take n :: chunks n fuel (b.drop n)

/-- SHA-256. (PRESUMED, log 66) -/
def sha256 (b : Bytes) : Bytes :=
  let pad := (55 + 64 - b.length % 64) % 64
  let m := b ++ [0x80#8] ++ zeros pad ++ beN 8 (8 * b.length)
  let iv : List (BitVec 32) := [0x6a09e667#32, 0xbb67ae85#32, 0x3c6ef372#32, 0xa54ff53a#32,
    0x510e527f#32, 0x9b05688c#32, 0x1f83d9ab#32, 0x5be0cd19#32]
  ((chunks 64 m.length m).foldl shaBlock iv).flatMap fun w => beN 4 w.toNat

/-- HMAC-SHA-256 under a key of at most 64 bytes. (PRESUMED, log 66) -/
def hmacSha256 (key msg : Bytes) : Bytes :=
  let k := padTo 64 key
  sha256 (k.map (· ^^^ 0x5c#8) ++ sha256 (k.map (· ^^^ 0x36#8) ++ msg))

end Sys2Proof.Machine
end

