-- ==== Sys2Proof/Machine/Map.lean ====
section
/-! DEFINITION. The operations on keyed tables (`KMap`): every sparse piece of state is read and written through
them, and they keep its one canonical form (keys strictly rising). -/

namespace Sys2Proof.Machine

variable {α β : Type}

/-- The entry at a key, where the table has one. -/
def kget? (m : KMap α) (k : Nat) : Option α :=
  match m with
  | [] => none
  | (k', v) :: r => if k' = k then some v else kget? r k

/-- The entry at a key, or `d` where the table has none. (DESIGN CHOICE, log 11) -/
def kgetD (m : KMap α) (k : Nat) (d : α) : α := (kget? m k).getD d

/-- The table with `v` at the key `k`. -/
def kset (m : KMap α) (k : Nat) (v : α) : KMap α :=
  match m with
  | [] => [(k, v)]
  | (k', v') :: r =>
    if k < k' then (k, v) :: (k', v') :: r
    else if k = k' then (k, v) :: r
    else (k', v') :: kset r k v

/-- The table without the key `k`. -/
def kerase (m : KMap α) (k : Nat) : KMap α :=
  match m with
  | [] => []
  | (k', v') :: r => if k' = k then kerase r k else (k', v') :: kerase r k

/-- The table with the entry at `k` (or the default `d`) changed by `f`. -/
def kmod (m : KMap α) (k : Nat) (d : α) (f : α → α) : KMap α := kset m k (f (kgetD m k d))

/-- The table with `f` applied to the entry at `k`, unchanged where it has none. -/
def kmod? (m : KMap α) (k : Nat) (f : α → α) : KMap α :=
  match m with
  | [] => []
  | (k', v) :: r => if k' = k then (k', f v) :: r else (k', v) :: kmod? r k f

/-- The table with `f` applied to every entry. -/
def kmap (m : KMap α) (f : Nat → α → β) : KMap β := m.map fun p => (p.1, f p.1 p.2)

/-- The table's entries for which `p` holds. -/
def kfilter (m : KMap α) (p : Nat → α → Bool) : KMap α := m.filter fun e => p e.1 e.2

/-- The table has an entry at `k`. -/
def khas (m : KMap α) (k : Nat) : Bool := (kget? m k).isSome

/-- `v` at `k` in a memory whose unlisted entries read `d`: writing `d` removes the entry, so equal memories are equal
tables. (DESIGN CHOICE, log 11) -/
def kput [BEq α] (m : KMap α) (k : Nat) (d v : α) : KMap α := if v == d then kerase m k else kset m k v

/-- Every key of `m` is above `b`, and the keys rise strictly. -/
def kwfFrom (b : Nat) (m : KMap α) : Bool :=
  match m with
  | [] => true
  | (k, _) :: r => decide (b < k) && kwfFrom k r

/-- The canonical form: keys strictly rising. -/
def kwf (m : KMap α) : Bool :=
  match m with
  | [] => true
  | (k, _) :: r => kwfFrom k r

/-- The canonical form of a memory whose unlisted entries read `d`: keys strictly rising, and no entry equal to `d`.
(DESIGN CHOICE, log 11) -/
def kmemWf [BEq α] (d : α) (m : KMap α) : Bool := kwf m && m.all (fun e => !(e.2 == d))

/-- The first element of a list for which `p` holds, changed by `f`. -/
def modFirst (p : α → Bool) (f : α → α) : List α → List α
  | [] => []
  | a :: r => if p a then f a :: r else a :: modFirst p f r

/-- A list with its first element for which `p` holds taken out. -/
def dropFirst (p : α → Bool) : List α → List α
  | [] => []
  | a :: r => if p a then r else a :: dropFirst p r

/-- The elements of a list, each once, in first-seen order. -/
def uniq [BEq α] (l : List α) : List α :=
  l.foldl (fun acc a => if acc.contains a then acc else acc ++ [a]) []

/-- A list sorted by a natural-number key, equal keys in their order. -/
def insertBy (f : α → Nat) (a : α) : List α → List α
  | [] => [a]
  | b :: r => if f a < f b then a :: b :: r else b :: insertBy f a r

/-- A list sorted by a natural-number key, equal keys in their order. -/
def sortBy (f : α → Nat) (l : List α) : List α := l.foldl (fun acc a => insertBy f a acc) []

end Sys2Proof.Machine
end

