-- ==== Sys2Proof/Machine/State.lean ====
section
/-! DEFINITION. The state of the KDC6430: every register, bobbin, table, counter, mode and pin its manual names, by
subsystem, each with its reset value as the field's default; the queue of waiting commands; and the log of what the
device has sent. `Fault` and `Refusal` are the reasons a step can stop. Where the manual gives no reset value, the
field's default is the model's choice (notes/assumptions/4.md). -/

namespace Sys2Proof.Machine

/-- The faults of the model. -/
inductive Fault where
  /-- Raised by FEED_LEVEL_CHANGE, JUNCTION_TEMP_CHANGE when a level goes beyond an absolute maximum of R508, beyond
  which the manual gives no behaviour. Safe: the model stops where the device may go on. -/
  | absoluteMaximum
  deriving DecidableEq, Repr

/-- The refusals of the model. -/
inductive Refusal where
  /-- A command or event with no meaning yet, by its mnemonic. Safe: the model stops. -/
  | notModelled (mnemonic : String)
  deriving DecidableEq, Repr

/-! ## What the device sends -/

/-- What a frame a port sends is: the Ezond messages of R227 the device sends, PTP messages, and the frames of the other
services. -/
inductive TxKind where
  | safe (state : Nat)
  | commit (copy : Nat)
  | discover | assign | measure | offset
  | speed | calm | wake
  | probe
  | ptp (m : PtpTx)
  | skein (tile idx : Nat) (poll : Bool)
  | sacnData (univ : Nat) (dest : U32)
  | sacnSync (univ : Nat)
  | igmp (group : U32) (join : Bool)
  | inband (ip : U32) (udp : Nat)
  | hello | digest | dack
  deriving DecidableEq, Repr

/-- A frame a port sends or waits to send: its kind, the epoch it belongs to, the timestamp identifier it carries
(R272), the class of its destination address, for an Ezond or a twin frame its addresses and EtherType, its message (for an Ezond frame, from the byte after the EtherType; for a
datagram, its UDP payload) and its length from destination address to FCS. A SKEIN's message is made as it starts, from
the frame store (R232), and so is a COMMIT's TX_TIME (R234). -/
structure TxFrame where
  kind : TxKind
  epoch : U32 := 0
  tsId : Option Nat := none
  cast : Cast := .multi
  head : Bytes := []
  body : Bytes := []
  len : Nat := 64
  deriving DecidableEq, Repr

/-- One thing the device put on a pin, a line, a bus or into host memory. -/
inductive Out where
  /-- An MSI-X message of vector `v` (R59). -/
  | msix (v : Nat)
  /-- A BAR0 access answered as an Unsupported Request (R79). -/
  | unsupportedRequest (off : Nat) (write : Bool)
  /-- A response entry of mailbox `n` at ring index `idx`, after its payload at `addr` (R66, R67). -/
  | response (n idx : Nat) (addr : U64) (payload entry : Bytes)
  /-- An event entry at ring index `idx` (R75). -/
  | event (idx : Nat) (entry : Bytes)
  /-- A frame started on a port (R264), or on the twin lane pair (port 64). -/
  | frame (port : Nat) (f : TxFrame)
  /-- A frame in progress cut with an inverted FCS (R252). -/
  | cut (port : Nat)
  /-- A level driven on a GPIO (R290), a pulse output (R398), FAULT_N or another pin. -/
  | pin (name : String) (level : Bool)
  /-- A DMX frame started on a DMX port, slots from the start code (R326). -/
  | dmx (port : Nat) (slots : Bytes)
  /-- An RDM packet on a DMX port (R328). -/
  | rdm (port : Nat) (cmd : Bytes)
  /-- An Ezond Air PDU of a radio on a channel (R343 to R346). -/
  | air (radio chan : Nat) (pdu : String) (body : Bytes)
  /-- An SPI transaction with a radio (R334). -/
  | spi (radio : Nat) (bytes : Bytes)
  /-- Bytes written to a colour sensor at an address of an I2C bus: its start sequence, or READ_REG before a read (R309). -/
  | i2c (bus addr : Nat) (bytes : Bytes)
  /-- A metering converter frame started (R290). -/
  | converter
  /-- A heartbeat pulse (R411). -/
  | heartbeat (code : Nat)
  /-- The answer of a bobbin to its producer: BUSY or FLUSHED (R29, R30, R190). -/
  | bobAnswer (id status : Nat)
  /-- A write into host memory other than a ring (R485). -/
  | dma (addr : U64) (body : Bytes)
  deriving DecidableEq, Repr

/-! ## Host interface (R57 to R81) -/

/-- Where an in-band command came from: the key slot and the key that authenticated it, its SEQ, the port, and the source
address and UDP port (R77, R78). -/
structure InbFrom where
  key : Nat
  secret : Bytes
  seq : Nat
  port : Nat
  ip : U32
  udp : Nat
  deriving DecidableEq, Repr

/-- Where a command stands: taken and waiting to start, on a control thread, or started and waiting for its instant. -/
inductive Phase where
  | waiting | thread | async
  deriving DecidableEq, Repr

/-- A command in flight (R62 to R65). `order` is its place in the intake of all mailboxes; `base` its mailbox's priority and
`prio` that under which it runs now (R195); `turn` its place among the threads of its priority and `since` the instant at
which its core was given to it (R195). -/
structure Cmd where
  ref : CmdRef
  opcode : Nat
  ordered : Bool := false
  deadline : Option Nat := none
  payload : Bytes := []
  respAddr : U64 := 0
  respLen : Nat := 0
  inband : Option InbFrom := none
  order : Nat := 0
  base : Nat := 8
  prio : Nat := 8
  turn : Nat := 0
  since : Nat := 0
  phase : Phase := .waiting
  core : Option Nat := none
  takenAt : Nat := 0
  deriving DecidableEq, Repr

/-- A completion record (R66, R73). `after` names the record that must be written first: an abort's target, by mailbox and
tag. -/
structure CRec where
  tag : Nat
  opcode : Nat
  status : Nat
  detail : U64 := 0
  payload : Bytes := []
  respAddr : U64 := 0
  respLen : Nat := 0
  inband : Option InbFrom := none
  time : Nat := 0
  after : Option (Nat × Nat) := none
  deriving DecidableEq, Repr

/-- A mailbox's registers, its completion bobbin and the tags it remembers (R60 to R63, R73). -/
structure Mbx where
  cq : U64 := 0
  rq : U64 := 0
  enable : Bool := false
  size : Nat := 0
  tail : U16 := 0
  head : U16 := 0
  rtail : U16 := 0
  rhead : U16 := 0
  draining : Bool := false
  recs : List CRec := []
  tags : KMap Nat := []
  deriving DecidableEq, Repr

/-- An event waiting to be written (R75). -/
structure Ev where
  code : Nat
  data : Bytes
  time : Nat
  source : Nat
  deriving DecidableEq, Repr

/-- A response kept for an in-band retry (R78). -/
structure Kept where
  tag : Nat
  key : Nat
  entry : Bytes
  payload : Bytes
  deriving DecidableEq, Repr

/-- An entry of the MSI-X table in BAR2 (R54). -/
structure MsixEntry where
  addr : U64 := 0
  data : U32 := 0
  masked : Bool := false
  deriving DecidableEq, Repr

/-- The HIF registers, the violation log, the event bobbin and the in-band mailbox (R58, R71 to R80), and the PCI Express
endpoint (R53, R54): its link state, the speed it trained to in 0.1 GT/s and its width, and in BAR2 the MSI-X table and the
pending bits. `pcieL` is 0 L0, 1 L1, 2 L2, 3 D3. -/
structure Hif where
  inband : Bool := false
  compat : Bool := false
  ready : Bool := false
  readyEver : Bool := false
  intStat : U32 := 0
  intMask : U32 := 0
  intSent : U32 := 0
  evtLost : U32 := 0
  inbRx : U32 := 0
  inbAuthFail : U32 := 0
  inbReplay : U32 := 0
  inbDrop : U32 := 0
  evq : List Ev := []
  evSeq : U32 := 0
  lostFirst : U32 := 0
  lostCount : Nat := 0
  violAddr : U32 := 0
  viol : U32 := 0
  violCnt : U32 := 0
  inbEnabled : Bool := false
  inbPort : Nat := 0
  inbUdp : Nat := 49730
  inbIp : U32 := 0
  inbKeys : Nat := 0
  keys : KMap Bytes := []
  keySeq : KMap Nat := []
  kept : List Kept := []
  pcieUp : Bool := true
  pcieL : Nat := 0
  pcieSpeed : Nat := 160
  pcieWidth : Nat := 4
  msix : KMap MsixEntry := []
  msixPend : Nat := 0
  cmdOrder : Nat := 0
  turns : Nat := 0
  deriving DecidableEq, Repr

/-! ## Fabric (R14 to R36) -/

/-- One word of a bobbin with its tags (R26, R28). -/
structure BWord where
  word : U64
  poison : Bool := false
  eoi : Bool := false
  deriving DecidableEq, Repr

/-- A bobbin's record (R26 to R31): its cut-through threshold, its words, those its producer holds while it is full (R189),
the last word delivered, and the handshake with both sides: `partway` that an item is partly written, `swallowing` that its
rest is swallowed, `refusing` that its rest was refused with BUSY, `flushedNext` that the producer's next word is answered
FLUSHED, `started` that the consumer has started on the item in front, and `cutMark` that it receives a poisoned end mark
next. -/
structure Bobbin where
  thresh : Nat := 0
  words : List BWord := []
  waiting : List BWord := []
  last : Option BWord := none
  underrun : Bool := false
  swallowed : U32 := 0
  poisoned : U32 := 0
  partway : Bool := false
  swallowing : Bool := false
  refusing : Bool := false
  flushedNext : Bool := false
  started : Bool := false
  cutMark : Bool := false
  deriving DecidableEq, Repr

/-- The pace loop and the minimum-service level (R17 to R24, R32, R34 to R36). `restoreFrom` is the instant after which a
boundary restores a shed step (R22). `windows` holds each bank monitor's counts,
the window in progress first; `svcFinal` says that boot has set LEVEL (R499). Thresholds and slack are in 0.1 % of the frame
period. -/
structure Fab where
  vcore : Nat := 700
  hotcap : Bool := false
  slack : Int := 0
  paceMiss : U32 := 0
  missRun : Nat := 0
  windows : KMap (List Nat) := []
  fabWindow : List Nat := []
  raiseTh : Nat := 120
  lowerTh : Nat := 300
  shedTh : Nat := 40
  pendTh : Option (Nat × Nat × Nat) := none
  lowerRun : Nat := 0
  restoreRun : Nat := 0
  settling : Bool := false
  shedPending : Bool := false
  restoreFrom : Option Nat := none
  frozen : Bool := true
  weaveFinish : Option Nat := none
  lastEvalAt : Nat := 0
  tj : Int := 250
  svcLevel : Nat := 0
  svcFinal : Bool := false
  bobSel : U16 := 0
  bobbins : KMap Bobbin := []
  deriving DecidableEq, Repr

/-! ## Wall and placement (R82 to R106) -/

/-- A chain record (R83). -/
structure ChainRec where
  chain : Nat
  tiles : Nat
  format : Nat
  portA : Nat
  portB : Nat
  fs : Nat
  deriving DecidableEq, Repr, Inhabited

/-- A tile record (R84). -/
structure TileRec where
  tile : Nat
  chain : Nat
  pos : Nat
  w : Nat
  h : Nat
  cx : Nat
  cy : Nat
  rot : Nat
  low : Bool
  pitch : Nat
  coef : Nat
  px : Int
  py : Int
  pz : Int
  deriving DecidableEq, Repr, Inhabited

/-- A source record (R85). -/
structure SrcRec where
  source : Nat
  kind : Nat
  layer : Nat
  sx : Nat
  sy : Nat
  w : Nat
  h : Nat
  cx : Nat
  cy : Nat
  deriving DecidableEq, Repr, Inhabited

/-- A wall image (R82). -/
structure WallImg where
  canvasW : Nat
  canvasH : Nat
  chains : List ChainRec
  tiles : List TileRec
  srcs : List SrcRec
  crc : U32
  deriving DecidableEq, Repr

/-- The staged, active and pending wall (R87 to R89); `kept` is the image in force as MRAM keeps it (R373, R504), and `pendKept`
that of the pending wall. -/
structure WallSt where
  staged : Bytes := []
  stagedTotal : Nat := 0
  kept : Bytes := []
  pendKept : Bytes := []
  active : Option WallImg := none
  activeEpoch : U32 := 0
  pending : Option (WallImg × Bool) := none
  deriving DecidableEq, Repr

/-- A pin (R99, R104). It acts from placement number `since` on. -/
structure Pin where
  num : Nat
  kind : Nat
  chain : Nat
  first : Nat
  last : Nat
  object : Nat
  target : Nat
  suspended : Bool := false
  since : Nat := 0
  deriving DecidableEq, Repr

/-- A run of tiles given to one spindle bank (R95). -/
structure RunP where
  chain : Nat
  first : Nat
  last : Nat
  bank : Nat
  deriving DecidableEq, Repr

/-- A placement (R95 to R97). `woven` gives each chain's even and odd frame-store bank, `planes` each source's, `split`
each chain's K. -/
structure Placement where
  epoch : U32 := 0
  cause : Nat := 0
  runs : List RunP := []
  split : KMap Nat := []
  woven : KMap (Nat × Nat) := []
  planes : KMap (Nat × Nat) := []
  powered : List Nat := []
  deriving DecidableEq, Repr

/-- A trigger of a new placement (R100, R103). -/
structure Trigger where
  cause : Nat
  subsys : Nat
  inst : Nat
  at_ : Nat
  deriving DecidableEq, Repr

/-- The profile, the shed steps, the pins and the placement in force and pending (R91 to R106). `shed` is how many steps
of the profile's order are applied, `gen` how many placements have been computed, `pinAt` the trigger of a pin that waits
for the placement after the pending one (R103), `previewed` the boundary for which speeds have been requested (R265). -/
structure PlaceSt where
  profile : Nat := 1
  pendProfile : Option Nat := none
  shed : Nat := 0
  pins : List Pin := []
  inForce : Placement := {}
  triggers : List Trigger := []
  gen : Nat := 0
  pinAt : Option Nat := none
  previewed : Option Nat := none
  deriving DecidableEq, Repr

/-! ## Scheduling (R176 to R199) -/

/-- A hank token: a run of pixels of one tile in one epoch (R176, R177). `poison` says that its word was delivered poisoned
(R26); `go` is the RTP timestamp of the packet that released it on the direct path (R179). -/
structure Hank where
  tile : Nat
  epoch : U32
  first : Nat
  count : Nat
  poison : Bool := false
  go : Option U32 := none
  deriving DecidableEq, Repr

/-- Where a spindle stands: in service, disabled by command or retired (R185, R186). -/
inductive Service where
  | up | disabled | retired
  deriving DecidableEq, Repr

/-- The pixel a spindle still computes of a hank that it no longer has (R181, R185): the pixel as a hank of one, and where its
epoch has been committed the ply-operations and the slot it was woven into. -/
structure LastPx where
  px : Hank
  woven : Option (Nat × Nat) := none
  deriving DecidableEq, Repr

/-- A spindle: its service, whether a disable drains it, its hank with the pixels done, its prefetch queue, its TAKE
(the instant since when it blocks), whether its last TAKE returned IDLE, its recent poisoned results, the pixel that it
finishes of a hank it had to leave, and the tokens that the change of service in progress has returned (R199). -/
structure Spindle where
  svc : Service := .disabled
  draining : Bool := false
  hank : Option Hank := none
  done : Nat := 0
  prefetch : List Hank := []
  blocked : Option Nat := none
  idle : Bool := false
  pxStart : Nat := 0
  poisons : List Nat := []
  last : Option LastPx := none
  back : Nat := 0
  deriving DecidableEq, Repr

/-- A spindle bank: its ready list, gating, the order of blocked TAKEs, and the seeder's tokens not yet released. -/
structure SBank where
  ready : List Hank := []
  gated : Bool := false
  takes : List Nat := []
  idleSince : Option Nat := none
  seed : List Hank := []
  remaining : Nat := 0
  disabling : Bool := false
  hanks : U64 := 0
  takesBlocked : U32 := 0
  takesIdle : U32 := 0
  gates : U32 := 0
  wakes : U32 := 0
  handback : U32 := 0
  stale : U32 := 0
  deriving DecidableEq, Repr

/-- A drain in progress (R191): the items that have ended ABORTED and the instant it expires. -/
structure Drain where
  function : Nat
  inst : Nat
  aborted : Nat := 0
  expires : Nat := 0
  deriving DecidableEq, Repr

/-- A service class of control threads (R193, R198): threads busy now, the most since reset, and those raised (R195). -/
structure ThreadClass where
  busy : Nat := 0
  peak : Nat := 0
  raises : U32 := 0
  deriving DecidableEq, Repr

/-- The two schedulers (R176 to R199). `coresUp` are the control cores in service. -/
structure Sched where
  spindles : KMap Spindle := []
  banks : KMap SBank := []
  takeUs : Nat := 20
  gateUs : Nat := 10
  pendTake : Option (Nat × Nat) := none
  drainUs : List Nat := [50, 1000, 30000, 25000, 20000]
  prio : KMap Nat := []
  timed : ThreadClass := {}
  command : ThreadClass := {}
  background : ThreadClass := {}
  drains : List Drain := []
  coresUp : Nat := 0xFF
  deriving DecidableEq, Repr

/-! ## Modes and Calm (R200 to R220) -/

/-- A pending mode change (R205): the change boundary, the command that asked, and the lateness it will report. -/
structure ModePend where
  mode : Nat
  phase : Nat
  slots : U32
  bc : Nat
  ref : Option CmdRef
  status : Nat
  detail : Nat
  deriving DecidableEq, Repr

/-- The timing generator (R200 to R220). `n` is the index of the next boundary; `settle` the index of a1 while
settling; `calm` says that the device is in Calm, `wakeAt` is the instant of B1 while a wake runs, and `wakeLatch` the CAUSE of a
wake trigger that came while Calm was being entered. -/
structure ModeSt where
  mode : Nat := 0
  phase : Nat := 0
  slots : U32 := 0
  counter : BitVec 48 := 0
  n : Nat := 0
  settle : Option Nat := none
  modeChangedDue : Bool := false
  lastFlip : U64 := 0
  lastFlipEpoch : U32 := 0
  pending : Option ModePend := none
  still : Nat := 0
  stillFrames : Nat := 120
  calmAuto : Bool := false
  moved : Bool := false
  calm : Bool := false
  calmWanted : Bool := false
  wakeAt : Option Nat := none
  wakeLatch : Option Nat := none
  weaving : Bool := false
  lastWeaveStart : Option Nat := none
  deriving DecidableEq, Repr

/-! ## Time (R277 to R299) -/

/-- A PTP port (R278, R297). -/
structure PtpPort where
  oneStep : Bool := false
  asym : Int := 0
  best : Option Announce := none
  heardAt : Nat := 0
  count : Nat := 0
  deriving DecidableEq, Repr

/-- A time trigger (R290, R291); `spent` says that it has fired its one instant and still drives its GPIO. -/
structure TTrig where
  kind : Nat
  target : Nat
  action : Nat
  base : Nat
  policy : Nat
  at_ : Nat
  offset : Int
  period : Nat
  grace : Nat
  next : Nat
  inst : U32 := 0
  missed : U32 := 0
  fired : Bool := false
  spent : Bool := false
  deriving DecidableEq, Repr

/-- A cue (R292, R293): its embedded commands as (header, payload), its state (1 pending, 2 running), the command that
runs, the lateness at which it fired and the first command that failed with its status. `held` says that it fell due in an
epoch that is not woven (R209), `from_` where its CUE_SCHEDULE came from. -/
structure Cue where
  policy : Nat
  when_ : Nat
  grace : Nat
  at_ : Nat
  leadUs : Nat
  cmds : List (Bytes × Bytes)
  bytes : Nat
  state : Nat := 1
  idx : Nat := 0
  lateness : Nat := 0
  late : Bool := false
  failed : Option (Nat × Nat) := none
  held : Bool := false
  from_ : Option InbFrom := none
  deriving DecidableEq, Repr

/-- A timestamp identifier requested for a Sync or a Delay_Req (R279), with the timestamp in ns once its entry has been read. -/
structure TsWait where
  id : Nat
  port : Nat
  kind : PtpTx
  at_ : Option Nat := none
  deriving DecidableEq, Repr

/-- The time unit (R277 to R299). `tsNext` is the next timestamp identifier and `tsWait` those of exchanges not yet complete, oldest
first; `fired` is the fire record of each cue number fired since it was last scheduled. -/
structure TimeSt where
  state : Nat := 0
  slavePort : Nat := 0xFF
  gmId : U64 := 0
  gmUtc : Int := 0
  meanPath : Nat := 0
  freqPpb : Int := 0
  freqHist : List (Nat × Int) := []
  offset : Int := 0
  holdSince : Option Nat := none
  lockRun : Nat := 0
  overRun : Nat := 0
  stepAt : Option Nat := none
  stepBy : Int := 0
  steps : U32 := 0
  tsMissing : U32 := 0
  tsNext : Nat := 0
  tsWait : List TsWait := []
  profile : Nat := 0
  role : Nat := 0
  domain : Nat := 127
  prio1 : Nat := 128
  prio2 : Nat := 128
  logSync : Int := -3
  logAnn : Int := -2
  logDelay : Int := -3
  timeout : Nat := 3
  step : Bool := false
  l2 : Bool := false
  bandwidth : Nat := 100
  stepUs : Nat := 1000
  ports : KMap PtpPort := []
  seq : U32 := 0
  ltcState : Nat := 0
  ltcOn : Bool := false
  ltcRateSet : Nat := 0
  ltcRate : Nat := 0
  ltcTc : U32 := 0
  ltcLatch : Nat := 0
  ltcRun : Nat := 0
  ltcPrev : Option U32 := none
  lockSource : Nat := 0
  lockId : Nat := 0
  lockOffset : Int := 0
  lockTol : Nat := 20000
  lockState : Nat := 0
  lockRunOff : Nat := 0
  lockFirst : Bool := false
  lockLastTv : Option Nat := none
  rtcSec : Nat := 0
  rtcAt : Nat := 0
  rtcValid : Bool := false
  utcOffset : Int := 0
  alarm : Option Nat := none
  trigs : KMap TTrig := []
  gpio : KMap Bool := []
  cues : KMap Cue := []
  fired : KMap Nat := []
  deriving DecidableEq, Repr

/-! ## Faults (R428 to R448) -/

/-- A fault source (R428 to R440). `quietAt` is the instant since which it is quiet and `lullEnd` the end of its lull; `ok`
says that a quiet condition outside the state holds; `returning` that its return step runs; `held` that its unit is held
retired, and `released` that FAULT_RETURN has released it; `applied` and `curLull` are the reactions and the lull in force
since its last detection. -/
structure FSrc where
  sticky : Bool := false
  inFault : Bool := false
  cause : Nat := 0
  quietAt : Option Nat := none
  lullEnd : Option Nat := none
  returning : Bool := false
  held : Bool := false
  released : Bool := false
  ok : Bool := true
  entries : Nat := 0
  detections : U32 := 0
  entryCount : U32 := 0
  recoveries : U32 := 0
  lastEntry : U64 := 0
  applied : Nat := 0
  curLull : Nat := 500
  react : Option Nat := none
  lullMs : Nat := 500
  limit : Nat := 8
  deriving DecidableEq, Repr

/-- The fault collector (R428 to R448). `due` are the detections of the step in progress, empty between steps; `hushed`
says that no COMMIT is sent until the release, after a switchover into a safe state (R443). -/
structure FaultSt where
  srcs : KMap FSrc := []
  safe : Bool := false
  safeSource : Nat := 0
  releasePending : Bool := false
  hushed : Bool := false
  black : U64 := 0
  noService : Bool := false
  stranded : Bool := false
  due : List (Nat × Nat × List Int) := []
  linkErrs : KMap (List Nat) := []
  lockLostAt : KMap Nat := []
  deriving DecidableEq, Repr

/-! ## The reel (R461 to R477) -/

/-- A record of the reel before its SEQ is assigned (R461). -/
structure RRec where
  cls : Nat
  flags : Nat := 0
  source : Nat
  code : Nat
  orig : U32 := 0
  time : Nat
  data : Bytes
  deriving DecidableEq, Repr

/-- A record written: its SEQ, the ring position of the sector that holds it (0xFFFF in the always-on ring) and its bytes as
stored. -/
structure RStored where
  seq : U32
  sector : Nat
  bytes : Bytes
  deriving DecidableEq, Repr

/-- An entry of the squall table (R466). -/
structure Squall where
  source : Nat
  code : Nat
  cls : Nat
  count : U32
  deriving DecidableEq, Repr

/-- The reel (R461 to R477). `recs` are the records in MRAM, oldest first, and `aon` those of the always-on ring, latest
first; `pos` and `offset` say where the writer stands, `ring` the spare that holds each ring position whose sector is
retired; `first` and `next` are REEL_FIRST and REEL_NEXT; `loaded` is the snapshot that the load in progress puts into the
window; `retiring` the sector being replaced. -/
structure Reel where
  staging : List RRec := []
  squall : List Squall := []
  squallFirst : Nat := 0
  squallLast : Nat := 0
  squallAt : Nat := 0
  recs : List RStored := []
  first : U32 := 0
  next : U32 := 0
  pos : Nat := 0
  offset : Nat := 64
  ring : KMap Nat := []
  spares : Nat := 4
  tally : Bool := false
  tallies : List U32 := [0, 0, 0, 0, 0, 0, 0, 0]
  cursor : U32 := 0
  loading : Bool := false
  loaded : List Bytes := []
  window : List Bytes := []
  aon : List RStored := []
  warnArmed : Bool := true
  switching : Bool := false
  retiring : Nat := 0
  failedRec : Option RRec := none
  refusing : Bool := false
  overwritten : U32 := 0
  squalls : U32 := 0
  squallCounted : U32 := 0
  retiredCount : Nat := 0
  clears : U32 := 0
  lastClear : U64 := 0
  deriving DecidableEq, Repr

/-! ## Ingest (R107 to R130) -/

/-- The counters of an ingest object or port (R129). -/
structure IngCnt where
  packets : U64 := 0
  bytes : U64 := 0
  seqGaps : U32 := 0
  late : U32 := 0
  rollbacks : U32 := 0
  rollbackPx : U32 := 0
  gapPx : U32 := 0
  frames : U32 := 0
  incomplete : U32 := 0
  skipped : U32 := 0
  repeated : U32 := 0
  unmatched : U32 := 0
  poison : U32 := 0
  deriving DecidableEq, Repr

/-- A video stream: its definition (R110, R128), and the frame it receives: the last sequence number and timestamp, the
next pixel expected, the pixels invalid so far, and the packet whose FCS verdict is open. -/
structure Video where
  port : Nat
  sampling : Nat
  group : U32
  filterIp : U32
  udp : Nat
  depth : Nat
  bt2020 : Bool
  pq : Bool
  full : Bool
  bpm : Bool
  w : Nat
  h : Nat
  nits : Nat
  thresh : Nat
  seq : Option U16 := none
  ts : Option U32 := none
  prevTs : Option U32 := none
  opened : Bool := false
  next : Nat := 0
  gaps : Nat := 0
  verdict : Option (Nat × Nat × Bool) := none
  verdictLen : Nat := 0
  verdictPoison : Bool := false
  front : Nat := 0
  hasFront : Bool := false
  frontCrc : U32 := 0
  woven : Bool := false
  read : Bool := false
  lost : Bool := true
  lastAt : Nat := 0
  cnt : IngCnt := {}
  deriving DecidableEq, Repr

/-- An audio stream (R117, R118): its definition, the next sequence number and the samples received, by RTP time. -/
structure Audio where
  port : Nat
  channels : Nat
  first : Nat
  group : U32
  filterIp : U32
  udp : Nat
  ptime : Nat
  offsetUs : Nat
  seq : Option U16 := none
  queue : KMap (List Int × Bool) := []
  lost : Bool := true
  lastAt : Nat := 0
  cnt : IngCnt := {}
  deriving DecidableEq, Repr

/-- An audio tap (R119): its definition, its accumulator e or m in units of 2^-96 and its value in twists. -/
structure Tap where
  kind : Nat
  chA : Nat
  chB : Nat
  band : Nat
  t1 : Nat
  t2 : Nat
  acc : Nat := 0
  silent : Nat := 0
  poison : Bool := false
  value : Int := -196608
  deriving DecidableEq, Repr

/-- Data of a universe, and whether a word of its packet was poisoned (R26). -/
structure UData where
  slots : Bytes
  poison : Bool := false
  deriving DecidableEq, Repr

/-- A source of an sACN universe (R121, R122). -/
structure USrc where
  cid : BitVec 128
  prio : Nat
  seq : U8
  lastAt : Nat
  data : UData
  deriving DecidableEq, Repr

/-- An sACN universe in use (R121, R122), as received on one port or on all: its sources. `pend` and `held` are its pending and
its applied values as the BASE of outputs (R318). -/
structure Univ where
  srcs : List USrc := []
  pend : Option UData := none
  held : Option Bytes := none
  window : List Nat := []
  deriving DecidableEq, Repr

/-- A universe of a pixel map (R124): the data that waits for its synchronization packet, the pending and the applied. -/
structure MUniv where
  wait : Option UData := none
  pend : Option UData := none
  held : Option UData := none
  deriving DecidableEq, Repr

/-- An sACN pixel map (R123, R128), its universes by their number in it. -/
structure PMap where
  port : Nat
  channels : Nat
  firstUniv : Nat
  sync : Nat
  w : Nat
  h : Nat
  serpentine : Bool
  transfer : Nat
  gamma : Nat
  univs : KMap MUniv := []
  front : Nat := 0
  hasFront : Bool := false
  lost : Bool := true
  cnt : IngCnt := {}
  deriving DecidableEq, Repr

/-- A host-plane submission in progress (R126, R127). `copied` says its copy has finished, and `timed` that
it waits for its epoch. -/
structure Submit where
  ref : CmdRef
  when_ : Nat
  epoch : U32
  policy : Nat
  grace : Nat
  addr : U64
  stride : Nat
  copied : Bool := false
  timed : Bool := false
  deriving DecidableEq, Repr

/-- A host plane (R125 to R128). -/
structure HPlane where
  layout : Nat
  transfer : Nat
  gamma : Nat
  w : Nat
  h : Nat
  front : Nat := 0
  hasFront : Bool := false
  pend : Option (Nat × Nat) := none
  sub : Option Submit := none
  cnt : IngCnt := {}
  deriving DecidableEq, Repr

/-- Ingest (R107 to R130). `chans` are the samples due now on the device's 64 audio channels. -/
structure Ingest where
  ports : KMap IngCnt := []
  videos : KMap Video := []
  audios : KMap Audio := []
  chans : KMap Int := []
  taps : KMap Tap := []
  univs : KMap Univ := []
  maps : KMap PMap := []
  planes : KMap HPlane := []
  deriving DecidableEq, Repr

/-! ## The frame store (R131 to R146) -/

/-- A 64-bit word of the frame store: its data, the bits its check code finds wrong, and whether they were injected. -/
structure Word64 where
  data : U64 := 0
  err : Nat := 0
  injected : Bool := false
  deriving DecidableEq, Repr

/-- A frame-store bank's counters and recent errors (R138, R145), and what each of its 8 canary rows holds in every word
(R143). -/
structure FBank where
  ce : U64 := 0
  ue : U32 := 0
  hard : U32 := 0
  passes : U32 := 0
  canaryFail : U32 := 0
  poisonWb : U32 := 0
  recentUe : KMap Nat := []
  fixedOnce : List Nat := []
  hardAt : List Nat := []
  armed : List Nat := []
  rows : List U64 := List.replicate 8 0
  deriving DecidableEq, Repr

/-- A correction copy beside the present one: its record form, the bank it lies in, and the load that writes it (R139). -/
structure CorrCopy where
  record : Nat
  bank : Nat
  ref : Option CmdRef := none
  deriving DecidableEq, Repr

/-- A tile's correction (R139 to R142): `bank` holds its present data; `load` and `rest` are the copies that a host load and
a restore are writing, `ready` a complete one that waits for its switch. -/
structure Corr where
  present : Bool := false
  record : Nat := 0
  bank : Nat := 0
  load : Option CorrCopy := none
  rest : Option CorrCopy := none
  ready : Option CorrCopy := none
  persisting : Bool := false
  deriving DecidableEq, Repr

/-- A tile's copy in the correction store (R141, R498). -/
structure FlashCorr where
  px : Nat
  record : Nat
  data : Bytes
  crc : U32
  offset : Nat := 0
  deriving DecidableEq, Repr

/-- The frame store (R131 to R146). `words` is a memory keyed by object, copy and word (`Machine.wordKey`) whose
unlisted entries are the zero slots that B3 writes (R503). `scrubAt` is the key from which the patrol scrubber goes on,
`scrubFrom` the earliest start of its next pass. -/
structure StoreSt where
  words : KMap Word64 := []
  up : Nat := 0
  retired : Nat := 0
  temp0 : Int := 250
  temp1 : Int := 250
  selfRefresh : Bool := false
  scrubS : Nat := 60
  scrubAt : Nat := 0
  scrubFrom : Nat := 0
  banks : KMap FBank := []
  corr : KMap Corr := []
  flash : KMap FlashCorr := []
  deriving DecidableEq, Repr

/-! ## The weave (R147 to R175) -/

/-- A node of a weave (R147). -/
structure Node where
  kind : Nat
  shed : Bool
  a : Nat
  b : Nat
  params : Bytes
  deriving DecidableEq, Repr

/-- A weave (R147). -/
structure Weave where
  id : Nat
  nodes : List Node
  deriving DecidableEq, Repr

/-- What a node keeps: its ramp D in 16 fractional bits (R161), its last per-epoch value (R152) and its counters (R174). -/
structure NodeSt where
  ramp : Int := 0
  lastVal : Option Int := none
  sat : U64 := 0
  nan : U32 := 0
  paramPoison : U32 := 0
  invalidIn : U32 := 0
  poisonIn : U32 := 0
  excluded : U32 := 0
  deriving DecidableEq, Repr

/-- A WEAVE_PARAM that waits (R172): with `timed` for the start of the weave of its epoch, else for the first frame boundary from
`at_` on. `order` is its place in the order in which the commands were taken. -/
structure ParamWait where
  ref : CmdRef
  order : Nat
  weaveId : Nat
  timed : Bool
  epoch : U32
  at_ : Nat
  late : Nat
  grace : Nat
  entries : List (Nat × Bytes)
  deriving DecidableEq, Repr

/-- The weave in force, pending and in build, the tables, and the loops (R147 to R175). Applied values and targets are in
16 fractional bits; COLOUR_LOOP is keyed by 4 × zone + strand, THERMAL by tile. `sums` are the drives of R166 keyed by
4 × tile + strand in units of 2^-32. -/
structure WeaveSt where
  active : Option Weave := none
  activeEpoch : U32 := 0
  pend : Option Weave := none
  pendAt : Nat := 0
  building : Option (CmdRef × Weave) := none
  eventDue : Bool := false
  tables : KMap (KMap (Nat × Nat × Nat)) := []
  nodes : KMap NodeSt := []
  params : List ParamWait := []
  colourA : KMap Int := []
  colourT : KMap Int := []
  thermA : KMap Int := []
  thermT : KMap Int := []
  capA : Int := 0
  capT : Int := 0
  sums : KMap Nat := []
  deriving DecidableEq, Repr

/-! ## Drive health and the colour loop (R300 to R315) -/

/-- A colour sensor (R309 to R312): its definition; its reference and last accepted e_c; the sample in progress, with
its cycle, its sub-frame (0 DARK, 1 to 3 S0 to S2), the boundary by which its transaction must complete, and the sums of
its readings; and its counters. A measured mean is
kept as its sum over the samples. -/
structure Sensor where
  bus : Nat
  addr : Nat
  zone : Nat
  tile : Nat
  pixels : List Nat
  fmt : Nat
  intNs : Nat
  code : Nat
  start : Bytes
  readReg : Nat
  sel : Nat
  samples : Nat
  periodS : Nat
  ref : Option (List Int × Nat) := none
  wantRef : Bool := false
  firstAfter : Bool := false
  e : Option (List Int) := none
  cand : Option (List Int) := none
  sampling : Bool := false
  began : Option Nat := none
  cycle : Nat := 0
  sub : Nat := 0
  lit : List Nat := [0, 0, 0]
  dark : List Nat := [0, 0, 0]
  cycleLit : List Nat := [0, 0, 0]
  cycleDark : List Nat := [0, 0, 0]
  fullScale : Bool := false
  cycleFull : Bool := false
  due : Option Nat := none
  fails : Nat := 0
  failed : Bool := false
  blocked : Bool := false
  failedAt : Nat := 0
  accepted : U32 := 0
  discarded : U32 := 0
  i2cFail : U32 := 0
  deriving DecidableEq, Repr

/-- What drive health keeps of a tile (R303, R305, R306, R308, R314). -/
structure TileHealth where
  temp : Int := 0
  tempAt : Option Nat := none
  heat : Nat := 0
  transient : Nat := 0
  results : U32 := 0
  lastPseq : Nat := 0
  serial : Option U64 := none
  deriving DecidableEq, Repr

/-- A DETECT probe whose result a tile still owes: its PSEQ, the entries reported so far and its deadline (R302). -/
structure ProbeWait where
  pseq : Nat
  entries : List ReportEntry := []
  deadline : Nat := 0
  deriving DecidableEq, Repr

/-- Drive health (R300 to R315). `woven` is the defect map as the weave in progress sees it (R304). `defects` and `runs` are keyed by `Machine.chanKey`, a run being its state and length;
`pseq` is by port; `due` are the ports that owe a DETECT, `nextDetect` when each next falls due, and `probed` the ports that
have carried a PROBE in the epoch. -/
structure Health where
  probeOn : Bool := false
  periodS : Nat := 10
  pseq : KMap Nat := []
  due : List Nat := []
  nextDetect : KMap Nat := []
  probed : List Nat := []
  waits : KMap ProbeWait := []
  defects : KMap Nat := []
  woven : KMap Nat := []
  mapFull : U32 := 0
  runs : KMap (Nat × Nat) := []
  tiles : KMap TileHealth := []
  tStart : Int := 700
  tFull : Int := 850
  tCut : Int := 900
  depth : Int := -16384
  hyst : Int := 20
  staleS : Nat := 10
  zones : KMap Nat := []
  sensors : KMap Sensor := []
  deriving DecidableEq, Repr

/-! ## Ports (R258 to R276) -/

/-- A speed change of a port in progress (R248, R249, R266, R267): the speed asked for, its AT_TIME, the hops that must confirm
and those that have, whether all have, whether it raises the speed, and whether the line is down and retraining. -/
structure SpeedReq where
  dest : Nat
  at_ : Nat
  askedAt : Nat
  need : List Nat := []
  got : List Nat := []
  agreed : Bool := false
  rises : Bool := false
  retrain : Bool := false
  deriving DecidableEq, Repr

/-- The link counters of a port (R256). -/
structure LinkCnt where
  skeins : U64 := 0
  retries : U32 := 0
  nakRx : U32 := 0
  polls : U32 := 0
  dropped : U32 := 0
  invalidPly : U32 := 0
  poisonPly : U32 := 0
  commits : U32 := 0
  holds : U32 := 0
  reports : U32 := 0
  linkErr : U32 := 0
  safeSent : U32 := 0
  abortedTx : U32 := 0
  unknown : U32 := 0
  deriving DecidableEq, Repr

/-- A port, 0 to 63, or the twin lane pair, 64 (R258 to R276). `role` is 0 off, 1 standard, 2 chain; `cfg` the speed set,
0xFF automatic; `busyUntil` the instant the last bit of the frame in progress leaves; `cnt` the 59 counters extended to
64 bits, whose low 32 bits are the registers; `half` their HALF bits. `again` is a raise asked again at each boundary,
`off` the PORT_CONFIG that waits for the drain of a disable. -/
structure Port where
  enabled : Bool := false
  role : Nat := 0
  speed : Nat := 0
  cfg : Nat := 0xFF
  suspended : Bool := false
  an : Bool := false
  pauseHonour : Bool := false
  rxExtra : Int := 0
  txExtra : Int := 0
  linkgen : Option Nat := none
  lock : Bool := false
  signal : Bool := false
  anDone : Bool := false
  pausedUntil : Nat := 0
  retired : Bool := false
  queue : List TxFrame := []
  current : Option TxFrame := none
  busyUntil : Nat := 0
  req : Option SpeedReq := none
  again : Option Nat := none
  off : Option CmdRef := none
  measureNext : Nat := 0
  lockLosses : U32 := 0
  speedChanges : U32 := 0
  speedCancels : U32 := 0
  lastChange : Nat := 0
  cnt : KMap Nat := []
  half : Nat := 0
  lnk : LinkCnt := {}
  deriving DecidableEq, Repr

/-- An entry of a transmit timestamp bobbin (R272). -/
structure TsEntry where
  id : Nat
  port : Nat
  gap : Bool
  frac : Nat
  time : Nat
  deriving DecidableEq, Repr

/-- The transmit timestamp bobbin of a group of ports (R272). -/
structure TsGroup where
  entries : List TsEntry := []
  ovf : Bool := false
  gapNext : Bool := false
  lost : U32 := 0
  deriving DecidableEq, Repr

/-! ## Chains and tiles (R221 to R257) -/

/-- A skein of a tile for the epoch being woven (R228 to R232): its pixels, those acknowledged by PACK, whether it has
closed, and how often it has been sent. `acks` holds tile indices, each once. -/
structure Skein where
  tile : Nat
  idx : Nat
  first : Nat
  npx : Nat
  acks : List Nat := []
  closed : Bool := false
  sends : Nat := 0
  dropped : Bool := false
  deriving DecidableEq, Repr

/-- What the link layer keeps of a tile: its REPLY, its OFFSETs in units of 2^-6 ns from each end, what its REPORTs said
(R240, R255), and its answers in the epoch being sent (R238). `serve` is the end whose SKEIN, COMMIT or WAKE it acted on
last (R224), as the device last addressed it. -/
structure TileLink where
  state : Nat := 0
  cause : Nat := 0
  reply : Option Reply := none
  offA : Option Nat := none
  offB : Option Nat := none
  status : U16 := 0
  lastEpoch : U32 := 0
  temp : Int := 0
  holds : Nat := 0
  lastReport : Nat := 0
  genHi : Nat := 0
  acked : Bool := false
  waitFrom : Option Nat := none
  polled : Bool := false
  deriving DecidableEq, Repr

/-- A chain of the active wall (R242, R250, R254): its state (0 down, 1 enumerating, 2 ready, 3 ready with exclusions),
the generation it runs, the position after which it is broken, and its enumeration: the phase (0 none, 1 discovering,
2 measuring), the CAUSE it will report, when it began, what each end's DISCOVER found by hop and each end's samples of
rtt - turn by hop, in units of 2^-6 ns. -/
structure ChainLink where
  state : Nat := 0
  gen : Nat := 2
  gen1Tile : Bool := false
  brk : Nat := 0
  phase : Nat := 0
  cause : Nat := 0
  began : Nat := 0
  foundA : KMap Reply := []
  foundB : KMap Reply := []
  sampA : KMap (List Int) := []
  sampB : KMap (List Int) := []
  deriving DecidableEq, Repr

/-- The link layer (R221 to R276). `skeins` are those of the epoch `epoch`, committed at `commitAt`. -/
structure LinkSt where
  ports : KMap Port := []
  ts : KMap TsGroup := []
  chains : KMap ChainLink := []
  tiles : KMap TileLink := []
  skeins : List Skein := []
  epoch : U32 := 0
  commitAt : Nat := 0
  sending : Bool := false
  seq : U16 := 0
  deriving DecidableEq, Repr

/-! ## Twin operation (R405 to R427) -/

/-- An entry of the defect journal of the digest (R416, R417). -/
structure DefectJ where
  seq : Nat
  tile : Nat
  pixel : Nat
  chan : Nat
  st : Nat
  deriving DecidableEq, Repr

/-- A drill (R423, R424): the epoch committed at the swap boundary and that boundary, the epochs to check, whether the roles
swap back, and the status of its command. `swapped` says that the roles have been swapped and `mine` that this device checks
as the new active; `left` counts the epochs still to check, from the counters of lost locks and dropped skeins by port and of
holds by tile at the swap; `first` is the first epoch of the new active. -/
structure Drill where
  epoch : U32
  swapAt : Nat
  check : Nat
  revert : Bool
  status : Nat := 0
  swapped : Bool := false
  mine : Bool := false
  left : Nat := 0
  drops : KMap Nat := []
  holds : KMap Nat := []
  first : U32 := 0
  deriving DecidableEq, Repr

/-- The twin unit (R405 to R427). `role` is 1 while the device holds the active role; `pending` the boundary b1 from which
a device that has taken it transmits, and `announce` the CAUSE of the TWIN_STATE due at the boundary after; `gens` are the
generations seen in tile frames since reset; `force` the ports whose next first DISCOVER sets FORCE; `linkLost` that the link
has been found lost, and `linkFrom` the instant from which its 10 ms run; `whole` whether each of the last digests was whole,
latest first; `segs` the parts by offset of the digest of epoch `rxEpoch` being received, `nsegs` how many have come, and
`digest` one received whole and not yet used; `sent` the epochs of digests not yet acknowledged with the first defect entry
and reel record that each did not carry; `gotDef` and `gotReel` the first of the partner's not yet applied. -/
structure Twin where
  enabled : Bool := false
  side : Nat := 0
  hbUs : Nat := 1000
  role : Nat := 0
  cgen : U16 := 0
  roleIn : Bool := false
  pending : Option Nat := none
  announce : Option Nat := none
  gens : List Nat := []
  partner : Option Hello := none
  lastHello : Option Nat := none
  helloSince : Bool := false
  force : List Nat := []
  linkUp : Bool := false
  linkLost : Bool := false
  linkFrom : Nat := 0
  inStep : Bool := false
  whole : List Bool := []
  lastDigest : U32 := 0
  lastSwitch : Nat := 0
  rxEpoch : U32 := 0
  segs : KMap Bytes := []
  nsegs : List Nat := []
  digest : Option Bytes := none
  defJ : List DefectJ := []
  defSeq : Nat := 0
  reelFrom : U32 := 0
  sent : List (U32 × Nat × U32) := []
  gotDef : Nat := 0
  gotReel : Nat := 0
  drill : Option Drill := none
  digestsTx : U32 := 0
  digestsOk : U32 := 0
  digestsMissed : U32 := 0
  switchovers : U32 := 0
  drills : U32 := 0
  selfDemote : U32 := 0
  conflicts : U32 := 0
  linkLosses : U32 := 0
  deriving DecidableEq, Repr

/-! ## Feeds and power states (R361 to R384) -/

/-- A feed (R361, R362): its voltage in mV, its states, and since when it has been at or above FEED_LOSS + 0.5 V, and
live and not low. Thresholds are in mV. -/
structure Feed where
  mV : Int := 0
  live : Bool := false
  low : Bool := false
  ov : Bool := false
  aboveAt : Option Nat := none
  goodAt : Option Nat := none
  lowMv : Nat := 10000
  lossMv : Nat := 8500
  deriving DecidableEq, Repr

/-- A wake comparator (R378): its settings and its output. -/
structure Cmp where
  enable : Bool := false
  code : Nat := 0
  falling : Bool := false
  hyst : Nat := 0
  debounce : Nat := 0
  output : Bool := false
  deriving DecidableEq, Repr

/-- An entry into Calm, Doze, Sleep or Deep Sleep in progress (R370, R371): the command, its state (1 to 4), DARK, and
whether the boundary of step 3 has passed. -/
structure PowerEntry where
  ref : Option CmdRef
  dest : Nat
  dark : Bool
  passed : Bool := false
  deriving DecidableEq, Repr

/-- The entry record of R372: the state entered, the PTP time, the frame counter, and the mode and phase in force with the
index of their next boundary. -/
structure EntryRec where
  dest : Nat
  time : Nat
  counter : BitVec 48
  mode : Nat
  phase : Nat
  n : Nat
  deriving DecidableEq, Repr

/-- The power unit (R361 to R384). `st` is 0 Run or Calm, 2 Doze, 3 Sleep, 4 Deep Sleep, 5 last gasp, 6 stranded, 7 off;
`wake` the step of R379 that runs, with the state left and the cause, `failing` that a failed wake waits for its repetition
(R380); `latched` is a wake source seen during an entry (R378); `resumeAt` is B1 of a wake from Doze, and `sleepEnum` says that
weaving waits for the enumeration that follows a wake from Sleep or Deep Sleep (R381); `gasp` is the instant of the last gasp's
start. -/
structure Power where
  st : Nat := 0
  prio : Nat := 2
  carry : Nat := 3
  feedA : Feed := {}
  feedB : Feed := {}
  returnMs : Nat := 1000
  switchovers : U32 := 0
  refusals : KMap Nat := []
  refuser : Nat := 0
  entry : Option PowerEntry := none
  record : Option EntryRec := none
  sources : Nat := 0
  gpioMask : U32 := 0
  gpioEdge : U32 := 0
  linkPorts : U64 := 0
  cmps : List Cmp := [{}, {}, {}]
  wake : Option Nat := none
  wakeRetried : Bool := false
  wakeAt : Nat := 0
  wakeFrom : Nat := 0
  wakeCause : Nat := 0
  wakeRetries : Nat := 0
  attempts : Nat := 0
  failing : Bool := false
  retFail : Nat := 0
  failedStep : Nat := 0
  dramFail : U32 := 0
  resumeAt : Option Nat := none
  sleepEnum : Bool := false
  entered : Nat := 0
  woke : Nat := 0
  gasp : Option Nat := none
  latched : Option Nat := none
  foldBack : List Nat := []
  deriving DecidableEq, Repr

/-! ## Fixtures (R316 to R333) -/

/-- An output's definition (R316, R323, R326, R332). -/
structure OutDef where
  port : Nat
  keep : Bool
  align : Bool
  rdm : Bool
  univ : Nat
  slots : Nat
  dest : U32
  prio : Nat
  rate : Nat
  sync : Nat
  base : Nat
  breakUs : Nat
  mabUs : Nat
  gapUs : Nat
  deriving DecidableEq, Repr

/-- An output (R316 to R333). `data` are the slots in force and `lastData` those last sent; `left` counts the packets still
due after the last change, `due` says that the epoch's packet waits for its commit and `sent` that a data packet has been
sent since the last synchronization packet; `redef` is the definition that waits for the drain (none inside: it stops),
`terms` the Stream_Terminated packets still to send, from `termAt` on; `asleep` is the state it returns to after Sleep
(R372). -/
structure Output where
  d : OutDef
  st : Nat := 1
  seq : U8 := 0
  data : Bytes := []
  lastData : Bytes := []
  lastAt : Option Nat := none
  left : Nat := 0
  due : Bool := false
  sent : Bool := false
  redef : Option (Option OutDef) := none
  asleep : Nat := 0
  ref : Option CmdRef := none
  terms : Nat := 0
  termAt : Nat := 0
  packets : U64 := 0
  skipped : U32 := 0
  held : U32 := 0
  rdmTx : U32 := 0
  rdmTimeout : U32 := 0
  rdmChecksum : U32 := 0
  collisions : U32 := 0
  deriving DecidableEq, Repr

/-- A fixture's definition (R317, R319, R332). -/
structure FixDef where
  out : Nat
  first : Nat
  layout : Nat
  bits : Nat
  nch : Nat
  layer : Nat
  x : Nat
  y : Nat
  w : Nat
  h : Nat
  dim : Int
  transfer : Nat
  gamma : Nat
  deriving DecidableEq, Repr

/-- A fixture: its channel codes as computed or set, those its output carries, and its safe setting (R330). -/
structure Fixture where
  d : FixDef
  vals : List Nat := []
  shown : List Nat := []
  safeMode : Nat := 0
  safeVals : List Nat := []
  deriving DecidableEq, Repr

/-- An RDM transaction (R328, R329): a host request, or a step of discovery. -/
inductive RdmJob where
  | host (ref : CmdRef) (uid : BitVec 48) (cc pid sub : Nat) (data : Bytes)
  | unmute
  | muteKnown (uid : BitVec 48)
  | branch (lo hi : Nat)
  | muteNew (uid : BitVec 48) (lo hi : Nat)
  deriving DecidableEq, Repr

/-- A discovery in progress (R329). -/
structure Disc where
  todo : List RdmJob
  added : Nat := 0
  removed : Nat := 0
  collisions : Nat := 0
  deriving DecidableEq, Repr

/-- A DMX port's line (R326 to R329): the frame that started last, with the instants at which its start code begins and it
ends, and whether its values have yet to be taken; the host requests queued, the transaction in progress with its tries
and the instant its request ended; whether one has followed the last frame; and the UIDs found. -/
structure DmxPort where
  codeAt : Nat := 0
  endAt : Nat := 0
  open_ : Bool := false
  queue : List RdmJob := []
  cur : Option RdmJob := none
  tries : Nat := 0
  reqEnd : Nat := 0
  rdmDone : Bool := false
  tn : U8 := 0
  disc : Option Disc := none
  uids : List (BitVec 48) := []
  deriving DecidableEq, Repr

/-- The fixture engine (R316 to R333). `cells` are the crowd cells' codes under the last weave (R347). -/
structure Fix where
  cid : Option Bytes := none
  outs : KMap Output := []
  fixtures : KMap Fixture := []
  pendFix : List (Nat × Option FixDef) := []
  setq : List (Nat × Nat × Nat) := []
  dmx : KMap DmxPort := []
  syncSeq : KMap U8 := []
  cells : KMap (Nat × Nat × Nat) := []
  deriving DecidableEq, Repr

/-! ## Ezond Air (R334 to R360) -/

/-- A band of a radio (R337, R338): the payload of its AIR_BAND_DEFINE and the airtime charged to each 60 s bucket, in
ns, by the bucket's number. -/
structure Band where
  cfg : Bytes
  buckets : KMap Nat := []
  deriving DecidableEq, Repr

/-- A radio (R334 to R341, R355 to R358): the payload of its AIR_RADIO_DEFINE; its state (0 off, 1 running, 2 draining), and
whether it runs again after Sleep;
the band that carries its beacons, and that from the next superframe on; the countdown of an announced return; its consecutive skipped beacons and their causes;
and its counters. -/
structure Radio where
  cfg : Bytes
  st : Nat := 0
  retired : Bool := false
  asleep : Bool := false
  ref : Option CmdRef := none
  bands : KMap Band := []
  band : Nat := 0
  nextBand : Option Nat := none
  countdown : Nat := 0
  returning : Option Nat := none
  moving : Option Nat := none
  skips : Nat := 0
  skipBudget : Bool := false
  skipLbt : Bool := false
  starved : Bool := false
  noBand : Bool := false
  holdUntil : Option Nat := none
  recovery : Bool := false
  beaconSf : Option Nat := none
  recoverySf : Option Nat := none
  crowdSf : Option (Nat × Nat) := none
  cellAt : Nat := 0
  tx : U32 := 0
  rxOk : U32 := 0
  crcErr : U32 := 0
  beaconSkip : U32 := 0
  refused : U32 := 0
  lbtBusy : U32 := 0
  resends : U32 := 0
  upRefused : U32 := 0
  deriving DecidableEq, Repr

/-- What a DOWN in flight carries (R345, R350). -/
structure Down where
  kind : Nat
  body : Bytes
  ref : Option CmdRef := none
  resends : Nat := 0
  acked : Bool := false
  deriving DecidableEq, Repr

/-- A connected node's record (R349 to R355): the payload of its AIR_NODE_ADD; its state as NODE_STATE; the superframe
of EVENT 0; its channel map and the one that waits for its INSTANT; the DOWN not yet acknowledged; the messages queued;
the event of the exchange in progress; and the anchors passed without an UP. -/
structure ANode where
  cfg : Bytes
  state : Nat := 0
  conn : Bool := false
  firstSf : Nat := 0
  chmap : Nat := 0
  mapPend : Option (Nat × Nat) := none
  mapAcked : Bool := true
  release : Bool := false
  sn : Bool := false
  nesn : Bool := false
  down : Option Down := none
  queue : List (CmdRef × Bytes) := []
  anchor : Option Nat := none
  missed : Nat := 0
  lostSync : Bool := false
  scanning : Bool := false
  lastContact : Nat := 0
  resends : U32 := 0
  crcErr : U32 := 0
  deriving DecidableEq, Repr

/-- Ezond Air (R334 to R360). `k` is the number of the superframe that runs; `shown` the cells' codes it carries. -/
structure Air where
  net : Option Bytes := none
  k : Option Nat := none
  radios : KMap Radio := []
  blocks : KMap Bytes := []
  pendBlocks : List (Nat × Option Bytes) := []
  nodes : KMap ANode := []
  uplink : List (Nat × Nat × Bytes) := []
  shown : KMap (Nat × Nat × Nat) := []
  deriving DecidableEq, Repr

/-! ## Energy metering and the power cap (R385 to R404) -/

/-- A voltage input: its nominal frequency (0 50 Hz, 1 60 Hz), its scale in mV per V, and whether it is without voltage
(R386, R389). -/
structure VIn where
  nominal : Nat := 0
  vscale : Nat := 1
  lost : Bool := false
  deriving DecidableEq, Repr

/-- A circuit (R386 to R389): its settings; the fine gain in force and the cycles since a sample exceeded 60 % of the gain-16
full scale, with whether one has in this cycle; CLIPPED in the window and in the second, and when it was last reported; the
last complete window with its end and flags; the energy of the second in mW × ns. -/
structure Circuit where
  enable : Bool := false
  vsel : Nat := 0
  invert : Bool := false
  iscale : Nat := 1
  gain : Nat := 16
  quiet : Nat := 0
  loud : Bool := false
  clipped : Bool := false
  clippedSec : Bool := false
  clipAt : Option Nat := none
  window : Option WindowQty := none
  windowEnd : Nat := 0
  windowGain : Nat := 16
  windowClip : Bool := false
  secEnergy : Int := 0
  deriving DecidableEq, Repr

/-- A pulse output (R398). `rem` is its remainder in units of 2^-32 µWh; `until_` the end of its pulse, `rest` the instant
before which none may start. -/
structure Pulse where
  qty : Nat := 0
  circuits : Nat := 0
  uwh : Nat := 0
  widthMs : Nat := 30
  low : Bool := false
  rem : Nat := 0
  owed : Nat := 0
  until_ : Option Nat := none
  rest : Nat := 0
  overAt : Option Nat := none
  deriving DecidableEq, Repr

/-- A save slot in MRAM (R395): its sequence number, PTP and calendar times, the accumulators keyed 5 × circuit + quantity,
the pulse remainders, g, and whether its CRC passes. -/
structure SaveSlot where
  seq : Nat
  time : Nat
  cal : Nat
  acc : KMap Nat
  rems : KMap Nat
  g : Nat
  good : Bool
  deriving DecidableEq, Repr

/-- A coefficient set: IDLE_MW, K0, K1, K2 (R399). -/
structure CoefSet where
  idle : Nat
  k0 : Nat
  k1 : Nat
  k2 : Nat
  deriving DecidableEq, Repr

/-- The settings of the power cap (R403). -/
structure CapSet where
  enable : Bool := false
  circuits : Nat := 0
  capW : Nat := 1
  tauS : Nat := 60
  deriving DecidableEq, Repr

/-- Metering and the power cap (R385 to R404). Accumulators are in units of 2^-32 µWh; powers of the cap in units of 2^-32 µW;
`g` in units of 2^-32. `capEpoch` is the epoch the target serves, `capDone` says that it is computed for the epoch being woven; `puSum` and `puN` gather p_u over the second. `saving`
is the slot being written, `clearRefs` and `saveRefs` the METER_CLEARs that wait for a save to start and for the one in
progress, `cleared` what each has cleared, `saveNow` that one is due at once, and `finalDone` that the last gasp's save is done. -/
structure Meter where
  vin : KMap VIn := []
  circuits : KMap Circuit := []
  acc : KMap Nat := []
  pulses : KMap Pulse := []
  slots : KMap SaveSlot := []
  newest : Option Nat := none
  saveS : Nat := 60
  lastSave : Nat := 0
  saveNow : Bool := false
  saving : Option Nat := none
  clearRefs : List CmdRef := []
  saveRefs : List CmdRef := []
  cleared : List (CmdRef × KMap Nat) := []
  finalDone : Bool := false
  coefs : KMap CoefSet := []
  cap : CapSet := {}
  g : Nat := 4294967296
  frozen : Bool := true
  pMeter : Int := 0
  puSum : Nat := 0
  puN : Nat := 0
  pFixed : Nat := 0
  pVar : Nat := 0
  pPred : Nat := 0
  undef : Nat := 0
  capEpoch : U32 := 0
  capDone : Bool := false
  lateTargets : U32 := 0
  cutting : Bool := false
  deriving DecidableEq, Repr

/-! ## Calibration and trim (R449 to R460) -/

/-- A trim record in MRAM (R452), without its item, kind and instance. -/
structure TrimRec where
  seq : U32
  temp : Int
  data : Bytes
  deriving DecidableEq, Repr

/-- The factory record of an instance: as made at final test, unusable in both copies, or rebuilt (R452, R453). -/
inductive FactoryRec where
  | ok
  | bad
  | rebuilt (r : TrimRec)
  deriving DecidableEq, Repr

/-- An instance (R449 to R457): its records, whether it is due (as one without a live record is at boot), when the run that
discarded its last result ended, and the value in force. -/
structure CalInst where
  factory : FactoryRec := .ok
  live : Option TrimRec := none
  due : Bool := true
  discardAt : Option Nat := none
  value : Option Bytes := none
  deriving DecidableEq, Repr

/-- An item (R449, R454 to R459): its phase (0 idle, 2 running, 3 applying), the instances of its run, the temperature and
time at which it started, the accepted values being applied, the values in force before them, and the last step. -/
structure CalItem where
  phase : Nat := 0
  insts : List Nat := []
  temp : Int := 0
  startAt : Nat := 0
  targets : KMap Bytes := []
  was : KMap Bytes := []
  stepAt : Nat := 0
  lost : Nat := 0
  lastRun : Nat := 0
  runs : U32 := 0
  accepted : U32 := 0
  discarded : U32 := 0
  abandoned : U32 := 0
  repairs : U32 := 0
  deriving DecidableEq, Repr

/-- Calibration and trim (R449 to R460). `insts` is keyed by 1024 × item + instance; `bad` are the records that failed in both
copies, keyed by 2 × that + 1 for a live one; `ctl` and `pwr` are the die temperatures. -/
structure Cal where
  enable : Nat := 31
  delta : Nat := 150
  ctl : Int := 250
  pwr : Int := 250
  items : KMap CalItem := []
  insts : KMap CalInst := []
  bad : List Nat := []
  deriving DecidableEq, Repr

/-! ## Firmware update (R478 to R493) and boot (R494 to R506) -/

/-- What a slot holds and where it stands: 0 EMPTY, 1 staging, 2 STAGED, 3 VERIFIED, 4 REJECTED (R483, R492). -/
structure Slot where
  st : Nat := 0
  length : Nat := 0
  image : Bytes := []
  deriving DecidableEq, Repr

/-- An activation (R484 to R489): the command, the slot and image, WINDOW_S and REQUIRE_HOST; `part` is the run partition it
fills, `oldSlot` and `oldPart` those of the image it replaces; `loadedAt` once the load is complete; `openAt` b_h and `level`
FAB_SVC.LEVEL there, once the window is open; `blockRead` once the handover block is read; whether UPDATE_CONFIRM has been
taken; the CAUSE of a fallback decided and when, and whether the new image has written its block. -/
structure Activation where
  ref : Option CmdRef
  slot : Nat
  version : Nat
  svn : Nat
  windowS : Nat
  host : Bool
  part : Nat := 0
  oldSlot : Nat := 2
  oldPart : Nat := 0
  loadedAt : Option Nat := none
  openAt : Option Nat := none
  level : Nat := 0
  blockRead : Bool := false
  confirmed : Bool := false
  fellAt : Option Nat := none
  cause : Nat := 0
  written : Bool := false
  deriving DecidableEq, Repr

/-- Firmware update (R478 to R493). `running` and `preferred` are slots (0 A, 1 B, 2 Golden); `runs` the images that the two run
partitions hold and `part` the one that runs; `pins` are MOTION, BATT_LOW and OWNER_LOCK as debounced; `keyHash` the SHA-256
of the owner key; `staging` the slot that UPDATE_WRITE fills; `loadSet` the cores of the load set (R484). -/
structure Update where
  slots : KMap Slot := []
  staging : Option Nat := none
  running : Nat := 2
  preferred : Nat := 0
  part : Nat := 0
  runs : KMap Bytes := []
  act : Option Activation := none
  pendingFlag : Bool := false
  minSvn : Nat := 0
  lock : Bool := false
  keyHash : Option Bytes := none
  wrong : Nat := 0
  lockout : Option Nat := none
  motion : Bool := false
  battLow : Bool := false
  ownerPin : Bool := false
  loadSet : List Nat := []
  handovers : U32 := 0
  fallbacks : U32 := 0
  deriving DecidableEq, Repr

/-- Boot (R494 to R506). `stage` is the stage that runs, 0 to 3, and 4 once B3 has ended; `code` the reset's code; `low` says
that RESET_N is held low, `halted` that no image verified, `perst` that PCIE_PERST_N is asserted; `resetWaits` holds a reset
that waits for a last gasp or for the junction to cool (R495, R524); `gaspAt` is the t0 that retention bank 7 keeps (R396). -/
structure Boot where
  stage : Nat := 0
  code : Nat := 0
  low : Bool := false
  halted : Bool := false
  perst : Bool := false
  resetWaits : Bool := false
  gaspAt : Option Nat := none
  deriving DecidableEq, Repr


/-- The whole state. -/
structure State where
  /-- The commands waiting, first in, first out (the block's own queue). -/
  pending : List Instr := []
  /-- PTP TIME in ns. -/
  now : Nat := 0
  /-- The model's own: the instant from which R499 measures the last boot. -/
  bootAt : Nat := 0
  /-- The model's own: how many free values have been drawn. -/
  freeCtr : Nat := 0
  /-- The model's own: what the device has sent, latest first. -/
  out : List Out := []
  /-- FAULT_N as the device drives it: true while the line is held low (R435). -/
  faultLow : Bool := false
  hif : Hif := {}
  mbx : KMap Mbx := []
  cmds : List Cmd := []
  fab : Fab := {}
  wall : WallSt := {}
  place : PlaceSt := {}
  sched : Sched := {}
  mode : ModeSt := {}
  time : TimeSt := {}
  flt : FaultSt := {}
  reel : Reel := {}
  ing : Ingest := {}
  store : StoreSt := {}
  weave : WeaveSt := {}
  health : Health := {}
  link : LinkSt := {}
  twin : Twin := {}
  power : Power := {}
  fix : Fix := {}
  air : Air := {}
  meter : Meter := {}
  cal : Cal := {}
  upd : Update := {}
  boot : Boot := {}
  deriving DecidableEq, Repr

/-- The device right after reset: every field at its reset value, nothing in the queue. (DESIGN CHOICE, log 4; DESIGN CHOICE, log 72) -/
def State.reset : State := {}

end Sys2Proof.Machine
end

