-- ==== Sys2Proof/Machine/Ops.lean ====
section
/-! DEFINITION. The operations every family of commands shares: the instant, what is sent, interrupt status (R59),
events (R75, R529), reel records (R461, R466), violations (R79, R80), commands in flight and their completion (R62,
R66, R73), frame boundaries (R200, R202), and the calendar (R287). -/

namespace Sys2Proof.Machine

/-- The outcome of a command. -/
abbrev Res := Host.Outcome State Fault Refusal

/-! ## The instant and the log of what is sent -/

/-- The state at the instant `t`, or at its own instant where that is later.
(DESIGN CHOICE, log 2; DESIGN CHOICE, log 3; DESIGN CHOICE, log 71) -/
def advance (t : Nat) (s : State) : State := { s with now := max s.now t }

/-- The state with one more thing sent. (DESIGN CHOICE, log 5) -/
def put (o : Out) (s : State) : State := { s with out := o :: s.out }

/-- The next free value below `bound`. (DESIGN CHOICE, log 5) -/
def drawBelow (bound : Nat) (s : State) : Nat × State :=
  (Config.freeBelow bound s.freeCtr % max bound 1, { s with freeCtr := s.freeCtr + 1 })

/-- Which contender an arbiter grants: true for the first named (R73, R183, R442). (DESIGN CHOICE, log 5; DESIGN CHOICE, log 9) -/
def drawArbiter (s : State) : Bool × State :=
  (Config.arbiter s.freeCtr, { s with freeCtr := s.freeCtr + 1 })

/-- `f` applied to the state once for each element of a list. -/
def forEach {α : Type} (l : List α) (s : State) (f : α → State → State) : State := l.foldl (fun s a => f a s) s

/-! ## Modes and boundaries (R200 to R204) -/

/-- A mode's rate as (numerator, denominator) in Hz, its interleave factor and its blanking in µs (R200). -/
def modeRow (m : Nat) : Option (Nat × Nat × Nat × Nat) :=
  match m with
  | 0x01 => some (24, 1, 1, 40)
  | 0x02 => some (25, 1, 1, 40)
  | 0x03 => some (30, 1, 1, 40)
  | 0x04 => some (48, 1, 1, 40)
  | 0x05 => some (50, 1, 1, 40)
  | 0x06 => some (60, 1, 1, 40)
  | 0x07 => some (100, 1, 1, 40)
  | 0x08 => some (120, 1, 1, 40)
  | 0x09 => some (240, 1, 1, 20)
  | 0x0A => some (24000, 1001, 1, 40)
  | 0x0B => some (30000, 1001, 1, 40)
  | 0x0C => some (60000, 1001, 1, 40)
  | 0x0D => some (120000, 1001, 1, 40)
  | 0x0E => some (240, 1, 2, 20)
  | 0x0F => some (480, 1, 4, 10)
  | 0x10 => some (100, 1, 2, 40)
  | 0x11 => some (200, 1, 4, 20)
  | _ => none

/-- The numerator of a mode's rate in Hz; 1 where no mode. -/
def rateNum (m : Nat) : Nat := match modeRow m with | some (a, _, _, _) => a | none => 1
/-- The denominator of a mode's rate in Hz. -/
def rateDen (m : Nat) : Nat := match modeRow m with | some (_, b, _, _) => b | none => 1
/-- The interleave factor of a mode. -/
def modeN (m : Nat) : Nat := match modeRow m with | some (_, _, n, _) => n | none => 1
/-- The period of a mode in ns, rounded down. -/
def periodNs (m : Nat) : Nat := rateDen m * 1000000000 / rateNum m
/-- The blanking of a mode in ns (R201). -/
def blankingNs (m : Nat) : Nat := match modeRow m with | some (_, _, _, b) => 1000 * b | none => 0

/-- Boundary `n` of a mode with a phase: floor(n × P + PHASE_NS + 0.5) (R202). -/
def boundaryOf (m phase n : Nat) : Nat :=
  (2 * n * rateDen m * 1000000000 + (2 * phase + 1) * rateNum m) / (2 * rateNum m)

/-- The index of the first boundary of a mode at or after `x` (R202). -/
def boundaryIdx (m phase x : Nat) : Nat :=
  let n0 := (x - phase) * rateNum m / (rateDen m * 1000000000) - 1
  if x ≤ boundaryOf m phase n0 then n0
  else if x ≤ boundaryOf m phase (n0 + 1) then n0 + 1
  else if x ≤ boundaryOf m phase (n0 + 2) then n0 + 2
  else n0 + 3

/-- A mode is in force. -/
def modeOn (s : State) : Bool := s.mode.mode != 0

/-- The instant of the next boundary of the mode in force. -/
def nextBoundary (s : State) : Nat := boundaryOf s.mode.mode s.mode.phase s.mode.n

/-- The first boundary of the mode in force at or after `x`, not before the next. -/
def boundaryFrom (s : State) (x : Nat) : Nat :=
  boundaryOf s.mode.mode s.mode.phase (max s.mode.n (boundaryIdx s.mode.mode s.mode.phase x))

/-- The epoch of the current period: the low 32 bits of the frame counter (R203). -/
def epochNow (s : State) : U32 := s.mode.counter.setWidth 32

/-- The commit time of epoch `e`, taken as the next epoch of that number from the current one on (R203, R204). -/
def commitTime (s : State) (e : U32) : Nat :=
  boundaryOf s.mode.mode s.mode.phase (s.mode.n + (e - epochNow s).toNat)

/-- An epoch has passed: it is the current one or an earlier one (R126, R205). -/
def epochPassed (s : State) (e : U32) : Bool := decide ((epochNow s - e).toNat < 2 ^ 31)

/-- The epochs from the current one to `e`; negative for one that lies behind. -/
def epochsTo (s : State) (e : U32) : Int :=
  if epochPassed s e then -((epochNow s - e).toNat : Int) else ((e - epochNow s).toNat : Int)

/-- The commit time of an epoch, for one already passed too. -/
def commitTimeI (s : State) (e : U32) : Nat :=
  boundaryOf s.mode.mode s.mode.phase ((s.mode.n : Int) + epochsTo s e).toNat

/-- The start of the weave of an epoch: the boundary before its commit time. -/
def weaveTimeI (s : State) (e : U32) : Nat :=
  boundaryOf s.mode.mode s.mode.phase ((s.mode.n : Int) - 1 + epochsTo s e).toNat

/-- The instant at which a change timed to the next frame boundary takes effect: at once with no mode in force (R528). -/
def changeInstant (s : State) : Nat := if modeOn s then nextBoundary s else s.now

/-! ## Calendar (R287) -/

/-- The RTC in ns since the PTP epoch. (DESIGN CHOICE, log 30) -/
def rtcNs (s : State) : Nat := s.time.rtcSec * 1000000000 + (s.now - s.time.rtcAt)

/-- The calendar time in ns: the RTC less the UTC offset. (DESIGN CHOICE, log 30) -/
def calNow (s : State) : Nat := ((rtcNs s : Int) - s.time.utcOffset * 1000000000).toNat

/-- The TIME of a record made now: calendar time, or with FREE_TIME the time since the last boot (R461). -/
def recTime (s : State) : Nat := if s.time.rtcValid then calNow s else s.now - s.bootAt

/-! ## Interrupt status (R58, R59) -/

/-- The message of vector `n` sent, or kept pending while its entry of the MSI-X table is masked (R54, R59). (PRESUMED, log 74) -/
def msixSend (n : Nat) (s : State) : State :=
  if (kgetD s.hif.msix n {}).masked then { s with hif := { s.hif with msixPend := setBit s.hif.msixPend n true } }
  else put (.msix n) s

/-- HIF_INT_STAT bit `n` set; its message sent where it was 0 and is not masked. -/
def setInt (n : Nat) (s : State) : State :=
  if s.hif.intStat.getLsbD n then s
  else
    let s := { s with hif := { s.hif with intStat := s.hif.intStat ||| BitVec.twoPow 32 n } }
    if s.hif.intMask.getLsbD n then
      msixSend n { s with hif := { s.hif with intSent := s.hif.intSent ||| BitVec.twoPow 32 n } }
    else s

/-! ## The reel's intake (R461, R464, R466, R470) -/

/-- A record's bytes as stored, with its SEQ (R461). -/
def recBytes (r : RRec) (seq : U32) : Bytes :=
  let words := max 4 ((28 + r.data.length + 7) / 8)
  let body := [BitVec.ofNat 8 words, BitVec.ofNat 8 r.cls, BitVec.ofNat 8 r.flags] ++ leN 2 r.source ++ leN 2 r.code
    ++ leN 4 seq.toNat ++ leN 4 r.orig.toNat ++ leN 8 r.time ++ padTo (8 * words - 28) r.data
  0xA5#8 :: (body ++ leN 4 (crc32 body).toNat)

/-- A record in the always-on ring of 16, under the next SEQ (R469, R470). (DESIGN CHOICE, log 60) -/
def aonWrite (r : RRec) (s : State) : State :=
  let seq := s.reel.next
  let st : RStored := { seq := seq, sector := 0xFFFF, bytes := recBytes { r with flags := r.flags ||| 2 } seq }
  { s with reel := { s.reel with next := seq + 1, aon := (st :: s.reel.aon).take 16 } }

/-- A refused record counted in the squall table of 17 entries (R466). -/
def squallAdd (source code cls : Nat) (q : List Squall) : List Squall :=
  if q.any (fun e => e.source == source && e.code == code) then
    modFirst (fun e => e.source == source && e.code == code) (fun e => { e with count := e.count + 1 }) q
  else if q.length < 16 then q ++ [{ source, code, cls, count := 1 }]
  else if q.length == 16 then q ++ [{ source := 0xFFFF, code := 0xFFFF, cls := 0xFF, count := 1 }]
  else modFirst (fun e => e.source == 0xFFFF && e.code == 0xFFFF) (fun e => { e with count := e.count + 1 }) q

/-- A record offered to the reel's staging bobbin of 64: queued, or counted in the squall table when it is full (R466).
While the skeleton-service units are incomplete the always-on domain writes it into its ring (R470), and in the last
gasp the reel refuses it (R471). (DESIGN CHOICE, log 17) -/
def offerRec (r : RRec) (s : State) : State :=
  if s.reel.refusing then s
  else if s.flt.noService then aonWrite r s
  else if s.reel.staging.length < 64 then { s with reel := { s.reel with staging := s.reel.staging ++ [r] } }
  else
    { s with reel := { s.reel with
        squall := squallAdd r.source r.code r.cls s.reel.squall
        squallFirst := if s.reel.squall.isEmpty then r.time else s.reel.squallFirst
        squallAt := if s.reel.squall.isEmpty then s.now else s.reel.squallAt
        squallLast := r.time } }

/-- The FLAGS of a record made now: FREE_TIME while RTC_VALID is 0 (R461). -/
def recFlags (s : State) : Nat := if s.time.rtcValid then 0 else 8

/-- A happening recorded on the reel. (DESIGN CHOICE, log 17) -/
def record (cls source code : Nat) (data : Bytes) (s : State) : State :=
  offerRec { cls, flags := recFlags s, source, code, time := recTime s, data } s

/-! ## Events (R75, R529) -/

/-- The SOURCE of an event: the subsystem of its group (R529). -/
def evSource (code : Nat) : Nat :=
  if code == 0x1002 then 1 else
  match code / 256 with
  | 0x00 => 6 | 0x01 => 6 | 0x02 => 9 | 0x03 => 9 | 0x07 => 9 | 0x04 => 10 | 0x05 => 8 | 0x06 => 11 | 0x08 => 12
  | 0x09 => 13 | 0x0A => 7 | 0x0B => 16 | 0x0C => 16 | 0x0D => 17 | 0x0E => 14 | 0x0F => 15 | 0x10 => 3 | 0x11 => 2
  | 0x12 => 5 | 0x13 => 18 | 0x14 => 19 | 0x15 => 20 | 0x16 => 4
  | _ => 0

/-- An event raised: it waits for EVENT_WRITE with the time of the happening. -/
def emit (code : Nat) (data : Bytes) (s : State) : State :=
  { s with hif := { s.hif with evq := s.hif.evq ++
      [{ code, data := padTo 16 data, time := s.now, source := evSource code }] } }

/-! ## Violations (R79, R80) -/

/-- The FLT_VIOL word of a capture. -/
def violWord (kind : Nat) (inband : Bool) (mbx tag : Nat) : U32 :=
  BitVec.ofNat 32 (2 ^ 31 + kind * 2 ^ 28 + b2n inband * 2 ^ 27 + (mbx % 16) * 2 ^ 20 + tag % 65536)

/-- A violation: counted, recorded, and where VALID was 0 captured with the VIOLATION event (R79). (DESIGN CHOICE, log 17) -/
def violate (kind : Nat) (addr : U32) (inband : Bool) (mbx tag : Nat) (s : State) : State :=
  let w := violWord kind inband mbx tag
  let s := { s with hif := { s.hif with violCnt := s.hif.violCnt + 1 } }
  let s := record 2 (6 * 1024 + mbx) 0x0081 (leN 4 addr.toNat ++ leN 4 w.toNat) s
  if s.hif.viol.getLsbD 31 then s
  else
    let s := { s with hif := { s.hif with violAddr := addr, viol := w } }
    emit 0x0003 (leN 4 addr.toNat ++ leN 4 w.toNat) (setInt 18 s)

/-! ## Commands in flight (R62, R73) -/

/-- Mailbox `n`. -/
def mbxOf (s : State) (n : Nat) : Mbx := kgetD s.mbx n {}

/-- The state with mailbox `n` changed. -/
def modMbx (n : Nat) (f : Mbx → Mbx) (s : State) : State := { s with mbx := kmod s.mbx n {} f }

/-- The command in flight under a reference. -/
def findCmd (r : CmdRef) (s : State) : Option Cmd := s.cmds.find? fun c => c.ref == r

/-- The commands of mailbox `n` in flight. -/
def inFlight (s : State) (n : Nat) : List Cmd :=
  s.cmds.filter fun c => match c.ref with | .mbx m _ => m == n | .cue _ _ => false

/-- The command in flight under a reference, changed. -/
def modCmd (r : CmdRef) (f : Cmd → Cmd) (s : State) : State :=
  { s with cmds := modFirst (fun c => c.ref == r) f s.cmds }

/-- TIMED work done at this instant: it takes a thread beside those that run (R193, R198). -/
def timedWork (s : State) : State :=
  let k := s.sched.timed
  { s with sched := { s.sched with timed := { k with peak := max k.peak (min 32 (k.busy + 1)) } } }

/-- A status that counts as success for a cue's embedded command: OK, ACCEPTED, LATE or ALREADY_DONE (R299). -/
def okStatus (st : Nat) : Bool := decide (st ≤ 3)

/-- The COMMAND class with one thread fewer busy, where the command held one. -/
def freeThread (c : Cmd) (s : State) : State :=
  match c.ref, c.phase with
  | .mbx _ _, .waiting => s
  | .mbx _ _, _ => { s with sched := { s.sched with command := { s.sched.command with busy := s.sched.command.busy - 1 } } }
  | .cue _ _, _ => s

/-- A command's completion record written: its decision point (R73). A mailbox's command leaves its record in the
mailbox's completion bobbin and its tag is remembered for 1 s; a cue's command notes the first failure. (DESIGN CHOICE, log 19) -/
def complete (c : Cmd) (status : Nat) (detail : Nat) (payload : Bytes) (s : State) : State :=
  let s := freeThread c { s with cmds := s.cmds.filter fun d => d.ref != c.ref }
  match c.ref with
  | .mbx n tag =>
    modMbx n (fun m => { m with
      recs := m.recs ++ [{ tag, opcode := c.opcode, status, detail := BitVec.ofNat 64 detail, payload,
                           respAddr := c.respAddr, respLen := c.respLen, inband := c.inband, time := s.now }]
      tags := kset m.tags tag (s.now + 1000000000) }) s
  | .cue q i =>
    { s with time := { s.time with cues := kmod? s.time.cues q fun u =>
        if u.failed.isNone && !okStatus status then { u with failed := some (i, status) } else u } }

/-- A command done with a status and nothing more. -/
def done (c : Cmd) (status : Nat) (s : State) : State := complete c status 0 [] s

/-- A command done with OK and a response payload. (DESIGN CHOICE, log 19) -/
def reply (c : Cmd) (payload : Bytes) (s : State) : State := complete c 0x00 0 payload s

/-- A command that has started waits for its instant without a core (R197). (DESIGN CHOICE, log 19) -/
def park (c : Cmd) (s : State) : State := modCmd c.ref (fun d => { d with phase := .async, core := none }) s

/-- The command under a reference ends with a status, where it is still in flight. -/
def finish (r : CmdRef) (status detail : Nat) (payload : Bytes) (s : State) : State :=
  match findCmd r s with
  | some c => complete c status detail payload s
  | none => s

/-! ## FAULT_N, and what every command leaves -/

/-- FAULT_N is asserted: a source whose reactions include PIN is in the fault state, or the device has no service, a failed
wake waits for its repetition, it is stranded, or no image verified (R36, R380, R435, R502). (DEDUCED, log 13) -/
def faultN (s : State) : Bool :=
  s.flt.srcs.any (fun e => e.2.inFault && bit e.2.applied 2) || s.flt.noService || s.flt.stranded || s.power.failing
    || s.boot.halted

/-- FAULT_N driven low while it is asserted. (DEDUCED, log 13) -/
def drivePin (s : State) : State :=
  if s.faultLow == faultN s then s else put (.pin "FAULT_N" (!faultN s)) { s with faultLow := faultN s }

/-- What a command leaves of the state `s0` it began in, where its effect is `s`: the queue is not its own to change, and
FAULT_N is driven as R435 says. (DEDUCED, log 13) -/
def leave (s0 s : State) : State := drivePin { s with pending := s0.pending }

/-- A verb of the command set: where the command under `r` is in flight, has this opcode and runs on a core, its
effect; otherwise the state at the instant. (DESIGN CHOICE, log 2) -/
def verb (op t : Nat) (r : CmdRef) (s : State) (f : Cmd → State → State) : Res :=
  let s := advance t s
  match findCmd r s with
  | some c => if c.opcode == op && c.core.isSome then .next (leave s (f c s)) else .next s
  | none => .next s

/-- More than the always-on domain runs: not in Sleep, Deep Sleep, a last gasp, off, held in reset, or in stage B0 (R364, R370,
R496, R499). (DEDUCED, log 18) -/
def awake (s : State) : Bool := decide (s.power.st ≤ 2) && s.power.gasp.isNone && !s.boot.low && decide (1 ≤ s.boot.stage)

/-- An event of the device at the instant `t`; while only the always-on domain runs, it is without effect.
(DESIGN CHOICE, log 2; DESIGN CHOICE, log 71) -/
def happens (t : Nat) (s : State) (f : State → State) : Res :=
  let s := advance t s
  if awake s then .next (leave s (f s)) else .next s

/-- An event of the always-on domain at the instant `t`. (DESIGN CHOICE, log 2) -/
def always (t : Nat) (s : State) (f : State → State) : Res :=
  let s := advance t s
  .next (leave s (f s))

/-! ## Status codes (R68) -/

def stOK : Nat := 0x00
def stACCEPTED : Nat := 0x01
def stLATE : Nat := 0x02
def stALREADY : Nat := 0x03
def stBUSY : Nat := 0x10
def stTIMEOUT : Nat := 0x11
def stFLUSHED : Nat := 0x12
def stABORTED : Nat := 0x13
def stPAST : Nat := 0x20
def stRANGE : Nat := 0x21
def stNOTFOUND : Nat := 0x22
def stSTATE : Nat := 0x23
def stDENIED : Nat := 0x24
def stVIOLATION : Nat := 0x30
def stUNSUPPORTED : Nat := 0x31
def stINTERNAL : Nat := 0x3F

/-- The authority of R72: over PCIe, or in-band under key slot 0. -/
def keyAuthority (c : Cmd) : Bool :=
  match c.inband with
  | none => true
  | some i => i.key == 0

/-! ## Policies for the past (R288) -/

/-- The outcome of an action that is `late` ns past its target: whether it is carried out and the status it reports.
`policy` 0 executes late, 1 rejects. -/
def latePolicy (policy grace late : Nat) : Bool × Nat :=
  if late ≤ grace then (true, 0x00) else if policy == 0 then (true, 0x02) else (false, 0x20)

end Sys2Proof.Machine
end

