-- ==== Sys2Proof/Machine/Canvas.lean ====
section
/-! DEFINITION. Where pixels lie: the tile grid on the canvas (R148), the layers (R85, R155), and the words of the frame
store that hold them (R133, R134). -/

namespace Sys2Proof.Machine

/-- The tile of a number in a wall. -/
def tileOf (w : WallImg) (tile : Nat) : Option TileRec := w.tiles.find? fun r => r.tile == tile

/-- The chain of a number in a wall. -/
def chainOf (w : WallImg) (chain : Nat) : Option ChainRec := w.chains.find? fun r => r.chain == chain

/-- The tile at a position of a chain. -/
def tileAt (w : WallImg) (chain pos : Nat) : Option TileRec := w.tiles.find? fun r => r.chain == chain && r.pos == pos

/-- A tile's pixels. -/
def tilePx (r : TileRec) : Nat := r.w * r.h

/-- The pixels of a wall. -/
def wallPx (w : WallImg) : Nat := (w.tiles.map tilePx).sum

/-- The tiles of a chain in POSITION order from end A. -/
def chainTiles (w : WallImg) (chain : Nat) : List TileRec :=
  sortBy (fun r => r.pos) (w.tiles.filter fun r => r.chain == chain)

/-- The chain that names a port in a wall, with whether it is end A. -/
def chainOfPort (w : WallImg) (port : Nat) : Option (ChainRec × Bool) :=
  match w.chains.find? (fun c => c.portA == port || c.portB == port) with
  | some c => some (c, c.portA == port)
  | none => none

/-- A port is a chain port of the active wall. -/
def isChainPort (s : State) (port : Nat) : Bool :=
  match s.wall.active with
  | some w => (chainOfPort w port).isSome
  | none => false

/-- The canvas position of the pixel of an index (R148). -/
def canvasXY (r : TileRec) (idx : Nat) : Nat × Nat :=
  let i := idx % max r.w 1
  let j := idx / max r.w 1
  match r.rot with
  | 0 => (r.cx + i, r.cy + j)
  | 1 => (r.cx + (r.h - 1 - j), r.cy + i)
  | 2 => (r.cx + (r.w - 1 - i), r.cy + (r.h - 1 - j))
  | _ => (r.cx + j, r.cy + (r.w - 1 - i))

/-- A source record covers a canvas pixel. -/
def covers (r : SrcRec) (x y : Nat) : Bool :=
  decide (r.cx ≤ x) && decide (x < r.cx + r.w) && decide (r.cy ≤ y) && decide (y < r.cy + r.h)

/-- The record that supplies a pixel of a layer: the latest in image order that covers it (R155). -/
def layerRec (w : WallImg) (layer x y : Nat) : Option SrcRec :=
  (w.srcs.filter fun r => r.layer == layer && covers r x y).getLast?

/-- The source column and row under a canvas pixel of a record (R85). -/
def srcXY (r : SrcRec) (x y : Nat) : Nat × Nat := (r.sx + (x - r.cx), r.sy + (y - r.cy))

/-- The key of a word: kind 0 woven buffer of a chain, 1 source plane, 2 correction of a tile (copy 0 the present one, 1 a load's,
2 a restore's, 3 one that waits for its switch), 3 direct-path pixels of a video source, 4 defect bitmap of a tile, 16 pixels a
word (R304); the object, the copy and the word's index. (DESIGN CHOICE, log 11; DESIGN CHOICE, log 12) -/
def wordKey (kind obj copy idx : Nat) : Nat := ((kind * 65536 + obj) * 4 + copy) * 2 ^ 28 + idx

/-- The kind, object, copy and index of a key. (DESIGN CHOICE, log 12) -/
def keyParts (key : Nat) : Nat × Nat × Nat × Nat :=
  (key / 2 ^ 28 / 4 / 65536, key / 2 ^ 28 / 4 % 65536, key / 2 ^ 28 % 4, key % 2 ^ 28)

/-- A source plane's object number: its source identifier and kind. -/
def planeObj (kind source : Nat) : Nat := source * 4 + kind

/-- The index of a tile's first pixel in its chain's woven buffer (R133). -/
def wovenBase (w : WallImg) (r : TileRec) : Nat :=
  (((chainTiles w r.chain).filter fun q => decide (q.pos < r.pos)).map tilePx).sum

/-- The key of a woven pixel of a tile in an epoch (R134). -/
def wovenKey (w : WallImg) (r : TileRec) (e : U32) (idx : Nat) : Nat :=
  wordKey 0 r.chain (e.toNat % 2) (wovenBase w r + idx)

/-- The fixed hash that ranks the banks for a tile's correction (R139). The manual gives no hash; it never shows in
what is woven. (DESIGN CHOICE, log 7) -/
def corrRank (tile bank : Nat) : Nat := (Config.bankHash tile bank).toNat

/-- The bank of a tile's defect bitmap among those of `up`: that of its correction data, or where the tile has none the first
in its ranking (R139, R304). (DESIGN CHOICE, log 45) -/
def mapBank (up : Nat) (s : State) (tile : Nat) : Option Nat :=
  match kget? s.store.corr tile with
  | some c => if c.present then some c.bank else first
  | none => first
where
  first : Option Nat := (sortBy (fun b => 4294967295 - corrRank tile b) ((List.range 32).filter fun b => bit up b)).head?

/-- The bank that holds an object's copy, where it is placed (R96, R139). (DESIGN CHOICE, log 12) -/
def bankOfKey (s : State) (key : Nat) : Option Nat :=
  match keyParts key with
  | (0, obj, copy, _) =>
    match kget? s.place.inForce.woven obj with
    | some (e, o) => some (if copy == 0 then e else o)
    | none => none
  | (1, obj, copy, _) =>
    match kget? s.place.inForce.planes obj with
    | some (e, o) => some (if copy == 0 then e else o)
    | none => none
  | (2, obj, copy, _) =>
    match kget? s.store.corr obj with
    | some c =>
      if copy == 0 then (if c.present then some c.bank else none)
      else (if copy == 1 then c.load else if copy == 2 then c.rest else c.ready).map fun p => p.bank
    | none => none
  | (4, obj, _, _) => mapBank s.store.up s obj
  | _ => none

/-- The bytes per pixel of a host-plane layout (R47). -/
def layoutBytes (l : Nat) : Nat := match l with | 0 => 2 | 1 => 3 | _ => 4

/-- Every tile pixel that shows a canvas pixel: (tile record, index). -/
def pixelsAt (w : WallImg) (x y : Nat) : List (TileRec × Nat) :=
  w.tiles.flatMap fun r =>
    ((List.range (tilePx r)).filter fun i => canvasXY r i == (x, y)).map fun i => (r, i)

end Sys2Proof.Machine
end

