-- ==== Sys2Proof/Machine/StoreOps.lean ====
section
/-! DEFINITION. Reading and writing the frame store through its check code (R136 to R138, R145), and what a retention or
bank loss does to the data it held (R139, R140, R143, R144). -/

namespace Sys2Proof.Machine

/-- A detection of a fault source noted for the end of the step, at whose instant it is handled (R432). (DESIGN CHOICE, log 58) -/
def raise (source cause : Nat) (values : List Int) (s : State) : State :=
  { s with flt := { s.flt with due := s.flt.due ++ [(source, cause, values)] } }

/-- Frame-store bank `b` is in service. -/
def bankUp (s : State) (b : Nat) : Bool := bit s.store.up b

/-- A bank's record changed. -/
def modBank (b : Nat) (f : FBank → FBank) (s : State) : State :=
  { s with store := { s.store with banks := kmod s.store.banks b {} f } }

/-- The word at a key. -/
def wordAt (s : State) (key : Nat) : Word64 := kgetD s.store.words key {}

/-- The word at a key replaced. (DESIGN CHOICE, log 11) -/
def setWord (key : Nat) (w : Word64) (s : State) : State :=
  { s with store := { s.store with words := kput s.store.words key {} w } }

/-- A word written with fresh check bits, taking an error armed on its bank (R145). A bank out of service takes none: what
it holds is invalid (R102). -/
def storeWrite (key : Nat) (data : Nat) (s : State) : State :=
  let d : U64 := BitVec.ofNat 64 data
  match bankOfKey s key with
  | none => setWord key { data := d } s
  | some b =>
    if !bankUp s b then s
    else match (kgetD s.store.banks b {}).armed with
    | [] => setWord key { data := d } s
    | n :: rest => setWord key { data := d, err := n, injected := true } (modBank b (fun k => { k with armed := rest }) s)

/-- A correctable error met at a word of bank `b`: counted, corrected, and hard where it recurs (R136, R138). -/
def correctable (b key : Nat) (injected : Bool) (s : State) : State :=
  let k := kgetD s.store.banks b {}
  let recurs := k.fixedOnce.contains key && !injected
  let hardNew := recurs && !k.hardAt.contains key
  let s := modBank b (fun k => { k with
    ce := k.ce + 1
    fixedOnce := if injected || k.fixedOnce.contains key then k.fixedOnce else key :: k.fixedOnce
    hard := if hardNew then k.hard + 1 else k.hard
    hardAt := if hardNew then key :: k.hardAt else k.hardAt }) s
  if hardNew && k.hardAt.length == 255 then raise (0x2C00 + b) 2 [256] s else s

/-- An uncorrectable error met at a word of bank `b`: counted, and the fourth distinct address within 1 s raises the
bank's source (R138). -/
def uncorrectable (b key : Nat) (injected : Bool) (s : State) : State :=
  let s := modBank b (fun k => { k with ue := k.ue + 1 }) s
  if injected then s
  else
    let recent := kset (kfilter (kgetD s.store.banks b {}).recentUe fun _ at_ => decide (s.now < at_ + 1000000000)) key s.now
    let s := modBank b (fun k => { k with recentUe := recent }) s
    if 4 ≤ recent.length then raise (0x2C00 + b) 1 [recent.length] s else s

/-- A word read through its check code (R136): its data, whether it is uncorrectable, and the state after. -/
def storeRead (key : Nat) (s : State) : Nat × Bool × State :=
  let w := wordAt s key
  let b := (bankOfKey s key).getD 0
  if w.err == 0 then (w.data.toNat, false, s)
  else if w.err == 1 then
    (w.data.toNat, false, correctable b key w.injected (setWord key { data := w.data } s))
  else (w.data.toNat, true, uncorrectable b key w.injected s)

/-- A ply slot's VALID bit cleared, its other bits kept (R114). -/
def invalidate (key : Nat) (s : State) : State :=
  let w := wordAt s key
  setWord key { w with data := w.data &&& (~~~ BitVec.twoPow 64 54) } s

/-- Every word of an object's copy discarded. -/
def dropObject (kind obj copy : Nat) (s : State) : State :=
  { s with store := { s.store with words := kfilter s.store.words fun k _ =>
      !(decide (wordKey kind obj copy 0 ≤ k) && decide (k < wordKey kind obj copy 0 + 2 ^ 28)) } }

/-- Every word of an object's copy moved to another copy of it (R139). -/
def moveObject (kind obj src dst : Nat) (s : State) : State :=
  let l := s.store.words.filter fun e =>
    decide (wordKey kind obj src 0 ≤ e.1) && decide (e.1 < wordKey kind obj src 0 + 2 ^ 28)
  let s := dropObject kind obj src (dropObject kind obj dst s)
  forEach l s fun e s => setWord (wordKey kind obj dst (e.1 - wordKey kind obj src 0)) e.2 s

/-- CORR_STATE emitted for a tile (R146). -/
def corrEvent (tile st : Nat) (s : State) : State := emit 0x0602 (leN 2 tile ++ leN 1 st) s

/-- A tile's correction record changed. -/
def modCorr (tile : Nat) (f : Corr → Corr) (s : State) : State :=
  { s with store := { s.store with corr := kmod s.store.corr tile {} f } }

/-- A tile's correction. -/
def corrOf (s : State) (tile : Nat) : Corr := kgetD s.store.corr tile {}

/-- The 64-bit words of a correction copy of `px` pixels (R133). -/
def corrWords (record px : Nat) : Nat := if record == 0 then px else 2 * px

/-! ## Buffers (R96, R133, R135) -/

/-- The bytes of a source's plane; 0 for a video source on the direct path (R133, R135). -/
def planeSize (s : State) (profile kind source : Nat) : Nat :=
  match kind with
  | 0 => if profile == 3 then 0 else match kget? s.ing.videos source with | some v => 8 * v.w * v.h | none => 0
  | 1 => match kget? s.ing.planes source with | some v => v.w * v.h * layoutBytes v.layout | none => 0
  | _ => match kget? s.ing.maps source with | some v => 8 * v.w * v.h | none => 0

/-- A buffer to place: whether it is a source plane, its object, the number a pin names, and the bytes of a copy. -/
structure Buf where
  plane : Bool
  obj : Nat
  name : Nat
  size : Nat
  deriving DecidableEq, Repr

/-- Every buffer in placement order: woven buffers in CHAIN order, then source planes in SOURCE order (R96). -/
def buffers (s : State) (w : WallImg) (profile : Nat) : List Buf :=
  let chains := (sortBy (fun (c : ChainRec) => c.chain) w.chains).map fun c =>
    ({ plane := false, obj := c.chain, name := c.chain, size := 8 * ((chainTiles w c.chain).map tilePx).sum } : Buf)
  let objs := sortBy id (w.srcs.map fun r => planeObj r.kind r.source).eraseDups
  let planes := objs.filterMap fun o =>
    if o % 4 == 0 && profile == 3 then none
    else some ({ plane := true, obj := o, name := o / 4, size := planeSize s profile (o % 4) (o / 4) } : Buf)
  chains ++ planes

/-- The bytes of buffers placed in a bank. (DESIGN CHOICE, log 12) -/
def bankBufBytes (s : State) (b : Nat) : Nat :=
  match s.wall.active with
  | none => 0
  | some w =>
    ((buffers s w s.place.profile).map fun q =>
      match kget? (if q.plane then s.place.inForce.planes else s.place.inForce.woven) q.obj with
      | some (e, o) => (if e == b then q.size else 0) + (if o == b then q.size else 0)
      | none => 0).sum

/-! ## Correction (R139 to R144) -/

/-- The pixels of a tile of the active wall. -/
def wallTilePx (s : State) (tile : Nat) : Nat :=
  match s.wall.active with
  | some w => match tileOf w tile with | some r => tilePx r | none => 0
  | none => 0

/-- The tiles with an entry in the defect map (R304). -/
def mappedTiles (s : State) : List Nat := (s.health.defects.map fun e => e.1 / 4 / 65536).eraseDups

/-- Correction data in bytes placed in bank `b`, copies not yet in use and defect bitmaps included (R139, R304). -/
def corrBytes (s : State) (b : Nat) : Nat :=
  (s.store.corr.map fun e =>
    let px := wallTilePx s e.1
    let copy (q : Option CorrCopy) : Nat := match q with | some p => if p.bank == b then 8 * corrWords p.record px else 0 | none => 0
    (if e.2.present && e.2.bank == b then 8 * corrWords e.2.record px else 0) + copy e.2.load + copy e.2.rest + copy e.2.ready).sum
    + ((mappedTiles s).map fun t => if mapBank s.store.up s t == some b then 8 * ((wallTilePx s t + 15) / 16) else 0).sum

/-- A bank in service with room for `bytes` of a tile's correction, highest in the ranking (R139): what its buffers leave of
its 256 MiB (R96, R131). (DESIGN CHOICE, log 37; DESIGN CHOICE, log 40) -/
def corrBank (s : State) (tile bytes : Nat) : Option Nat :=
  let cand := (List.range 32).filter fun b =>
    bankUp s b && decide (bankBufBytes s b + corrBytes s b + bytes ≤ 268435456)
  (sortBy (fun b => 4294967295 - corrRank tile b) cand).head?

/-- The tiles of the active wall in TILE order. -/
def wallTiles (s : State) : List TileRec :=
  match s.wall.active with
  | some w => sortBy (fun r => r.tile) w.tiles
  | none => []

/-- A tile has a copy in the correction store that its restore may use: the CRC passes and the pixel count matches
(R142). -/
def flashUsable (s : State) (tile : Nat) : Option FlashCorr :=
  match kget? s.store.flash tile with
  | none => none
  | some f =>
    if f.px == wallTilePx s tile && crc32 f.data == f.crc then some f else none

/-- A restore of a tile's correction started, or its absence reported: STATE 4 with no usable store copy, STATE 6 with
no bank room (R142). (DESIGN CHOICE, log 40) -/
def startRestore (tile : Nat) (s : State) : State :=
  match flashUsable s tile with
  | none => corrEvent tile 4 s
  | some f =>
    match corrBank s tile (8 * corrWords f.record f.px) with
    | none => corrEvent tile 6 s
    | some b => modCorr tile (fun c => { c with rest := some { record := f.record, bank := b } }) s

/-- A tile has no correction and no copy of one on its way. -/
def corrLacks (s : State) (tile : Nat) : Bool :=
  let c := corrOf s tile
  !c.present && c.load.isNone && c.rest.isNone && c.ready.isNone

/-- A restore for every tile with no correction, in TILE order (R142). -/
def restoreAll (s : State) : State :=
  forEach (wallTiles s) s fun r s => if corrLacks s r.tile then startRestore r.tile s else s

/-- The restores that found no room are tried again, in TILE order (R142). (DESIGN CHOICE, log 40) -/
def retryRestores (s : State) : State :=
  forEach (wallTiles s) s fun r s =>
    match flashUsable s r.tile with
    | some f => if corrLacks s r.tile && (corrBank s r.tile (8 * corrWords f.record f.px)).isSome then startRestore r.tile s else s
    | none => s

/-- A tile's correction lacks for the weave in force: the weave holds CORRECT and the tile's correction is absent
(R140). -/
def corrMissing (s : State) (tile : Nat) : Bool :=
  match s.weave.active with
  | some w => w.nodes.any (fun n => n.kind == 0x12) && !(corrOf s tile).present
  | none => false

/-- A tile's skeins withdrawn: it receives no further skeins of the epoch (R140, R187). -/
def withdrawTile (tile : Nat) (s : State) : State :=
  let s := { s with link := { s.link with
    skeins := s.link.skeins.filter (fun k => k.tile != tile)
    ports := kmap s.link.ports fun _ q => { q with queue := q.queue.filter (fun f =>
      match f.kind with | .skein t _ _ => t != tile | _ => true) } } }
  -- the seeder releases no further token of the tile (R178)
  { s with sched := { s.sched with banks := kmap s.sched.banks fun _ k => { k with seed := k.seed.filter fun h => h.tile != tile } } }

/-- A tile's correction made absent with CORR_STATE 0: it receives no further skeins where the weave corrects (R140). -/
def corrGone (tile : Nat) (s : State) : State :=
  let s := corrEvent tile 0 (dropObject 2 tile 0 (modCorr tile (fun c => { c with present := false }) s))
  if corrMissing s tile then withdrawTile tile s else s

/-- A tile's correction lost: it is absent and is restored, as are those that the space freed makes room for (R140, R142). -/
def corrLost (tile : Nat) (s : State) : State :=
  let s := corrGone tile s
  retryRestores (if corrLacks s tile then startRestore tile s else s)

/-- A complete copy waits for its switch in the place of one that waited (R139): it lay under `copy`. -/
def corrReady (tile copy : Nat) (p : CorrCopy) (s : State) : State :=
  modCorr tile (fun c => { c with ready := some { p with ref := none } }) (moveObject 2 tile copy 3 s)

/-- A tile switches to the copy that waits, and the old data is freed (R139). (DESIGN CHOICE, log 40) -/
def corrSwitch (tile : Nat) (s : State) : State :=
  match (corrOf s tile).ready with
  | some p =>
    { modCorr tile (fun c => { c with present := true, record := p.record, bank := p.bank, ready := none })
        (moveObject 2 tile 3 0 s) with mode := { s.mode with moved := true } }
  | none => s

/-- Every tile with a complete copy switches, and restores that waited for the space freed start (R139, R142). -/
def corrSwitchAll (s : State) : State :=
  let l := (s.store.corr.filter fun e => e.2.ready.isSome).map (·.1)
  if l.isEmpty then s else retryRestores (forEach l s corrSwitch)

/-- A load that has not written its completion record ends ABORTED. -/
def corrLoadAborted (tile : Nat) (s : State) : State :=
  match (corrOf s tile).load with
  | some p =>
    let s := dropObject 2 tile 1 (modCorr tile (fun c => { c with load := none }) s)
    (match p.ref with | some r => finish r stABORTED 0 [] s | none => s)
  | none => s

/-- What bank `b` holds of a tile's correction lost (R140, R144): a load into it ends ABORTED; a complete copy not yet in use
is lost with CORR_STATE 7 or 0; a present correction becomes absent; all but an aborted load are restored. (DESIGN CHOICE, log 40) -/
def corrTileLost (b tile : Nat) (s : State) : State :=
  let c := corrOf s tile
  let inB (q : Option CorrCopy) : Bool := match q with | some p => p.bank == b | none => false
  let s := if inB c.load then corrLoadAborted tile s else s
  let s := if inB c.rest then dropObject 2 tile 2 (modCorr tile (fun c => { c with rest := none }) s) else s
  let s := if inB c.ready then dropObject 2 tile 3 (modCorr tile (fun c => { c with ready := none }) s) else s
  let s :=
    if c.present && c.bank == b then corrGone tile s
    else if inB c.ready then corrEvent tile (if c.present then 7 else 0) s
    else s
  if corrLacks s tile && (c.present || inB c.ready || inB c.rest) then startRestore tile s else s

/-- The defect bitmaps of a lost bank are written again from the map in MRAM, with fresh check bits (R139, R304). -/
def bitmapsRewritten (b : Nat) (s : State) : State :=
  let l := (mappedTiles s).filter fun t => mapBank (s.store.up ||| 2 ^ b) s t == some b
  { s with store := { s.store with words := kmap s.store.words fun k w =>
      if (keyParts k).1 == 4 && l.contains (keyParts k).2.1 then { data := w.data } else w } }

/-- The correction held in bank `b` lost (R140, R144). -/
def corrBankLost (b : Nat) (s : State) : State :=
  let s := bitmapsRewritten b s
  retryRestores (forEach (s.store.corr.map (·.1)) s (corrTileLost b))

/-- Correction yields to the buffers a placement puts in its bank, the highest tiles first. (DESIGN CHOICE, log 40) -/
def corrMakeRoom (s : State) : State :=
  forEach (List.range 32) s fun b s => forEach (s.store.corr.map (·.1)).reverse s fun tile s =>
    if bankBufBytes s b + corrBytes s b ≤ 268435456 then s else corrTileLost b tile s

/-- The buffers of bank `b` discarded (R102, R143, R144): the woven and source copies placed there. A plane whose front
copy lay there has no content until it is written again. -/
def buffersLost (b : Nat) (s : State) : State :=
  let s := forEach s.place.inForce.woven s fun e s =>
    let s := if e.2.1 == b then dropObject 0 e.1 0 s else s
    if e.2.2 == b then dropObject 0 e.1 1 s else s
  forEach s.place.inForce.planes s fun e s =>
    let gone := fun copy => if copy == 0 then e.2.1 == b else e.2.2 == b
    let s := if gone 0 then dropObject 1 e.1 0 s else s
    let s := if gone 1 then dropObject 1 e.1 1 s else s
    let src := e.1 / 4
    match e.1 % 4 with
    | 0 => { s with ing := { s.ing with videos := kmod? s.ing.videos src fun v => if gone v.front then { v with hasFront := false } else v } }
    | 1 => { s with ing := { s.ing with planes := kmod? s.ing.planes src fun v => if gone v.front then { v with hasFront := false } else v } }
    | _ => { s with ing := { s.ing with maps := kmod? s.ing.maps src fun v => if gone v.front then { v with hasFront := false } else v } }

/-- BANK_STATE emitted (R146). -/
def bankEvent (b st cause : Nat) (s : State) : State := emit 0x0601 (leN 1 b ++ leN 1 st ++ leN 1 cause) s

/-- What the 8 canary rows of a bank hold in every word once written (R143). -/
def canaryRows : List U64 := (List.range 8).map fun i => if i % 2 == 0 then 0xAAAAAAAAAAAAAAAA else 0x5555555555555555

/-- The canary rows of every bank written. -/
def canariesWrite (s : State) : State := forEach (List.range 32) s fun b s => modBank b (fun k => { k with rows := canaryRows }) s

/-- A bank whose canary rows failed: its contents discarded, the bank stays in service (R143). -/
def canaryFailed (b : Nat) (s : State) : State :=
  let s := modBank b (fun k => { k with canaryFail := k.canaryFail + 1 }) s
  corrBankLost b (buffersLost b (bankEvent b 2 4 s))

end Sys2Proof.Machine
end

