-- ==== Sys2Proof/Machine/PortOps.lean ====
section
/-! DEFINITION. What every port does: counting (R268, R269), the transmit queue and its classes (R264), the Ezond frame
header (R225, R226), and timestamps (R271, R272). -/

namespace Sys2Proof.Machine

/-- Port `p`. -/
def portOf (s : State) (p : Nat) : Port := kgetD s.link.ports p {}
/-- A port changed. -/
def modPort (p : Nat) (f : Port → Port) (s : State) : State :=
  { s with link := { s.link with ports := kmod s.link.ports p {} f } }
/-- A port's link counters changed. -/
def modLnk (p : Nat) (f : LinkCnt → LinkCnt) (s : State) : State := modPort p (fun q => { q with lnk := f q.lnk }) s

/-- The line rate of a speed code in b/s, as skeins are sent at it (R258, R265). -/
def lineRate (speed : Nat) : Nat :=
  match speed with
  | 0 => 10000000000
  | 1 => 5000000000
  | 2 => 2500000000
  | _ => 1000000000

/-- The time `bytes` take on a line of a speed, in ns, rounded up. (DESIGN CHOICE, log 42) -/
def lineNs (speed bytes : Nat) : Nat := (bytes * 8 * 1000000000 + lineRate speed - 1) / lineRate speed

/-! ## Counters (R268, R269) -/

/-- The size bin of a good frame's length. -/
def sizeBin (len : Nat) : Nat :=
  if len ≤ 64 then 0 else if len ≤ 127 then 1 else if len ≤ 255 then 2 else if len ≤ 511 then 3
  else if len ≤ 1023 then 4 else if len ≤ 1518 then 5 else if len ≤ 2047 then 6 else if len ≤ 4095 then 7 else 8

/-- A port's counter `n` raised by `k`; bit 31 of the register rising sets its HALF bit and CNT_HALF (R269). The twin
lane pair has no BAR0 block and no HALF bits (R274). -/
def bumpCnt (p n k : Nat) (s : State) : State :=
  let old := kgetD (portOf s p).cnt n 0
  let new := old + k
  let s := modPort p (fun q => { q with cnt := kset q.cnt n new }) s
  if p < 64 && !bit old 31 && bit new 31 then
    setInt 16 (modPort p (fun q => { q with half := setBit q.half n true }) s)
  else s

/-- A counter lowered by `k`: a frame counted at its start and then cut counts only in ABORTED_TX (R268). -/
def dropCnt (p n k : Nat) (s : State) : State :=
  modPort p (fun q => { q with cnt := kset q.cnt n (kgetD q.cnt n 0 - k) }) s

/-- The destination class of a frame as a counter offset. -/
def castOff (c : Cast) : Nat := match c with | .uni => 0 | .multi => 1 | .broad => 2

/-- A good received frame counted. (DESIGN CHOICE, log 44) -/
def countRx (p len : Nat) (cast : Cast) (ez : Option Nat) (ptp pause : Bool) (s : State) : State :=
  let s := bumpCnt p (sizeBin len) 1 s
  let s := bumpCnt p (9 + castOff cast) 1 s
  let s := if pause then bumpCnt p 12 1 s else if ptp then bumpCnt p 13 1 s
    else match ez with
      | some ty => if ty = 0 || 11 < ty then s else bumpCnt p (13 + ty) 1 s
      | none => s
  bumpCnt p 33 len s

/-- One link error of a port: the 65th within 1 s detects the port, and any starts the lull of a port in the fault state
again (R429, R436, R438). After a detection the count starts anew. (DESIGN CHOICE, log 58) -/
def linkError (p : Nat) (s : State) : State :=
  let s := modLnk p (fun c => { c with linkErr := c.linkErr + 1 }) s
  let s : State := { s with flt := { s.flt with
    srcs := kmod? s.flt.srcs (0x1C00 + p) fun q => { q with quietAt := none, lullEnd := none } } }
  let win := (kgetD s.flt.linkErrs p []).filter (fun a => decide (s.now < a + 1000000000)) ++ [s.now]
  if 65 ≤ win.length then
    raise (0x1C00 + p) 1 [win.length] { s with flt := { s.flt with linkErrs := kset s.flt.linkErrs p [] } }
  else { s with flt := { s.flt with linkErrs := kset s.flt.linkErrs p win } }

/-- The identifier of the ingress bobbin of a port. (DESIGN CHOICE, log 75) -/
def ingressBob (port : Nat) : Nat := 8 * 1024 + port

/-- The words that wait in a port's ingress bobbin (R108). -/
def ingressFill (s : State) (port : Nat) : Nat := (kgetD s.fab.bobbins (ingressBob port) {}).words.length

/-- The role of a port, as R261 numbers it; 3 stands for the twin pair, which takes none (R274). -/
def roleAt (s : State) (p : Nat) : Nat := if p == 64 then 3 else (portOf s p).role

/-- A received frame with an error: counted once, and a link error of a standard port (R268, R436). -/
def rxError (p n : Nat) (s : State) : State :=
  let s := bumpCnt p n 1 s
  if p < 64 && (portOf s p).role == 1 then linkError p s else s

/-- The receiver of a port runs: an off port's is powered down (R261). -/
def hears (s : State) (p : Nat) : Bool := p == 64 || (portOf s p).role != 0

/-- The frame drops that a full ingress bobbin makes at the start of a frame (R109): the counter, if one. (DESIGN CHOICE, log 44) -/
def rxDrop (s : State) (p : Nat) (video : Bool) : Option Nat :=
  if roleAt s p != 1 || (portOf s p).retired then none
  else if 2048 ≤ ingressFill s p then some 32
  else if video && 1792 ≤ ingressFill s p then some 31
  else none

/-- A frame without a bad FCS that a port hears: dropped where the ingress bobbin is full, an error by its length, or good and
counted; a retired port, or one that has not the role the frame is for, discards it there (R109, R259, R261, R268, R273).
(DESIGN CHOICE, log 44) -/
def rxGate (role p len : Nat) (cast : Cast) (ez : Option Nat) (ptp video : Bool) (s : State) (f : State → State) : State :=
  if !hears s p then s
  else match rxDrop s p video with
    | some n => bumpCnt p n 1 s
    | none =>
      if len < 64 then rxError p 26 s
      else if 9216 < len then rxError p 27 s
      else
        let s := countRx p len cast ez ptp false s
        if (portOf s p).retired then bumpCnt p 32 1 s
        else if roleAt s p == role then f s else s

/-- The key of a universe's record: its number and the port it is received on, 0xFF for all (R123). -/
def univKey (n scope : Nat) : Nat := n * 256 + scope

/-- The class of an IPv4 destination. -/
def castOfIp (ip : U32) : Cast := if ip.toNat / 2 ^ 28 == 14 then .multi else .uni

/-- The Ezond TYPE of a kind of frame (R227). -/
def ezType (k : TxKind) : Option Nat :=
  match k with
  | .skein _ _ _ => some 1
  | .commit _ => some 2
  | .discover | .assign | .measure | .offset => some 6
  | .speed => some 7
  | .calm => some 8
  | .wake => some 9
  | .safe _ => some 10
  | .probe => some 11
  | _ => none

/-- A frame is PTP. -/
def isPtp (k : TxKind) : Bool := match k with | .ptp _ => true | _ => false

/-- A sent frame counted, or with `add` false uncounted. -/
def countTx (add : Bool) (p : Nat) (f : TxFrame) (s : State) : State :=
  let g := fun n k s => if add then bumpCnt p n k s else dropCnt p n k s
  let s := g (34 + sizeBin f.len) 1 s
  let s := g (43 + castOff f.cast) 1 s
  let s := if isPtp f.kind then g 46 1 s
    else match ezType f.kind with | some ty => g (46 + ty) 1 s | none => s
  g 58 f.len s

/-- The bits of MAC_HALF_LO and MAC_HALF_HI as one word, and a clearing write to one of them (R269). -/
def halfClear (p : Nat) (hi : Bool) (v : U32) (s : State) : State :=
  modPort p (fun q => { q with half := (List.range 32).foldl (fun h i =>
    if v.getLsbD i then setBit h (if hi then 32 + i else i) false else h) q.half }) s

def execMacHalfClear (t port : Nat) (hi : Bool) (v : U32) (s : State) : Res :=
  happens t s fun s => if port < 64 then halfClear port hi v s else s

/-! ## Frames of Ezond Link (R225, R226) -/

/-- The controller frame header of R226. -/
def ezHdr (ver ty flags : Nat) (s : State) (chain fromEnd dst hops len : Nat) : Bytes :=
  beN 1 (16 * ver + ty) ++ beN 1 flags ++ beN 2 s.twin.cgen.toNat ++ beN 1 chain ++ beN 1 fromEnd ++ beN 1 dst
    ++ beN 1 hops ++ beN 2 0 ++ beN 2 len

/-- The length on the wire, from destination address to FCS, of an Ezond frame of a message. -/
def ezLen (body : Bytes) : Nat := max 64 (18 + body.length)

/-- The length of an IPv4 UDP frame with `n` bytes of UDP payload. -/
def udpLen (n : Nat) : Nat := max 64 (46 + n)

/-! ## The transmit queue (R264) -/

/-- A frame's class of R264. -/
def txClass (k : TxKind) : Nat :=
  match k with
  | .safe _ => 1
  | .commit _ => 2
  | .discover | .assign | .measure | .offset | .speed | .calm | .wake | .probe => 3
  | .ptp _ => 4
  | .skein _ _ _ => 5
  | .sacnData _ _ | .sacnSync _ | .igmp _ _ | .inband _ _ | .hello | .digest | .dack => 6

/-- A frame of the enumeration and measurement of chain ends (R413). -/
def isEnum (k : TxKind) : Bool :=
  match k with | .discover | .assign | .measure | .offset => true | _ => false

/-- The device sends on its chain ports as the one controller of the wall: twin operation is disabled, or the device
holds the active role and its first boundary has come (R407, R413, R420). -/
def controls (s : State) : Bool := !s.twin.enabled || (s.twin.role == 1 && s.twin.pending.isNone)

/-- A distaff that holds the active's generation from a HELLO of the last 10 ms (R413). -/
def followsActive (s : State) : Bool :=
  s.twin.enabled && s.twin.role == 0
    && (match s.twin.partner, s.twin.lastHello with
        | some h, some at_ => h.role == 1 && h.cgen == s.twin.cgen && decide (s.now ≤ at_ + 10000000)
        | _, _ => false)

/-- A port may be given a frame of a kind: a chain port in service under R413, a standard port, or the twin pair. -/
def maySend (p : Nat) (k : TxKind) (s : State) : Bool :=
  let q := portOf s p
  if p == 64 then true
  else if q.retired then false
  else match q.role with
    | 2 => controls s || (isEnum k && followsActive s)
    | 1 => q.enabled
    | _ => false

/-- A frame given to a port to send; discarded where the port may not send it. -/
def queueTx (p : Nat) (f : TxFrame) (s : State) : State :=
  if maySend p f.kind s then modPort p (fun q => { q with queue := q.queue ++ [f] }) s else s

/-- A frame is a resend of a skein, given how often its skein has been sent (R232). -/
def isResend (s : State) (f : TxFrame) : Bool :=
  match f.kind with
  | .skein tile idx _ => s.link.skeins.any fun k => k.tile == tile && k.idx == idx && decide (0 < k.sends)
  | _ => false

/-- The rank in which a port's line takes waiting frames: the class of R264, resends first among skeins. (DESIGN CHOICE, log 42) -/
def txRank (s : State) (f : TxFrame) : Nat :=
  2 * txClass f.kind + (if txClass f.kind == 5 && isResend s f then 0 else 1)

/-- The waiting frames that lie whole in a port's transmit buffer of 32 KiB, in the order in which they start (R264). Those of
the higher class are loaded first. (DESIGN CHOICE, log 42) -/
def txBuffer (s : State) (l : List TxFrame) : List TxFrame :=
  (sortBy (txRank s) l).foldl (fun acc f => if (acc.map (·.len)).sum + f.len ≤ 32768 then acc ++ [f] else acc) []

/-- The waiting frame that a port starts next (R264), with the rest. (DESIGN CHOICE, log 42) -/
def nextTx (s : State) (l : List TxFrame) : Option (TxFrame × List TxFrame) :=
  match txBuffer s l with
  | [] => none
  | f :: _ => some (f, dropFirst (· == f) l)

/-- The 14 bytes that go before the message of a frame of Ezond Link or of the twin pair: its addresses and EtherType (R225,
R414). (DESIGN CHOICE, log 7; DESIGN CHOICE, log 42) -/
def frameHead (p : Nat) (f : TxFrame) : Bytes :=
  let own := (List.finRange 6).map (Config.portAddress p)
  match f.kind with
  | .hello | .digest | .dack => [0x03, 0x5A, 0x4C, 0x00, 0x01, 0x00] ++ own ++ [0x9C, 0x2F]
  | .ptp _ | .sacnData _ _ | .sacnSync _ | .igmp _ _ | .inband _ _ => []
  | _ => [0x03, 0x5A, 0x4C, 0x00, 0x00, byteAt f.body 4] ++ own ++ [0x9C, 0x2E]

/-! ## Timestamps (R271, R272) -/

/-- The EGRESS constant of a speed in tenths of a ns (R271). -/
def egressTenths (speed : Nat) : Nat :=
  match speed with | 0 => 288 | 1 => 544 | 2 => 672 | _ => 864

/-- tx_ts of a frame whose start-of-frame delimiter is captured now, in units of 2^-16 ns. -/
def txStamp (s : State) (p : Nat) : Nat :=
  let q := portOf s p
  ((s.now * 65536 + egressTenths q.speed * 65536 / 10 : Nat) + (if p == 64 then 0 else q.txExtra * 1024)).toNat

/-- The timestamp bobbin of a port's group. (DESIGN CHOICE, log 44) -/
def tsGroupOf (p : Nat) : Nat := p / 8

/-- A frame with a timestamp identifier writes its entry, or is refused and counted (R272). (DESIGN CHOICE, log 44) -/
def stampTx (p id : Nat) (s : State) : State :=
  let ts := txStamp s p
  { s with link := { s.link with ts := kmod s.link.ts (tsGroupOf p) {} fun g =>
      if g.entries.length < 16 then
        { g with entries := g.entries ++ [{ id, port := p, gap := g.gapNext, frac := ts % 65536, time := ts / 65536 }]
                 gapNext := false }
      else { g with lost := g.lost + 1, ovf := true, gapNext := true } } }

/-- TS_OVF cleared through MAC_PSTAT of any port of its group (R270, R272). (DESIGN CHOICE, log 44) -/
def tsOvfClear (p : Nat) (v : U32) (s : State) : State :=
  if v.getLsbD 31 then
    { s with link := { s.link with ts := kmod s.link.ts (tsGroupOf p) {} fun g => { g with ovf := false } } }
  else s

def execTsOvfClear (t port : Nat) (v : U32) (s : State) : Res :=
  happens t s fun s => if port < 64 then tsOvfClear port v s else s

/-! ## Port state -/

/-- A port's receiver powered down: it detects neither signal nor lock (R261). -/
def receiverOff (p : Nat) (s : State) : State :=
  let s := modPort p (fun q => { q with lock := false, signal := false, anDone := false
                                        lastChange := if q.lock then s.now else q.lastChange }) s
  { s with flt := { s.flt with lockLostAt := kerase s.flt.lockLostAt p } }

/-- PORT_STATE emitted (R276). (DESIGN CHOICE, log 43) -/
def portEvent (p st cause : Nat) (s : State) : State :=
  emit 0x0A01 (leN 1 p ++ leN 1 st ++ leN 1 (portOf s p).speed ++ leN 1 cause) s

/-- The STATE of PORT_STATE for a port in service: up while it has lock. -/
def portUpState (s : State) (p : Nat) : Nat := b2n (portOf s p).lock

/-- MAC_PSTAT of a port (R270). -/
def pstat (s : State) (p : Nat) : Nat :=
  let q := portOf s p
  let gen2 := match q.linkgen with | some g => g == 2 | none => !s.hif.compat
  2 ^ 31 * b2n (kgetD s.link.ts (tsGroupOf p) {}).ovf + 2 ^ 11 * b2n q.anDone
    + 2 ^ 10 * b2n (decide (s.now < q.pausedUntil)) + 2 ^ 9 * b2n gen2 + 2 ^ 8 * b2n q.retired + 64 * q.role
    + 16 * q.speed + 4 * b2n q.req.isSome + 2 * b2n q.signal + b2n q.lock

/-- A port is a chain port in service: it has the chain role and is not retired (R97, R102, R273). -/
def chainUp (s : State) (p : Nat) : Bool :=
  let q := portOf s p
  q.role == 2 && !q.retired

end Sys2Proof.Machine
end

