-- ==== Sys2Proof/Machine/ModeOps.lean ====
section
/-! DEFINITION. What several families share of modes, placement triggers and frame lock: a mode change asked for (R205),
a trigger of a new placement (R100), and the tracking of a video stream (R284). -/

namespace Sys2Proof.Machine

/-- A trigger of a new placement at this instant (R100, R103). -/
def placeTrigger (cause subsys inst : Nat) (s : State) : State :=
  { s with place := { s.place with triggers := s.place.triggers ++ [{ cause, subsys, inst, at_ := s.now }] } }

/-- The trigger of a mode change, whose placement is in force from its change boundary `bc` (R206). -/
def modeTrigger (bc : Nat) (s : State) : State :=
  { s with place := { s.place with triggers := s.place.triggers ++
      [{ cause := 7, subsys := 0, inst := 0, at_ := bc - 8000000 }] } }

/-- The change boundary of a mode change taken now with no target: the first boundary at least 8 ms on, of the mode in
force, or of the new mode where none is (R205). -/
def changeBoundary (s : State) (mode phase x : Nat) : Nat :=
  if modeOn s then boundaryFrom s x else boundaryOf mode phase (boundaryIdx mode phase x)

/-- A mode change pending, with its placement trigger (R100, R205). (DESIGN CHOICE, log 36) -/
def modeAsk (mode phase : Nat) (slots : U32) (bc : Nat) (ref : Option CmdRef) (status detail : Nat) (s : State) : State :=
  let s := { s with mode := { s.mode with pending := some { mode, phase, slots, bc, ref, status, detail } } }
  if mode == s.mode.mode && phase == s.mode.phase then s else modeTrigger bc s

/-- A relock of the mode in force to a new phase, as a MODE_SET with WHEN = 0 (R284, R285). It waits where another
change is pending. -/
def relock (phase : Nat) (s : State) : State :=
  if modeOn s && s.mode.pending.isNone && s.place.pendProfile.isNone && s.wall.pending.isNone
      && phase != s.mode.phase then
    modeAsk s.mode.mode phase s.mode.slots (boundaryFrom s (s.now + 8000000)) none 0 0 s
  else s

/-- The distance between two phases, the shorter way around the period (R284). -/
def phaseGap (p a b : Nat) : Nat :=
  let d := if a < b then b - a else a - b
  min d (p - d)

/-- The time state's lock fields changed. -/
def setLock (st : Nat) (s : State) : State := { s with time := { s.time with lockState := st } }

/-- A completed frame of the stream that frame lock names, with its frame time in ns (R284): the stream's rate must be
the output rate over 1 to 8; the first lock and a drift beyond TOL_NS over 8 frames move PHASE_NS. -/
def videoLock (src tv : Nat) (s : State) : State :=
  if s.time.lockSource != 1 || s.time.lockId != src || !modeOn s then s
  else
    let p := periodNs s.mode.mode
    let last := s.time.lockLastTv
    let s := { s with time := { s.time with lockLastTv := some tv } }
    let phi := (((tv : Int) + s.time.lockOffset) % (p : Int)).toNat
    let rateOk := match last with
      | none => true
      | some l => (List.range 8).any fun k =>
          -- a frame spans (k + 1) periods to within a tick of the 90 kHz clock
          let want := (k + 1) * p
          let got := tv - l
          decide (got ≤ want + 11112) && decide (want ≤ got + 11112)
    if !rateOk then setLock 3 s
    else if last.isNone then s
    else if !s.time.lockFirst then
      let s := { s with time := { s.time with lockFirst := true, lockRunOff := 0 } }
      if phi == s.mode.phase then setLock 1 s else relock phi (setLock 2 s)
    else if s.mode.pending.isSome then s
    else if s.time.lockTol < phaseGap p phi s.mode.phase then
      let n := s.time.lockRunOff + 1
      let s := { s with time := { s.time with lockRunOff := n } }
      if 8 ≤ n then relock phi (setLock 2 s) else s
    else setLock 1 { s with time := { s.time with lockRunOff := 0 } }

end Sys2Proof.Machine
end

