-- ==== Sys2Proof/Machine/Light.lean ====
section
/-! DEFINITION. Light arithmetic: exact rationals, powers and logarithms of two to 96 fractional bits, the forming of a
strand (R38), twist and gamma arithmetic (R43, R44), the linear working format (R45), the transfers of host planes and
video (R48, R111) and the D16 code (R51). The manual asks for correctly computed results; the 2^-90 error of the
fixed-point log here is far below any distance to a rounding boundary it meets (notes/assumptions/20.md). -/

namespace Sys2Proof.Machine

/-- An exact rational, not reduced; the denominator is never 0. -/
structure Q where
  num : Int
  den : Nat
  deriving DecidableEq, Repr

def qi (n : Int) : Q := { num := n, den := 1 }
def qf (n : Int) (d : Nat) : Q := { num := n, den := max d 1 }
def qadd (a b : Q) : Q := { num := a.num * b.den + b.num * a.den, den := a.den * b.den }
def qneg (a : Q) : Q := { a with num := -a.num }
def qsub (a b : Q) : Q := qadd a (qneg b)
def qmul (a b : Q) : Q := { num := a.num * b.num, den := a.den * b.den }
/-- The quotient; 0 where the divisor is 0. -/
def qdiv (a b : Q) : Q :=
  if b.num = 0 then qi 0
  else if b.num < 0 then { num := -(a.num * b.den), den := a.den * b.num.natAbs }
  else { num := a.num * b.den, den := a.den * b.num.natAbs }
def qlt (a b : Q) : Bool := decide (a.num * b.den < b.num * a.den)
def qle (a b : Q) : Bool := decide (a.num * b.den ≤ b.num * a.den)
/-- floor(q). -/
def qfloor (a : Q) : Int := a.num / (a.den : Int)
/-- floor(q + 0.5): the rounding of R38. -/
def qround (a : Q) : Int := (2 * a.num + a.den) / (2 * (a.den : Int))
/-- `a` held to 0 to 1. -/
def qunit (a : Q) : Q := if a.num < 0 then qi 0 else if qlt (qi 1) a then qi 1 else a

/-- The fractional bits of the fixed-point logarithm. -/
def logBits : Nat := 96
/-- The working fractional bits. -/
def workBits : Nat := 256

/-- The next bits of a binary logarithm by repeated squaring of a mantissa in [1, 2). -/
def logDigits : Nat → Nat → Nat → Nat
  | 0, _, acc => acc
  | n + 1, m, acc =>
    let m2 := m * m / 2 ^ workBits
    if 2 ^ (workBits + 1) ≤ m2 then logDigits n (m2 / 2) (2 * acc + 1) else logDigits n m2 (2 * acc)

/-- log2(n / d) for positive n and d, in units of 2^-96, rounded down. (DESIGN CHOICE, log 20) -/
def log2Fix (n d : Nat) : Int :=
  let e0 : Int := (Nat.log2 n : Int) - (Nat.log2 d : Int)
  -- n/d lies in [2^(e0-1), 2^(e0+1))
  let e : Int := if e0 ≥ 0 then (if d * 2 ^ e0.toNat ≤ n then e0 else e0 - 1)
                 else (if d ≤ n * 2 ^ (-e0).toNat then e0 else e0 - 1)
  let m := if e ≥ 0 then n * 2 ^ workBits / (d * 2 ^ e.toNat) else n * 2 ^ (workBits + (-e).toNat) / d
  e * (2 ^ logBits : Nat) + (logDigits logBits m 0 : Nat)

/-- The integer square root by Newton's iteration from above. -/
def isqrt : Nat → Nat → Nat → Nat
  | 0, _, x => x
  | fuel + 1, n, x =>
    let y := (x + n / x) / 2
    if y < x then isqrt fuel n y else x

/-- 2^(2^-i) for i = 1, 2, …, in units of 2^-workBits. -/
def rootsOfTwo : Nat → Nat → List Nat
  | 0, _ => []
  | n + 1, c =>
    let r := isqrt 400 (c * 2 ^ workBits) (2 ^ (workBits + 1))
    r :: rootsOfTwo n r

/-- The product of the roots of two that the bits of `f` select, most significant first. -/
def expDigits : List Nat → Nat → Nat → Nat → Nat
  | [], _, _, acc => acc
  | r :: rest, f, top, acc =>
    if Nat.testBit f top then expDigits rest f (top - 1) (acc * r / 2 ^ workBits) else expDigits rest f (top - 1) acc

/-- 2^(x / 2^96), as a rational accurate to some 2^-240. (DESIGN CHOICE, log 20) -/
def exp2Fix (x : Int) : Q :=
  let e := x / (2 ^ logBits : Nat)
  let f := (x - e * (2 ^ logBits : Nat)).toNat
  let m := if f == 0 then 2 ^ workBits
    else expDigits (rootsOfTwo logBits (2 ^ (workBits + 1))) f (logBits - 1) (2 ^ workBits)
  if e ≥ 0 then { num := (m * 2 ^ e.toNat : Nat), den := 2 ^ workBits } else { num := (m : Nat), den := 2 ^ (workBits + (-e).toNat) }

/-- 2^(k / 8192). (DESIGN CHOICE, log 20) -/
def exp2Twist (k : Int) : Q := exp2Fix (k * (2 ^ (logBits - 13) : Nat))

/-! ## Strands (R37, R38, R42 to R44) -/

/-- Reference white. -/
def refWhite : Int := 196608

/-- A strand formed from a rounded code (R38). -/
def formCode (v : Int) : Nat := if v < 1 then 0 else if 262143 < v then 262143 else v.toNat

/-- A strand formed from r (R38). -/
def form (r : Q) : Nat := formCode (qround r)

/-- A strand v ≠ 0 dimmed by `t` twists; black absorbs (R42, R43). (DESIGN CHOICE, log 20) -/
def dimTw (v : Nat) (t : Int) : Nat := if v == 0 then 0 else formCode (v + clampI (-8388607) 8388607 t)

/-- Gamma of exponent G / 4096 about reference white (R44). (DESIGN CHOICE, log 20) -/
def gammaTw (v g : Nat) : Nat :=
  if v == 0 then 0 else form { num := refWhite * 4096 + g * ((v : Int) - refWhite), den := 4096 }

/-- A relative level n / d in twists: round(scale × log2(n / d)), floored at −196,608 (R119). -/
def levelTw (scale n d : Nat) : Int :=
  if n == 0 then -196608
  else max (-196608) ((2 * scale * log2Fix n d + (2 ^ logBits : Nat)) / (2 * (2 ^ logBits : Nat)))

/-- The strand of a positive linear level whose scaled log is k × log2(x) / den: r := 196,608 + 8192 × … (R48). (DESIGN CHOICE, log 20) -/
def formLog (l : Int) : Nat :=
  formCode ((2 * (refWhite * (2 ^ logBits : Nat) + 8192 * l) + (2 ^ logBits : Nat)) / (2 * (2 ^ logBits : Nat)))

/-- The linear-to-log converter on a finite level (R45). -/
def formLinear (x : Q) : Nat := if x.num ≤ 0 then 0 else formLog (log2Fix x.num.natAbs x.den)

/-! ## The linear working format (R45) -/

/-- A binary32 value: finite, infinite or not a number. -/
inductive Lin where
  | fin (q : Q)
  | pinf
  | ninf
  | nan
  deriving DecidableEq, Repr

/-- A positive rational rounded to binary32, ties to even; none where it overflows. -/
def round32Pos (n d : Nat) : Option Q :=
  if n == 0 then some (qi 0)
  else
    let e0 : Int := (Nat.log2 n : Int) - (Nat.log2 d : Int)
    let e : Int := if e0 ≥ 0 then (if d * 2 ^ e0.toNat ≤ n then e0 else e0 - 1)
                   else (if d ≤ n * 2 ^ (-e0).toNat then e0 else e0 - 1)
    let u : Int := max e (-126) - 23
    let (n', d') := if u ≥ 0 then (n, d * 2 ^ u.toNat) else (n * 2 ^ (-u).toNat, d)
    let q := n' / d'
    let r := n' % d'
    let q := if d' < 2 * r || (d' == 2 * r && q % 2 == 1) then q + 1 else q
    if u ≥ 0 then
      if 2 ^ 128 ≤ q * 2 ^ u.toNat then none else some { num := (q * 2 ^ u.toNat : Nat), den := 1 }
    else some { num := (q : Nat), den := 2 ^ (-u).toNat }

/-- A rational rounded to binary32. -/
def round32 (x : Q) : Lin :=
  match round32Pos x.num.natAbs x.den with
  | some q => .fin (if x.num < 0 then qneg q else q)
  | none => if x.num < 0 then .ninf else .pinf

/-- The log-to-linear converter (R45). -/
def toLin (v : Nat) : Lin := if v == 0 then .fin (qi 0) else round32 (exp2Twist ((v : Int) - refWhite))

/-- Sum of two binary32 values kept exact until a node rounds its result. -/
def ladd (a b : Lin) : Lin :=
  match a, b with
  | .nan, _ => .nan
  | _, .nan => .nan
  | .pinf, .ninf => .nan
  | .ninf, .pinf => .nan
  | .pinf, _ => .pinf
  | _, .pinf => .pinf
  | .ninf, _ => .ninf
  | _, .ninf => .ninf
  | .fin x, .fin y => .fin (qadd x y)

/-- A binary32 value times a finite factor. -/
def lscale (k : Q) (a : Lin) : Lin :=
  match a with
  | .fin x => .fin (qmul k x)
  | .nan => .nan
  | .pinf => if k.num = 0 then .nan else if k.num < 0 then .ninf else .pinf
  | .ninf => if k.num = 0 then .nan else if k.num < 0 then .pinf else .ninf

/-- A node's result rounded to binary32 (R150). -/
def lround (a : Lin) : Lin := match a with | .fin x => round32 x | b => b

/-- The strand a linear value forms and whether it is poisoned (R45). -/
def lform (a : Lin) : Nat × Bool :=
  match a with
  | .fin x => (formLinear x, false)
  | .pinf => (262143, false)
  | .ninf => (0, false)
  | .nan => (0, true)

/-- A linear value that is a binary32 number: rounding it changes nothing. -/
def lexact (a : Lin) : Bool :=
  match a with
  | .fin x => (match round32 x with | .fin y => x.num * y.den == y.num * x.den | _ => false)
  | _ => true

/-- A linear value is zero. -/
def lzero (a : Lin) : Bool := match a with | .fin x => x.num == 0 | _ => false

/-- A sum of products of binary32 values, exact, and whether binary32 arithmetic rounds it at most once whatever the order: one
product, or two that need no rounding of their own (R150). -/
def lsum (l : List (Q × Lin)) : Lin × Bool :=
  let terms := l.map fun t => lscale t.1 t.2
  let live := terms.filter fun t => !lzero t
  (terms.foldl ladd (.fin (qi 0)), decide (live.length ≤ 1) || (terms.all lexact && decide (live.length ≤ 2)))

/-- A binary32 value `k` units of its last place away. -/
def nudge (a : Lin) (k : Int) : Lin :=
  match a with
  | .fin x =>
    let n := x.num.natAbs
    let e0 : Int := (Nat.log2 n : Int) - (Nat.log2 x.den : Int)
    let e : Int := if e0 ≥ 0 then (if x.den * 2 ^ e0.toNat ≤ n then e0 else e0 - 1)
                   else (if x.den ≤ n * 2 ^ (-e0).toNat then e0 else e0 - 1)
    let u : Int := max e (-126) - 23
    round32 (qadd x (if u ≥ 0 then qi (k * 2 ^ u.toNat) else qf k (2 ^ (-u).toNat)))
  | b => b

/-- A linear value of 262,143.5 codes or more: one that saturates (R153). -/
def lsat (a : Lin) : Bool :=
  match a with
  | .fin x => if x.num ≤ 0 then false
    else decide (2 * 262143 * (2 ^ logBits : Nat) + (2 ^ logBits : Nat)
      ≤ 2 * (refWhite * (2 ^ logBits : Nat) + 8192 * log2Fix x.num.natAbs x.den))
  | .pinf => true
  | _ => false

/-! ## Transfers (R48, R111) -/

/-- A channel code `c` of `n` bits under a transfer: 0 LINEAR, 1 POWER with g in 0.001, 2 SRGB (R48). (DESIGN CHOICE, log 20) -/
def channelStrand (transfer g n c : Nat) : Nat :=
  let m := 2 ^ n - 1
  if c == 0 then 0
  else match transfer with
  | 0 => formLog (log2Fix c m)
  | 1 => formLog ((g : Int) * log2Fix c m / 1000)
  | _ =>
    if c * 100000 ≤ 4045 * m then formLog (log2Fix (c * 100) (m * 1292))
    else formLog (12 * log2Fix (1000 * c + 55 * m) (1055 * m) / 5)

/-- The ST 2084 EOTF over 10,000 cd/m², of a nonlinear level e in 0 to 1, as a linear level. -/
def pqLevel (e : Q) : Q :=
  if e.num ≤ 0 then qi 0
  else
    -- 1/m2 = 32 / 2523 and 1/m1 = 8192 / 1305
    let p := exp2Fix (32 * log2Fix e.num.natAbs e.den / 2523)
    let a := qsub p (qf 107 128)
    if a.num ≤ 0 then qi 0
    else
      let b := qsub (qf 2413 128) (qmul (qf 2392 128) p)
      let y := qdiv a b
      exp2Fix (8192 * log2Fix y.num.natAbs y.den / 1305)

/-- The strand of a nonlinear component e under a stream's transfer: SDR e^2.4, or PQ over REF_NITS (R111). -/
def videoStrand (pq : Bool) (nits : Nat) (e : Q) : Nat :=
  if e.num ≤ 0 then 0
  else if pq then formLinear (qmul (qf 10000 nits) (pqLevel e))
  else formLog (12 * log2Fix e.num.natAbs e.den / 5)

/-- A stream's code triple as R′, G′, B′, clamped to 0 to 1 (R111 steps 1 to 3). `sampling` 0 and 1 are YCbCr. -/
def videoRgb (sampling depth : Nat) (bt2020 full : Bool) (p : Nat × Nat × Nat) : Q × Q × Q :=
  let k : Nat := 2 ^ (depth - 8)
  let luma (c : Nat) : Q := if full then qf c (2 ^ depth - 1) else qf ((c : Int) - (16 * k : Nat)) (219 * k)
  let chroma (c : Nat) : Q :=
    if full then qf ((c : Int) - 2 ^ (depth - 1)) (2 ^ depth - 1) else qf ((c : Int) - (128 * k : Nat)) (224 * k)
  if sampling == 2 then (qunit (luma p.1), qunit (luma p.2.1), qunit (luma p.2.2))
  else
    let kr := if bt2020 then 2627 else 2126
    let kb := if bt2020 then 593 else 722
    let y := luma p.1
    let cb := chroma p.2.1
    let cr := chroma p.2.2
    let r := qadd y (qmul (qf (2 * (10000 - kr)) 10000) cr)
    let b := qadd y (qmul (qf (2 * (10000 - kb)) 10000) cb)
    let g := qdiv (qsub (qsub y (qmul (qf kr 10000) r)) (qmul (qf kb 10000) b)) (qf (10000 - kr - kb) 10000)
    (qunit r, qunit g, qunit b)

/-! ## The wire (R51) -/

/-- The D16 drive code of a strand on a chain of full scale `fs` (R51). (DESIGN CHOICE, log 20) -/
def d16 (fs v : Nat) : Nat :=
  if v == 0 then 0
  else if fs ≤ v then 65535
  else (qround (qmul (qi 65535) (exp2Twist ((v : Int) - fs)))).toNat

/-- The drive of a strand, min(1, 2^((v − fs)/8192)), in units of 2^-32, rounded down (R166).
(DESIGN CHOICE, log 20; DESIGN CHOICE, log 24) -/
def driveOf (fs v : Nat) : Nat :=
  if v == 0 then 0
  else if fs ≤ v then 2 ^ 32
  else (qfloor (qmul (qi (2 ^ 32 : Nat)) (exp2Twist ((v : Int) - fs)))).toNat

/-! ## Plies (R39, R40) -/

/-- A ply's three strands. -/
structure Ply where
  s0 : Nat := 0
  s1 : Nat := 0
  s2 : Nat := 0
  deriving DecidableEq, Repr

/-- A slot's bits 55:0 (R40). -/
def slotWord (p : Ply) (valid poison : Bool) : Nat :=
  p.s0 % 2 ^ 18 + p.s1 % 2 ^ 18 * 2 ^ 18 + p.s2 % 2 ^ 18 * 2 ^ 36 + b2n valid * 2 ^ 54 + b2n poison * 2 ^ 55

/-- The ply of a slot (R39). -/
def slotPly (w : Nat) : Ply :=
  { s0 := w % 2 ^ 18, s1 := w / 2 ^ 18 % 2 ^ 18, s2 := w / 2 ^ 36 % 2 ^ 18 }

end Sys2Proof.Machine
end

