-- ==== Sys2Proof/Machine/Pixel.lean ====
section
/-! DEFINITION. The weave on one pixel: the operation table of R153, node by node (R149 to R160, R164, R166, R211). -/

namespace Sys2Proof.Machine

/-- What a node delivers: its strands, its binary32 result where it is an N node (R150), its alpha and its tags. -/
structure Val where
  ply : Ply := {}
  lin : Option (Lin × Lin × Lin) := none
  alpha : Nat := 0
  valid : Bool := true
  poison : Bool := false
  deriving DecidableEq, Repr

/-- Black at alpha 0: what an uncovered canvas pixel gives (R155). (DESIGN CHOICE, log 21) -/
def uncovered : Val := {}

/-- The steps of a profile's shed order that are applied (R91, R92). -/
def shedOrder (profile : Nat) : List Nat :=
  match profile with
  | 0 => [1, 2, 3, 4]
  | 1 => [1, 2, 3, 4]
  | 2 => [1, 3, 2, 4]
  | _ => [1, 2]

/-- Shed step `k` is applied (R92). -/
def shedOn (s : State) (k : Nat) : Bool := ((shedOrder s.place.profile).take s.place.shed).contains k

/-- A packed host pixel's red, green and blue strands and its alpha, under the plane's transfer (R47, R48, R50). -/
def hostPixel (layout transfer gamma v : Nat) : Ply × Nat :=
  let st := channelStrand transfer gamma
  match layout with
  | 0 => ({ s0 := st 5 (v / 2048 % 32), s1 := st 6 (v / 32 % 64), s2 := st 5 (v % 32) }, 255)
  | 1 => ({ s0 := st 8 (v % 256), s1 := st 8 (v / 256 % 256), s2 := st 8 (v / 65536 % 256) }, 255)
  | 2 => ({ s0 := st 8 (v % 256), s1 := st 8 (v / 256 % 256), s2 := st 8 (v / 65536 % 256) }, v / 2 ^ 24 % 256)
  | _ => ({ s0 := st 10 (v % 1024), s1 := st 10 (v / 1024 % 1024), s2 := st 10 (v / 2 ^ 20 % 1024) },
          85 * (v / 2 ^ 30 % 4))

/-- The `n` bytes of a packed plane from byte `o`, read word by word (R133, R136). -/
def planeBytes (obj copy : Nat) : Nat → Nat → State → Nat × Bool × State
  | 0, _, s => (0, false, s)
  | n + 1, o, s =>
    let (w, p, s) := storeRead (wordKey 1 obj copy (o / 8)) s
    let (rest, q, s) := planeBytes obj copy n (o + 1) s
    (w / 2 ^ (8 * (o % 8)) % 256 + 256 * rest, p || q, s)

/-- A ply slot as a value (R40, R136). -/
def slotVal (key alpha : Nat) (s : State) : Val × State :=
  let (w, bad, s) := storeRead key s
  ({ ply := slotPly w, alpha, valid := bit w 54, poison := bit w 55 || bad }, s)

/-- The pixel (x, y) of a source record's source (R111, R112, R116, R123 to R126). A source with no content gives
VALID = 0; so does one whose plane found no room (R144), and a pixel outside the source (notes/assumptions/21.md).
(DESIGN CHOICE, log 21) -/
def sourcePixel (r : SrcRec) (x y : Nat) (s : State) : Val × State :=
  let (sx, sy) := srcXY r x y
  let obj := planeObj r.kind r.source
  let none' : Val := { alpha := 255, valid := false }
  if !(r.kind == 0 && s.place.profile == 3) && !khas s.place.inForce.planes obj then (none', s) else
  match r.kind with
  | 0 =>
    match kget? s.ing.videos r.source with
    | some v =>
      if v.w ≤ sx || v.h ≤ sy then (none', s)
      else if s.place.profile == 3 then slotVal (wordKey 3 obj 0 (sy * v.w + sx)) 255 s
      else if v.hasFront then slotVal (wordKey 1 obj v.front (sy * v.w + sx)) 255 s
      else (none', s)
    | none => (none', s)
  | 1 =>
    match kget? s.ing.planes r.source with
    | some v =>
      if v.w ≤ sx || v.h ≤ sy || !v.hasFront then (none', s)
      else
        let b := layoutBytes v.layout
        let (px, bad, s) := planeBytes obj v.front b ((sy * v.w + sx) * b) s
        let (ply, a) := hostPixel v.layout v.transfer v.gamma px
        ({ ply, alpha := a, poison := bad }, s)
    | none => (none', s)
  | _ =>
    match kget? s.ing.maps r.source with
    | some v =>
      if v.w ≤ sx || v.h ≤ sy || !v.hasFront then (none', s)
      else slotVal (wordKey 1 obj v.front (sy * v.w + sx)) 255 s
    | none => (none', s)

/-- A canvas layer at (x, y); off the canvas, an uncovered pixel (R155). (DESIGN CHOICE, log 21) -/
def layerPixel (w : WallImg) (layer : Nat) (x y : Int) (s : State) : Val × State :=
  if x < 0 || y < 0 || (w.canvasW : Int) ≤ x || (w.canvasH : Int) ≤ y then (uncovered, s)
  else match layerRec w layer x.toNat y.toNat with
    | none => (uncovered, s)
    | some r => sourcePixel r x.toNat y.toNat s

/-- A strand within ±1 code of an exactly computed nonzero one (R111, R150): which one is free. (DESIGN CHOICE, log 22) -/
def jitter (v : Nat) (s : State) : Nat × State :=
  if v == 0 then (0, s)
  else let (d, s) := drawBelow 3 s; (formCode ((v : Int) + (d : Int) - 1), s)

/-- A node's counters changed. -/
def modNode (n : Nat) (f : NodeSt → NodeSt) (s : State) : State :=
  { s with weave := { s.weave with nodes := kmod s.weave.nodes n {} f } }

/-- A signed parameter of a node. -/
def parI (nd : Node) (o n : Nat) : Int := sfield nd.params o n
/-- An unsigned parameter of a node. -/
def parN (nd : Node) (o n : Nat) : Nat := field nd.params o n

/-- The linear inputs of an N node (R150). -/
def linOf (v : Val) : Lin × Lin × Lin := v.lin.getD (toLin v.ply.s0, toLin v.ply.s1, toLin v.ply.s2)

/-- The luminance of R157. -/
def luma (l : Lin × Lin × Lin) : Lin :=
  ladd (ladd (lscale (qf 2126 10000) l.1) (lscale (qf 7152 10000) l.2.1)) (lscale (qf 722 10000) l.2.2)

/-- The binary32 result of an N node for an exactly computed value. Where its arithmetic rounds more than once, the manual gives no
order of the operations: the result is then any whose strand lies within ±1 code of the exact one (R150). (DESIGN CHOICE, log 22) -/
def lfree (x : Lin × Bool) (s : State) : Lin × State :=
  let r := lround x.1
  if x.2 || lzero x.1 then (r, s)
  else
    let (d, s) := drawBelow 8193 s
    let y := nudge r ((d : Int) - 4096)
    let gap := ((lform y).1 : Int) - (lform x.1).1
    (if decide (-1 ≤ gap) && decide (gap ≤ 1) then y else r, s)

/-- An alpha computed in binary32 from an exact one of 0 to 255, rounded by floor(x + 0.5): where the roundings before it may carry
it over a half, which side is free (R150). (DESIGN CHOICE, log 22) -/
def alphaN (x err : Q) (s : State) : Nat × State :=
  let lo := (qround (qsub x err)).toNat
  let hi := min 255 (qround (qadd x err)).toNat
  if lo == hi then (lo, s)
  else let (d, s) := drawBelow 2 s; (if d == 0 then lo else hi, s)

/-- The error of a few binary32 roundings of `x`. (DESIGN CHOICE, log 22) -/
def alphaErr (x : Q) : Q := qmul x (qf 1 1048576)

/-- NaN results and saturated strands counted for a node (R151, R153). -/
def nodeCounts (n nans sats : Nat) (s : State) : State :=
  if nans == 0 && sats == 0 then s
  else modNode n (fun k => { k with sat := k.sat + BitVec.ofNat 64 sats, nan := k.nan + BitVec.ofNat 32 nans }) s

/-- The delivery of an N node of three linear results: each as binary32 with the strand formed from it (R45, R150), SAT and NAN
counted (R151, R153). -/
def deliverN (n : Nat) (counts : Bool) (l : (Lin × Bool) × (Lin × Bool) × (Lin × Bool)) (alpha : Nat) (valid poison : Bool)
    (s : State) : Val × State :=
  let (x, s) := lfree l.1 s
  let (y, s) := lfree l.2.1 s
  let (z, s) := lfree l.2.2 s
  let nan (v : Lin) : Nat := b2n (lform v).2
  let nans := nan x + nan y + nan z
  let sats := if counts then b2n (lsat x) + b2n (lsat y) + b2n (lsat z) else 0
  ({ ply := { s0 := (lform x).1, s1 := (lform y).1, s2 := (lform z).1 }, lin := some (x, y, z), alpha, valid
     poison := poison || nans != 0 }, nodeCounts n nans sats s)

/-- The delivery of an L node of three codes r, each floor(r + 0.5) already taken (R150, R153). -/
def deliverL (n : Nat) (counts : Bool) (v : Val) (a b c : Int) (zero : Ply) (s : State) : Val × State :=
  let st (z : Nat) (r : Int) : Nat := if z == 0 then 0 else formCode r
  let sat (z : Nat) (r : Int) : Nat := if z != 0 && decide (262143 < r) then 1 else 0
  let sats := if counts then sat zero.s0 a + sat zero.s1 b + sat zero.s2 c else 0
  let s := if sats == 0 then s else modNode n (fun k => { k with sat := k.sat + BitVec.ofNat 64 sats }) s
  ({ v with ply := { s0 := st zero.s0 a, s1 := st zero.s1 b, s2 := st zero.s2 c }, lin := none }, s)

/-- Every strand dimmed by its own offset (R43). -/
def deliverDim (n : Nat) (counts : Bool) (v : Val) (d0 d1 d2 : Int) (s : State) : Val × State :=
  deliverL n counts v (v.ply.s0 + d0) (v.ply.s1 + d1) (v.ply.s2 + d2) v.ply s

/-- floor(A + 0.5) of a value in 16 fractional bits. -/
def round16 (a : Int) : Int := (a + 32768) / 65536

/-- The Keys cubic of a = −0.5 at distance t (R155). -/
def keys (t : Q) : Q :=
  let t := if t.num < 0 then qneg t else t
  let t2 := qmul t t
  let t3 := qmul t2 t
  if qle t (qi 1) then qadd (qsub (qmul (qf 3 2) t3) (qmul (qf 5 2) t2)) (qi 1)
  else if qlt t (qi 2) then
    qadd (qsub (qadd (qmul (qf (-1) 2) t3) (qmul (qf 5 2) t2)) (qmul (qi 4) t)) (qi 2)
  else qi 0

/-- The taps of a SCALE filter around (u, v): column, row and weight (R155). -/
def scaleTaps (filter : Nat) (u v : Q) : List (Int × Int × Q) :=
  match filter with
  | 0 => [(qround u, qround v, qi 1)]
  | 1 =>
    let x := qfloor u
    let y := qfloor v
    let fx := qsub u (qi x)
    let fy := qsub v (qi y)
    let gx := qsub (qi 1) fx
    let gy := qsub (qi 1) fy
    [(x, y, qmul gx gy), (x + 1, y, qmul fx gy), (x, y + 1, qmul gx fy), (x + 1, y + 1, qmul fx fy)]
  | _ =>
    let x := qfloor u
    let y := qfloor v
    (List.range 4).flatMap fun (j : Nat) => (List.range 4).map fun (i : Nat) =>
      let xi := x - 1 + (i : Int)
      let yj := y - 1 + (j : Int)
      (xi, yj, qmul (keys (qsub u (qi xi))) (keys (qsub v (qi yj))))

/-- A resampled layer: premultiplied sums, the interpolated alpha clamped to 0 to 255, and the quotient (R155). -/
def scaleNode (n : Nat) (w : WallImg) (layer filter : Nat) (u v : Q) (s : State) : Val × State :=
  let z : Lin := .fin (qi 0)
  let step := fun (acc : (Lin × Lin × Lin × Q × Bool × Bool) × State) (tp : Int × Int × Q) =>
    let ((a0, a1, a2, al, va, po), s) := acc
    let (p, s) := layerPixel w layer tp.1 tp.2.1 s
    let k := qmul tp.2.2 (qf p.alpha 255)
    let l := linOf p
    let s := if p.valid && !p.poison then s else modNode n (fun q => { q with
      invalidIn := q.invalidIn + BitVec.ofNat 32 (b2n (!p.valid))
      poisonIn := q.poisonIn + BitVec.ofNat 32 (b2n p.poison) }) s
    ((ladd a0 (lscale k l.1), ladd a1 (lscale k l.2.1), ladd a2 (lscale k l.2.2),
      qadd al (qmul tp.2.2 (qi p.alpha)), va && p.valid, po || p.poison), s)
  let taps := scaleTaps filter u v
  let ((a0, a1, a2, al, va, po), s) := taps.foldl step ((z, z, z, qi 0, true, false), s)
  let al := if al.num < 0 then qi 0 else if qlt (qi 255) al then qi 255 else al
  if al.num = 0 then ({ alpha := 0, valid := va, poison := po, lin := some (z, z, z) }, s)
  else
    let k := qdiv (qi 255) al
    -- one opaque pixel taken whole is returned as it is
    let sure := al.num == 255 * (al.den : Int) && (taps.filter fun tp => tp.2.2.num != 0).length == 1
    let (alpha, s) := alphaN al (qf 1 2048) s
    deliverN n true ((lscale k a0, sure), (lscale k a1, sure), (lscale k a2, sure)) alpha va po s

/-- The defect-map key of a channel of a pixel of a tile (R303, R304). -/
def chanKey (tile px ch : Nat) : Nat := (tile * 65536 + px) * 4 + ch

/-- The channels of a pixel that the defect map marks for the weave in progress, read from the tile's bitmap; whether the read
was uncorrectable. A tile with no entry is clean without a read (R304). (DESIGN CHOICE, log 45) -/
def defectRead (tile px : Nat) (s : State) : (Nat → Bool) × Bool × State :=
  let d := fun c => khas s.health.woven (chanKey tile px c)
  if s.health.woven.any (fun e => e.1 / 4 / 65536 == tile) then
    let (_, bad, s) := storeRead (wordKey 4 tile 0 (px / 16)) s
    (d, bad, s)
  else (d, false, s)

/-- The full scale of a chain's wire format: FS of a D16 chain, reference white on an L18 chain (R51, R166). -/
def chainFs (c : ChainRec) : Nat := if c.format == 0 then (if c.fs == 0 then 196608 else c.fs) else 196608

/-- CORRECT: the pixel's record of its tile (R159). -/
def correctNode (n : Nat) (r : TileRec) (idx : Nat) (v : Val) (s : State) : Val × State :=
  let c := corrOf s r.tile
  if c.record == 0 then
    let (g, bad, s) := storeRead (wordKey 2 r.tile 0 idx) s
    let (z, s) := deliverDim n true v (signedN 16 g) (signedN 16 (g / 2 ^ 16)) (signedN 16 (g / 2 ^ 32)) s
    lost bad z s
  else
    let (lo, bad0, s) := storeRead (wordKey 2 r.tile 0 (2 * idx)) s
    let (hi, bad1, s) := storeRead (wordKey 2 r.tile 0 (2 * idx + 1)) s
    let g := lo + hi * 2 ^ 64
    let l := linOf v
    let row (k : Nat) : Lin × Bool := lsum
      [(qf (signedN 14 (g / 2 ^ (14 * (3 * k)))) 4096, l.1), (qf (signedN 14 (g / 2 ^ (14 * (3 * k + 1)))) 4096, l.2.1),
       (qf (signedN 14 (g / 2 ^ (14 * (3 * k + 2)))) 4096, l.2.2)]
    let (z, s) := deliverN n true (row 0, row 1, row 2) v.alpha v.valid v.poison s
    lost (bad0 || bad1) z s
where
  /-- An uncorrectable record: the ply is poisoned and the tile's correction becomes absent (R136, R140, R152). -/
  lost (bad : Bool) (z : Val) (s : State) : Val × State :=
    if bad then ({ z with poison := true }, corrLost r.tile s) else (z, s)

/-- KEY's alpha from a luminance strand (R157). -/
def keyAlpha (low high y : Nat) (invert : Bool) : Nat :=
  let a := if y < low then 0 else if high ≤ y then 255
    else (qround (qf (255 * ((y : Int) - low)) (high - low))).toNat
  if invert then 255 - a else a

/-- LUT's strand (R158). -/
def lutStrand (tb : KMap (Nat × Nat × Nat)) (pick : Nat × Nat × Nat → Nat) (v : Nat) : Int :=
  let i := v / 256
  let a := pick (kgetD tb i (0, 0, 0))
  let b := pick (kgetD tb (i + 1) (0, 0, 0))
  qround (qf ((a : Int) * 256 + ((b : Int) - a) * (v % 256 : Nat)) 256)

/-- POWER_CAP's sums of a tile (R166): the drive of each input strand, in units of 2^-32. (DESIGN CHOICE, log 24) -/
def addDrive (tile fs : Nat) (p : Ply) (s : State) : State :=
  let m := s.weave.sums
  let m := kset m (4 * tile) (kgetD m (4 * tile) 0 + driveOf fs p.s0)
  let m := kset m (4 * tile + 1) (kgetD m (4 * tile + 1) 0 + driveOf fs p.s1)
  let m := kset m (4 * tile + 2) (kgetD m (4 * tile + 2) 0 + driveOf fs p.s2)
  { s with weave := { s.weave with sums := m } }

/-- The layer a LAYER or SCALE node of an interleave slot reads (R211). -/
def slotLayer (base layer : Nat) : Nat := (layer + base) % 16

/-- Where a pixel is woven: the wall, its tile and index, its canvas position and its slot's LAYER_BASE and BLACK. -/
structure PixelAt where
  wall : WallImg
  tile : TileRec
  idx : Nat
  base : Nat
  black : Bool

/-- One node on one pixel, from the values of the nodes before it (R149 to R160, R164, R166). (DESIGN CHOICE, log 23) -/
def evalNode (p : PixelAt) (n : Nat) (nd : Node) (vals : List Val) (s : State) : Val × State :=
  let r := p.tile
  let (x, y) := canvasXY r p.idx
  let a := vals.getD nd.a uncovered
  let b := vals.getD nd.b uncovered
  let two := decide (5 ≤ nd.kind) && decide (nd.kind ≤ 8)
  let one := decide (9 ≤ nd.kind)
  let inv := if two then b2n (!a.valid) + b2n (!b.valid) else if one then b2n (!a.valid) else 0
  let poi := if two then b2n a.poison + b2n b.poison else if one then b2n a.poison else 0
  let s := if inv == 0 && poi == 0 then s else modNode n (fun k => { k with
    invalidIn := k.invalidIn + BitVec.ofNat 32 inv, poisonIn := k.poisonIn + BitVec.ofNat 32 poi }) s
  if nd.shed && shedOn s 2 then (a, s)
  else
    let la := linOf a
    let lb := linOf b
    let fa := qf a.alpha 255
    let fb := qf b.alpha 255
    let va := a.valid && b.valid
    let po := a.poison || b.poison
    match nd.kind with
    | 0x01 =>
      let (v, s) := layerPixel p.wall (slotLayer p.base (parN nd 0 1)) x y s
      let s := if v.valid && !v.poison then s else modNode n (fun k => { k with
        invalidIn := k.invalidIn + BitVec.ofNat 32 (b2n (!v.valid))
        poisonIn := k.poisonIn + BitVec.ofNat 32 (b2n v.poison) }) s
      (v, s)
    | 0x02 => ({ ply := { s0 := parN nd 0 4, s1 := parN nd 4 4, s2 := parN nd 8 4 }, alpha := parN nd 12 1 }, s)
    | 0x03 =>
      let u := qf ((2 * (x : Int) + 1) * parN nd 4 4 + 2 * parI nd 12 8 - 65536) 131072
      let v := qf ((2 * (y : Int) + 1) * parN nd 8 4 + 2 * parI nd 20 8 - 65536) 131072
      scaleNode n p.wall (slotLayer p.base (parN nd 0 1)) (parN nd 1 1) u v s
    | 0x04 =>
      let per := max (parN nd 2 2) 1
      let c : Ply := { s0 := parN nd 4 4, s1 := parN nd 8 4, s2 := parN nd 12 4 }
      let ramp (k : Q) (v : Nat) : Lin × Bool := (lscale k (toLin v), k.num == k.den)
      let plain (on : Bool) (s : State) : Val × State := ({ ply := if on then c else {}, alpha := 255 }, s)
      match parN nd 0 1 with
      | 0 =>
        let k := qf (x % per + 1) per
        deliverN n false (ramp k c.s0, ramp k c.s1, ramp k c.s2) 255 true false s
      | 1 =>
        let k := qf (y % per + 1) per
        deliverN n false (ramp k c.s0, ramp k c.s1, ramp k c.s2) 255 true false s
      | 2 => plain (x % per == 0 || y % per == 0) s
      | 3 =>
        let i := p.idx % max r.w 1
        let j := p.idx / max r.w 1
        plain (i == 0 || i == r.w - 1 || j == 0 || j == r.h - 1) s
      | _ => plain (r.tile % 2 == 0) s
    | 0x05 =>
      let al := qadd fa (qmul fb (qsub (qi 1) fa))
      let k := qmul fb (qsub (qi 1) fa)
      let out := fun (xa xb : Lin) => if al.num = 0 then (Lin.fin (qi 0), true)
        else if a.alpha == 255 then (xa, true)
        else if a.alpha == 0 && b.alpha == 255 then (xb, true)
        else (lscale (qdiv (qi 1) al) (ladd (lscale fa xa) (lscale k xb)), false)
      let full := qmul (qi 255) al
      let (alpha, s) := if a.alpha == 0 || a.alpha == 255 || b.alpha == 0 then ((qround full).toNat, s)
        else alphaN full (alphaErr full) s
      deliverN n true (out la.1 lb.1, out la.2.1 lb.2.1, out la.2.2 lb.2.2) alpha va po s
    | 0x06 =>
      let add := fun (xa xb : Lin) => lsum [(qi 1, xa), (qi 1, xb)]
      deliverN n true (add la.1 lb.1, add la.2.1 lb.2.1, add la.2.2 lb.2.2) (max a.alpha b.alpha) va po s
    | 0x07 =>
      let m := qf (kgetD s.weave.nodes n {}).ramp (65536 * 65535)
      let ends := m.num == 0 || m.num == m.den
      let mix := fun (xa xb : Lin) => (ladd (lscale (qsub (qi 1) m) xa) (lscale m xb), ends)
      let full := qadd (qmul (qi a.alpha) (qsub (qi 1) m)) (qmul (qi b.alpha) m)
      let (alpha, s) := if ends then ((qround full).toNat, s) else alphaN full (alphaErr full) s
      deliverN n true (mix la.1 lb.1, mix la.2.1 lb.2.1, mix la.2.2 lb.2.2) alpha va po s
    | 0x08 =>
      let (yy, s) := lfree (luma lb, false) s
      let full := match yy with
        | .fin q => qmul (qi a.alpha) (qunit q)
        | .pinf => qi a.alpha
        | _ => qi 0
      let (alpha, s) := alphaN full (alphaErr full) s
      let nan := (lform yy).2
      ({ a with alpha, valid := va, poison := po || nan }, nodeCounts n (b2n nan) 0 s)
    | 0x09 =>
      let row (k : Nat) : Lin × Bool := lsum
        [(qf (parI nd (6 * k) 2) 4096, la.1), (qf (parI nd (6 * k + 2) 2) 4096, la.2.1), (qf (parI nd (6 * k + 4) 2) 4096, la.2.2)]
      deliverN n true (row 0, row 1, row 2) a.alpha a.valid a.poison s
    | 0x0A =>
      let off (x : Lin) (o : Nat) : Lin × Bool := lsum [(qi 1, x), (qi 1, .fin (float32 (parN nd o 4)))]
      deliverN n true (off la.1 0, off la.2.1 4, off la.2.2 8) a.alpha a.valid a.poison s
    | 0x0B =>
      let tb := kgetD s.weave.tables (parN nd 0 1) []
      deliverL n false a (lutStrand tb (·.1) a.ply.s0) (lutStrand tb (·.2.1) a.ply.s1) (lutStrand tb (·.2.2) a.ply.s2)
        a.ply s
    | 0x0C =>
      let g := fun (v o : Nat) => qround (qf (refWhite * 4096 + parN nd o 2 * ((v : Int) - refWhite)) 4096)
      deliverL n true a (g a.ply.s0 0) (g a.ply.s1 2) (g a.ply.s2 4) a.ply s
    | 0x0D =>
      let d := round16 (kgetD s.weave.nodes n {}).ramp
      deliverDim n true a d d d s
    | 0x0E =>
      let cl := fun (v o : Nat) => if v < parN nd 12 4 then (0 : Nat) else min v (parN nd o 4)
      ({ a with ply := { s0 := cl a.ply.s0 0, s1 := cl a.ply.s1 4, s2 := cl a.ply.s2 8 }, lin := none }, s)
    | 0x0F =>
      let m := parN nd 0 1
      let pick := fun (k : Nat) => match k % 4 with
        | 0 => a.ply.s0 | 1 => a.ply.s1 | 2 => a.ply.s2 | _ => 0
      ({ a with ply := { s0 := pick m, s1 := pick (m / 4), s2 := pick (m / 16) }, lin := none }, s)
    | 0x10 =>
      let k := qf (parN nd 0 2) 4096
      let yy := luma la
      let f := fun (v : Lin) => (ladd yy (lscale k (ladd v (lscale (qi (-1)) yy))), false)
      deliverN n true (f la.1, f la.2.1, f la.2.2) a.alpha a.valid a.poison s
    | 0x11 =>
      let (yy, s) := lfree (luma la, false) s
      let (yv, nan) := lform yy
      ({ a with alpha := keyAlpha (parN nd 0 4) (parN nd 4 4) yv (parN nd 8 1 == 1), poison := a.poison || nan },
        nodeCounts n (b2n nan) 0 s)
    | 0x12 => correctNode n r p.idx a s
    | 0x13 =>
      let (d, bad, s) := defectRead r.tile p.idx s
      let a := { a with poison := a.poison || bad }
      match parN nd 0 1 with
      | 0 => ({ a with lin := none }, s)
      | 1 => ({ a with ply := { s0 := if d 0 then 0 else a.ply.s0, s1 := if d 1 then 0 else a.ply.s1,
                                s2 := if d 2 then 0 else a.ply.s2 }, lin := none }, s)
      | _ => if d 0 || d 1 || d 2 then ({ a with ply := {}, lin := none }, s) else ({ a with lin := none }, s)
    | 0x14 =>
      let t := (kgetD s.weave.nodes n {}).lastVal.getD 0
      let off := max (parI nd 8 4) (min (parI nd 12 4) (qround (qf (parI nd 2 2 * (t - parI nd 4 4)) 4096)))
      deliverDim n true a off off off s
    | 0x15 =>
      let z := kgetD s.health.zones r.tile 0
      let o := fun k => round16 (kgetD s.weave.colourA (4 * z + k) 0)
      deliverDim n true a (o 0) (o 1) (o 2) s
    | 0x16 =>
      let d := round16 (kgetD s.weave.thermA r.tile 0)
      deliverDim n false a d d d s
    | 0x17 =>
      let fs := match chainOf p.wall r.chain with | some c => chainFs c | none => 196608
      let s := if a.valid && !a.poison then addDrive r.tile fs a.ply s
        else modNode n (fun k => { k with excluded := k.excluded + 1 }) s
      let d := round16 s.weave.capA
      deliverDim n false a d d d s
    | _ => (a, s)
where
  /-- A finite binary32 bit pattern as a rational. -/
  float32 (w : Nat) : Q :=
    let e := w / 2 ^ 23 % 256
    let m := w % 2 ^ 23
    let sg : Int := if bit w 31 then -1 else 1
    let (m, e) := if e == 0 then (m, 1) else (m + 2 ^ 23, e)
    if 150 ≤ e then qi (sg * (m * 2 ^ (e - 150) : Nat)) else qf (sg * m) (2 ^ (150 - e))

/-- The value of every node of a weave on one pixel, in node order. -/
def evalNodes (p : PixelAt) : Nat → List Node → List Val → State → List Val × State
  | _, [], vals, s => (vals, s)
  | n, nd :: rest, vals, s =>
    let (v, s) := evalNode p n nd vals s
    evalNodes p (n + 1) rest (vals ++ [v]) s

/-- A woven pixel: the value PACK writes (R149, R151, R211). In a black slot every ply is black and valid, and the loop
sums see black. -/
def weavePixel (w : Weave) (p : PixelAt) (s : State) : Val × State :=
  if p.black then
    let fs := match chainOf p.wall p.tile.chain with | some c => chainFs c | none => 196608
    let s := if w.nodes.any (fun n => n.kind == 0x17) then addDrive p.tile.tile fs {} s else s
    ({ alpha := 255 }, s)
  else
    let (vals, s) := evalNodes p 0 w.nodes [] s
    (vals.getLastD uncovered, s)

end Sys2Proof.Machine
end

