-- ==== Sys2Proof/Machine/SchedOps.lean ====
section
/-! DEFINITION. The dataflow scheduler's moves: ready lists, TAKE, idling, gating, and what a spindle that leaves service
hands back (R176 to R188). -/

namespace Sys2Proof.Machine

/-- Spindle `i`. -/
def spOf (s : State) (i : Nat) : Spindle := kgetD s.sched.spindles i {}
/-- Spindle bank `b`. -/
def sbOf (s : State) (b : Nat) : SBank := kgetD s.sched.banks b {}
/-- A spindle changed. -/
def modSp (i : Nat) (f : Spindle → Spindle) (s : State) : State :=
  { s with sched := { s.sched with spindles := kmod s.sched.spindles i {} f } }
/-- A spindle bank changed. -/
def modSb (b : Nat) (f : SBank → SBank) (s : State) : State :=
  { s with sched := { s.sched with banks := kmod s.sched.banks b {} f } }
/-- The bank of a spindle (R182). -/
def spBank (i : Nat) : Nat := i / 16
/-- The spindles of a bank. -/
def bankSpindles (b : Nat) : List Nat := (List.range 16).map fun i => 16 * b + i
/-- A spindle is in service. -/
def spUp (s : State) (i : Nat) : Bool := (spOf s i).svc == .up
/-- The spindles in service. -/
def spindlesUp (s : State) : List Nat := (List.range 256).filter (spUp s)
/-- A spindle bank is in service while one of its spindles is (R187). -/
def sbankUp (s : State) (b : Nat) : Bool := (bankSpindles b).any (spUp s)
/-- A spindle is idle: nothing prefetched, no hank, and its last TAKE returned IDLE (R182). -/
def spIdle (q : Spindle) : Bool := q.idle && q.prefetch.isEmpty && q.hank.isNone && q.last.isNone

/-- A spindle with no hank, and no pixel still to finish, starts the first token it has prefetched (R176). -/
def startHank (i : Nat) (s : State) : State :=
  let q := spOf s i
  if q.hank.isSome || q.last.isSome then s
  else match q.prefetch with
    | [] => s
    | h :: r => modSp i (fun q => { q with hank := some h, done := 0, prefetch := r, pxStart := s.now }) s

/-- A token given to a spindle's prefetch queue. -/
def giveToken (i : Nat) (h : Hank) (s : State) : State :=
  startHank i (modSp i (fun q => { q with prefetch := q.prefetch ++ [h], blocked := none, idle := false }) s)

/-- A token arrives at a bank's ready list: to the TAKE that blocked earliest, else onto the list (R183). (DESIGN CHOICE, log 63) -/
def tokenArrive (b : Nat) (h : Hank) (s : State) : State :=
  match (sbOf s b).takes with
  | i :: r => giveToken i h (modSb b (fun k => { k with takes := r }) s)
  | [] => modSb b (fun k => { k with ready := k.ready ++ [h], idleSince := none }) s

/-- A release wakes a gated bank, and idle spindles may TAKE again (R182, R184). -/
def bankSignal (b : Nat) (s : State) : State :=
  let k := sbOf s b
  let s := if k.gated then modSb b (fun k => { k with gated := false, wakes := k.wakes + 1 }) s else s
  let s := modSb b (fun k => { k with idleSince := none }) s
  forEach (bankSpindles b) s fun i s => if (spOf s i).idle then modSp i (fun q => { q with idle := false }) s else s

/-- The source and the source pixel under pixel `px` of a token's tile where it is a video on the direct path (R116, R179). -/
def directPx (s : State) (h : Hank) (px : Nat) : Option (Nat × Nat) :=
  if s.place.profile != 3 then none
  else match s.wall.active with
    | none => none
    | some w => match tileOf w h.tile with
      | none => none
      | some r =>
        let (x, y) := canvasXY r px
        match w.srcs.find? (fun q => q.kind == 0 && covers q x y) with
        | some q =>
          let (sx, sy) := srcXY q x y
          some (q.source, sy * (match kget? s.ing.videos q.source with | some v => v.w | none => 0) + sx)
        | none => none

/-- A token of the direct path whose first packet has not come (R179). -/
def awaitsPacket (s : State) (h : Hank) : Bool := h.go.isNone && (directPx s h h.first).isSome

/-- The seeder releases tokens of a bank in order while its ready list has room (R177, R30); tokens of the direct path
wait for their packets (R179). (DESIGN CHOICE, log 63) -/
def seedFill (b : Nat) (s : State) : State :=
  let k := sbOf s b
  let held := k.seed.filter (awaitsPacket s)
  let free := k.seed.filter fun h => !awaitsPacket s h
  let room := 512 - k.ready.length
  let out := free.take room
  if out.isEmpty then s
  else
    let s := bankSignal b (modSb b (fun k => { k with seed := held ++ free.drop room }) s)
    forEach out s fun h s => tokenArrive b h s

/-- The hanks of a video source whose first pixel the packet of RTP timestamp `ts` carries are released, as the ready lists
have room (R177, R179). -/
def releaseDirect (id w first count : Nat) (ts : U32) (s : State) : State :=
  if s.place.profile != 3 || w == 0 then s
  else forEach (List.range 16) s fun b s =>
    let hit (h : Hank) : Bool := h.go.isNone && (match directPx s h h.first with
      | some (v, px) => v == id && decide (first ≤ px) && decide (px < first + count)
      | none => false)
    if (sbOf s b).seed.any hit then
      seedFill b (modSb b (fun k => { k with seed := k.seed.map fun h => if hit h then { h with go := some ts } else h }) s)
    else s

/-- Pixel `px` of a hank's tile has arrived, where the hank reads it on the direct path: the packet that carries it has come,
or the frame that released the hank is complete (R179). -/
def pixelArrived (s : State) (h : Hank) (px : Nat) : Bool :=
  match directPx s h px with
  | none => true
  | some (id, sp) => match kget? s.ing.videos id with
    | none => true
    | some v => !v.opened || v.ts != h.go || decide (sp < v.next)

/-- A bank is idle: every spindle of it in service is, and its list is empty (R184). -/
def bankIdle (s : State) (b : Nat) : Bool :=
  sbankUp s b && (sbOf s b).ready.isEmpty && ((bankSpindles b).filter (spUp s)).all fun i => spIdle (spOf s i)

/-- The instant since which a bank is idle noted (R184). -/
def noteIdle (b : Nat) (s : State) : State :=
  if bankIdle s b then
    (if (sbOf s b).idleSince.isNone then modSb b (fun k => { k with idleSince := some s.now }) s else s)
  else modSb b (fun k => { k with idleSince := none }) s

/-- A spindle's TAKE (R182): granted at once from a list that holds a token, else it blocks. -/
def takeIssue (i : Nat) (s : State) : State :=
  let b := spBank i
  let q := spOf s i
  let k := sbOf s b
  if !spUp s i || q.draining || k.gated || !s.place.inForce.powered.contains b || 2 ≤ q.prefetch.length || q.blocked.isSome
      || spIdle q then s
  else match k.ready with
  | h :: r => seedFill b (giveToken i h (modSb b (fun k => { k with ready := r }) s))
  | [] =>
    let s := modSp i (fun q => { q with blocked := some s.now }) s
    modSb b (fun k => { k with takes := k.takes ++ [i], takesBlocked := k.takesBlocked + 1 }) s

/-- A blocked TAKE's timeout returns IDLE (R182, R183). -/
def takeTimeout (i : Nat) (s : State) : State :=
  match (spOf s i).blocked with
  | none => s
  | some since =>
    if s.now < since + 1000 * s.sched.takeUs then s
    else
      let b := spBank i
      let s := modSp i (fun q => { q with blocked := none, idle := true }) s
      noteIdle b (modSb b (fun k => { k with takes := k.takes.filter (· != i), takesIdle := k.takesIdle + 1 }) s)

/-- A bank gates when its spindles are idle, its list is empty and GATE_DELAY has passed; never in Draught (R184).
(DESIGN CHOICE, log 63) -/
def bankGate (b : Nat) (s : State) : State :=
  let k := sbOf s b
  match k.idleSince with
  | none => s
  | some since =>
    if s.place.profile == 3 || k.gated || !bankIdle s b || s.now < since + 1000 * s.sched.gateUs then s
    else modSb b (fun k => { k with gated := true, gates := k.gates + 1 }) s

/-- SPINDLE_STATE emitted (R199). -/
def spindleEvent (i st back : Nat) (s : State) : State :=
  emit 0x0701 (leN 2 i ++ leN 1 st ++ leN 1 0 ++ leN 2 back) s

/-- Tokens go back to the head of a bank's ready list, or to its blocked TAKEs (R185). -/
def handBack (b : Nat) (toks : List Hank) (s : State) : State :=
  let s := modSb b (fun k => { k with ready := toks ++ k.ready, handback := k.handback + BitVec.ofNat 32 toks.length }) s
  if toks.isEmpty then s else bankSignal b s

/-- The first token of a list goes to the TAKE that blocked earliest, for as long as both exist. -/
def serveBlocked (b : Nat) : Nat → State → State
  | 0, s => s
  | n + 1, s =>
    match (sbOf s b).takes, (sbOf s b).ready with
    | i :: r, h :: l => serveBlocked b n (giveToken i h (modSb b (fun k => { k with takes := r, ready := l }) s))
    | _, _ => s

/-- The end of a drain: it leaves the list with DRAIN_END (R191, R199). -/
def drainEnd (function inst : Nat) (s : State) : State :=
  match s.sched.drains.find? (fun d => d.function == function && d.inst == inst) with
  | none => s
  | some d =>
    emit 0x0702 (leN 1 function ++ leN 1 0 ++ leN 2 inst ++ leN 4 d.aborted)
      { s with sched := { s.sched with drains := s.sched.drains.filter (fun q => !(q.function == function && q.inst == inst)) } }

/-- A drain starts with its function's timeout (R191, R192). -/
def drainStart (function inst : Nat) (s : State) : State :=
  let rest := s.sched.drains.filter (fun q => !(q.function == function && q.inst == inst))
  let d : Drain := { function := function, inst := inst, aborted := 0, expires := s.now + 1000 * s.sched.drainUs.getD function 0 }
  { s with sched := { s.sched with drains := rest ++ [d] } }

/-- A drain is in progress. -/
def draining (s : State) (function inst : Nat) : Bool :=
  s.sched.drains.any fun d => d.function == function && d.inst == inst

/-- A bank whose last spindle has left: its ready list is flushed and the seeder's tokens for it are dropped (R187). -/
def bankEmptied (b : Nat) (s : State) : State :=
  if sbankUp s b then s else modSb b (fun k => { k with ready := [], seed := [], takes := [], remaining := 0 }) s

/-- The pixel in progress of a spindle's hank: it is finished whatever becomes of the hank (R181, R185). -/
def lastPx (q : Spindle) : Option LastPx :=
  match q.hank with
  | some h => if q.done < h.count then some { px := { h with first := h.first + q.done, count := 1 } } else q.last
  | none => q.last

/-- A spindle leaves service now: it stops after its current pixel, and its unfinished hank and its prefetched tokens go back,
the unfinished hank first (R185, R186). A hank is unfinished until its completion record, HANK_COMPLETE. (DEDUCED, log 34) -/
def spindleOut (i : Nat) (svc : Service) (s : State) : State :=
  let q := spOf s i
  let b := spBank i
  let toks := q.hank.toList ++ q.prefetch
  let s := modSp i (fun q => { q with svc, draining := false, hank := none, done := 0, last := lastPx q, prefetch := []
                                      blocked := none, idle := false, back := 0 }) s
  let s := modSb b (fun k => { k with takes := k.takes.filter (· != i) }) s
  let s := noteIdle b (serveBlocked b 32 (handBack b toks s))
  let s := bankEmptied b (spindleEvent i (if svc == .retired then 2 else 1) (q.back + toks.length) s)
  if q.draining then drainEnd 0 i s else s

/-- A spindle retired; a drain of it ends (R185, R188). -/
def spindleRetire (i : Nat) (s : State) : State :=
  if (spOf s i).svc == .retired then s else spindleOut i .retired s

/-- The epoch's weave still has work: a token not yet taken, or a hank or a pixel in progress (R24, R176). -/
def weaveBusy (s : State) : Bool :=
  s.sched.banks.any (fun e => !e.2.seed.isEmpty || !e.2.ready.isEmpty)
    || s.sched.spindles.any fun e => !e.2.prefetch.isEmpty || e.2.hank.any (fun h => h.epoch == s.link.epoch)
        || e.2.last.any (fun l => l.woven.isNone)

/-- The instant at which the weave of the epoch is finished noted (R19, R24). -/
def weaveFinished (s : State) : State :=
  if s.mode.weaving && s.fab.weaveFinish.isNone && !weaveBusy s then { s with fab := { s.fab with weaveFinish := some s.now } }
  else s

/-- The ply-operations remaining to be woven for the epoch (R180). -/
def remainingOps (s : State) : Nat := (s.sched.banks.map fun e => e.2.remaining).sum

end Sys2Proof.Machine
end

