-- ==== Sys2Proof/Machine/BobOps.lean ====
section
/-! DEFINITION. Bobbins word by word (R26 to R31, R33, R189, R190): which identifiers name one, its class, size and fill, its
words with their tags, and the handshake with its producer and its consumer. A unit's own queue (a ready list, a prefetch
queue, a timestamp bobbin, the reel's staging, the completions of a mailbox, the fixture updates, the Air queues) holds its
entries in its unit; every other bobbin's words are in its record. -/

namespace Sys2Proof.Machine

/-! ## The bobbins (R31) -/

/-- What is fixed of a bobbin: whether it is of the control class, and its capacity in words. -/
structure BobDef where
  control : Bool
  capacity : Nat
  deriving DecidableEq, Repr

/-- The words of the fixture update bobbin (R322). -/
def fixBobbin : Nat := 512

/-- The bobbin that an identifier names (R31): the mailboxes' completion bobbins and the event bobbin (R73, R75), the timestamp
bobbins (R272), the ingress bobbins (R108), the ready lists (R177), the prefetch queues and the write bobbins of the spindles
(R182, R189), the egress assemblers' (R189), the fixture updates (R322), the Air queues (R352, R359) and the reel's staging
(R466). (DESIGN CHOICE, log 75) -/
def bobDef (id : Nat) : Option BobDef :=
  let n := id % 1024
  match id / 1024 with
  | 6 => if n ≤ 16 then some { control := true, capacity := 64 } else none
  | 7 => if 0x40 ≤ n && n ≤ 0x48 then some { control := true, capacity := 16 } else none
  | 8 => if n < 64 then some { control := false, capacity := 2048 } else none
  | 9 => if n < 16 then some { control := false, capacity := 512 } else none
  | 10 =>
    if n < 256 then some { control := false, capacity := 2 }
    else if n < 512 then some { control := false, capacity := Config.bobbinWords id + 1 } else none
  | 13 => if n < 64 then some { control := false, capacity := Config.bobbinWords id + 1 } else none
  | 14 => if n == 0 then some { control := true, capacity := fixBobbin } else none
  | 15 =>
    if n == 0 then some { control := true, capacity := 1024 }
    else if n == 1 then some { control := true, capacity := 256 } else none
  | 20 => if n == 0 then some { control := true, capacity := 64 } else none
  | _ => none

/-- A bobbin's record. -/
def bobOf (s : State) (id : Nat) : Bobbin := kgetD s.fab.bobbins id {}

/-- A bobbin's record changed. -/
def modBob (id : Nat) (f : Bobbin → Bobbin) (s : State) : State :=
  { s with fab := { s.fab with bobbins := kmod s.fab.bobbins id {} f } }

/-- The entries that a bobbin's unit holds in it. -/
def unitFill (s : State) (id : Nat) : Nat :=
  let n := id % 1024
  match id / 1024 with
  | 6 => if n == 16 then s.hif.evq.length else (kgetD s.mbx n {}).recs.length
  | 7 => (kgetD s.link.ts (n - 0x40) {}).entries.length
  | 9 => (sbOf s n).ready.length
  | 10 => (spOf s n).prefetch.length
  | 14 => s.fix.setq.length
  | 15 => if n == 0 then (s.air.nodes.map fun e => e.2.queue.length).sum else s.air.uplink.length
  | 20 => s.reel.staging.length
  | _ => 0

/-- What a bobbin holds: its unit's entries and the words of its record. -/
def bobFill (s : State) (id : Nat) : Nat := unitFill s id + (bobOf s id).words.length

/-- A poisoned delivery counted (R26). -/
def bobPoisoned (id n : Nat) (s : State) : State :=
  if n == 0 then s else modBob id (fun b => { b with poisoned := b.poisoned + BitVec.ofNat 32 n }) s

/-! ## The producer (R27 to R30, R189, R190) -/

/-- The words of a list up to its last end-of-item mark. -/
def wholeItems (l : List BWord) : List BWord := (l.reverse.dropWhile fun w => !w.eoi).reverse

/-- A word offered: swallowed while the rest of a flushed item is, answered FLUSHED as the first of the item after it (R29),
discarded as the rest of a refused item. A full control-class bobbin refuses the item with BUSY and nothing of it stays queued
(R190); a full data-class bobbin holds its producer with the word (R189). (DESIGN CHOICE, log 75) -/
def bobOffer (d : BobDef) (id : Nat) (w : BWord) (s : State) : State :=
  let b := bobOf s id
  if b.swallowing then
    modBob id (fun b => { b with swallowed := b.swallowed + 1, swallowing := !w.eoi, flushedNext := w.eoi, partway := !w.eoi }) s
  else if b.refusing then modBob id (fun b => { b with refusing := !w.eoi }) s
  else if b.flushedNext then put (.bobAnswer id stFLUSHED) (modBob id (fun b => { b with flushedNext := false }) s)
  else if bobFill s id < d.capacity && b.waiting.isEmpty then
    modBob id (fun b => { b with words := b.words ++ [w], partway := !w.eoi }) s
  else if d.control then
    put (.bobAnswer id stBUSY)
      (modBob id (fun b => { b with words := wholeItems b.words, partway := false, refusing := !w.eoi }) s)
  else modBob id (fun b => { b with waiting := b.waiting ++ [w] }) s

/-- A word written to the bobbin that `id` names; an identifier that names none takes nothing. (DESIGN CHOICE, log 75) -/
def bobWrite (id : Nat) (w : BWord) (s : State) : State :=
  match bobDef id with
  | some d => bobOffer d id w s
  | none => s

/-- The words that a held producer waits with are acknowledged in order, for as long as there is room (R189). -/
def bobRefill (d : BobDef) (id : Nat) : Nat → State → State
  | 0, s => s
  | n + 1, s =>
    match (bobOf s id).waiting with
    | [] => s
    | w :: r =>
      if bobFill s id < d.capacity then
        bobRefill d id n (modBob id (fun b => { b with words := b.words ++ [w], waiting := r, partway := !w.eoi }) s)
      else s

/-! ## The consumer (R26 to R28) -/

/-- The consumer may start on the item at the front, or has (R28). -/
def bobReady (b : Bobbin) : Bool :=
  b.started || b.words.any (·.eoi) || (b.thresh != 0 && decide (b.thresh ≤ b.words.length))

/-- A delivery: the word kept as the last delivered, a poisoned one counted (R26, R27). -/
def bobDeliver (id : Nat) (w : BWord) (s : State) : State :=
  bobPoisoned id (b2n w.poison) (modBob id (fun b => { b with last := some w }) s)

/-- The first entry of a unit's own queue fails its parity as it is delivered: it counts, and a hank token carries the poison
to the plies that it makes (R26). (DESIGN CHOICE, log 75) -/
def unitPoison (id : Nat) (s : State) : State :=
  let n := id % 1024
  let front (l : List Hank) : List Hank := match l with | h :: r => { h with poison := true } :: r | [] => []
  let s := match id / 1024 with
    | 9 => modSb n (fun k => { k with ready := front k.ready }) s
    | 10 => modSp n (fun q => { q with prefetch := front q.prefetch }) s
    | _ => s
  bobPoisoned id 1 s

/-- A read granted (R26 to R29): after a flush in the middle of an item the consumer receives a poisoned end of item; an empty
bobbin underruns; a word whose parity fails is poisoned. The entries of a unit's queue are taken by the unit's own steps.
(DESIGN CHOICE, log 75) -/
def bobRead (d : BobDef) (id : Nat) (parityOk : Bool) (s : State) : State :=
  let b := bobOf s id
  if b.cutMark then
    bobDeliver id { word := 0, poison := true, eoi := true } (modBob id (fun b => { b with cutMark := false, started := false }) s)
  else match b.words with
  | [] =>
    if 0 < unitFill s id then (if parityOk then s else unitPoison id s)
    else
      let w := b.last.getD { word := 0, poison := true }
      bobDeliver id w (modBob id (fun b => { b with underrun := true }) s)
  | w :: r =>
    if !bobReady b then s
    else
      let w := if parityOk then w else { w with poison := true }
      let s := bobDeliver id w (modBob id (fun b => { b with words := r, started := !w.eoi }) s)
      bobRefill d id b.waiting.length s

/-! ## Flushing (R29) -/

/-- The entries that a bobbin's unit holds in it are discarded. A mailbox's completions and the events are no words that a
flush reaches. (DESIGN CHOICE, log 75) -/
def unitFlush (id : Nat) (s : State) : State :=
  let n := id % 1024
  match id / 1024 with
  | 7 => { s with link := { s.link with ts := kmod s.link.ts (n - 0x40) {} fun g => { g with entries := [] } } }
  | 9 => modSb n (fun k => { k with ready := [] }) s
  | 10 => modSp n (fun q => { q with prefetch := [] }) s
  | 14 => { s with fix := { s.fix with setq := [] } }
  | 15 => if n == 1 then { s with air := { s.air with uplink := [] } } else s
  | 20 => { s with reel := { s.reel with staging := [] } }
  | _ => s

/-- A flush: every word is discarded, the rest of an item that is partly written is swallowed, with what its producer waits
with, and a consumer part-way through an item receives a poisoned end mark (R29). (DESIGN CHOICE, log 75) -/
def bobFlush (id : Nat) (s : State) : State :=
  match bobDef id with
  | none => s
  | some d =>
    let held := (bobOf s id).waiting
    let s := modBob id (fun b => { b with words := [], waiting := [], swallowing := b.swallowing || b.partway
                                          cutMark := b.cutMark || b.started, started := false }) (unitFlush id s)
    forEach held s fun w s => bobOffer d id w s

/-! ## The window (R32, R33) -/

/-- FAB_BOB_STAT of the selected bobbin (R32). -/
def bobStat (s : State) : Nat :=
  let id := s.fab.bobSel.toNat
  match bobDef id with
  | none => 0
  | some d =>
    let b := bobOf s id
    65536 * b.thresh + 16 + 8 * b2n d.control + 4 * b2n (decide (d.capacity ≤ bobFill s id)) + 2 * b2n b.underrun
      + b2n (bobFill s id == 0)

/-- A counter of the selected bobbin; 0 where none is selected (R32). -/
def bobCounter (s : State) (f : Bobbin → U32) : Nat :=
  let id := s.fab.bobSel.toNat
  if (bobDef id).isSome then (f (bobOf s id)).toNat else 0

/-- FAB_BOB_STAT written: a 1 in UNDERRUN clears the bit of the selected bobbin (R33). -/
def underrunClear (v : U32) (s : State) : State :=
  let id := s.fab.bobSel.toNat
  if v.getLsbD 1 && (bobDef id).isSome then modBob id (fun b => { b with underrun := false }) s else s

end Sys2Proof.Machine
end

