-- ==== Sys2Proof/Machine/CalOps.lean ====
section
/-! DEFINITION. Calibration and trim: the trim records (R452, R453), the instances that are due and the start of a run
(R454, R455, R458). -/

namespace Sys2Proof.Machine

/-- Calibration changed. -/
def modCal (f : Cal → Cal) (s : State) : State := { s with cal := f s.cal }
/-- An item. -/
def calItem (s : State) (i : Nat) : CalItem := kgetD s.cal.items i {}
/-- An item changed. -/
def modItem (i : Nat) (f : CalItem → CalItem) (s : State) : State := modCal (fun c => { c with items := kmod c.items i {} f }) s
/-- The key of an instance. -/
def calKey (i n : Nat) : Nat := 1024 * i + n
/-- An instance. -/
def calInst (s : State) (i n : Nat) : CalInst := kgetD s.cal.insts (calKey i n) {}
/-- An instance changed. -/
def modInst (i n : Nat) (f : CalInst → CalInst) (s : State) : State :=
  modCal (fun c => { c with insts := kmod c.insts (calKey i n) {} f }) s
/-- The instances of an item (R449). -/
def instCount (i : Nat) : Nat := match i with | 0 => 15 | 1 => 69 | 2 => 3 | 3 => 1 | 4 => 273 | _ => 0
/-- An instance that R449 lists. -/
def instExists (i n : Nat) : Bool := decide (n < instCount i)

/-! ## Records (R452, R453) -/

/-- The factory record made at final test. (DESIGN CHOICE, log 7) -/
def factoryMade (i n : Nat) : TrimRec :=
  { seq := 0, temp := Config.trimFactoryTemp i n, data := (List.finRange 48).map (Config.trimFactory i n) }

/-- The factory record of an instance, where it is usable. -/
def factoryRec (s : State) (i n : Nat) : Option TrimRec :=
  match (calInst s i n).factory with | .ok => some (factoryMade i n) | .bad => none | .rebuilt r => some r

/-- The design value, used where neither record passes: gain 1.0, offset 0, cell 0, 60 legs, no spares, centre 0, the longest
delay (R453). -/
def designValue (i n : Nat) : Bytes :=
  padTo 48 (match i with
    | 0 => if n == 0 then [] else if 5 ≤ n && n ≤ 12 then (List.range 3).flatMap fun _ => leN 4 (2 ^ 30) ++ zeros 4 else leN 4 (2 ^ 30)
    | 1 => leN 1 60 ++ leN 1 60
    | 2 => zeros 2 ++ leN 2 0xFF
    | 3 => []
    | _ => leN 1 0xFF)

/-- The record in use: the live one where it is usable, else the factory one. -/
def recInUse (s : State) (i n : Nat) : Option TrimRec := (calInst s i n).live.or (factoryRec s i n)

/-- The value in force. -/
def calValue (s : State) (i n : Nat) : Bytes :=
  (calInst s i n).value.getD (match recInUse s i n with | some r => r.data | none => designValue i n)

/-- The factory DATA, or the design value. -/
def factoryData (s : State) (i n : Nat) : Bytes := match factoryRec s i n with | some r => r.data | none => designValue i n

/-- A record as stored (R452). -/
def trimBytes (i n kind : Nat) (r : TrimRec) : Bytes :=
  let b := leN 1 i ++ leN 1 kind ++ leN 2 n ++ leN 4 r.seq.toNat ++ leN 2 (twos 16 r.temp) ++ zeros 2 ++ padTo 48 r.data
  b ++ leN 4 (crc32 b).toNat

/-- CAL_STATE emitted (R460). -/
def calEvent (i st acc dis inst : Nat) (temp : Int) (s : State) : State :=
  emit 0x1401 (leN 1 i ++ leN 1 st ++ leN 2 acc ++ leN 2 dis ++ leN 2 inst ++ leN 2 (twos 16 temp)) s

/-- TRIM's quiet rests on no record being left that failed in both copies (R453). -/
def trimQuiet (s : State) : State :=
  { s with flt := { s.flt with srcs := kmod? s.flt.srcs 0x4C00 fun q => { q with ok := s.cal.bad.isEmpty } } }

/-- A new live record written to both copies; a factory record that had failed is rebuilt from it (R453). (DESIGN CHOICE, log 59) -/
def writeTrim (i n : Nat) (temp : Int) (data : Bytes) (s : State) : State :=
  let q := calInst s i n
  let seq := match q.live with | some r => r.seq + 1 | none => 1
  let r : TrimRec := { seq, temp, data }
  let s := modInst i n (fun q => { q with live := some r, value := none, factory := if q.factory == .bad then .rebuilt { r with seq := 0 } else q.factory }) s
  let s := trimQuiet (modCal (fun c => { c with bad := c.bad.filter fun k => k / 2 != calKey i n }) s)
  if q.factory == .bad then calEvent i 3 0 0 n temp s else s

/-- What boot finds of a record that failed in one copy: it is repaired (R453). (DESIGN CHOICE, log 59) -/
def trimRepair (key : Nat) (s : State) : State :=
  let i := key / 2 / 1024
  let n := key / 2 % 1024
  if !instExists i n then s
  else calEvent i 2 0 0 n (match recInUse s i n with | some r => r.temp | none => 0)
    (modItem i (fun k => { k with repairs := k.repairs + 1 }) s)

/-- What boot finds of a record that failed in both copies: TRIM is detected (R453). -/
def trimFailed (key : Nat) (s : State) : State :=
  let i := key / 2 / 1024
  let n := key / 2 % 1024
  if !instExists i n then s
  else
    let s := modInst i n (fun q => if key % 2 == 1 then { q with live := none } else { q with factory := .bad }) s
    raise 0x4C00 0 [i, n] (modCal (fun c => { c with bad := if c.bad.contains key then c.bad else c.bad ++ [key] }) s)

/-! ## Runs (R454 to R458) -/

/-- The temperature of the die that holds an item: METER and CMP lie on the power die. (DESIGN CHOICE, log 53) -/
def dieOf (s : State) (i : Nat) : Int := if i == 0 || i == 2 then s.cal.pwr else s.cal.ctl

/-- An item may start a run now: every item in Run or Calm, METER and OSC in Doze too (R455). -/
def calMayRun (s : State) (i : Nat) : Bool :=
  s.hif.readyEver && s.power.wake.isNone && s.power.gasp.isNone && (s.power.st == 0 || (s.power.st == 2 && (i == 0 || i == 3)))

/-- The unit of an instance is retired, and is not in its return step, of which the run is a part (R458). -/
def instRetired (s : State) (i n : Nat) : Bool :=
  (i == 1 && decide (n < 64) && (portOf s n).retired)
    || (i == 4 && decide (n < 256) && (spOf s n).svc == .retired && !(kgetD s.flt.srcs (0x2800 + n) {}).returning)

/-- The due instances of an item. -/
def dueInsts (s : State) (i : Nat) : List Nat :=
  (List.range (instCount i)).filter fun n => (calInst s i n).due && !instRetired s i n

/-- A run starts on all due instances of an item (R454). -/
def calStart (i : Nat) (s : State) : State :=
  let l := dueInsts s i
  if (calItem s i).phase != 0 || l.isEmpty || !calMayRun s i then s
  else
    let s := forEach l s fun n s => modInst i n (fun q => { q with due := false, discardAt := none }) s
    modItem i (fun k => { k with phase := 2, insts := l, temp := dieOf s i, startAt := s.now, targets := [], lost := 0 }) s

/-- An instance falls due. -/
def calDue (i n : Nat) (s : State) : State := modInst i n (fun q => { q with due := true }) s

end Sys2Proof.Machine
end

