-- ==== Sys2Proof/Machine/HealthOps.lean ====
section
/-! DEFINITION. The defect map (R303 to R305, R417). -/

namespace Sys2Proof.Machine

/-- An entry of the defect journal made, where the device is an active twin (R417). -/
def journal (tile px ch st : Nat) (s : State) : State :=
  if s.twin.enabled && s.twin.role == 1 then
    { s with twin := { s.twin with
        defJ := s.twin.defJ ++ [{ seq := s.twin.defSeq, tile, pixel := px, chan := ch, st }], defSeq := s.twin.defSeq + 1 } }
  else s

/-- A tile's health record changed. -/
def modTileH (tile : Nat) (f : TileHealth → TileHealth) (s : State) : State :=
  { s with health := { s.health with tiles := kmod s.health.tiles tile {} f } }

/-- A tile's health record. -/
def tileH (s : State) (tile : Nat) : TileHealth := kgetD s.health.tiles tile {}

/-- The word of a tile's bitmap that holds a pixel written: bit c of its 4 bits for channel c (R304). (DESIGN CHOICE, log 45) -/
def bitmapWrite (tile px : Nat) (s : State) : State :=
  let i := px / 16
  let bits := ((List.range 16).map fun k => ((List.range 3).map fun c =>
    if khas s.health.defects (chanKey tile (16 * i + k) c) then 2 ^ (4 * k + c) else 0).sum).sum
  storeWrite (wordKey 4 tile 0 i) bits s

/-- A channel entered in the defect map with its state, 1 open or 2 short; the picture changes (R215, R304). -/
def defectSet (tile px ch st : Nat) (s : State) : State :=
  let s := { s with health := { s.health with defects := kset s.health.defects (chanKey tile px ch) st },
                    mode := { s.mode with moved := true } }
  journal tile px ch st (bitmapWrite tile px s)

/-- A channel's entry removed. -/
def defectDrop (key : Nat) (s : State) : State :=
  let s := { s with health := { s.health with defects := kerase s.health.defects key }, mode := { s.mode with moved := true } }
  journal (key / 4 / 65536) (key / 4 % 65536) (key % 4) 0 (bitmapWrite (key / 4 / 65536) (key / 4 % 65536) s)

/-- The keys of a tile's entries. -/
def tileDefects (s : State) (tile : Nat) : List Nat :=
  (s.health.defects.map (·.1)).filter fun k => k / 4 / 65536 == tile

/-- DEFECT_STATE emitted (R315). -/
def defectEvent (tile px ch st cause : Nat) (s : State) : State :=
  emit 0x0D01 (leN 2 tile ++ leN 2 px ++ leN 1 ch ++ leN 1 st ++ leN 1 cause) s

/-- A tile replaced, dropped or resized: its entries and runs are cleared, with DEFECT_STATE where it had any (R305).
(DESIGN CHOICE, log 45) -/
def tileReplaced (tile : Nat) (s : State) : State :=
  let keys := tileDefects s tile
  let s := { s with health := { s.health with runs := kfilter s.health.runs fun k _ => k / 4 / 65536 != tile } }
  let s := forEach keys s defectDrop
  if keys.isEmpty then s else defectEvent tile 0xFFFF 0xFF 0 2 s

/-- A tile's SERIAL in its REPLY compared with the one recorded (R305). (DESIGN CHOICE, log 45) -/
def tileSerial (tile : Nat) (serial : U64) (s : State) : State :=
  let s := match (tileH s tile).serial with
    | some old => if old == serial then s else tileReplaced tile s
    | none => s
  modTileH tile (fun h => { h with serial := some serial }) s

end Sys2Proof.Machine
end

