-- ==== Sys2Proof/Machine/Placement.lean ====
section
/-! DEFINITION. What placement decides (R95 to R98): the runs of tiles given to spindle banks, the bank of every buffer,
each ringed chain's split; the load of chain ends (R230, R233) and their speeds (R265); and admission (R91, R94, R168). -/

namespace Sys2Proof.Machine

/-- A node's weight in ply-operations (R153). -/
def nodeW (nd : Node) : Nat :=
  if nd.kind == 0x03 then (match parN nd 1 1 with | 0 => 1 | 1 => 2 | _ => 4) else 1

/-- A weave's ply-operations per pixel (R168). (DESIGN CHOICE, log 62) -/
def plyOps (w : Weave) : Nat := (w.nodes.map nodeW).sum

/-- The ply-operations per pixel that remain with step S2's nodes shed (R167, R180). -/
def plyOpsNow (s : State) (w : Weave) : Nat :=
  ((w.nodes.filter fun nd => !(nd.shed && shedOn s 2)).map nodeW).sum

/-! ## Skeins and loads (R230, R233) -/

/-- Pixels per skein (R230). -/
def pps (format profile : Nat) : Nat :=
  if profile == 3 then (if format == 0 then 240 else 214) else (if format == 0 then 1462 else 1303)

/-- The data bytes of `n` pixels (R229). -/
def pxBytes (format n : Nat) : Nat := if format == 0 then 6 * n else (n * 54 + 7) / 8

/-- The skeins of a tile of `px` pixels (R230). -/
def skeinCount (format profile px : Nat) : Nat := (px + pps format profile - 1) / pps format profile

/-- The bytes per epoch of a tile's skeins on its line (R233). -/
def tileBytes (format profile px : Nat) : Nat :=
  let k := px / pps format profile
  let r := px % pps format profile
  k * (70 + pxBytes format (pps format profile)) + (if r == 0 then 0 else 70 + pxBytes format r)

/-- The bytes per epoch of an end that serves tiles of these pixel counts; 0 where it serves none (R233). -/
def endBytes (format profile : Nat) (px : List Nat) : Nat :=
  if px.isEmpty then 0 else (px.map (tileBytes format profile)).sum + 168

/-- `bytes` per epoch of a mode take at most `pct` percent of a line rate. (DESIGN CHOICE, log 62) -/
def loadMeets (bytes mode rate pct : Nat) : Bool :=
  decide (bytes * 8 * rateNum mode * 100 ≤ pct * rate * rateDen mode)

/-- The tiles of a chain an end serves under the split `k` (R97). -/
def endTiles (w : WallImg) (chain k : Nat) (endB : Bool) : List TileRec :=
  (chainTiles w chain).filter fun r => if endB then decide (k < r.pos) else decide (r.pos ≤ k)

/-! ## Admission (R91, R94, R168) -/

/-- A profile's limits: pixel rate, ply-operation rate and operations of a weave (R91). -/
def profileLimits (p : Nat) : Nat × Nat × Nat :=
  match p with
  | 0 => (4026531840, 50000000000, 16)
  | 1 => (2013265920, 40000000000, 32)
  | 2 => (1006632960, 18000000000, 16)
  | _ => (1006632960, 40000000000, 16)

/-- In Draught no SCALE node reads a layer that holds a video source record (R168, R211). (DESIGN CHOICE, log 62) -/
def scaleFits (w : WallImg) (v : Weave) (slots : U32) : Bool :=
  v.nodes.all fun nd => nd.kind != 0x03 || !(w.srcs.any fun r => r.kind == 0
    && r.layer == (parN nd 0 1 + slots.toNat % 16) % 16)

/-- The wall, weave, mode and profile meet every limit of R91 and R168 together; the limits that depend on the frame
rate are left out with no mode or no wall (R94). (DESIGN CHOICE, log 62) -/
def admits (img : Option WallImg) (weave : Option Weave) (mode profile : Nat) (s : State) : Bool :=
  let (pxRate, opRate, nodes) := profileLimits profile
  let weaveOk := match weave with
    | none => true
    | some v => decide (v.nodes.length ≤ nodes)
        && (profile != 3 || (match img with | some w => scaleFits w v 0 | none => true))
  let modeOk := mode == 0 || profile != 3 || modeN mode == 1
  let rateOk := match img with
    | none => true
    | some w =>
      mode == 0 ||
        (decide (wallPx w * rateNum mode ≤ pxRate * rateDen mode)
          && (match weave with
              | none => true
              | some v => decide (wallPx w * plyOps v * rateNum mode * 256
                  ≤ opRate * (spindlesUp s).length * rateDen mode))
          && w.chains.all fun c =>
            loadMeets (endBytes c.format profile ((chainTiles w c.chain).map tilePx)) mode (lineRate 0) 85)
  weaveOk && modeOk && rateOk

/-- The first pair of video source records that cover one canvas pixel: the index of the second (R116). -/
def videoOverlap (w : WallImg) : Option Nat :=
  let z := (List.range w.srcs.length).zip w.srcs
  let meet (a b : SrcRec) : Bool :=
    decide (a.cx < b.cx + b.w) && decide (b.cx < a.cx + a.w) && decide (a.cy < b.cy + b.h) && decide (b.cy < a.cy + a.h)
  (z.find? fun q => q.2.kind == 0 && z.any fun r => decide (r.1 < q.1) && r.2.kind == 0 && meet r.2 q.2).map (·.1)

/-! ## Runs (R95) -/

/-- A tile to be given to a bank: its chain, its pixels and the bank a pin fixes. -/
structure Item where
  chain : Nat
  px : Nat
  pin : Option Nat
  deriving DecidableEq, Repr

/-- Tiles given to banks so far: each bank's pixels, the banks of the chain in hand, the chains split over banks, where runs end
inside chains, and the bank of each run and of each tile. -/
structure Trial where
  loads : KMap Nat
  chain : Option Nat := none
  seen : List Nat := []
  splits : Nat := 0
  cuts : List Nat := []
  banks : List Nat := []
  given : List Nat := []
  deriving DecidableEq, Repr

/-- The next tile goes to bank `b`. A pinned tile's pixels stand in the bank's load from the start. -/
def Trial.give (it : Item) (b : Nat) (t : Trial) : Trial :=
  let same := t.chain == some it.chain
  let cut := same && t.given.getLast? != some b
  { loads := if it.pin.isSome then t.loads else kset t.loads b (kgetD t.loads b 0 + it.px)
    chain := some it.chain
    seen := if same && t.seen.contains b then t.seen else if same then b :: t.seen else [b]
    splits := t.splits + b2n (cut && t.seen.length == 1)
    cuts := if cut then t.cuts ++ [t.given.length] else t.cuts
    banks := if same && !cut then t.banks else t.banks ++ [b]
    given := t.given ++ [b] }

/-- The load of a trial's most loaded bank. -/
def Trial.worst (t : Trial) : Nat := t.loads.foldl (fun m e => max m e.2) 0

/-- A list of numbers before another, element by element, one that ends first coming first. -/
def listLt : List Nat → List Nat → Bool
  | [], [] => false
  | [], _ :: _ => true
  | _ :: _, [] => false
  | a :: r, b :: q => decide (a < b) || (a == b && listLt r q)

/-- What R95 compares: the rank, the chains split, then where runs end. It only grows as tiles are given. -/
def Trial.key (rank : Trial → Nat) (t : Trial) : List Nat := rank t :: t.splits :: t.cuts

/-- An assignment that R95 prefers; of two with one key, that of the lower banks. -/
def Trial.better (rank : Trial → Nat) (a b : Trial) : Bool :=
  listLt (a.key rank) (b.key rank) || (a.key rank == b.key rank && listLt a.banks b.banks)

/-- The banks to try for a tile: its pin's, else every bank with load and the lowest without, for empty banks are alike; the
bank of the tile before it first. -/
def tryBanks (powered : List Nat) (it : Item) (t : Trial) : List Nat :=
  match it.pin with
  | some b => [b]
  | none =>
    let used := powered.filter fun b => kgetD t.loads b 0 != 0
    sortBy (fun b => b2n (t.given.getLast? != some b)) (used ++ (powered.filter fun b => kgetD t.loads b 0 == 0).take 1)

/-- The assignment R95 prefers among those within a bound: every one is tried, but for those that already exceed the bound
or come out behind the best so far. (DESIGN CHOICE, log 37) -/
def assignRuns (powered : List Nat) (inBound : Trial → Nat → Bool) (rank : Trial → Nat) : List Item → Trial → Option Trial → Option Trial
  | [], t, best => match best with
    | some v => if t.better rank v then some t else best
    | none => some t
  | it :: rest, t, best =>
    (tryBanks powered it t).foldl (fun best b =>
      let t := t.give it b
      let behind := match best with | some v => listLt (v.key rank) (t.key rank) | none => false
      if behind || !inBound t ((rest.filter fun i => i.pin.isNone).map (·.px)).sum then best
      else assignRuns powered inBound rank rest t best) best

/-- A trial can still bring every bank within ±3 % of the mean load with `left` pixels to give (R95). -/
def withinMean (powered : List Nat) (total : Nat) (t : Trial) (left : Nat) : Bool :=
  let nb := powered.length
  let lo := (97 * total + 100 * nb - 1) / (100 * nb)
  (powered.all fun b => decide (100 * nb * kgetD t.loads b 0 ≤ 103 * total))
    && decide ((powered.map fun b => lo - kgetD t.loads b 0).sum ≤ left)

/-- The bank of each tile: the assignment within ±3 % of the mean load; with none, the one whose most loaded bank carries
least (R95). (DESIGN CHOICE, log 37) -/
def partition (powered : List Nat) (items : List Item) : List Nat :=
  let start : Trial := { loads := items.foldl (fun m i => match i.pin with
    | some b => kset m b (kgetD m b 0 + i.px) | none => m) [] }
  let total := (items.map (·.px)).sum
  let found := match assignRuns powered (withinMean powered total) (fun _ => 0) items start none with
    | some t => some t
    | none => assignRuns powered (fun _ _ => true) Trial.worst items start none
  match found with | some t => t.given | none => []

/-- The runs of a list of (position, bank) of one chain in position order. (DESIGN CHOICE, log 37) -/
def runsOf (chain : Nat) (l : List (Nat × Nat)) : List RunP :=
  (l.foldl (fun (acc : List RunP) q =>
    match acc with
    | r :: rest => if r.bank == q.2 && r.last + 1 == q.1 then { r with last := q.1 } :: rest
                   else { chain, first := q.1, last := q.1, bank := q.2 } :: acc
    | [] => [{ chain, first := q.1, last := q.1, bank := q.2 }]) []).reverse

/-- The bank a KIND 0 pin in force gives a tile (R99). -/
def pinnedBank (pins : List Pin) (r : TileRec) : Option Nat :=
  (pins.find? fun p => p.kind == 0 && p.chain == r.chain && decide (p.first ≤ r.pos) && decide (r.pos ≤ p.last)).map
    (·.target)

/-- The runs of a wall over the powered banks (R95). (DESIGN CHOICE, log 37) -/
def placeRuns (w : WallImg) (pins : List Pin) (powered : List Nat) : List RunP :=
  let chains := (sortBy (fun (c : ChainRec) => c.chain) w.chains).map (·.chain)
  let all := chains.flatMap (chainTiles w)
  let given := all.zip (partition powered (all.map fun r => { chain := r.chain, px := tilePx r, pin := pinnedBank pins r }))
  chains.flatMap fun c => runsOf c ((given.filter fun q => q.1.chain == c).map fun q => (q.1.pos, q.2))

/-! ## Splits (R97) -/

/-- Both ends' loads under a split. -/
def splitLoads (w : WallImg) (c : ChainRec) (profile k : Nat) : Nat × Nat :=
  (endBytes c.format profile ((endTiles w c.chain k false).map tilePx),
   endBytes c.format profile ((endTiles w c.chain k true).map tilePx))

/-- The split that makes the loads most nearly equal, the larger on a tie. -/
def evenSplit (w : WallImg) (c : ChainRec) (profile : Nat) : Nat :=
  let gap (k : Nat) : Nat := let (a, b) := splitLoads w c profile k; if a < b then b - a else a - b
  (List.range (c.tiles + 1)).foldl (fun best k => if gap k ≤ gap best then k else best) 0

/-- A chain's split K (R97, R99). `up` says which ports are in service. -/
def placeSplit (w : WallImg) (c : ChainRec) (profile : Nat) (pins : List Pin) (up : Nat → Bool) (old : KMap Nat) : Nat :=
  if c.portB == 0xFF then c.tiles
  else match pins.find? (fun p => p.kind == 3 && p.chain == c.chain) with
    | some p => p.first
    | none =>
      match up c.portA, up c.portB with
      | true, false => c.tiles
      | false, true => 0
      | false, false => kgetD old c.chain (evenSplit w c profile)
      | true, true => evenSplit w c profile

/-! ## Buffers (R96, R135, R144) -/

/-- 224 MiB, the most a bank holds of buffers (R96). -/
def bankRoom : Nat := 234881024

/-- The bank of a list with the most room left for buffers, the lower on a tie. -/
def roomiest (used : KMap Nat) (l : List Nat) : Option Nat := (sortBy (fun b => kgetD used b 0) l).head?

/-- The pin in force that fixes a buffer's banks. -/
def bufPin (pins : List Pin) (b : Buf) : Option Pin :=
  pins.find? fun p => if b.plane then p.kind == 2 && p.object == b.name else p.kind == 1 && p.chain == b.name

/-- The bytes that pins give bank `k` of these buffers. -/
def pinnedBytes (pins : List Pin) (k : Nat) (l : List Buf) : Nat :=
  (l.map fun b => match bufPin pins b with
    | some p => if p.target % 256 == k || p.target / 256 == k then b.size else 0
    | none => 0).sum

/-- The two banks of one buffer, the `i`-th of the order (R96): a pin's where they hold it, else the roomiest that keep room
for the pinned buffers still to come. (DESIGN CHOICE, log 37) -/
def bufBanks (up : List Nat) (pins : List Pin) (used : KMap Nat) (i : Nat) (b : Buf) (rest : List Buf) : Option (Nat × Nat) :=
  let fits (k : Nat) : Bool := decide (kgetD used k 0 + pinnedBytes pins k rest + b.size ≤ bankRoom)
  match bufPin pins b with
  | some p =>
    let (e, o) := (p.target % 256, p.target / 256)
    if decide (kgetD used e 0 + b.size ≤ bankRoom) && decide (kgetD used o 0 + b.size ≤ bankRoom) then some (e, o) else none
  | none =>
    let lo := up.filter fun k => decide (k < 16)
    let hi := up.filter fun k => decide (16 ≤ k)
    let first := if i % 2 == 0 then lo else hi
    let other := if i % 2 == 0 then hi else lo
    let p0 := if first.isEmpty then other else first
    match roomiest used (p0.filter fits) with
    | none => none
    | some e =>
      let p1 := if first.isEmpty || other.isEmpty then p0.filter (· != e) else other
      (roomiest used (p1.filter fits)).map fun o => (e, o)

/-- The banks of every buffer that finds room, in order. (DESIGN CHOICE, log 37) -/
def layBuffers (up : List Nat) (pins : List Pin) : Nat → KMap Nat → List Buf → List (Buf × Option (Nat × Nat))
  | _, _, [] => []
  | i, used, b :: r =>
    match bufBanks up pins used i b r with
    | some (e, o) =>
      let used := kset used e (kgetD used e 0 + b.size)
      let used := kset used o (kgetD used o 0 + b.size)
      (b, some (e, o)) :: layBuffers up pins (i + 1) used r
    | none => (b, none) :: layBuffers up pins (i + 1) used r

/-- The bytes of buffers a layout puts in bank `k`. -/
def bufBytes (l : List (Buf × Option (Nat × Nat))) (k : Nat) : Nat :=
  (l.map fun q => match q.2 with
    | some (e, o) => (if e == k then q.1.size else 0) + (if o == k then q.1.size else 0)
    | none => 0).sum

/-- Every buffer of a wall is placed with all 32 banks in service (R104, R135). (DESIGN CHOICE, log 12; DESIGN CHOICE, log 37) -/
def buffersFit (s : State) (w : WallImg) (profile : Nat) (pins : List Pin) : Bool :=
  let l := layBuffers (List.range 32) pins 0 [] (buffers s w profile)
  l.all (fun q => q.2.isSome) && (List.range 32).all fun k => decide (bufBytes l k ≤ bankRoom)

/-! ## Banks (R91, R99) -/

/-- The 8 lowest-numbered banks that KIND 0 pins name (R99). -/
def pinBanks (pins : List Pin) : List Nat :=
  (sortBy id ((pins.filter fun p => p.kind == 0).map (·.target)).eraseDups).take 8

/-- A spindle bank that a placement may use: one being disabled is placed without (R187). -/
def bankStays (s : State) (b : Nat) : Bool := sbankUp s b && !(sbOf s b).disabling

/-- The spindles in service of a list of banks. -/
def spindlesIn (s : State) (l : List Nat) : Nat := ((spindlesUp s).filter fun i => l.contains (spBank i)).length

/-- The spindle banks placement powers (R91): in Zephyr those that live KIND 0 pins name and the fewest further, at most 8
together, whose admitted shares (R105) carry the load. (DESIGN CHOICE, log 37) -/
def powerBanks (s : State) (w : WallImg) (weave : Option Weave) (mode profile : Nat) (pins : List Pin) : List Nat :=
  let up := (List.range 16).filter (bankStays s)
  if profile != 2 then up
  else
    let ops := match weave with | some v => plyOps v | none => 0
    let load := wallPx w * ops * (if mode == 0 then 0 else rateNum mode) * 128
    let per := 18000000000 * (if mode == 0 then 1 else rateDen mode)
    let first := pinBanks pins
    let more := sortBy (fun b => 16 - spindlesIn s [b]) (up.filter fun b => !first.contains b)
    sortBy id (more.foldl (fun acc b =>
      if decide (8 ≤ acc.length) || (!acc.isEmpty && decide (load ≤ per * spindlesIn s acc)) then acc else acc ++ [b]) first)

/-- No unit that a pin names is out of service, and in Zephyr a KIND 0 pin's bank is among those `named` (R99). -/
def pinLive (s : State) (w : WallImg) (profile : Nat) (named : List Nat) (p : Pin) : Bool :=
  match p.kind with
  | 0 => bankStays s p.target && (profile != 2 || named.contains p.target)
  | 3 => match chainOf w p.chain with
    | some c => chainUp s c.portA && chainUp s c.portB
    | none => false
  | _ => bankUp s (p.target % 256) && bankUp s (p.target / 256)

/-! ## The whole placement -/

/-- Pins change their suspension with PIN_SUSPENDED as a placement is computed (R99, R106). -/
def suspendPins (w : WallImg) (profile : Nat) (s : State) : State :=
  let named := pinBanks (s.place.pins.filter fun p => decide (p.since ≤ s.place.gen))
  forEach s.place.pins s fun p s =>
    if s.place.gen < p.since then s
    else
      let out := !pinLive s w profile named p
      if out == p.suspended then s
      else emit 0x0302 (leN 2 p.num ++ leN 1 (b2n out))
        { s with place := { s.place with pins := modFirst (fun q => q.num == p.num) (fun q => { q with suspended := out }) s.place.pins } }

/-- The pins that act now. -/
def livePins (s : State) : List Pin := s.place.pins.filter fun p => decide (p.since ≤ s.place.gen) && !p.suspended

/-- A copy of an object that moves to another bank is written fresh there (R101): what the old bank held is dropped. -/
def dropMoved (kind : Nat) (old new : KMap (Nat × Nat)) (s : State) : State :=
  forEach old s fun e s =>
    match kget? new e.1 with
    | some (a, b) =>
      let s := if a == e.2.1 then s else dropObject kind e.1 0 s
      if b == e.2.2 then s else dropObject kind e.1 1 s
    | none => dropObject kind e.1 1 (dropObject kind e.1 0 s)

/-- The placement of the active wall computed afresh and put in force (R95 to R98, R144). (DESIGN CHOICE, log 37) -/
def computePlacement (epoch : U32) (cause : Nat) (s : State) : State :=
  let s := { s with place := { s.place with gen := s.place.gen + 1 } }
  match s.wall.active with
  | none => { s with place := { s.place with inForce := { epoch, cause } } }
  | some w =>
    let prof := s.place.profile
    let s := suspendPins w prof s
    let pins := livePins s
    let powered := powerBanks s w s.weave.active s.mode.mode prof pins
    let split := (sortBy (fun (c : ChainRec) => c.chain) w.chains).foldl
      (fun m c => kset m c.chain (placeSplit w c prof pins (chainUp s) s.place.inForce.split)) []
    let bufs := layBuffers ((List.range 32).filter (bankUp s)) pins 0 [] (buffers s w prof)
    let woven := bufs.foldl (fun m q => match q.2 with | some p => if q.1.plane then m else kset m q.1.obj p | none => m) []
    let planes := bufs.foldl (fun m q => match q.2 with | some p => if q.1.plane then kset m q.1.obj p else m | none => m) []
    let s := forEach bufs s fun q s =>
      if q.1.plane && q.2.isNone then record 4 (9 * 1024) 0x0680 (leN 2 q.1.name ++ zeros 6) s else s
    let s := dropMoved 0 s.place.inForce.woven woven s
    corrMakeRoom { s with place := { s.place with inForce :=
        { epoch, cause, runs := placeRuns w pins powered, split, woven, planes, powered } } }

/-! ## What the placement in force says -/

/-- A chain's split in force. -/
def splitOf (s : State) (c : ChainRec) : Nat := kgetD s.place.inForce.split c.chain c.tiles

/-- The spindle bank of a tile. -/
def bankOfTile (s : State) (r : TileRec) : Option Nat :=
  (s.place.inForce.runs.find? fun q => q.chain == r.chain && decide (q.first ≤ r.pos) && decide (r.pos ≤ q.last)).map
    (·.bank)

/-- The end that serves a tile: false for A. -/
def endOfTile (s : State) (c : ChainRec) (r : TileRec) : Bool := decide (splitOf s c < r.pos)

/-- The port of an end of a chain. -/
def portOfEnd (c : ChainRec) (endB : Bool) : Nat := if endB then c.portB else c.portA

/-- The placement triggers in groups, each with the latest first: one within 8 ms of the one before it falls due in the same
window (R103). (DEDUCED, log 35) -/
def triggerGroups (l : List Trigger) : List (List Trigger) :=
  ((sortBy (fun (q : Trigger) => q.at_) l).foldl (fun acc q =>
    match acc with
    | (p :: g) :: r => if q.at_ < p.at_ + 8000000 then (q :: p :: g) :: r else [q] :: (p :: g) :: r
    | r => [q] :: r) []).reverse

/-- The instant from which a group's placement may take effect: 8 ms after its last trigger (R100, R103). -/
def groupDue (g : List Trigger) : Nat := match g with | q :: _ => q.at_ + 8000000 | [] => 0

/-- The triggers that one placement at instant `b` covers: every group due by then, and that of a mode change that comes into
force there. (DEDUCED, log 35) -/
def dueTriggers (b : Nat) (withMode : Bool) (l : List Trigger) : List Trigger :=
  ((triggerGroups l).filter fun g => decide (groupDue g ≤ b) || (withMode && g.any fun q => q.cause == 7)).flatten

/-- The instant from which the pending placement may take effect (R100). (DEDUCED, log 35) -/
def placeDueAt (s : State) : Option Nat := (triggerGroups s.place.triggers).head?.map groupDue

/-- The rank of a CAUSE in R103's order. -/
def causeRank (c : Nat) : Nat := [2, 3, 0, 7, 1, 4, 6, 5].idxOf c

/-- The trigger that PLACED reports (R103). -/
def mainTrigger (l : List Trigger) : Option Trigger :=
  (sortBy (fun (q : Trigger) => causeRank q.cause)
    (sortBy (fun (q : Trigger) => q.at_) (sortBy (fun (q : Trigger) => q.subsys)
      (sortBy (fun (q : Trigger) => q.inst) l)))).head?

end Sys2Proof.Machine
end

