-- ==== Sys2Proof/Machine/LinkOps.lean ====
section
/-! DEFINITION. The link layer's shared operations: which end serves a tile (R222, R224), enumeration (R242, R409), skeins
and their frames (R228 to R232), COMMIT, SAFE, CALM and WAKE (R234, R251, R252), chain speeds (R248, R265, R266), and link
errors (R239, R436). -/

namespace Sys2Proof.Machine

/-- Chain `c` of the link layer. -/
def chainLk (s : State) (c : Nat) : ChainLink := kgetD s.link.chains c {}
/-- A chain changed. -/
def modChain (c : Nat) (f : ChainLink → ChainLink) (s : State) : State :=
  { s with link := { s.link with chains := kmod s.link.chains c {} f } }
/-- A tile of the link layer. -/
def tileLk (s : State) (t : Nat) : TileLink := kgetD s.link.tiles t {}
/-- A tile changed. -/
def modTile (t : Nat) (f : TileLink → TileLink) (s : State) : State :=
  { s with link := { s.link with tiles := kmod s.link.tiles t {} f } }

/-! ## Ends and hops (R222, R224, R261, R407) -/

/-- An end of the chains belongs to this device: every end without a twin, else SIDE 0's end A or SIDE 1's end B. -/
def ownsEnd (s : State) (endB : Bool) : Bool := !s.twin.enabled || (s.twin.side == 1) == endB

/-- The ends of a chain that this device has: (end B, port). -/
def ownEnds (s : State) (c : ChainRec) : List (Bool × Nat) :=
  ([(false, c.portA)] ++ (if c.portB == 0xFF then [] else [(true, c.portB)])).filter fun e => ownsEnd s e.1

/-- The ends of a chain in service. -/
def upEnds (s : State) (c : ChainRec) : List (Bool × Nat) := (ownEnds s c).filter fun e => chainUp s e.2

/-- The chain and end of a chain port of the active wall that is this device's. -/
def endOfPort (s : State) (p : Nat) : Option (ChainRec × Bool) :=
  match s.wall.active with
  | none => none
  | some w => match chainOfPort w p with
    | some (c, isA) => if ownsEnd s (!isA) then some (c, !isA) else none
    | none => none

/-- A tile's hop from an end (R222), and the position of a hop: the same map. -/
def hopPos (c : ChainRec) (endB : Bool) (x : Nat) : Nat := if endB then c.tiles + 1 - x else x

/-- HOPS of a broadcast from an end (R224). -/
def hopsOf (s : State) (c : ChainRec) (endB : Bool) : Nat :=
  if c.portB == 0xFF then c.tiles else if endB then c.tiles - splitOf s c else splitOf s c

/-- The number of an end in messages. -/
def endNum (endB : Bool) : Nat := b2n endB

/-- Every chain end in service, in port order, with its chain. -/
def allEnds (s : State) : List (ChainRec × Bool × Nat) :=
  match s.wall.active with
  | none => []
  | some w => sortBy (fun (e : ChainRec × Bool × Nat) => e.2.2) (w.chains.flatMap fun c => (upEnds s c).map fun e => (c, e.1, e.2))

/-- A chain is ready: no enumeration runs and its tiles have been assigned. -/
def chainReady (s : State) (c : Nat) : Bool :=
  let k := chainLk s c
  k.phase == 0 && (k.state == 2 || k.state == 3)

/-- The tile at a hop from an end of a chain. -/
def tileAtHop (s : State) (c : ChainRec) (endB : Bool) (hop : Nat) : Option TileRec :=
  match s.wall.active with
  | none => none
  | some w => tileAt w c.chain (hopPos c endB hop)

/-- A broadcast of a chain end queued: type, flags, kind and the bytes after the common header. -/
def castEnd (s0 : State) (c : ChainRec) (endB : Bool) (ty flags : Nat) (kind : TxKind) (epoch : U32) (rest : Bytes) : TxFrame :=
  let body := ezHdr (chainLk s0 c.chain).gen ty flags s0 c.chain (endNum endB) 0xFF (hopsOf s0 c endB) rest.length ++ rest
  { kind, epoch, body, len := ezLen body }

/-- A unicast of a chain end to a hop. -/
def uniEnd (s0 : State) (c : ChainRec) (endB : Bool) (hop ty : Nat) (kind : TxKind) (rest : Bytes) : TxFrame :=
  let body := ezHdr (chainLk s0 c.chain).gen ty 0 s0 c.chain (endNum endB) hop hop rest.length ++ rest
  { kind, body, len := ezLen body }

/-! ## Roles (R261, R407) -/

/-- The role a port takes under the active wall. -/
def roleOf (s : State) (p : Nat) : Nat :=
  if isChainPort s p then (if (endOfPort s p).isSome then 2 else 0) else if (portOf s p).enabled then 1 else 0

/-- Every port takes its role, with PORT_STATE on each change; what waited on a port that changes is discarded. -/
def applyRoles (s : State) : State :=
  forEach (List.range 64) s fun p s =>
    let r := roleOf s p
    if r == (portOf s p).role then s
    else
      let s := modPort p (fun q => { q with role := r, queue := [], req := none, again := none, pausedUntil := 0 }) s
      let s := if r == 0 then receiverOff p s else s
      portEvent p (if r == 0 then 0 else portUpState s p) 0 s

/-! ## Events (R257) -/

/-- A chain's tiles that answered DISCOVER from either end, by position. -/
def foundPos (s : State) (c : ChainRec) : List Nat :=
  let k := chainLk s c.chain
  (List.range c.tiles).map (· + 1) |>.filter fun p => khas k.foundA p || khas k.foundB (hopPos c true p)

/-- A chain's tiles that are excluded. -/
def excludedTiles (s : State) (c : ChainRec) : List Nat :=
  match s.wall.active with
  | none => []
  | some w => ((chainTiles w c.chain).filter fun r => (tileLk s r.tile).state == 2).map (·.tile)

/-- CHAIN_STATE emitted. (DESIGN CHOICE, log 41) -/
def chainEvent (c : ChainRec) (cause : Nat) (s : State) : State :=
  let k := chainLk s c.chain
  emit 0x0901 (leN 1 c.chain ++ leN 1 k.state ++ leN 1 cause ++ leN 1 k.gen ++ leN 1 (foundPos s c).length
    ++ leN 1 (excludedTiles s c).length ++ leN 1 k.brk) s

/-! ## Enumeration (R242, R254, R409) -/

/-- A generation is newer than another (R243). -/
def newerGen (g h : Nat) : Bool := let d := (g + 65536 - h % 65536) % 65536; decide (1 ≤ d) && decide (d ≤ 32767)

/-- The FORCE flag of a DISCOVER on a port (R409). (DESIGN CHOICE, log 41) -/
def forceOn (s : State) (p : Nat) : Bool :=
  !s.twin.enabled || (s.twin.role == 1 && s.twin.force.contains p)

/-- A DISCOVER queued on a chain end: always VER 1 (R246, R254). (DESIGN CHOICE, log 41) -/
def discoverEnd (c : ChainRec) (endB : Bool) (p : Nat) (s : State) : State :=
  let rest := beN 1 0 ++ beN 1 0 ++ beN 2 0
  let body := ezHdr 1 6 (b2n (forceOn s p)) s c.chain (endNum endB) 0xFF 255 rest.length ++ rest
  let s := queueTx p { kind := .discover, body, len := ezLen body } s
  { s with twin := { s.twin with force := s.twin.force.filter (· != p) } }

/-- The generation that a port's LINKGEN sets (R254). -/
def linkGen (s : State) (p : Nat) : Nat := (portOf s p).linkgen.getD (if s.hif.compat then 1 else 2)

/-- The generation of a chain by its ports' LINKGEN (R254). (DESIGN CHOICE, log 41) -/
def chainGen (s : State) (c : ChainRec) : Nat :=
  if linkGen s c.portA == 1 || (c.portB != 0xFF && linkGen s c.portB == 1) then 1 else 2

/-- The enumeration of a chain's ends in service starts, or starts again. (DESIGN CHOICE, log 41) -/
def startEnum (c : ChainRec) (cause : Nat) (s : State) : State :=
  let ends := upEnds s c
  if ends.isEmpty then
    chainEvent c cause (modChain c.chain (fun k => { k with state := 0, phase := 0, gen := chainGen s c }) s)
  else
    let s := modChain c.chain (fun k => { k with gen := chainGen s c, state := 1, phase := 1, cause, began := s.now, gen1Tile := false,
                                                 foundA := [], foundB := [], sampA := [], sampB := [] }) s
    forEach ends s fun e s => discoverEnd c e.1 e.2 s

/-- The enumerations a wall activation requires: each chain whose ports or tile count have changed (R89). (DESIGN CHOICE, log 41) -/
def enumChanged (old : Option WallImg) (s : State) : State :=
  match s.wall.active with
  | none => s
  | some w => forEach (sortBy (fun (c : ChainRec) => c.chain) w.chains) s fun c s =>
      let same := match old with
        | some v => (match chainOf v c.chain with
          | some d => d.portA == c.portA && d.portB == c.portB && d.tiles == c.tiles
          | none => false)
        | none => false
      if same then s
      else
        let s := { s with link := { s.link with chains := kerase s.link.chains c.chain } }
        startEnum c 1 (forEach (chainTiles w c.chain) s fun r s =>
          { s with link := { s.link with tiles := kerase s.link.tiles r.tile } })

/-! ## Skeins (R228 to R232) -/

/-- A skein changed. -/
def modSkein (tile idx : Nat) (f : Skein → Skein) (s : State) : State :=
  { s with link := { s.link with skeins := modFirst (fun k => k.tile == tile && k.idx == idx) f s.link.skeins } }

/-- The skein of a tile and number in the epoch being sent. -/
def findSkein (s : State) (tile idx : Nat) : Option Skein :=
  s.link.skeins.find? fun k => k.tile == tile && k.idx == idx

/-- A tile's skeins of the epoch. -/
def tileSkeins (s : State) (tile : Nat) : List Skein := s.link.skeins.filter fun k => k.tile == tile

/-- The skeins of a tile for an epoch (R230). -/
def cutSkeins (format profile : Nat) (r : TileRec) : List Skein :=
  let n := pps format profile
  (List.range (skeinCount format profile (tilePx r))).map fun i =>
    { tile := r.tile, idx := i, first := i * n, npx := min n (tilePx r - i * n) }

/-- The length of a skein's frame with `mask` bytes of MASK. -/
def skeinLen (format npx mask : Nat) : Nat := max 64 (50 + mask + pxBytes format npx)

/-- The serving port of a tile, where its end is in service and it is not excluded (R223, R242). -/
def servePort (s : State) (w : WallImg) (r : TileRec) : Option (ChainRec × Bool × Nat) :=
  match chainOf w r.chain with
  | none => none
  | some c =>
    let b := endOfTile s c r
    let p := portOfEnd c b
    if ownsEnd s b && chainUp s p && (tileLk s r.tile).state == 1 then some (c, b, p) else none

/-- A skein's frame queued on its tile's serving port. -/
def queueSkein (k : Skein) (poll : Bool) (s : State) : State :=
  match s.wall.active with
  | none => s
  | some w => match tileOf w k.tile with
    | none => s
    | some r => match servePort s w r with
      | some (c, _, p) => queueTx p { kind := .skein k.tile k.idx poll, epoch := s.link.epoch
                                      len := skeinLen c.format k.npx ((k.npx + 7) / 8) } s
      | none => s

/-- A pixel of a tile waits for the verdict of the packet that carried its source pixel (R116). -/
def verdictOpen (s : State) (tile : Nat) (e : U32) (px : Nat) : Bool :=
  match directPx s { tile, epoch := e, first := px, count := 1 } px with
  | some (v, sp) => match kget? s.ing.videos v with
    | some q => (match q.verdict with
      | some (at_, n, _) => decide (at_ ≤ sp) && decide (sp < at_ + n)
      | none => false)
    | none => false
  | none => false

/-- A skein closes once every pixel's PACK write is acknowledged and every verdict is in (R116, R231). -/
def skeinClose (tile idx : Nat) (s : State) : State :=
  match findSkein s tile idx with
  | none => s
  | some k =>
    if k.closed || k.acks.length < k.npx then s
    else if s.place.profile == 3 && k.acks.any (verdictOpen s tile s.link.epoch) then s
    else queueSkein k false (modSkein tile idx (fun q => { q with closed := true }) s)

/-- The PACK write of a tile's pixel acknowledged (R176, R231). -/
def pixelAcked (tile px : Nat) (s : State) : State :=
  match s.link.skeins.find? (fun k => k.tile == tile && decide (k.first ≤ px) && decide (px < k.first + k.npx)) with
  | none => s
  | some k =>
    let s := if k.acks.contains px then s else modSkein tile k.idx (fun q => { q with acks := q.acks ++ [px] }) s
    skeinClose tile k.idx s

/-- Every skein that waited for a verdict closes where it now can (R116). -/
def closeSkeins (s : State) : State :=
  if s.place.profile != 3 then s else forEach s.link.skeins s fun k s => skeinClose k.tile k.idx s

/-- One skein dropped for its epoch (R232). -/
def dropSkein (p tile idx : Nat) (s : State) : State :=
  let s := modLnk p (fun c => { c with dropped := c.dropped + 1 }) (modSkein tile idx (fun q => { q with dropped := true }) s)
  { s with mode := { s.mode with moved := true } }

/-- One pixel of a skein as it leaves: its codes, whether it is held, and the counters (R41, R231). On a generation 1
chain a held pixel is replaced by the previous epoch's ply, or black, and the slot rewritten. -/
def egressPixel (w : WallImg) (r : TileRec) (e : U32) (gen : Nat) (count : Bool) (p px : Nat) (s : State) :
    (Ply × Bool) × State :=
  let key := wovenKey w r e px
  let (v, bad, s) := storeRead key s
  let poison := bit v 55 || bad
  if bit v 54 && !poison then ((slotPly v, false), s)
  else
    let s := if !count then s
      else if poison then modLnk p (fun c => { c with poisonPly := c.poisonPly + 1 }) s
      else modLnk p (fun c => { c with invalidPly := c.invalidPly + 1 }) s
    if gen == 1 then
      let (u, ubad, s) := storeRead (wovenKey w r (e - 1) px) s
      let ply : Ply := if bit u 54 && !bit u 55 && !ubad then slotPly u else {}
      ((ply, false), storeWrite key (slotWord ply true false) s)
    else (({}, true), s)

/-- Numbers of `n` bits each as one bit stream, most significant bit first, padded with 0 bits to a byte (R229). -/
def bitStream (n : Nat) (l : List Nat) : Bytes :=
  let v := l.foldl (fun acc x => acc * 2 ^ n + x) 0
  let bits := n * l.length
  let bytes := (bits + 7) / 8
  beN bytes (v * 2 ^ (8 * bytes - bits))

/-- A MASK: one bit per pixel, the first at bit 7 of byte 0 (R228). -/
def maskBytes (l : List Bool) : Bytes := bitStream 1 (l.map b2n)

/-- A skein's message made from copy E mod 2 as its frame starts (R228, R229, R231). (DESIGN CHOICE, log 42) -/
def skeinBody (w : WallImg) (c : ChainRec) (endB : Bool) (p : Nat) (r : TileRec) (k : Skein) (poll : Bool) (s : State) :
    Bytes × State :=
  let gen := (chainLk s c.chain).gen
  let e := s.link.epoch
  let (px, s) := (List.range k.npx).foldl (fun (acc : List (Ply × Bool) × State) i =>
    let (q, s) := egressPixel w r e gen (k.sends == 0) p (k.first + i) acc.2
    (acc.1 ++ [q], s)) ([], s)
  let held := px.map (·.2)
  let mask := if held.any id then maskBytes held else []
  let codes := px.flatMap fun q => if q.2 then [0, 0, 0] else
    if c.format == 0 then [d16 (chainFs c) q.1.s0, d16 (chainFs c) q.1.s1, d16 (chainFs c) q.1.s2]
    else [q.1.s0, q.1.s1, q.1.s2]
  let data := if c.format == 0 then codes.flatMap (beN 2) else bitStream 18 codes
  let flags := b2n (held.any id) + 2 * b2n (s.place.profile == 3) + 4 * b2n poll + 8 * c.format
  let hop := hopPos c endB r.pos
  let rest := beN 4 e.toNat ++ beN 2 k.idx ++ beN 2 (tileSkeins s r.tile).length ++ beN 2 k.first ++ beN 2 k.npx
    ++ beN 1 k.sends ++ zeros 7 ++ mask ++ data
  (ezHdr gen 1 flags s c.chain (endNum endB) hop hop rest.length ++ rest, s)

/-! ## COMMIT, SAFE, CALM and WAKE (R234, R251, R252) -/

/-- The instant before which a skein's last bit must leave (R232). -/
def guardAt (s : State) : Nat := s.link.commitAt - 50000

/-- Every chain end in service given a broadcast. -/
def castAll (f : ChainRec → Bool → State → TxFrame) (s : State) : State :=
  forEach (allEnds s) s fun e s => queueTx e.2.2 (f e.1 e.2.1 s) s

/-- CALM, carrying the last epoch committed. -/
def sendCalm (e : U32) (s : State) : State :=
  castAll (fun c b s => castEnd s c b 8 0 .calm e (beN 4 e.toNat)) s

/-- WAKE, carrying the epoch to be committed at B2. -/
def sendWake (e : U32) (s : State) : State :=
  castAll (fun c b s => castEnd s c b 9 0 .wake e (beN 4 e.toNat)) s

/-- A port's frame in progress ended at once with an inverted FCS (R252): it counts only in ABORTED_TX. -/
def cutFrame (p : Nat) (s : State) : State :=
  let q := portOf s p
  match q.current with
  | some f =>
    if s.now < q.busyUntil then
      let s := countTx false p f s
      let s := modLnk p (fun c => { c with abortedTx := c.abortedTx + 1 }) s
      put (.cut p) (modPort p (fun q => { q with current := none, busyUntil := s.now }) s)
    else s
  | none => s

/-- SAFE queued twice on every chain port in service: the state FAULT_SAFE_SET gives it, or with `order` false a release
(R252, R434, R441). -/
def sendSafe (order : Bool) (s : State) : State :=
  forEach (allEnds s) s fun e s =>
    if !maySend e.2.2 (.safe 0) s then s
    else
      let st := if order then (if s.flt.black.getLsbD e.2.2 then 2 else 1) else 0
      let s := if order then cutFrame e.2.2 s else s
      let f := castEnd s e.1 e.2.1 10 0 (.safe st) 0 (beN 1 st ++ zeros 3)
      queueTx e.2.2 f (queueTx e.2.2 f s)

/-! ## Speeds (R248, R265, R266, R275) -/

/-- The common speeds of an end that serves these tiles: those every one lists; a tile that has not replied lists all. -/
def commonSpeeds (s : State) (tiles : List TileRec) : List Nat :=
  (List.range 4).filter fun v => tiles.all fun r =>
    match (tileLk s r.tile).reply with | some q => bit q.speeds v | none => true

/-- The tiles an end serves under a split, without the excluded ones. -/
def servedTiles (s : State) (w : WallImg) (c : ChainRec) (k : Nat) (endB : Bool) : List TileRec :=
  (endTiles w c.chain k endB).filter fun r => (tileLk s r.tile).state != 2

/-- An end's load meets a bound at a speed; with no mode the load is 0. -/
def endMeets (c : ChainRec) (profile mode : Nat) (tiles : List TileRec) (speed pct : Nat) : Bool :=
  mode == 0 || loadMeets (endBytes c.format profile (tiles.map tilePx)) mode (lineRate speed) pct

/-- The speed R265 gives an end: none where it serves no tile. (DESIGN CHOICE, log 43) -/
def freeSpeed (s : State) (w : WallImg) (c : ChainRec) (k : Nat) (endB : Bool) (profile mode : Nat) : Option Nat :=
  let tiles := servedTiles s w c k endB
  let common := commonSpeeds s tiles
  if tiles.isEmpty then none
  else match common with
    | [] => some 0
    | best :: _ =>
      if profile == 0 || profile == 3 then some best
      else
        let ok := common.filter fun v => endMeets c profile mode tiles v (if profile == 1 then 70 else 85)
        some (ok.getLast?.getD best)

/-- A fixed speed stands: it is common to the end and its load is 85 % or less (R275). -/
def fixedStands (s : State) (w : WallImg) (c : ChainRec) (k : Nat) (endB : Bool) (profile mode speed : Nat) : Bool :=
  let tiles := servedTiles s w c k endB
  (commonSpeeds s tiles).contains speed && endMeets c profile mode tiles speed 85

/-- The speed an end is to run at. (DESIGN CHOICE, log 43) -/
def wantSpeed (s : State) (w : WallImg) (c : ChainRec) (k : Nat) (endB : Bool) (profile mode : Nat) : Option Nat :=
  let q := portOf s (portOfEnd c endB)
  if (servedTiles s w c k endB).isEmpty then none
  else if q.cfg != 0xFF && !q.suspended && fixedStands s w c k endB profile mode q.cfg then some q.cfg
  else freeSpeed s w c k endB profile mode

/-- A SPEED REQUEST sent from an end, for a speed at an instant (R248, R249). (DESIGN CHOICE, log 43) -/
def requestSpeed (w : WallImg) (c : ChainRec) (endB : Bool) (k dest at_ : Nat) (s : State) : State :=
  let p := portOfEnd c endB
  let need := (servedTiles s w c k endB).map fun r => hopPos c endB r.pos
  let req : SpeedReq := { dest, at_, askedAt := s.now, need, agreed := need.isEmpty, rises := decide (dest < (portOf s p).speed) }
  let rest := beN 1 0 ++ beN 1 dest ++ beN 2 0 ++ beN 8 at_
  let s := modPort p (fun q => { q with req := some req, again := none }) s
  queueTx p (castEnd s c endB 7 0 .speed 0 rest) s

/-- A tile's REPLY to an end's last DISCOVER. -/
def replyAt (s : State) (c : ChainRec) (endB : Bool) (hop : Nat) : Option Reply :=
  let k := chainLk s c.chain
  if endB then kget? k.foundB hop else kget? k.foundA hop

/-- The sum of a latency over the hops before `hop` from an end, in units of 2^-6 ns. -/
def latSum (s : State) (c : ChainRec) (endB : Bool) (hop : Nat) (f : Reply → Nat) : Nat :=
  ((List.range (hop - 1)).map fun i => match replyAt s c endB (i + 1) with | some r => f r | none => 0).sum

/-- A tile's OFFSET from an end. -/
def offOf (k : TileLink) (endB : Bool) : Option Nat := if endB then k.offB else k.offA

/-- A tile's OFFSET from an end set. -/
def setOff (tile : Nat) (endB : Bool) (v : Option Nat) (s : State) : State :=
  modTile tile (fun k => if endB then { k with offB := v } else { k with offA := v }) s

/-- Every OFFSET of an end recomputed for a new line speed (R244): on a generation 2 chain each upstream LAT_F is replaced. -/
def offsetsRetune (p old new : Nat) (s : State) : State :=
  match s.wall.active, endOfPort s p with
  | some w, some (c, b) =>
    if (chainLk s c.chain).gen == 1 then s
    else forEach (chainTiles w c.chain) s fun r s =>
      let h := hopPos c b r.pos
      match offOf (tileLk s r.tile) b with
      | some o => setOff r.tile b (some (o + latSum s c b h (fun q => q.latF.getD new 0)
                                          - latSum s c b h (fun q => q.latF.getD old 0))) s
      | none => s
  | _, _ => s

/-- The line of a chain end drops at AT_TIME and retrains at the new speed (R248). -/
def dropLine (p : Nat) (r : SpeedReq) (s : State) : State :=
  let s := offsetsRetune p (portOf s p).speed r.dest s
  let s := modPort p (fun q => { q with speed := r.dest, speedChanges := q.speedChanges + 1,
                                        req := some { r with retrain := true } }) s
  portEvent p (portUpState s p) 3 s

/-- The speed changes whose AT_TIME has come (R248). -/
def speedsDue (s : State) : State :=
  forEach (s.link.ports.map (·.1)) s fun p s =>
    match (portOf s p).req with
    | some r => if r.agreed && !r.retrain && decide (r.at_ ≤ s.now) then dropLine p r s else s
    | none => s

/-- Speed requests for the placement that takes effect at `at_`: its AT_TIME (R265). `ks` gives the splits. -/
def requestSpeeds (w : WallImg) (profile mode at_ : Nat) (ks : ChainRec → Nat) (s : State) : State :=
  forEach w.chains s fun c s =>
    if !chainReady s c.chain then s
    else forEach (upEnds s c) s fun e s =>
      match wantSpeed s w c (ks c) e.1 profile mode with
      | none => s
      | some v =>
        let q := portOf s e.2
        let asked := match q.req with | some r => r.dest == v | none => false
        if v == q.speed || asked || !controls s then s else requestSpeed w c e.1 (ks c) v at_ s

/-- A boundary at which the device is still in Calm: a placement waits for the first boundary of the wake (R217). -/
def calmHolds (s : State) (b : Nat) : Bool :=
  s.mode.calm && (match s.mode.wakeAt with | some a => decide (b < a) || s.power.wake.isSome | none => true)

/-- Speeds requested for the placement that takes effect at the next boundary, once (R265): under the wall, profile, mode
and splits that it will have. -/
def previewSpeeds (s : State) : State :=
  let b := if modeOn s then nextBoundary s else match s.mode.pending with | some m => m.bc | none => 0
  let group := dueTriggers b (match s.mode.pending with | some m => m.bc == b | none => false) s.place.triggers
  if (!modeOn s && s.mode.pending.isNone) || s.place.previewed == some b || group.isEmpty || calmHolds s b then s
  else
      let prof := if group.any (fun q => q.cause == 1) then s.place.pendProfile.getD s.place.profile else s.place.profile
      let mode := match s.mode.pending with | some m => if m.bc ≤ b then m.mode else s.mode.mode | none => s.mode.mode
      let wall := match s.wall.pending with
        | some (w, _) => if group.any (fun q => q.cause == 0) then some w else s.wall.active
        | none => s.wall.active
      let s := { s with place := { s.place with previewed := some b } }
      match wall with
      | none => s
      | some w =>
        let held := s.place.pins.filter fun q => decide (q.since ≤ s.place.gen + 1)
        let pins := held.filter (pinLive s w prof (pinBanks held))
        requestSpeeds w prof mode b (fun c => placeSplit w c prof pins (chainUp s) s.place.inForce.split) s

/-- Fixed speeds are checked again at a placement; one that fails is suspended with PORT_STATE (R275). -/
def checkFixed (s : State) : State :=
  match s.wall.active with
  | none => s
  | some w => forEach (allEnds s) s fun e s =>
      let q := portOf s e.2.2
      if q.cfg == 0xFF || q.suspended || (servedTiles s w e.1 (splitOf s e.1) e.2.1).isEmpty
          || fixedStands s w e.1 (splitOf s e.1) e.2.1 s.place.profile s.mode.mode q.cfg then s
      else portEvent e.2.2 (portUpState s e.2.2) 4 (modPort e.2.2 (fun q => { q with suspended := true }) s)

/-- The lead of a speed change that waits for no placement: the tiles' 200 µs to confirm and a margin. -/
def speedLead : Nat := 250000

/-- The speeds of every end lowered for Calm, from a frame boundary on, or restored at once (R216, R218, R248): lowered, an end
runs at its lowest common speed. (DESIGN CHOICE, log 43) -/
def calmSpeeds (low : Bool) (s : State) : State :=
  match s.wall.active with
  | none => s
  | some w => forEach (allEnds s) s fun e s =>
      let c := e.1
      let k := splitOf s c
      let want := if low then (commonSpeeds s (servedTiles s w c k e.2.1)).getLast?
        else wantSpeed s w c k e.2.1 s.place.profile s.mode.mode
      match want with
      | none => s
      | some v =>
        if (servedTiles s w c k e.2.1).isEmpty || v == (portOf s e.2.2).speed || !controls s then s
        else requestSpeed w c e.2.1 k v (if low && modeOn s then boundaryFrom s (s.now + speedLead) else s.now + speedLead) s

end Sys2Proof.Machine
end

