-- ==== Sys2Proof/Machine/TimeOps.lean ====
section
/-! DEFINITION. The state of the time unit that other units end: its mirrors (R295), its states (R280, R282), and the choice of a
master (R278). -/

namespace Sys2Proof.Machine

/-- The time unit changed. -/
def modTime (f : TimeSt → TimeSt) (s : State) : State := { s with time := f s.time }

/-- The TIME mirrors update: TIME_SEQ goes up by 1 before and by 1 after (R295). -/
def mirror (s : State) : State := modTime (fun k => { k with seq := k.seq + 2 }) s

/-! ## PTP state (R278, R280, R282) -/

/-- Whole seconds in HOLDOVER (R282). (DESIGN CHOICE, log 3) -/
def holdAge (s : State) : Nat :=
  match s.time.holdSince with | some a => (s.now - a) / 1000000000 | none => 0

/-- TIME_STATE emitted (R299). -/
def timeEvent (s : State) : State :=
  emit 0x0B01 (leN 1 s.time.state ++ leN 1 s.time.slavePort ++ zeros 2 ++ leN 4 (holdAge s) ++ leN 8 s.time.gmId.toNat) s

/-- The state of the time unit changes, with TIME_STATE; on entry to HOLDOVER its source detects (R429). -/
def timeState (st : Nat) (s : State) : State :=
  if s.time.state == st then s
  else
    let s := modTime (fun k => { k with state := st, lockRun := 0, overRun := 0
                                        holdSince := if st == 3 then some s.now else none }) s
    let s := timeEvent (mirror s)
    if st == 3 then raise 0x4000 0 [] s else s

/-- The mean of the frequency corrections of the last 16 s of ACQUIRING or LOCKED (R282). -/
def meanFreq (s : State) : Int :=
  let l := s.time.freqHist.filter fun e => decide (s.now < e.1 + 16000000000)
  if l.isEmpty then s.time.freqPpb else (l.map (·.2)).sum / (l.length : Int)

/-- The master is lost (R282). -/
def masterLost (s : State) : State :=
  let s := modTime (fun k => { k with slavePort := 0xFF, offset := 0, stepAt := none }) s
  if s.time.state == 1 || s.time.state == 2 then
    timeState 3 (modTime (fun k => { k with freqPpb := meanFreq s, freqHist := [] }) s)
  else mirror s

/-- 2^n seconds in ns. -/
def pow2s (n : Int) : Nat := if n < 0 then 1000000000 / 2 ^ n.natAbs else 1000000000 * 2 ^ n.natAbs

/-- The order of the best master clock algorithm of IEEE 1588-2019: the lower comes first. (PRESUMED, log 27) -/
def announceKey (a : Announce) : List Nat :=
  [a.prio1, a.clockClass, a.accuracy, a.variance, a.prio2, a.gmId.toNat, a.steps, a.srcId.toNat]

/-- The device's own data set as a master that is not locked (R277). (DESIGN CHOICE, log 7; PRESUMED, log 27) -/
def ownKey (s : State) : List Nat :=
  [s.time.prio1, 248, 0xFE, 0xFFFF, s.time.prio2, Config.clockIdentity.toNat, 0, Config.clockIdentity.toNat]

/-- A list of numbers before another of the same length. (PRESUMED, log 27) -/
def keyLt : List Nat → List Nat → Bool
  | a :: r, b :: q => decide (a < b) || (a == b && keyLt r q)
  | _, _ => false

/-- A PTP port may take part: it is enabled for PTP and a standard port in service (R278). -/
def ptpUp (s : State) (p : Nat) : Bool :=
  khas s.time.ports p && (portOf s p).role == 1 && !(portOf s p).retired

/-- The best qualified Announce of all PTP ports: one heard at least twice within four intervals. (PRESUMED, log 27) -/
def bestAnnounce (s : State) : Option Announce :=
  let l := s.time.ports.filterMap fun e =>
    if ptpUp s e.1 && 2 ≤ e.2.count then e.2.best else none
  l.foldl (fun acc a => match acc with
    | none => some a
    | some b => if keyLt (announceKey a) (announceKey b) then some a else some b) none

/-- The algorithm's decision taken: the slave port and its master, ACQUIRING on a new one, or the loss of the master. (PRESUMED, log 27) -/
def selectMaster (s : State) : State :=
  let best := match bestAnnounce s with
    | some a => if s.time.role == 0 || keyLt (announceKey a) (ownKey s) then some a else none
    | none => none
  match best with
  | none => if s.time.slavePort == 0xFF then s else masterLost s
  | some a =>
    let same := s.time.slavePort == a.port && s.time.gmId == a.gmId
    let s := modTime (fun k => { k with slavePort := a.port, gmId := a.gmId, gmUtc := a.utcOffset }) s
    if same then s
    else if s.time.state == 1 then mirror (modTime (fun k => { k with lockRun := 0, overRun := 0 }) s)
    else timeState 1 s

/-- The slave port's master is lost, and another is taken where one is heard (R282). -/
def slaveGone (s : State) : State := selectMaster (masterLost s)

/-- A slave port that is retired or no longer a standard port has left PTP (R278). -/
def ptpLeave (s : State) : State :=
  if s.time.slavePort == 0xFF || ptpUp s s.time.slavePort then s else slaveGone s

end Sys2Proof.Machine
end

