-- ==== Sys2Proof/Machine/FixOps.lean ====
section
/-! DEFINITION. The fixture engine's shared operations: what a fixture reads from the canvas (R319, R320), the slots of an
output (R317, R318), sACN packets (R323, R324), DMX frames (R326, R327), and the safe state and skeleton service on outputs
(R330, R331). -/

namespace Sys2Proof.Machine

/-! ## Outputs and fixtures -/

/-- Output `o`, where it is defined. -/
def outOf (s : State) (o : Nat) : Option Output := kget? s.fix.outs o
/-- An output changed. -/
def modOut (o : Nat) (f : Output → Output) (s : State) : State :=
  { s with fix := { s.fix with outs := kmod? s.fix.outs o f } }
/-- DMX port `p`. -/
def dmxOf (s : State) (p : Nat) : DmxPort := kgetD s.fix.dmx p {}
/-- A DMX port changed. -/
def modDmx (p : Nat) (f : DmxPort → DmxPort) (s : State) : State :=
  { s with fix := { s.fix with dmx := kmod s.fix.dmx p {} f } }
/-- An output is a DMX port (R316). -/
def isDmx (o : Nat) : Bool := decide (4096 ≤ o)

/-- The channels of a fixture's layout (R317). -/
def fixChannels (d : FixDef) : Nat := match d.layout with | 1 => 3 | 2 => 4 | 3 => 4 | _ => d.nch
/-- The slots of a fixture's footprint. -/
def fixSlots (d : FixDef) : Nat := fixChannels d * (d.bits / 8)

/-! ## Following the picture (R319, R320) -/

/-- The weighted sum over a run of canvas pixels, and whether every pixel read is valid and unpoisoned. -/
def regionSum (w : WallImg) (layer : Nat) : List (Nat × Nat) → (Lin × Lin × Lin) → Bool → State →
    (Lin × Lin × Lin) × Bool × State
  | [], acc, ok, s => (acc, ok, s)
  | (x, y) :: r, acc, ok, s =>
    let (v, s) := layerPixel w layer x y s
    let a := qf v.alpha 255
    let l := linOf v
    regionSum w layer r (ladd acc.1 (lscale a l.1), ladd acc.2.1 (lscale a l.2.1), ladd acc.2.2 (lscale a l.2.2))
      (ok && v.valid && !v.poison) s

/-- A drive value of a strand dimmed by `dim` twists (R43, R319). -/
def driveQ (v : Nat) (dim : Int) : Q :=
  let v := dimTw v dim
  if v == 0 then qi 0 else qunit (exp2Twist ((v : Int) - refWhite))

/-- The three drives of a canvas region; none where a pixel read is invalid or poisoned. -/
def regionDrives (layer x y w h : Nat) (dim : Int) (s : State) : Option (Q × Q × Q) × State :=
  match s.wall.active with
  | none => (some (qi 0, qi 0, qi 0), s)
  | some img =>
    let px := (List.range h).flatMap fun j => (List.range w).map fun i => (x + i, y + j)
    let z := Lin.fin (qi 0)
    let (sum, ok, s) := regionSum img layer px (z, z, z) true s
    let k := qf 1 (w * h)
    let f (l : Lin) : Q := driveQ (lform (lround (lscale k l))).1 dim
    (if ok then some (f sum.1, f sum.2.1, f sum.2.2) else none, s)

/-- The channel drives of a layout (R320). -/
def layoutDrives (layout : Nat) (d : Q × Q × Q) : List Q :=
  let qmin (a b : Q) : Q := if qlt b a then b else a
  let qmax (a b : Q) : Q := if qlt a b then b else a
  match layout with
  | 2 =>
    let m := qmin d.1 (qmin d.2.1 d.2.2)
    [qsub d.1 m, qsub d.2.1 m, qsub d.2.2 m, m]
  | 3 =>
    let i := qmax d.1 (qmax d.2.1 d.2.2)
    if i.num = 0 then [qi 0, qi 0, qi 0, qi 0] else [i, qdiv d.1 i, qdiv d.2.1 i, qdiv d.2.2 i]
  | _ => [d.1, d.2.1, d.2.2]

/-- A channel drive encoded through TRANSFER in `n` bits (R320). -/
def encodeDrive (transfer gamma n : Nat) (y : Q) : Nat :=
  let y := if transfer == 0 || y.num ≤ 0 then y else exp2Fix (log2Fix y.num.natAbs y.den * 1000 / (max 1 gamma : Nat))
  (qfloor (qadd (qmul y (qi ((2 ^ n - 1 : Nat) : Int))) (qf 1 2))).toNat

/-- A region fixture's channel codes from the front copies in force, or its previous ones with HELD counted (R319). -/
def fixRegion (id : Nat) (f : Fixture) (s : State) : State :=
  let (d, s) := regionDrives f.d.layer f.d.x f.d.y f.d.w f.d.h f.d.dim s
  match d with
  | some d =>
    let vals := (layoutDrives f.d.layout d).map (encodeDrive f.d.transfer f.d.gamma f.d.bits)
    { s with fix := { s.fix with fixtures := kmod? s.fix.fixtures id fun f => { f with vals } } }
  | none => modOut f.d.out (fun o => { o with held := o.held + 1 }) s

/-- The codes of a fixture as slots. -/
def codeSlots (bits : Nat) (vals : List Nat) : Bytes := vals.flatMap (beN (bits / 8))

/-- The codes a fixture shows in the safe state (R330). -/
def safeCodes (f : Fixture) : List Nat :=
  match f.safeMode with
  | 0 => f.shown
  | 1 => List.replicate (fixChannels f.d) 0
  | _ => f.safeVals.take (fixChannels f.d)

/-- A slot list with `b` laid over it from index `i`. -/
def overlay (i : Nat) (b l : Bytes) : Bytes := l.take i ++ (b ++ l.drop (i + b.length))

/-- The slots of an output: its fixtures over its BASE (R317, R318). -/
def outSlots (s : State) (o : Nat) (d : OutDef) : Bytes :=
  let u := kgetD s.ing.univs (univKey d.base 0xFF) {}
  let base := if d.base == 0 || u.srcs.isEmpty then zeros d.slots else padTo d.slots (u.held.getD [])
  let fx := s.fix.fixtures.filter fun e => e.2.d.out == o
  padTo d.slots (fx.foldl (fun l e => overlay (e.2.d.first - 1) (codeSlots e.2.d.bits e.2.shown) l) base)

/-! ## sACN packets (R323, R324) -/

/-- The CID in use. (DESIGN CHOICE, log 7) -/
def cidBytes (s : State) : Bytes := s.fix.cid.getD ((List.finRange 16).map Config.defaultCid)

/-- The ASCII characters of a string. -/
def ascii (x : String) : Bytes := x.toList.map fun c => BitVec.ofNat 8 c.toNat

/-- One hexadecimal digit. -/
def hexDigit (n : Nat) : U8 := BitVec.ofNat 8 (if n < 10 then 48 + n else 55 + n)

/-- The source name: "KDC6430 " and the serial in hex (R323). -/
def sourceName : Bytes :=
  padTo 64 (ascii "KDC6430 " ++ ((List.range 8).map fun i => hexDigit (Config.serial.toNat / 16 ^ (7 - i) % 16)))

/-- An E1.31 root layer of vector `v` around a body (ANSI E1.31). (PRESUMED, log 26) -/
def e131Root (s : State) (v : Nat) (body : Bytes) : Bytes :=
  beN 2 0x10 ++ beN 2 0 ++ padTo 12 (ascii "ASC-E1.17") ++ beN 2 (0x7000 + 22 + body.length) ++ beN 4 v ++ cidBytes s ++ body

/-- An E1.31 data packet of an output with `slots`, or its Stream_Terminated packet. (PRESUMED, log 26) -/
def e131Data (s : State) (d : OutDef) (seq : U8) (terminated : Bool) (slots : Bytes) : Bytes :=
  let dmp := beN 2 (0x7000 + 11 + slots.length) ++ beN 1 2 ++ beN 1 0xA1 ++ beN 2 0 ++ beN 2 1 ++ beN 2 (1 + slots.length)
    ++ beN 1 0 ++ slots
  let frame := beN 4 2 ++ sourceName ++ beN 1 d.prio ++ beN 2 d.sync ++ [seq] ++ beN 1 (64 * b2n terminated) ++ beN 2 d.univ
  e131Root s 4 (beN 2 (0x7000 + 2 + frame.length + dmp.length) ++ frame ++ dmp)

/-- An E1.31 synchronization packet. (PRESUMED, log 26) -/
def e131Sync (s : State) (sync : Nat) (seq : U8) : Bytes :=
  e131Root s 8 (beN 2 (0x7000 + 11) ++ beN 4 1 ++ [seq] ++ beN 2 sync ++ beN 2 0)

/-- Fixture outputs may send: the device controls them, and gives a service at all (R36, R413). (DESIGN CHOICE, log 47) -/
def outsLive (s : State) : Bool := controls s && s.fab.svcLevel != 0

/-- One data packet of an output queued on its port; a distaff sends none (R413), nor a device that gives no service (R36).
(PRESUMED, log 26) -/
def sacnPacket (o : Nat) (terminated : Bool) (s : State) : State :=
  match outOf s o with
  | none => s
  | some q =>
    if !outsLive s then s else
    let body := e131Data s q.d q.seq terminated q.data
    let cast := if q.d.dest == 0 then Cast.multi else Cast.uni
    let s := queueTx q.d.port { kind := .sacnData q.d.univ q.d.dest, cast, body, len := udpLen body.length } s
    modOut o (fun q => { q with seq := q.seq + 1, packets := q.packets + 1, lastAt := some s.now, lastData := q.data
                                sent := !terminated }) s

/-- At least 1/RATE_HZ has passed since an output's last data packet. -/
def rateOk (s : State) (q : Output) : Bool :=
  match q.lastAt with
  | none => true
  | some a => decide (1000000000 ≤ (s.now - a) * q.d.rate)

/-- An output sends: it is not stopped and no drain has ended for it. -/
def outSends (q : Output) : Bool := q.st != 0 && q.terms == 0

/-- An output has a packet to send: its data has changed, or one of the three packets after a change is left (R323). -/
def outWants (q : Output) : Bool := q.lastAt.isNone || q.data != q.lastData || decide (0 < q.left)

/-- The packet of an epoch, or its passing over (R323). -/
def sacnEpoch (o : Nat) (s : State) : State :=
  match outOf s o with
  | none => s
  | some q =>
    if !outSends q || !outWants q then s
    else if !rateOk s q then modOut o (fun q => { q with skipped := q.skipped + 1 }) s
    else
      let fresh := q.lastAt.isNone || q.data != q.lastData
      modOut o (fun q => { q with left := if fresh then 3 else q.left - 1 }) (sacnPacket o false s)

/-- The synchronization packets of a commit: one on each port that sent a data packet for the epoch (R324). -/
def sacnSyncs (s : State) : State :=
  let hit := s.fix.outs.filter fun e => e.2.sent && e.2.d.sync != 0
  let pairs := uniq (hit.map fun e => (e.2.d.port, e.2.d.sync))
  let s := { s with fix := { s.fix with outs := kmap s.fix.outs fun _ q => { q with sent := false } } }
  forEach pairs s fun p s =>
    let seq := kgetD s.fix.syncSeq p.2 0
    let body := e131Sync s p.2 seq
    queueTx p.1 { kind := .sacnSync p.2, body, len := udpLen body.length }
      { s with fix := { s.fix with syncSeq := kset s.fix.syncSeq p.2 (seq + 1) } }

/-- What a commit sends: the synchronization packets, and the packets of outputs without SYNC (R324). -/
def fixCommit (s : State) : State :=
  let s := sacnSyncs s
  forEach (s.fix.outs.filter fun e => e.2.due) s fun e s => modOut e.1 (fun q => { q with due := false, sent := false }) (sacnEpoch e.1 s)

/-! ## DMX frames (R326, R327) -/

/-- The time one slot takes with its spacing, in ns. -/
def slotNs (d : OutDef) : Nat := 44000 + 1000 * d.gapUs

/-- A DMX frame whose start code has begun takes its values. -/
def dmxLatch (p : Nat) (s : State) : State :=
  let q := dmxOf s p
  match outOf s (4096 + p) with
  | some o =>
    if q.open_ && decide (q.codeAt ≤ s.now) then put (.dmx p (0#8 :: o.data)) (modDmx p (fun q => { q with open_ := false }) s)
    else s
  | none => s

/-- Every DMX frame whose start code has begun takes its values. -/
def dmxLatchAll (s : State) : State := forEach (List.range 8) s dmxLatch

/-- A DMX port starts a frame now. -/
def dmxStart (p : Nat) (s : State) : State :=
  let s := dmxLatch p s
  match outOf s (4096 + p) with
  | none => s
  | some o =>
    let codeAt := s.now + 1000 * (o.d.breakUs + o.d.mabUs)
    let s := modDmx p (fun q => { q with codeAt, endAt := codeAt + 44000 + o.d.slots * slotNs o.d, open_ := true
                                         rdmDone := false }) s
    modOut (4096 + p) (fun o => { o with packets := o.packets + 1 }) s

/-- A DMX port's frame in progress ends at its current slot, and the port idles at mark (R192, R330). -/
def dmxCut (p : Nat) (s : State) : State :=
  let q := dmxOf s p
  if q.endAt ≤ s.now then dmxLatch p s
  else match outOf s (4096 + p) with
    | none => s
    | some o =>
      let n := if q.codeAt ≤ s.now then (s.now - q.codeAt) / slotNs o.d + 1 else 0
      let s := put (.dmx p ((0#8 :: o.data).take n)) s
      modDmx p (fun q => { q with open_ := false, endAt := s.now }) s

/-! ## Output state (R333) -/

/-- An output's state set, with OUTPUT_STATE where it changes. -/
def outState (o st : Nat) (s : State) : State :=
  match outOf s o with
  | none => s
  | some q => if q.st == st then s else emit 0x0E01 (leN 2 o ++ leN 1 st) (modOut o (fun q => { q with st }) s)

/-- Every output's slots taken afresh from its fixtures and its BASE. -/
def outsFill (s : State) : State :=
  let s := dmxLatchAll s
  { s with fix := { s.fix with outs := kmap s.fix.outs fun o q => { q with data := outSlots s o q.d } } }

/-! ## The start of an epoch's weave (R318 to R324) -/

/-- Fixture definitions that waited for the epoch take effect together (R332). -/
def fixDefine (s : State) : State :=
  let m := s.fix.pendFix.foldl (fun m e => match e.2 with
    | none => kerase m e.1
    | some d =>
      let z := List.replicate (match d.layout with | 1 => 3 | 2 => 4 | 3 => 4 | _ => d.nch) 0
      match kget? m e.1 with
      | some f => if f.d.layout == d.layout && f.d.nch == d.nch && f.d.bits == d.bits then kset m e.1 { f with d := d }
          else kset m e.1 { f with d := d, vals := z, shown := z }
      | none => kset m e.1 { d := d, vals := z, shown := z }) s.fix.fixtures
  { s with fix := { s.fix with fixtures := m, pendFix := [] } }

/-- The values of the FIX_SETs that are due, in the order they were taken (R322). (DESIGN CHOICE, log 47) -/
def fixApply (s : State) : State :=
  let m := s.fix.setq.foldl (fun m e => kmod? m e.1 fun f => { f with vals := f.vals.set e.2.1 e.2.2 }) s.fix.fixtures
  { s with fix := { s.fix with fixtures := m, setq := [] } }

/-- The layers are read: pixel service, not in Calm or Doze (R321). -/
def layersRead (s : State) : Bool := s.fab.svcLevel == 2 && !s.mode.calm && s.power.st == 0

/-- The crowd blocks with those that wait for the next superframe taken in (R358). -/
def nextBlocks (s : State) : KMap Bytes :=
  s.air.pendBlocks.foldl (fun m e => match e.2 with | some b => kset m e.1 b | none => kerase m e.1) s.air.blocks

/-- The crowd cells' codes under the weave that starts, for the superframe after it (R347). -/
def cellsCompute (s : State) : State :=
  forEach (nextBlocks s) s fun e s =>
    let b := e.2
    let (w, h) := (field b 16 2, field b 18 2)
    forEach (List.range (w * h)) s fun i s =>
      let (d, s) := regionDrives (field b 1 1) (field b 8 4 + i % w) (field b 12 4 + i / w) 1 1 (sfield b 20 4) s
      match d with
      | some d =>
        let f := encodeDrive (field b 3 1) (field b 6 2) 8
        { s with fix := { s.fix with cells := kset s.fix.cells (field b 4 2 + i) (f d.1, f d.2.1, f d.2.2) } }
      | none => s

/-- The fixture engine at the start of a weave: definitions, host values, regions, and every output's slots; the packets of
outputs with SYNC are queued, and the others wait for the commit (R319, R322, R324). -/
def fixStart (s : State) : State :=
  let s := dmxLatchAll (fixApply (fixDefine s))
  let s := if layersRead s then
      cellsCompute (forEach (s.fix.fixtures.filter fun e => decide (1 ≤ e.2.d.layout) && decide (e.2.d.layout ≤ 3)) s
        fun e s => fixRegion e.1 e.2 s)
    else s
  let s := if s.flt.safe then s
    else { s with fix := { s.fix with fixtures := kmap s.fix.fixtures fun _ f => { f with shown := f.vals } } }
  let s := outsFill s
  forEach (s.fix.outs.filter fun e => !isDmx e.1 && outSends e.2) s fun e s =>
    if e.2.d.sync == 0 then modOut e.1 (fun q => { q with due := true }) s else sacnEpoch e.1 s

/-- Host values take effect at once with no mode in force (R322). -/
def fixNow (s : State) : State :=
  let s := dmxLatchAll (fixApply (fixDefine s))
  let s := if s.flt.safe then s
    else { s with fix := { s.fix with fixtures := kmap s.fix.fixtures fun _ f => { f with shown := f.vals } } }
  let s := outsFill s
  sacnSyncs (forEach (s.fix.outs.filter fun e => !isDmx e.1 && outSends e.2 && outWants e.2 && rateOk s e.2) s
    fun e s => sacnEpoch e.1 s)

/-! ## The safe state and skeleton service (R330, R331) -/

/-- Every output that sends takes its safe values at once. -/
def fixSafe (s : State) : State :=
  let s := dmxLatchAll s
  let live := (s.fix.outs.filter fun e => outSends e.2).map (·.1)
  let s := { s with fix := { s.fix with fixtures := kmap s.fix.fixtures fun _ f => { f with shown := safeCodes f } } }
  -- a DMX frame in progress ends at its current slot with the values it began with
  let s := forEach (live.filter isDmx) s fun o s =>
    let p := o - 4096
    let busy := (dmxOf s p).cur
    let s := dmxCut p s
    match busy with
    | some j => modDmx p (fun q => { q with cur := none, queue := (match j with | .host .. => [j] | _ => []) ++ q.queue
                                            disc := q.disc.map fun d => match j with
                                              | .host .. => d
                                              | j => { d with todo := j :: d.todo } }) s
    | none => s
  let s := outsFill s
  forEach live s fun o s =>
    let s := outState o 2 s
    if isDmx o then dmxStart (o - 4096) s else sacnPacket o false s

/-- Outputs leave the safe state: they take the values of the epoch that starts (R441). -/
def fixRelease (s : State) : State :=
  forEach (s.fix.outs.filter fun e => e.2.st == 2) s fun e s => outState e.1 (if s.fab.svcLevel == 2 then 1 else 3) s

/-- An output takes part in what its service level sends: it sends, or nothing was sent at the level left (`all`). -/
def outLive (all : Bool) (q : Output) : Bool := outSends q || all && q.redef.isNone && q.terms == 0

/-- The outputs skeleton service keeps: the DMX ports, then those with KEEP in ascending OUT, 512 in all. -/
def keptOuts (all : Bool) (s : State) : List Nat :=
  let live := s.fix.outs.filter fun e => outLive all e.2
  ((live.filter fun e => isDmx e.1) ++ live.filter fun e => !isDmx e.1 && e.2.d.keep).map (·.1) |>.take 512

/-- Skeleton service on outputs: those kept send on, the others end with Stream_Terminated. From no service (`all`), those kept
start. (DESIGN CHOICE, log 47) -/
def fixSkeleton (all : Bool) (s : State) : State :=
  let kept := keptOuts all s
  forEach (s.fix.outs.filter fun e => outLive all e.2) s fun e s =>
    if kept.contains e.1 then (if e.2.st == 2 then s else outState e.1 (if s.flt.safe then 2 else 3) s)
    else if all || isDmx e.1 then outState e.1 0 s
    else modOut e.1 (fun q => { q with terms := 3, termAt := s.now, due := false }) s

/-- No service: every output stops at once (R36). (DESIGN CHOICE, log 47) -/
def fixStop (s : State) : State :=
  forEach (s.fix.outs.filter fun e => outSends e.2) s fun e s =>
    let s := modOut e.1 (fun q => { q with due := false, sent := false }) s
    outState e.1 0 (if isDmx e.1 then dmxCut (e.1 - 4096) s else s)

/-- Pixel service on outputs: every output sends again. -/
def fixPixel (s : State) : State :=
  forEach (s.fix.outs.filter fun e => e.2.redef.isNone) s fun e s =>
    let s := modOut e.1 (fun q => { q with terms := 0 }) s
    if e.2.st == 2 then s else outState e.1 (if s.flt.safe then 2 else 1) s

/-! ## Drains and redefinition (R325) -/

/-- The state in which an output of a definition starts: in skeleton service only those it keeps send (R331). (DESIGN CHOICE, log 47) -/
def startState (s : State) (o : Nat) (d : OutDef) : Nat :=
  if s.fab.svcLevel == 0 then 0
  else if s.fab.svcLevel == 1 && !(isDmx o || d.keep && decide ((keptOuts false s).length < 512)) then 0
  else if s.flt.safe then 2 else if s.fab.svcLevel == 1 then 3 else 1

/-- An output's new definition takes effect, or it stops (R325). (DESIGN CHOICE, log 47) -/
def outRedefine (o : Nat) (s : State) : State :=
  match outOf s o with
  | none => s
  | some q =>
    match q.redef with
    | none => s
    | some none =>
      let s := outState o 0 s
      { s with fix := { s.fix with outs := kerase s.fix.outs o } }
    | some (some d) =>
      let s := modOut o (fun q => { q with d := d, redef := none, ref := none, left := 0, lastAt := none, due := false, sent := false }) s
      outState o (startState s o d) (outsFill s)

/-- A redefined output's drain has ended and its last packets are sent. -/
def outSettled (s : State) (o : Nat) (q : Output) : Bool :=
  q.redef.isSome && q.terms == 0 && !draining s (if isDmx o then 2 else 3) (if isDmx o then o - 4096 else o)

/-- The drain of an output ends: the command completes, and an sACN output sends its Stream_Terminated packets (R325). -/
def outDrained (o : Nat) (s : State) : State :=
  match outOf s o with
  | none => s
  | some q =>
    let s := drainEnd (if isDmx o then 2 else 3) (if isDmx o then o - 4096 else o) s
    let s := match q.ref with | some r => finish r stOK 0 [] s | none => s
    let s := if isDmx o then outState o 0 s
      else modOut o (fun q => { q with ref := none, terms := 3, termAt := s.now, due := false }) s
    -- an undefinition, or any change with no mode in force, waits for no boundary
    if isDmx o && (!modeOn s || q.redef == some none) then outRedefine o s else s

/-- Nothing of a draining output is left: no frame in progress, no transaction and no queued request; for an sACN output,
no update waits. -/
def outIdle (s : State) (o : Nat) : Bool :=
  if isDmx o then
    let p := dmxOf s (o - 4096)
    decide (p.endAt ≤ s.now) && p.cur.isNone && p.queue.isEmpty && p.disc.isNone
  else match outOf s o with
    | none => true
    | some q => !q.due && !((portOf s q.d.port).queue.any fun f => match f.kind with | .sacnData u _ => u == q.d.univ | _ => false)

/-- Every draining output that has finished ends its drain. -/
def outsDrained (s : State) : State :=
  forEach (s.sched.drains.filter fun d => d.function == 2 || d.function == 3) s fun d s =>
    let o := if d.function == 2 then 4096 + d.inst else d.inst
    if outIdle s o then outDrained o s else s

/-- The drain of an output expires: a DMX frame ends at its current slot and unfinished requests end ABORTED; an sACN
output's queued update is discarded (R192). (DESIGN CHOICE, log 47) -/
def outExpired (o : Nat) (s : State) : State :=
  if isDmx o then
    let p := o - 4096
    let q := dmxOf s p
    let jobs := (match q.cur with | some j => [j] | none => []) ++ q.queue
    let refs := jobs.filterMap fun j => match j with | .host r _ _ _ _ _ => some r | _ => none
    let s := dmxCut p s
    let s := modDmx p (fun q => { q with cur := none, queue := [], disc := none }) s
    let s := { s with sched := { s.sched with drains := s.sched.drains.map fun d =>
      if d.function == 2 && d.inst == p then { d with aborted := d.aborted + refs.length } else d } }
    outDrained o (forEach refs s fun r s => finish r stABORTED 0 [] s)
  else
    match outOf s o with
    | none => s
    | some q =>
      let n := b2n (!outIdle s o)
      let s := modPort q.d.port (fun p => { p with queue := p.queue.filter fun f =>
        match f.kind with | .sacnData u _ => u != q.d.univ | _ => true }) s
      let s := { s with sched := { s.sched with drains := s.sched.drains.map fun d =>
        if d.function == 3 && d.inst == o then { d with aborted := d.aborted + n } else d } }
      outDrained o (modOut o (fun q => { q with due := false }) s)

end Sys2Proof.Machine
end

