-- ==== Sys2Proof/Machine/AirOps.lean ====
section
/-! DEFINITION. Ezond Air's shared operations: the superframe (R340, R341), airtime and budgets (R336, R338), PDUs (R342 to
R346), and radios and nodes that leave service (R357). -/

namespace Sys2Proof.Machine

/-! ## The network and the superframe (R340) -/

/-- A field of the network's definition. -/
def netF (s : State) (o n : Nat) : Nat := field (s.air.net.getD []) o n
/-- SLOT_US in ns. -/
def slotLen (s : State) : Nat := 1000 * netF s 2 2
/-- NSLOTS. -/
def nSlots (s : State) : Nat := netF s 4 2
/-- BI in ns. -/
def airBi (s : State) : Nat := nSlots s * slotLen s
/-- PHASE_US in ns. -/
def airPhase (s : State) : Nat := 1000 * netF s 8 4
/-- The start of superframe `k`. -/
def sfStart (s : State) (k : Nat) : Nat := k * airBi s + airPhase s
/-- TP of slot `i` of superframe `k`. -/
def slotTp (s : State) (k i : Nat) : Nat := sfStart s k + i * slotLen s + slotLen s / 4
/-- SF of a superframe. -/
def sfNum (k : Nat) : Nat := k % 2 ^ 32
/-- A drift bound in ppm, 0 for 40 (R354). -/
def drift (v : Nat) : Nat := if v == 0 then 40 else v
/-- RECOVERY_HOLD_S in ns. -/
def recoveryHold (s : State) : Nat := (let h := netF s 12 2; if h == 0 then 30 else h) * 1000000000

/-! ## Radios and bands -/

/-- Radio `n`. -/
def radioOf (s : State) (n : Nat) : Radio := kgetD s.air.radios n { cfg := [] }
/-- A radio changed. -/
def modRadio (n : Nat) (f : Radio → Radio) (s : State) : State :=
  { s with air := { s.air with radios := kmod? s.air.radios n f } }
/-- Band `b` of a radio. -/
def bandOf (r : Radio) (b : Nat) : Band := kgetD r.bands b { cfg := [] }
/-- The number of channels of a band. -/
def bandNch (b : Band) : Nat := field b.cfg 3 1
/-- BEACON_CH of a band of a radio. -/
def beaconCh (r : Radio) (b : Nat) : Nat := field (bandOf r b).cfg 8 1
/-- CROWD_SLOTS of a radio. -/
def crowdSlots (r : Radio) : Nat := field r.cfg 39 1
/-- A radio sends: it runs or drains. -/
def radioOn (r : Radio) : Bool := (r.st == 1 || r.st == 2) && !r.retired

/-- The airtime of a PDU of `l` bytes in ns (R336). (DESIGN CHOICE, log 48) -/
def tAir (r : Radio) (l : Nat) : Nat :=
  let rate := max 1 (field r.cfg 4 4)
  ((field r.cfg 18 1 + 1 + l) * 8 * 1000000000 + rate - 1) / rate

/-- What a slot leaves after TP for an exchange, less the last 100 µs (R341). -/
def slotRoom (s : State) : Nat := 3 * slotLen s / 4 - 100000

/-- The largest unicast body (R341). -/
def uMax (s : State) (r : Radio) : Nat :=
  ((List.range 33).filter fun n => decide (2 * tAir r (12 + n) + 300000 + tAir r 10 ≤ slotRoom s)).getLast?.getD 0

/-- The crowd data size D (R341). -/
def crowdData (s : State) (r : Radio) : Nat :=
  ((List.range 235).filter fun n => decide (tAir r (16 + n) ≤ slotRoom s)).getLast?.getD 0

/-- The fixed exchanges of a radio fit its slots (R341). -/
def slotsFit (s : State) (r : Radio) : Bool :=
  decide (tAir r 28 ≤ slotRoom s) && decide (tAir r 18 + 150000 + tAir r 30 ≤ slotRoom s)

/-! ## Budgets (R338, R339) -/

/-- The whole budget of a band in ns: DUTY × 3,600 s. -/
def bandBudget (b : Band) : Nat := field b.cfg 4 2 * 360000000

/-- What a band has left in the window of 60 buckets. -/
def bandRemaining (s : State) (b : Band) : Nat :=
  let k := s.now / 60000000000
  bandBudget b - ((b.buckets.filter fun e => decide (k < e.1 + 60)).map (·.2)).sum

/-- The reserve of a class, in hundredths of the budget (R338). -/
def classReserve (cls : Nat) : Nat := match cls with | 0 => 0 | 1 => 5 | _ => 10

/-- A frame's airtime is within the budget of its class. -/
def budgetOk (s : State) (r : Radio) (b cls ns : Nat) : Bool :=
  let d := bandOf r b
  decide (ns + bandBudget d * classReserve cls / 100 ≤ bandRemaining s d)

/-- A frame's airtime charged to the bucket in which it starts. (DESIGN CHOICE, log 48) -/
def charge (n b ns : Nat) (s : State) : State :=
  let k := s.now / 60000000000
  modRadio n (fun r => { r with tx := r.tx + 1, bands := kmod? r.bands b fun d =>
    { d with buckets := kset (kfilter d.buckets fun i _ => decide (k < i + 60)) k (kgetD d.buckets k 0 + ns) } }) s

/-- What decides a frame: refused by the budget, found busy, or sent (R338, R339). `check` says that it is preceded by a
clear-channel check on an LBT band. -/
inductive Decision where
  | refused | busy | sent
  deriving DecidableEq, Repr

/-- An SPI write of a radio's register: REG OR WRITE_FLAG, then the data (R334). (DESIGN CHOICE, log 48) -/
def spiWrite (n reg : Nat) (data : Bytes) (s : State) : State :=
  let r := radioOf s n
  put (.spi n (BitVec.ofNat 8 (reg ||| field r.cfg 19 1) :: data)) s

/-- A radio's mode register set to the value at a place of its definition (R335). (DESIGN CHOICE, log 48) -/
def spiMode (n at_ : Nat) (s : State) : State :=
  let r := radioOf s n
  spiWrite n (field r.cfg 21 1) [BitVec.ofNat 8 (field r.cfg at_ 1)] s

/-- A radio tuned to a channel of a band: CHAN_BYTES bytes of its word to REG_CHAN (R335). (DESIGN CHOICE, log 48) -/
def spiTune (n b chan : Nat) (s : State) : State :=
  let r := radioOf s n
  spiWrite n (field r.cfg 26 1) (beN (field r.cfg 27 1) (field (bandOf r b).cfg (16 + 8 * chan) 4)) s

/-- The clear-channel check of an LBT band: the radio receives, and REG_STATUS is read with REG OR (WRITE_FLAG XOR 0x80)
(R334, R339). (DESIGN CHOICE, log 48) -/
def spiCheck (n : Nat) (s : State) : State :=
  let r := radioOf s n
  put (.spi n [BitVec.ofNat 8 (field r.cfg 28 1 ||| (field r.cfg 19 1 ^^^ 0x80))]) (spiMode n 23 s)

/-- A PDU in the FIFO behind its length, the radio armed, and TX_TRIG raised (R335). (DESIGN CHOICE, log 48) -/
def spiSend (n chan : Nat) (name : String) (pdu : Bytes) (s : State) : State :=
  let r := radioOf s n
  let s := spiMode n 24 (spiWrite n (field r.cfg 20 1) (BitVec.ofNat 8 pdu.length :: pdu) s)
  put (.air n chan name pdu) s

/-- A frame of class `cls` decided on a band, sent and charged or counted as what stopped it. -/
def airSend (n b chan cls : Nat) (check busy : Bool) (name : String) (pdu : Bytes) (s : State) : Decision × State :=
  let r := radioOf s n
  let ns := tAir r pdu.length
  if !budgetOk s r b cls ns then (.refused, modRadio n (fun r => { r with refused := r.refused + 1 }) s)
  else
    let lbt := check && field (bandOf r b).cfg 2 1 == 1
    let s := spiTune n b chan s
    let s := if lbt then spiCheck n s else s
    if lbt && busy then (.busy, modRadio n (fun r => { r with lbtBusy := r.lbtBusy + 1 }) s)
    else (.sent, spiSend n chan name pdu (charge n b ns s))

/-! ## PDUs (R342 to R346) -/

/-- A PDU: header, body and CRC. -/
def airPdu (s : State) (ty flags addr : Nat) (body : Bytes) : Bytes :=
  let b := beN 1 (16 + ty) ++ beN 1 flags ++ beN 2 (netF s 0 2) ++ beN 2 addr ++ body
  b ++ beN 2 (crc16 b).toNat

/-- A BEACON (R343). -/
def beaconPdu (s : State) (n k : Nat) (recovery : Bool) : Bytes :=
  let r := radioOf s n
  let next := match r.nextBand with | some b => (b, beaconCh r b, r.countdown) | none => (0, 0, 0)
  let crowd := field r.cfg 38 1
  airPdu s 1 (b2n recovery) 0xFFFF
    (beN 4 (sfNum k) ++ beN 2 (netF s 2 2) ++ beN 2 (nSlots s) ++ beN 1 (crowdSlots r) ++ beN 1 n ++ beN 1 r.band
     ++ beN 1 (beaconCh r r.band) ++ beN 1 (field r.cfg 36 1) ++ beN 1 (field r.cfg 37 1) ++ beN 1 next.1 ++ beN 1 next.2.1
     ++ beN 1 next.2.2 ++ beN 1 crowd ++ beN 1 (if crowd == 0xFF then 0 else beaconCh r crowd) ++ beN 1 0)

/-! ## Nodes (R349 to R355) -/

/-- A node's record changed. -/
def modNodeA (n : Nat) (f : ANode → ANode) (s : State) : State :=
  { s with air := { s.air with nodes := kmod? s.air.nodes n f } }
/-- The radio of a node. -/
def nodeRadio (q : ANode) : Nat := field q.cfg 2 1
/-- The band of a node. -/
def nodeBand (q : ANode) : Nat := field q.cfg 3 1
/-- PERIOD of a node. -/
def nodePeriod (q : ANode) : Nat := field q.cfg 14 1
/-- RETRIES of a node. -/
def nodeRetries (q : ANode) : Nat := let v := field q.cfg 26 1; if v == 0xFF then 3 else v

/-- A superframe is an anchor of a node (R349). -/
def isAnchor (q : ANode) (k : Nat) : Bool := sfNum k % 2 ^ nodePeriod q == field q.cfg 15 1

/-- EVENT of a node in a superframe. -/
def nodeEvent (q : ANode) (k : Nat) : Nat := (k - q.firstSf) / 2 ^ nodePeriod q % 65536

/-- The channel of a node's anchor (R349). -/
def anchorChan (node : Nat) (q : ANode) (event : Nat) : Nat :=
  let set := setBits 16 q.chmap
  let n := set.length
  let hop := if n % 7 == 0 then 5 else 7
  set.getD ((node + event * hop) % max 1 n) 0

/-- The guard of a node, in ns, at an instant (R354). -/
def guardNs (s : State) (q : ANode) (at_ : Nat) : Nat :=
  20000 + (drift (netF s 6 1) + drift (netF s 7 1)) * (at_ - q.lastContact) / 1000000

/-- NODE_STATE emitted (R360). -/
def nodeEvt (n st : Nat) (s : State) : State :=
  match kget? s.air.nodes n with
  | none => s
  | some q => emit 0x0F02 (leN 2 n ++ leN 1 st ++ leN 1 (nodeRadio q) ++ leN 2 (nodeEvent q (s.air.k.getD 0)))
      (modNodeA n (fun q => { q with state := st }) s)

/-- The messages a node still owes: the DOWN in flight and those queued. -/
def nodeRefs (q : ANode) : List CmdRef :=
  (match q.down with | some d => (match d.ref with | some r => [r] | none => []) | none => []) ++ q.queue.map (·.1)

/-- A node's messages end ABORTED (R359). -/
def nodeAbort (n : Nat) (s : State) : State :=
  match kget? s.air.nodes n with
  | none => s
  | some q =>
    forEach (nodeRefs q) (modNodeA n (fun q => { q with down := none, queue := [] }) s) fun r s => finish r stABORTED 0 [] s

/-- A node is no longer connected, with a state for NODE_STATE. -/
def nodeOff (n st : Nat) (s : State) : State :=
  let s := nodeAbort n s
  nodeEvt n st (modNodeA n (fun q => { q with conn := false, lostSync := false, scanning := false, mapPend := none
                                              mapAcked := true, release := false, anchor := none }) s)

/-- The nodes of a radio. -/
def radioNodes (s : State) (n : Nat) : List Nat := (s.air.nodes.filter fun e => nodeRadio e.2 == n).map (·.1)

/-- The transmissions a radio still owes. -/
def radioOwes (s : State) (n : Nat) : Nat :=
  ((s.air.nodes.filter fun e => nodeRadio e.2 == n).map fun e => (nodeRefs e.2).length).sum

/-! ## Leaving service (R357) -/

/-- A radio is off: its connected nodes become detached and its mode is idle, or sleep. -/
def radioOff (n : Nat) (sleep : Bool) (s : State) : State :=
  let s := forEach (radioNodes s n) s fun q s =>
    match kget? s.air.nodes q with | some d => if d.conn then nodeOff q 6 s else nodeAbort q s | none => s
  let s := spiMode n (if sleep then 25 else 22) s
  modRadio n (fun r => { r with st := 0, nextBand := none, countdown := 0, skips := 0, starved := false, noBand := false
                                holdUntil := none, recovery := false, returning := none, moving := none
                                band := field r.cfg 34 1 }) s

/-- A drained radio's transmissions are done: its disable completes (R357). -/
def radioDrained (n : Nat) (s : State) : State :=
  let r := radioOf s n
  if r.st == 2 && radioOwes s n == 0 then
    let ref := r.ref
    let s := drainEnd 4 n (radioOff n false (modRadio n (fun r => { r with ref := none }) s))
    match ref with | some c => finish c stOK 0 [] s | none => s
  else s

/-- The drain of a radio expires: what is queued is discarded (R192, R357). -/
def radioExpired (n : Nat) (s : State) : State :=
  let k := radioOwes s n
  let s := { s with sched := { s.sched with drains := s.sched.drains.map fun d =>
    if d.function == 4 && d.inst == n then { d with aborted := d.aborted + k } else d } }
  radioDrained n (forEach (radioNodes s n) s nodeAbort)

/-- The INIT pairs written in order, and idle mode set (R335). (DESIGN CHOICE, log 48) -/
def radioInit (n : Nat) (s : State) : State :=
  let r := radioOf s n
  let s := forEach (List.range (field r.cfg 32 2)) s fun i s =>
    spiWrite n (field r.cfg (40 + 2 * i) 1) [byteAt r.cfg (41 + 2 * i)] s
  spiMode n 22 s

/-- A radio runs from now on, on its home band. -/
def radioStart (n : Nat) (s : State) : State :=
  modRadio n (fun r => { r with st := 1, band := field r.cfg 34 1, skips := 0, skipBudget := false, skipLbt := false }) (radioInit n s)

/-- A radio retired: it drains with a timeout of 0 (R357, R433). -/
def radioRetire (n : Nat) (s : State) : State :=
  let r := radioOf s n
  if !khas s.air.radios n then s
  else
    let s := modRadio n (fun r => { r with retired := true }) s
    if r.st == 0 then s
    else
      let s := if r.st == 2 then s else drainStart 4 n (modRadio n (fun r => { r with st := 2 }) s)
      radioExpired n s

end Sys2Proof.Machine
end

