-- ==== Sys2Proof/Machine/Calm.lean ====
section
/-! DEFINITION. Entering Calm and waking from it (R143, R215 to R220, R251), and what makes a unit refuse an entry (R375,
R376). -/

namespace Sys2Proof.Machine

/-- The device runs as the distaff of a twin pair (R413). -/
def isDistaff (s : State) : Bool := s.twin.enabled && s.twin.role == 0

/-- The wake from Calm of a trigger at instant `w` (R218): the DRAM leaves self-refresh, chain speeds are restored, and the
first epoch is woven from the first boundary at least 1 ms on. A trigger while POWER_ENTER enters Calm waits for its end. The retention banks and the canary rows are checked by the
wake steps W7 and W8 (R379). -/
def calmWakeFrom (w cause : Nat) (s : State) : State :=
  if s.mode.calm && s.mode.wakeAt.isNone then
    let x := w + 1000000
    let b1 := boundaryFrom s x
    let n1 := max s.mode.n (boundaryIdx s.mode.mode s.mode.phase x)
    let e : U32 := epochNow s + BitVec.ofNat 32 (n1 - s.mode.n + 1)
    let s := { s with mode := { s.mode with wakeAt := some b1 }, store := { s.store with selfRefresh := false }
                      power := { s.power with wake := some 7, wakeFrom := 1, wakeCause := cause, wakeAt := w
                                              wakeRetried := false, wakeRetries := 0, attempts := 0, retFail := 0
                                              failedStep := 0, dramFail := 0 } }
    calmSpeeds false (emit 0x0802 (leN 1 0 ++ leN 1 cause ++ leN 2 0 ++ leN 4 e.toNat) s)
  else if !s.mode.calm && (match s.power.entry with | some e => e.dest == 1 | none => false) then
    { s with mode := { s.mode with wakeLatch := s.mode.wakeLatch.or (some cause) } }
  else s

/-- A wake trigger at this instant. (DESIGN CHOICE, log 38) -/
def calmWakeNow (cause : Nat) (s : State) : State := calmWakeFrom s.now cause s

/-- The trigger latched while Calm was being entered counts from the end of the entry (R218). (DESIGN CHOICE, log 38) -/
def calmLatched (s : State) : State :=
  match s.mode.wakeLatch with
  | some cause => calmWakeNow cause { s with mode := { s.mode with wakeLatch := none } }
  | none => s

/-- A wake trigger of R217. A distaff leaves Calm only with its active (R425). (DESIGN CHOICE, log 38) -/
def calmWake (cause : Nat) (s : State) : State := if isDistaff s then s else calmWakeNow cause s

/-- The MODE_SET of frame lock, like the host's, wakes the device from Calm (R209, R217, R284): `had` says that a mode change
was pending before. -/
def lockWakes (had : Bool) (s : State) : State := if had || s.mode.pending.isNone then s else calmWake 4 s

/-- The power unit changed. -/
def modPower (f : Power → Power) (s : State) : State := { s with power := f s.power }

/-! ## Wake sources (R377, R378) -/

/-- A wake source is enabled by POWER_WAKE_SET; POWER_EXIT always is. -/
def sourceOn (s : State) (cause : Nat) : Bool :=
  cause == 1 || (decide (2 ≤ cause) && decide (cause ≤ 8) && bit s.power.sources (cause - 2))

/-- A wake cause works in a state: PCIe in Sleep and Deep Sleep, link activity and POWER_EXIT in Doze, the others in all
three. (DESIGN CHOICE, log 54) -/
def sourceWorks (cause st : Nat) : Bool :=
  if cause == 6 then st == 3 || st == 4
  else if cause == 8 || cause == 1 then st == 2
  else st == 2 || st == 3 || st == 4

/-- The steps a wake runs from a state (R379), in order. -/
def wakeSteps (st : Nat) : List Nat :=
  match st with
  | 2 => [6, 7, 8]
  | 3 => [1, 2, 3, 4, 5, 7, 8]
  | 4 => [1, 2, 3, 4, 5, 6, 7, 8]
  | _ => [7, 8]

/-- A wake begins. -/
def wakeBegin (cause : Nat) (s : State) : State :=
  modPower (fun p => { p with wake := (wakeSteps p.st).head?, wakeFrom := p.st, wakeCause := cause, wakeAt := s.now
                              wakeRetried := false, wakeRetries := 0, attempts := 0, retFail := 0, failedStep := 0, dramFail := 0 }) s

/-- A wake source has triggered. During an entry it is kept, and honoured once the entry has finished (R378). (DESIGN CHOICE, log 54) -/
def wakeTrigger (cause : Nat) (s : State) : State :=
  if !sourceOn s cause || s.power.gasp.isSome then s
  else match s.power.entry with
  | some e => if sourceWorks cause e.dest && s.power.latched.isNone then modPower (fun p => { p with latched := some cause }) s else s
  | none => if sourceWorks cause s.power.st && s.power.wake.isNone && !s.power.failing then wakeBegin cause s else s

/-! ## Entries -/

/-- The lowest-numbered subsystem that refuses an entry into a state: 1 Calm, 2 Doze, 3 Sleep, 4 Deep Sleep (R375).
`own` is the POWER_ENTER itself. -/
def refuser (dest : Nat) (own : Option CmdRef) (imageBusy cueRuns rdmBusy calBusy : Bool) (s : State) : Option Nat :=
  let copying := s.ing.planes.any fun e => match e.2.sub with | some q => !q.copied | none => false
  let corr := s.store.corr.any fun e => e.2.load.isSome || e.2.rest.isSome || e.2.persisting
  let scan := s.mode.pending.isSome || s.mode.settle.isSome || s.time.stepAt.isSome
  let enums := s.link.chains.any fun e => e.2.phase != 0
  let others := s.cmds.any fun c => match c.ref with | .mbx _ _ => some c.ref != own | .cue _ _ => false
  ([(4, decide (2 ≤ dest) && imageBusy), (6, decide (3 ≤ dest) && others), (8, copying), (11, corr), (12, scan), (13, enums),
    (14, decide (3 ≤ dest) && rdmBusy), (16, decide (3 ≤ dest) && cueRuns), (19, decide (2 ≤ dest) && calBusy)].find?
      fun p => p.2).map (·.1)

/-- A refusal counted and recorded (R376). -/
def refused (sub dest : Nat) (s : State) : State :=
  record 3 (3 * 1024) 0x1080 (leN 1 sub ++ leN 1 dest ++ zeros 6)
    { s with power := { s.power with refuser := sub, refusals := kset s.power.refusals sub (kgetD s.power.refusals sub 0 + 1) } }

/-- Calm is entered at a boundary whose epoch is not woven (R216): the tiles keep the last epoch committed. (DESIGN CHOICE, log 38) -/
def calmEnter (s : State) : State :=
  let last := epochNow s - 1
  let s := { s with mode := { s.mode with calm := true, wakeAt := none, weaving := false, calmWanted := false }
                    link := { s.link with sending := false } }
  let s := sendCalm last s
  let s := calmSpeeds true s
  let s := forEach (List.range 16) s fun b s =>
    if (sbOf s b).gated || !sbankUp s b then s else modSb b (fun k => { k with gated := true, gates := k.gates + 1 }) s
  let s := canariesWrite { s with store := { s.store with selfRefresh := true } }
  emit 0x0802 (leN 1 1 ++ leN 1 0xFF ++ leN 2 0 ++ leN 4 last.toNat) s

/-- The canary rows checked at a wake (R143, R382): `bad` are the banks of which retention has lost a bit. (DESIGN CHOICE, log 52) -/
def canariesCheck (bad : U32) (s : State) : State :=
  let s := forEach (setBits 32 bad.toNat) s fun b s => modBank b (fun k => { k with rows := k.rows.map (· ^^^ 1) }) s
  let fail := (List.range 32).filter fun b => bankUp s b && (kgetD s.store.banks b {}).rows != canaryRows
  forEach fail { s with power := { s.power with dramFail := BitVec.ofNat 32 (bitsOf ((List.range 32).map fail.contains)) } } canaryFailed

end Sys2Proof.Machine
end

