-- ==== Sys2Proof/Machine/TwinOps.lean ====
section
/-! DEFINITION. Taking and giving up the active role of a twin pair (R408 to R410, R420 to R422). -/

namespace Sys2Proof.Machine

/-- The twin unit changed. -/
def modTwin (f : Twin → Twin) (s : State) : State := { s with twin := f s.twin }

/-- TWIN_STATE emitted (R427). -/
def twinEvent (cause : Nat) (e : U32) (s : State) : State :=
  emit 0x1201 (leN 1 s.twin.role ++ leN 1 cause ++ leN 2 s.twin.cgen.toNat ++ leN 4 e.toNat) s

/-- The newest of a list of generations, under R243. (DESIGN CHOICE, log 57) -/
def newestGen (g : Nat) (l : List Nat) : Nat := l.foldl (fun a b => if newerGen b a then b else a) g

/-- The generation a device sets as it takes the active role: the next after every one it knows whose bit 0 is its SIDE
(R408). (DESIGN CHOICE, log 57) -/
def nextGen (t : Twin) : U16 :=
  let known := newestGen t.cgen.toNat ((match t.partner with | some h => [h.cgen.toNat] | none => []) ++ t.gens)
  BitVec.ofNat 16 (if (known + 1) % 2 == t.side % 2 then known + 1 else known + 2)

/-- CRC-32 of the active wall, or 0 (R406). -/
def wallFp (s : State) : Nat := match s.wall.active with | some w => w.crc.toNat | none => 0

/-- The LUT tables that are complete, as bits (R172). -/
def tablesComplete (s : State) : Nat := bitsOf ((List.range 16).map fun t => (kgetD s.weave.tables t []).length == 1025)

/-- FINGERPRINT (R406). -/
def fingerprint (s : State) : U32 :=
  crc32 (leN 4 (wallFp s) ++ leN 2 (match s.weave.active with | some w => w.id | none => 0) ++ leN 1 s.mode.mode
    ++ leN 1 s.place.profile ++ leN 4 s.mode.phase ++ leN 4 s.mode.slots.toNat ++ leN 2 (tablesComplete s) ++ zeros 14)

/-- A tile of the wall is cut off from this device's ends by a break or a retired chain port (R411). -/
def cutOff (s : State) : Bool :=
  match s.wall.active with
  | none => false
  | some w => w.chains.any fun c => (chainLk s c.chain).brk != 0 || (ownEnds s c).any fun e => (portOf s e.2).retired

/-- HB_CODE (R411). FAULT_N, the service level and the health word hold the heartbeat low. -/
def hbCode (faultN : Bool) (s : State) : Nat :=
  let wd := (kgetD s.flt.srcs 0x1408 {}).inFault
  if !s.twin.enabled || faultN || s.fab.svcLevel != 2 || wd || !awake s then 0
  else if s.twin.role == 1 then (if cutOff s then 3 else 4)
  else if s.twin.inStep then (if cutOff s then 1 else 2)
  else 0

/-- The header of a twin frame (R414). -/
def twinHdr (ty len : Nat) (s : State) : Bytes :=
  beN 1 (16 + ty) ++ zeros 1 ++ beN 2 s.twin.cgen.toNat ++ beN 1 s.twin.side ++ zeros 1 ++ beN 2 len

/-- A twin message queued on the twin lane pair. -/
def twinSend (kind : TxKind) (ty : Nat) (rest : Bytes) (s : State) : State :=
  let body := twinHdr ty rest.length s ++ rest
  queueTx 64 { kind, body, len := ezLen body } s

/-- The DRILL_EPOCH this device announces: that of its own drill before the swap. -/
def drillEpoch (s : State) : U32 := match s.twin.drill with | some d => if d.swapped then 0 else d.epoch | none => 0

/-- HELLO sent (R415). -/
def sendHello (faultN : Bool) (s : State) : State :=
  twinSend .hello 1 (beN 1 s.twin.role ++ beN 1 (hbCode faultN s) ++ beN 1 (b2n s.mode.calm) ++ zeros 1
    ++ beN 4 Config.serial.toNat ++ beN 8 s.mode.counter.toNat ++ beN 4 (fingerprint s).toNat ++ beN 4 (drillEpoch s).toNat
    ++ zeros 8) s

/-- A drill not yet swapped ends ABORTED (R423). -/
def drillAbort (s : State) : State :=
  match s.twin.drill with
  | some d =>
    if d.swapped then s
    else emit 0x1202 (leN 1 stABORTED ++ leN 1 (b2n d.revert) ++ zeros 6 ++ zeros 8) (modTwin (fun t => { t with drill := none }) s)
  | none => s

/-- The device gives up the active role: it transmits nothing more on its chain ports, and runs as distaff (R413, R421). -/
def giveUp (cause : Nat) (s : State) : State :=
  let s := modTwin (fun t => { t with role := 0, pending := none, announce := none, whole := [], digest := none, segs := []
                                      nsegs := [], gotDef := 0, gotReel := 0, lastSwitch := s.now }) s
  let s := { s with link := { s.link with ports := kmap s.link.ports fun _ q =>
    if q.role == 2 then { q with queue := [], again := none }
    else { q with queue := q.queue.filter fun f => match f.kind with | .sacnData _ _ | .sacnSync _ => false | _ => true } } }
  let s := forEach (s.air.radios.filter fun e => radioOn e.2) s fun e s =>
    spiWrite e.1 (field e.2.cfg 21 1) [BitVec.ofNat 8 (field e.2.cfg 22 1)] s
  twinEvent cause (epochNow s) s

/-- The device takes the active role (R408, R420): it transmits from the first boundary at or after this instant, and the
next boundary's epoch is the first it commits. In Calm it wakes instead; in the safe state SAFE takes the place of its
first skein, and no COMMIT is sent until the release (R443). (DESIGN CHOICE, log 57) -/
def takeActive (cause b1 : Nat) (faultN : Bool) (s : State) : State :=
  let cgen := nextGen s.twin
  let s := modTwin (fun t => { t with role := 1, cgen, digest := none, segs := [], nsegs := [], inStep := false
                                      whole := [], lastSwitch := s.now, defJ := [], sent := [], reelFrom := s.reel.next
                                      pending := if modeOn s then some b1 else none
                                      announce := if modeOn s then some cause else none }) s
  let s := if s.flt.safe then { s with flt := { s.flt with hushed := true } } else s
  let s := sendHello faultN s
  let s := forEach (s.air.radios.filter fun e => radioOn e.2) s fun e s => radioInit e.1 s
  let s := if modeOn s then s else twinEvent cause (epochNow s) s
  if s.mode.calm then calmWakeNow 0 s else s

/-- The first boundary of a device that has taken the active role has come: it transmits from now on (R420, R443).
(DESIGN CHOICE, log 57) -/
def takeoverBoundary (s : State) : State :=
  match s.twin.pending with
  | some b1 =>
    if s.now < b1 then s
    else
      let s := modTwin (fun t => { t with pending := none }) s
      if s.flt.safe then sendSafe true s else s
  | none => s

/-- A generation seen in a tile frame (R408); one newer than its own makes an active device give up the role (R421). -/
def genSeen (g : U16) (s : State) : State :=
  if !s.twin.enabled then s
  else
    let s := if s.twin.gens.contains g.toNat then s else modTwin (fun t => { t with gens := t.gens ++ [g.toNat] }) s
    if s.twin.role == 1 && newerGen g.toNat s.twin.cgen.toNat then
      giveUp 3 (modTwin (fun t => { t with selfDemote := t.selfDemote + 1 }) s)
    else s

end Sys2Proof.Machine
end

