-- ==== Sys2Proof/Machine/Crypto.lean ====
section
/-! DEFINITION. The check of an ECDSA signature over P-256 (R480, as SEC 1 and FIPS 186 define it), on natural numbers. -/

namespace Sys2Proof.Machine

/-- The prime of P-256's field. -/
def p256P : Nat := 2 ^ 256 - 2 ^ 224 + 2 ^ 192 + 2 ^ 96 - 1
/-- The order of P-256's base point. -/
def p256N : Nat := 0xffffffff00000000ffffffffffffffffbce6faada7179e84f3b9cac2fc632551
/-- The constant term of P-256's equation. -/
def p256B : Nat := 0x5ac635d8aa3a93e7b3ebbd55769886bc651d06b0cc53b0f63bce3c3e27d2604b
/-- The base point of P-256. -/
def p256G : Nat × Nat :=
  (0x6b17d1f2e12c4247f8bce6e563a440f277037d812deb33a0f4a13945d898c296,
   0x4fe342e2fe1a7f9b8ee7eb4a7c0f9e162bce33576b315ececbb6406837bf51f5)

/-- `a ^ e mod m`, over the `n` low bits of `e`. -/
def powMod (m : Nat) : Nat → Nat → Nat → Nat
  | 0, _, _ => 1 % m
  | n + 1, a, e => let r := powMod m n (a * a % m) (e / 2); if e % 2 == 1 then a * r % m else r

/-- The inverse of `a` modulo a prime below 2^256. -/
def invMod (m a : Nat) : Nat := powMod m 256 (a % m) (m - 2)

/-- `a - b mod m`, for `b` below `m`. -/
def subMod (m a b : Nat) : Nat := (a + m - b) % m

/-- The sum of two points of P-256; `none` is the point at infinity. -/
def ecAdd (a b : Option (Nat × Nat)) : Option (Nat × Nat) :=
  match a, b with
  | none, q => q
  | p, none => p
  | some (x1, y1), some (x2, y2) =>
    if x1 == x2 && (y1 + y2) % p256P == 0 then none
    else
      let k := if x1 == x2 then (3 * x1 * x1 + p256P - 3) * invMod p256P (2 * y1) % p256P
        else subMod p256P y2 y1 * invMod p256P (subMod p256P x2 x1) % p256P
      let x3 := subMod p256P (k * k + (p256P - x1)) x2
      some (x3, subMod p256P (k * subMod p256P x1 x3) y1)

/-- A point times the `n` low bits of `k`. -/
def ecMul : Nat → Nat → Option (Nat × Nat) → Option (Nat × Nat)
  | 0, _, _ => none
  | n + 1, k, p => let r := ecMul n (k / 2) (ecAdd p p); if k % 2 == 1 then ecAdd p r else r

/-- A point lies on P-256. (PRESUMED, log 66) -/
def onCurve (x y : Nat) : Bool :=
  decide (x < p256P) && decide (y < p256P) && y * y % p256P == (x * x * x + (p256P - 3) * x + p256B) % p256P

/-- The signature (r, s) over a digest verifies under the public key (x, y). (PRESUMED, log 66) -/
def ecdsaVerify (digest x y r s : Nat) : Bool :=
  if !onCurve x y || r == 0 || p256N ≤ r || s == 0 || p256N ≤ s then false
  else
    let w := invMod p256N s
    match ecAdd (ecMul 256 (digest * w % p256N) (some p256G)) (ecMul 256 (r * w % p256N) (some (x, y))) with
    | none => false
    | some (x1, _) => x1 % p256N == r

end Sys2Proof.Machine
end

