-- ==== Sys2Proof/Machine/UpdateOps.lean ====
section
/-! DEFINITION. What the fault collector and the scheduler share with firmware update: the interlocks (R481), the cancelling
of a load (R486), a fallback decided (R489), and which cores an image's threads run on (R484, R485). -/

namespace Sys2Proof.Machine

/-- The update unit changed. -/
def modUpd (f : Update → Update) (s : State) : State := { s with upd := f s.upd }

/-- The activation in progress changed. -/
def modAct (f : Activation → Activation) (s : State) : State := modUpd (fun u => { u with act := u.act.map f }) s

/-- An image is loading: it has not been handed over (R486). -/
def updLoading (s : State) : Bool := match s.upd.act with | some a => a.openAt.isNone | none => false

/-- A health window is open (R487). -/
def updWindow (s : State) : Bool := match s.upd.act with | some a => a.openAt.isSome | none => false

/-- A slot. -/
def slotOf (s : State) (n : Nat) : Slot := kgetD s.upd.slots n {}

/-- A slot changed. -/
def modSlot (n : Nat) (f : Slot → Slot) (s : State) : State := modUpd (fun u => { u with slots := kmod u.slots n {} f }) s

/-- UPDATE_STATE emitted (R493). (DESIGN CHOICE, log 70) -/
def updEvent (st slot cause : Nat) (e : U32) (version : Nat) (s : State) : State :=
  emit 0x1601 (leN 1 st ++ leN 1 slot ++ leN 1 cause ++ zeros 1 ++ leN 4 e.toNat ++ leN 4 version) s

/-- The cores of the cluster in service. -/
def coresNow (s : State) : List Nat := setBits 8 s.sched.coresUp

/-- The first condition of R481 that holds, 0 for none; `own` leaves out condition 6, an activation's own. -/
def interlock (own : Bool) (s : State) : Nat :=
  let one (a b : Feed) : Bool := a.live && !b.live && a.low
  if s.upd.motion then 1
  else if s.upd.battLow then 2
  else if one s.power.feedA s.power.feedB || one s.power.feedB s.power.feedA then 3
  else if s.upd.lock then 4
  else if s.upd.ownerPin then 5
  else if !own && s.upd.act.isSome then 6
  else if s.twin.drill.isSome then 7
  else if (coresNow s).length < 2 then 8
  else 0

/-- A load cancelled: the new image is unloaded, and UPDATE_ACTIVATE ends with a status and DETAIL (R486). -/
def updCancel (status detail cause : Nat) (s : State) : State :=
  match s.upd.act with
  | some a =>
    if a.openAt.isSome then s
    else
      let s := modUpd (fun u => { u with act := none, loadSet := [] }) s
      let s := updEvent 4 a.slot cause (epochNow s) a.version s
      match a.ref with | some r => finish r status detail [] s | none => s
  | none => s

/-- A load is cancelled where a condition of R481 now holds (R486). -/
def updCheck (s : State) : State :=
  let i := interlock true s
  if updLoading s && i != 0 then updCancel stSTATE i 5 s else s

/-- A fallback decided in an open window; the first cause stands (R489). -/
def updFall (cause : Nat) (s : State) : State :=
  modAct (fun a => if a.openAt.isSome && a.fellAt.isNone then { a with fellAt := some s.now, cause } else a) s

/-- A core retired, or WATCHDOG or a core's source entering the fault state: a load is cancelled with DETAIL 8 where
`retires` (R486), an open window falls back (R489). -/
def updCoreFault (retires : Bool) (s : State) : State :=
  let s := updFall 2 s
  if retires && updLoading s then updCancel stSTATE 8 2 s else s

/-- A core may run a command's thread: during a load and a window, each image's threads run on its own set of cores, and
those of the new image wait while it reads the handover block (R484, R485). -/
def coreServes (s : State) (core : Nat) (c : Cmd) : Bool :=
  match s.upd.act with
  | none => true
  | some a =>
    match a.openAt with
    | none => !s.upd.loadSet.contains core
    | some b => if c.takenAt < b then !s.upd.loadSet.contains core else a.blockRead && s.upd.loadSet.contains core

end Sys2Proof.Machine
end

