-- ==== Sys2Proof/Machine/FaultOps.lean ====
section
/-! DEFINITION. The fault collector (R428 to R443): detection and reactions, the units it retires, the safe state and
FAULT_N, the lull and the return, and the minimum-service level (R34 to R36). Every meaning that can note a detection ends
with `settle`, which handles what was noted at the instant of the step. -/

namespace Sys2Proof.Machine

/-! ## Sources (R429) -/

/-- A fault source. -/
def srcOf (s : State) (id : Nat) : FSrc := kgetD s.flt.srcs id {}
/-- A fault source changed. -/
def modSrc (id : Nat) (f : FSrc → FSrc) (s : State) : State :=
  { s with flt := { s.flt with srcs := kmod s.flt.srcs id {} f } }

/-- The kinds of unit: the subsystem and the number of instances (R429). -/
def unitCount (sub : Nat) : Nat :=
  match sub with | 5 => 8 | 7 => 64 | 10 => 256 | 11 => 32 | 15 => 4 | _ => 0

/-- A source whose reaction may include FENCE. -/
def isUnit (id : Nat) : Bool := decide (id % 1024 < unitCount (id / 1024))

/-- The sources that are not units. -/
def plainSources : List Nat :=
  [0x0400, 0x0401, 0x0402, 0x0403, 0x0404, 0x0C00, 0x0C01, 0x1408, 0x1800, 0x1C40, 0x3000, 0x4000, 0x4C00, 0x5000]

/-- An identifier that R429 lists. -/
def srcExists (id : Nat) : Bool := isUnit id || plainSources.contains id

/-- A source's default reactions: bit 0 FENCE, bit 1 SAFE, bit 2 PIN. -/
def defaultReact (id : Nat) : Nat :=
  if id == 0x0400 || id == 0x0403 || id == 0x0404 then 6
  else if id == 0x1408 then 4
  else if isUnit id then (if id / 1024 == 5 then 5 else 1)
  else 0

/-- A source's reactions. -/
def reactOf (s : State) (id : Nat) : Nat := (srcOf s id).react.getD (defaultReact id)

/-- The reactions of a source in the fault state: those in force at its detection. -/
def appliedOf (s : State) (id : Nat) : Nat := (srcOf s id).applied

/-- The sources in the fault state. -/
def inFault (s : State) : List Nat := (s.flt.srcs.filter fun e => e.2.inFault).map (·.1)

/-- A source whose reactions include SAFE is in the fault state. -/
def safeSources (s : State) : List Nat := (inFault s).filter fun id => bit (appliedOf s id) 1

/-- FAULT_STATE emitted (R448). -/
def faultEvent (id st : Nat) (s : State) : State :=
  let q := srcOf s id
  emit 0x1301 (leN 2 id ++ leN 1 st ++ leN 1 q.cause ++ leN 1 q.applied ++ zeros 3 ++ leN 4 q.recoveries.toNat) s

/-! ## Minimum service (R34 to R36) -/

/-- A port in service for R34. -/
def anyPort (s : State) : Bool := (List.range 64).any fun p => !(portOf s p).retired

/-- The unit missing from skeleton service, as subsystem and instance (R34): a feed, a core, or the endpoint and every port.
The always-on domain and the boot ROM are never out of service. -/
def skelMissing (s : State) : Option (Nat × Nat) :=
  if !s.power.feedA.live && !s.power.feedB.live then some (1, 0)
  else if s.sched.coresUp == 0 then some (5, 0)
  else if !s.hif.pcieUp && !anyPort s then some (6, 0)
  else none

/-- The time unit is in service from the end of stage B2 (R499). -/
def timeUnitUp (s : State) : Bool := decide (3 ≤ s.boot.stage)

/-- Scan-out is in service from the end of stage B3 (R499). -/
def scanOutUp (s : State) : Bool := decide (4 ≤ s.boot.stage)

/-- The unit missing from pixel service (R34). -/
def pixelMissing (s : State) : Option (Nat × Nat) :=
  match skelMissing s with
  | some u => some u
  | none =>
    if s.store.up == 0 then some (11, 0)
    else if !(List.range 16).any (sbankUp s) then some (10, 0)
    else if !scanOutUp s then some (12, 0)
    else if !timeUnitUp s then some (16, 0)
    else if !anyPort s then some (7, 0)
    else none

/-- The level that the units in service provide: 0 none, 1 skeleton, 2 pixel. (DEDUCED, log 16) -/
def serviceOf (s : State) : Nat :=
  if (skelMissing s).isSome then 0 else if (pixelMissing s).isSome then 1 else 2

/-- The service level changes, with SERVICE_LEVEL and, where it falls, the record that names the missing unit (R35, R36). -/
def setService (lvl : Nat) (s : State) : State :=
  if lvl == s.fab.svcLevel then s
  else
    let old := s.fab.svcLevel
    let s := { s with fab := { s.fab with svcLevel := lvl }, flt := { s.flt with noService := lvl == 0 } }
    let s := setInt 20 (emit 0x0004 (leN 1 lvl) s)
    let s := if lvl < old then
        let u := (if lvl == 0 then skelMissing s else pixelMissing s).getD (0, 0)
        record 4 (u.1 * 1024 + u.2) 0x0083 (leN 1 u.1 ++ zeros 1 ++ leN 2 u.2 ++ leN 1 lvl ++ zeros 3) s
      else s
    if lvl == 2 then fixPixel s else if lvl == 1 then fixSkeleton (old == 0) s else fixStop s

/-- The level checked: `atBoundary` at a frame boundary, otherwise only what does not wait for one. -/
def serviceCheck (atBoundary : Bool) (s : State) : State :=
  let lvl := serviceOf s
  if !s.fab.svcFinal then s
  else if lvl == 0 || atBoundary || !modeOn s then setService lvl s
  else if s.fab.svcLevel == 0 then setService 1 s
  else s

/-! ## Retirement (R433) -/

/-- A spindle leaves service by retirement; a bank it empties has its tiles withdrawn (R185, R187). -/
def fenceSpindle (i : Nat) (s : State) : State :=
  let s := spindleRetire i s
  if sbankUp s (spBank i) then s
  else forEach ((wallTiles s).filter fun r => bankOfTile s r == some (spBank i)) s fun r s => withdrawTile r.tile s

/-- A port retired (R273): its ingress bobbin is flushed (R109), it drops what it had to send, and a drain of it ends. -/
def fencePort (p : Nat) (s : State) : State :=
  let s := bobFlush (ingressBob p) s
  let s := modPort p (fun q => { q with retired := true, queue := [], req := none, again := none, pausedUntil := 0 }) s
  let off := (portOf s p).off
  let s := modPort p (fun q => { q with off := none }) (drainEnd 1 p s)
  let s := match off with | some r => finish r stOK 0 [] s | none => s
  portEvent p 2 1 s

/-- A frame-store bank retired (R144). The tiles whose woven copy of the epoch in hand lies in it receive no further skeins
(R102). -/
def fenceBank (b cause : Nat) (s : State) : State :=
  let s := { s with store := { s.store with up := setBit s.store.up b false, retired := setBit s.store.retired b true } }
  let s := forEach ((wallTiles s).filter fun r => bankOfKey s (wordKey 0 r.chain (s.link.epoch.toNat % 2) 0) == some b) s
    fun r s => withdrawTile r.tile s
  bankEvent b 1 cause (corrBankLost b (buffersLost b s))

/-- The DETAIL of an INTERNAL record, a text of the firmware that no rule gives (R462). (DESIGN CHOICE, log 17) -/
def internalText (s : State) : Bytes × State :=
  ((List.finRange 32).map fun i => (Config.internalText s.freeCtr i).setWidth 8, { s with freeCtr := s.freeCtr + 1 })

/-- A command running on a retired core ends INTERNAL, with its record; a cue's command resumes on another core (R446). -/
def fenceCore (n : Nat) (s : State) : State :=
  let s := { s with sched := { s.sched with coresUp := setBit s.sched.coresUp n false } }
  forEach (s.cmds.filter fun c => c.core == some n) s fun c s =>
    match c.ref with
    | .mbx m tag =>
      let (text, s) := internalText s
      updFall 4 <| done c stINTERNAL
        (record 2 (6 * 1024 + m) 0x0080 (leN 2 tag ++ leN 1 m ++ zeros 1 ++ leN 2 c.opcode ++ zeros 2 ++ text) s)
    | .cue _ _ => modCmd c.ref (fun d => { d with core := none, phase := .waiting }) s

/-- A unit is out of service by retirement. -/
def fenced (s : State) (id : Nat) : Bool :=
  let n := id % 1024
  match id / 1024 with
  | 5 => !bit s.sched.coresUp n
  | 7 => (portOf s n).retired
  | 10 => (spOf s n).svc == .retired
  | 11 => bit s.store.retired n
  | 15 => (radioOf s n).retired
  | _ => false

/-- A unit in service retired, which triggers a placement (R100, R433). An injection is CAUSE 5 of BANK_STATE (R146). (DEDUCED, log 73) -/
def fence (id cause : Nat) (s : State) : State :=
  let n := id % 1024
  if fenced s id then s
  else placeTrigger 2 (id / 1024) n <| match id / 1024 with
    | 5 => fenceCore n s
    | 7 => fencePort n s
    | 10 => fenceSpindle n s
    | 11 => fenceBank n (if cause == 0xFF then 5 else cause) s
    | 15 => radioRetire n s
    | _ => s

/-- A retired unit returns to service, which triggers a placement (R439); absent corrections are restored (R142), and
a port's due calibration runs (R458). -/
def unfence (id : Nat) (s : State) : State :=
  let n := id % 1024
  let s := match id / 1024 with
    | 5 => { s with sched := { s.sched with coresUp := setBit s.sched.coresUp n true } }
    | 7 =>
      let s := portEvent n 3 1 (modPort n (fun q => { q with retired := false }) s)
      calStart 1 (match endOfPort s n with | some (c, _) => startEnum c 2 s | none => s)
    | 10 => spindleEvent n 0 0 (modSp n (fun q => { q with svc := .up, poisons := [], idle := false }) s)
    | 11 =>
      let s := { s with store := { s.store with up := setBit s.store.up n true, retired := setBit s.store.retired n false } }
      let s := modBank n (fun k => { k with recentUe := [], fixedOnce := [], hardAt := [] }) (bankEvent n 0 0 s)
      retryRestores s
    | 15 => if khas s.air.radios n then radioStart n (modRadio n (fun r => { r with retired := false }) s) else s
    | _ => s
  placeTrigger 3 (id / 1024) n s

/-! ## The safe state (R434, R441) -/

/-- The safe state ordered. A further order while it is in force only cancels a release not yet sent (R434, R442). -/
def safeOrder (id : Nat) (s : State) : State :=
  let s := { s with flt := { s.flt with releasePending := false } }
  if s.flt.safe then s
  else
    let s := { s with flt := { s.flt with safe := true, safeSource := id } }
    emit 0x1302 (leN 1 1 ++ zeros 1 ++ leN 2 id) (fixSafe (sendSafe true s))

/-- The release sent (R441): `e` is the epoch woven from this boundary, the first that tiles show. -/
def safeRelease (e : U32) (s : State) : State :=
  let s := { s with flt := { s.flt with safe := false, releasePending := false, hushed := false } }
  emit 0x1302 (leN 1 0 ++ zeros 1 ++ leN 2 s.flt.safeSource ++ leN 4 e.toNat) (fixRelease (sendSafe false s))

/-- The safe state ends once no SAFE source is in the fault state: at the next frame boundary, or at once with no mode in
force (R441, R528). `id` is the source whose exit ended it. -/
def safeCheck (id : Nat) (s : State) : State :=
  if s.flt.safe && (safeSources s).isEmpty && !s.flt.releasePending then
    let s := { s with flt := { s.flt with releasePending := true, safeSource := id } }
    if modeOn s then s else fixNow (safeRelease (epochNow s) s)
  else s

/-! ## Detection (R432, R440) -/

/-- The FAULT_DETECT record (R432). (DESIGN CHOICE, log 17) -/
def detectRecord (id cause : Nat) (values : List Int) (s : State) : State :=
  let v := (List.range 4).flatMap fun i => leN 4 (twos 32 (values.getD i 0))
  record 0 id 0x1380 (leN 1 cause ++ zeros 3 ++ v) s

/-- A source enters the fault state: its reactions are applied, and the unit is held where its count reaches the limit.
(DESIGN CHOICE, log 58; DEDUCED, log 73) -/
def faultEnter (id : Nat) (s : State) : State :=
  let q := srcOf s id
  let n := q.entries + 1
  let holds := isUnit id && q.limit != 0 && n == q.limit
  let s := modSrc id (fun q => { q with inFault := true, entries := n, entryCount := q.entryCount + 1
                                        lastEntry := BitVec.ofNat 64 s.now, quietAt := none, lullEnd := none
                                        returning := false, held := q.held || holds, released := false
                                        applied := reactOf s id }) s
  let s := faultEvent id 1 s
  let s := if id / 1024 == 5 && id % 1024 < 9 then updCoreFault (isUnit id && bit (reactOf s id) 0) s else s
  let s := if bit (reactOf s id) 0 && isUnit id then fence id q.cause s else s
  if bit (reactOf s id) 1 then safeOrder id s else s

/-- One detection (R430, R432). (DESIGN CHOICE, log 58; DEDUCED, log 73) -/
def detect (id cause : Nat) (values : List Int) (s : State) : State :=
  let q := srcOf s id
  let s := if q.sticky then s else setInt 17 s
  let s := modSrc id (fun q => { q with sticky := true, detections := q.detections + 1, cause
                                        ok := q.ok && cause == 0xFF && id != 0x4C00, returning := false
                                        curLull := q.lullMs }) s
  let s := detectRecord id cause values s
  if q.inFault then modSrc id (fun q => { q with quietAt := none, lullEnd := none }) s
  else faultEnter id (timedWork s)

/-! ## Quiet and the lull (R429, R438) -/

/-- A source is quiet. Where the condition lies outside the state, it is as FAULT_SOURCE_QUIET last said. (DESIGN CHOICE, log 58) -/
def quietNow (s : State) (id : Nat) (q : FSrc) : Bool :=
  let n := id % 1024
  match id with
  | 0x0400 => false
  | 0x0401 => s.power.feedA.live
  | 0x0402 => s.power.feedB.live
  | 0x0404 => decide (s.fab.tj < 1000)
  | 0x0C00 => s.power.wake.isNone
  | 0x0C01 => s.power.wake.isNone
  | 0x1800 => s.hif.pcieUp && s.hif.pcieL == 0
  | 0x1C40 => s.twin.linkUp
  | 0x4000 => s.time.state == 2
  | 0x5000 => q.ok && !s.reel.tally
  | _ =>
    match id / 1024 with
    | 5 => if n < 8 then fenced s id else q.ok
    | 7 => (portOf s n).lock
    | 10 => fenced s id
    | 11 => q.cause != 3 || q.ok
    | 15 => fenced s id
    | _ => q.ok

/-- The lulls start and stop with their sources' quiet. (DESIGN CHOICE, log 58; DEDUCED, log 73) -/
def quiesce (s : State) : State :=
  forEach (s.flt.srcs.filter fun e => e.2.inFault || e.2.held) s fun e s =>
    let q := srcOf s e.1
    let now := quietNow s e.1 q
    if now && q.quietAt.isNone then
      modSrc e.1 (fun q => { q with
        quietAt := some s.now
        lullEnd := if q.inFault then some (s.now + q.curLull * 1000000) else none }) s
    else if !now && q.quietAt.isSome && !q.returning then
      modSrc e.1 (fun q => { q with quietAt := none, lullEnd := none }) s
    else s

/-- A source leaves the fault state (R438); FAULT_STATE names a held unit, which does not return (R440). (DEDUCED, log 73) -/
def faultLeave (id : Nat) (s : State) : State :=
  let st := if (srcOf s id).released then 3 else if (srcOf s id).held then 2 else 0
  let s := modSrc id (fun q => { q with inFault := false, recoveries := q.recoveries + 1
                                        quietAt := if q.held then q.quietAt else none, lullEnd := none
                                        returning := false, released := false }) s
  safeCheck id (faultEvent id st s)

/-- The return step of a unit succeeds: it returns to service, and its source leaves the fault state (R439, R440). -/
def unitReturned (id : Nat) (s : State) : State :=
  let q := srcOf s id
  let s := if fenced s id then unfence id s else s
  if q.inFault then faultLeave id s
  else faultEvent id 3 (modSrc id (fun q => { q with returning := false, released := false, quietAt := none }) s)

/-- The return step of a unit starts; a port's has nothing left to do (R439). A spindle's due calibration runs in it (R458). -/
def returnStart (id : Nat) (s : State) : State :=
  if id / 1024 == 7 || !fenced s id then unitReturned id s
  else
    let s := modSrc id (fun q => { q with returning := true }) s
    if id / 1024 == 10 then calStart 4 s else s

/-- The end of a lull (R438). -/
def lullEnd (id : Nat) (s : State) : State :=
  let q := srcOf s id
  let due := match q.lullEnd with | some e => decide (e ≤ s.now) | none => false
  if !q.inFault || !due || q.returning then s
  else if !isUnit id || q.held then faultLeave id s
  else returnStart id s

/-- The end of a return step (R439). -/
def returnDone (id : Nat) (ok : Bool) (s : State) : State :=
  if !(srcOf s id).returning then s
  else if ok then unitReturned id s
  else raise id 0xFE [] (modSrc id (fun q => { q with returning := false }) s)

/-! ## Settling a step -/

/-- The BACKGROUND threads (R193): the reel's writing, each correction persist and restore, each calibration, and the load of
an update, 32 at most. (DESIGN CHOICE, log 19) -/
def backgroundThreads (s : State) : Nat :=
  min 32 (b2n (!s.reel.staging.isEmpty || s.reel.switching)
    + (s.store.corr.filter fun e => e.2.persisting || e.2.rest.isSome).length
    + (s.cal.items.filter fun e => e.2.phase != 0).length + b2n (updLoading s))

/-- The TIMED threads that run on past their instant (R193): those of the cues that run, 32 at most. (DESIGN CHOICE, log 19) -/
def timedThreads (s : State) : Nat := min 32 (s.time.cues.filter fun e => e.2.state == 2).length

/-- The threads of the TIMED and BACKGROUND classes counted (R198). (DESIGN CHOICE, log 19) -/
def countThreads (s : State) : State :=
  let f (k : ThreadClass) (n : Nat) : ThreadClass := { k with busy := n, peak := max k.peak n }
  { s with sched := { s.sched with timed := f s.sched.timed (timedThreads s)
                                   background := f s.sched.background (backgroundThreads s) } }

/-- Every detection noted during a step is handled at its instant, and the lulls follow (R432, R442); the speeds of a
placement that is next to take effect are requested (R265). (DESIGN CHOICE, log 58) -/
def settle (s : State) : State :=
  let due := s.flt.due
  let s := forEach due { s with flt := { s.flt with due := [] } } fun d s => detect d.1 d.2.1 d.2.2 s
  -- a fence can end a unit's work, but notes no further detection
  let s := { s with flt := { s.flt with due := [] } }
  countThreads (previewSpeeds (updCheck (serviceCheck false (ptpLeave (quiesce (weaveFinished s))))))

/-- An event of the device at the instant `t`; the fault detections it notes are handled at that instant (R432). (DESIGN CHOICE, log 2) -/
def occurs (t : Nat) (s : State) (f : State → State) : Res :=
  let s := advance t s
  if awake s then .next (leave s (settle (f s))) else .next s

/-- An event of the always-on domain that may note a detection. -/
def alwaysF (t : Nat) (s : State) (f : State → State) : Res :=
  let s := advance t s
  .next (leave s (settle (f s)))

/-- A verb whose effect may note a detection or change what a source's quiet rests on. -/
def verbF (op t : Nat) (r : CmdRef) (s : State) (f : Cmd → State → State) : Res :=
  let s := advance t s
  match findCmd r s with
  | some c => if c.opcode == op && c.core.isSome then .next (leave s (settle (f c s))) else .next s
  | none => .next s

end Sys2Proof.Machine
end

