-- ==== Sys2Proof/Machine/Layouts.lean ====
section
/-! DEFINITION. The fixed layout of every command's payload: its length, the length its own count fields declare, its
reserved bytes and bits (R9), and the identifiers that are structurally impossible (R79). -/

namespace Sys2Proof.Machine

/-- A payload's layout: the fixed length, the length its fields declare, the reserved bytes with the mask of their
reserved bits in ascending offset, and the impossible identifiers it names. -/
structure Layout where
  fixed : Nat
  declared : Nat
  reserved : List (Nat × Nat) := []
  impossible : List Nat := []
  deriving DecidableEq, Repr

/-- `n` reserved bytes from offset `a`. -/
def rs (a n : Nat) : List (Nat × Nat) := (List.range n).map fun i => (a + i, 0xFF)

/-- Reserved bits of the byte at `a`. -/
def rb (a mask : Nat) : List (Nat × Nat) := [(a, mask)]

/-- A layout of fixed length. -/
def lay (n : Nat) (r : List (Nat × Nat)) : Layout := { fixed := n, declared := n, reserved := r }

/-- The SYS and MBX groups (R71). -/
def sysLayout (op : Nat) (p : Bytes) : Option Layout :=
  match op with
  | 0x0000 => some (lay 0 [])
  | 0x0001 => some (lay 0 [])
  | 0x0101 => some { fixed := 8, declared := 8, reserved := rs 1 1 ++ rs 4 4,
                     impossible := if field p 0 1 == 0 || 16 ≤ field p 0 1 then [field p 0 1] else [] }
  | 0x0102 => some (lay 16 (rb 8 0xF0 ++ rs 9 7))
  | 0x0103 => some (lay 36 (rs 1 3))
  | _ => none

/-- The WALL and PLACE groups (R87, R104). -/
def wallLayout (op : Nat) (p : Bytes) : Option Layout :=
  match op with
  | 0x0201 => some (lay 17 (rs 8 8))
  | 0x0202 => some (lay 8 (rb 0 0xFE ++ rs 1 7))
  | 0x0203 => some (lay 0 [])
  | 0x0301 => some (lay 8 (rs 1 7))
  | 0x0302 =>
    let unused := match field p 0 1 with
      | 0 => rs 4 2
      | 1 => rs 2 4
      | 2 => rs 1 3
      | 3 => rs 3 5
      | _ => []
    some (lay 8 unused)
  | 0x0303 => some (lay 8 (rs 2 6))
  | 0x0304 => some (lay 0 [])
  | _ => none

/-- The SCHED group (R198). -/
def schedLayout (op : Nat) (_p : Bytes) : Option Layout :=
  match op with
  | 0x0701 => some (lay 0 [])
  | 0x0702 => some (lay 8 (rs 1 7))
  | 0x0703 => some (lay 8 [])
  | 0x0704 => some (lay 8 (rs 4 4))
  | 0x0705 => some (lay 8 (rs 1 3))
  | 0x0706 => some (lay 8 (rs 2 6))
  | 0x0707 => some (lay 0 [])
  | _ => none

/-- The MODE group (R219): bits 6:4 of each slot byte are reserved (R210); the other slot settings are checked by the
command (R208). -/
def modeLayout (op : Nat) (_p : Bytes) : Option Layout :=
  match op with
  | 0x0801 => some (lay 24 (rs 3 1 ++ (List.range 4).flatMap (fun k => rb (16 + k) 0x70) ++ rs 20 4))
  | 0x0802 => some (lay 0 [])
  | 0x0803 => some (lay 8 (rs 1 1 ++ rs 4 4))
  | 0x0804 => some (lay 0 [])
  | _ => none

/-- The length a cue's embedded commands take, `n` of them from offset `o` (R298). -/
def cueLen (p : Bytes) : Nat → Nat → Nat
  | 0, o => o
  | n + 1, o => cueLen p n (o + 16 + (field p (o + 4) 2 + 7) / 8 * 8)

/-- The TIME and CUE groups (R297, R298). -/
def timeLayout (op : Nat) (p : Bytes) : Option Layout :=
  match op with
  | 0x0B01 => some (lay 16 (rb 9 0xFC))
  | 0x0B02 => some (lay 8 (rs 3 1))
  | 0x0B03 => some (lay 0 [])
  | 0x0B04 => some (lay 16 (rs 1 1 ++ rs 12 4))
  | 0x0B05 => some (lay 32 ((if field p 1 1 == 3 then [] else rs 2 2) ++ rs 6 2 ++ rs 28 4))
  | 0x0B06 => some (lay 8 (rs 2 6))
  | 0x0B07 => some (lay 16 (rb 0 0xFC ++ rs 1 1))
  | 0x0C01 => some { fixed := 24, declared := cueLen p (min 16 (field p 20 1)) 24,
                     reserved := (match field p 3 1 with | 1 => rs 12 4 | 2 => rb 8 0x40 ++ rs 12 4 | _ => []) ++ rs 21 3 }
  | 0x0C02 => some (lay 8 (rs 2 6))
  | 0x0C03 => some (lay 8 (rs 2 6))
  | _ => none

/-- The FAULT group (R447). -/
def faultLayout (op : Nat) (_p : Bytes) : Option Layout :=
  match op with
  | 0x1301 => some (lay 0 [])
  | 0x1302 => some (lay 8 (rb 2 0xF8))
  | 0x1303 => some (lay 16 (rs 8 8))
  | 0x1304 => some (lay 8 (rs 2 6))
  | 0x1305 => some (lay 8 (rs 2 6))
  | 0x1306 => some (lay 8 (rs 2 6))
  | _ => none

/-- The REEL group (R476). -/
def reelLayout (op : Nat) (p : Bytes) : Option Layout :=
  match op with
  | 0x1501 => some (lay 0 [])
  | 0x1502 => some (lay 8 (rs 7 1))
  | 0x1503 => some (lay 8 (rb 4 0xFE ++ rs 5 3))
  | 0x1504 => some { fixed := 8, declared := 8 + field p 0 1, reserved := rs 1 7 }
  | _ => none

/-- The reserved bytes and bits of a node's 28 parameter bytes, by kind (R154). -/
def paramReserved (kind : Nat) : List (Nat × Nat) :=
  match kind with
  | 0x01 => rs 1 27
  | 0x02 => rs 13 15
  | 0x03 => rs 2 2
  | 0x04 => rs 1 1 ++ rs 16 12
  | 0x07 => rs 2 2 ++ rb 8 0xFE ++ rs 9 19
  | 0x09 => rs 18 10
  | 0x0A => rs 12 16
  | 0x0B => rs 1 27
  | 0x0C => rs 6 22
  | 0x0D => rb 8 0xFE ++ rs 9 19
  | 0x0E => rs 16 12
  | 0x0F => rb 0 0xC0 ++ rs 1 27
  | 0x10 => rs 2 26
  | 0x11 => rs 9 19
  | 0x13 => rs 1 27
  | 0x14 => rs 1 1 ++ rs 16 12
  | 0x05 => rs 0 28
  | 0x06 => rs 0 28
  | 0x08 => rs 0 28
  | 0x12 => rs 0 28
  | 0x15 => rs 0 28
  | 0x16 => rs 0 28
  | 0x17 => rs 0 28
  | 0x18 => rs 0 28
  | _ => []

/-- A reserved list moved up by `o`. -/
def shiftRes (o : Nat) (l : List (Nat × Nat)) : List (Nat × Nat) := l.map fun p => (o + p.1, p.2)

/-- The WEAVE group (R173). The parameters of a WEAVE_PARAM entry are checked against their node's kind, which the
payload does not name (R172). -/
def weaveLayout (op : Nat) (p : Bytes) : Option Layout :=
  match op with
  | 0x0401 =>
    let n := field p 2 1
    some { fixed := 16, declared := 16 + 32 * n,
           reserved := rs 3 13 ++ (List.range n).flatMap fun i =>
             rb (17 + 32 * i) 0xFE ++ shiftRes (20 + 32 * i) (paramReserved (field p (16 + 32 * i) 1)) }
  | 0x0402 =>
    let n := field p 4 2
    some { fixed := 8, declared := 8 + 12 * n,
           reserved := rs 1 1 ++ rs 6 2 ++ (List.range n).flatMap fun i =>
             (List.range 3).flatMap fun k => rb (8 + 12 * i + 4 * k + 2) 0xFC ++ rs (8 + 12 * i + 4 * k + 3) 1 }
  | 0x0403 =>
    let n := field p 12 1
    some { fixed := 16, declared := 16 + 32 * n,
           reserved := rs 13 3 ++ (List.range n).flatMap fun i => rs (16 + 32 * i + 1) 3 }
  | 0x0404 => some (lay 0 [])
  | 0x0405 => some (lay 8 (rs 1 7))
  | _ => none

/-- The INGEST group (R128). -/
def ingestLayout (op : Nat) (p : Bytes) : Option Layout :=
  match op with
  | 0x0501 => some (lay 32 ((if field p 15 1 / 16 % 4 == 1 then [] else rs 20 2) ++ rs 24 8))
  | 0x0502 => some (lay 24 (rs 15 1 ++ rs 18 6))
  | 0x0503 => some (lay 16 ((if field p 1 1 == 0 then rs 4 1 else []) ++ rs 5 1 ++ (if field p 1 1 == 1 then rs 8 2 else []) ++ rs 10 6))
  | 0x0504 => some (lay 24 ((if field p 13 1 == 0 || field p 13 1 == 2 then rs 14 2 else []) ++ rs 16 8))
  | 0x0505 => some (lay 16 ((if field p 3 1 == 0 || field p 3 1 == 2 then rs 4 2 else []) ++ rs 10 6))
  | 0x0506 => some (lay 32 (rs 24 8))
  | 0x0507 => some (lay 8 (rs 1 1 ++ rs 4 4))
  | 0x0508 => some (lay 8 (rs 1 1 ++ rs 4 4))
  | 0x0509 => some (lay 0 [])
  | _ => none

/-- The STORE group (R145). -/
def storeLayout (op : Nat) (_p : Bytes) : Option Layout :=
  match op with
  | 0x0601 => some (lay 24 (rs 3 5 ++ rs 20 4))
  | 0x0602 => some (lay 8 (rs 2 6))
  | 0x0603 => some (lay 8 (rs 2 6))
  | 0x0604 => some (lay 8 (rs 4 4))
  | 0x0605 => some (lay 0 [])
  | 0x0606 => some (lay 8 (rs 1 7))
  | 0x0607 => some (lay 8 (rs 2 6))
  | _ => none

/-- The HEALTH group (R314). -/
def healthLayout (op : Nat) (p : Bytes) : Option Layout :=
  match op with
  | 0x0D01 => some (lay 8 (rs 1 1 ++ rs 4 4))
  | 0x0D02 => some (lay 8 (rs 4 4))
  | 0x0D03 => some (lay 8 (rs 5 3))
  | 0x0D04 => some (lay 16 (rs 14 2))
  | 0x0D05 => some (lay 8 (rs 2 6))
  | 0x0D06 => some (lay 8 (rs 5 3))
  | 0x0D07 =>
    let n := field p 6 1
    some (lay 64 (rb 7 0xFC ++ rb 18 0xC0 ++ rs 30 2 ++ (if n ≤ 16 then rs (32 + 2 * n) (32 - 2 * n) else [])))
  | 0x0D08 => some (lay 8 (rs 1 7))
  | 0x0D09 => some (lay 8 (rs 1 7))
  | 0x0D0A => some (lay 8 (rs 1 7))
  | _ => none

/-- The FIX group (R332). -/
def fixLayout (op : Nat) (p : Bytes) : Option Layout :=
  match op with
  | 0x0E01 =>
    -- fields that do not apply to the output's kind are reserved (R9)
    if 4096 ≤ field p 0 2 then some (lay 24 (rs 2 1 ++ rb 3 0xF0 ++ rs 4 2 ++ rs 8 8 ++ rs 23 1))
    else some (lay 24 (rb 3 0xFC ++ rs 18 6))
  | 0x0E02 =>
    let n := field p 0 2
    some { fixed := 8, declared := 8 + 32 * n,
           reserved := rs 2 6 ++ (List.range (min n 127)).flatMap fun i => rs (37 + 32 * i) 1 }
  | 0x0E03 =>
    let n := field p 0 2
    some { fixed := 8, declared := 8 + 8 * n,
           reserved := rs 2 6 ++ (List.range (min n 511)).flatMap fun i => rs (13 + 8 * i) 1 }
  | 0x0E04 =>
    let n := field p 0 2
    some { fixed := 8, declared := 8 + 72 * n,
           reserved := rs 2 6 ++ (List.range (min n 56)).flatMap fun i => rs (13 + 72 * i) 3 }
  | 0x0E05 => some (lay 24 (rs 16 8))
  | 0x0E06 => some { fixed := 16, declared := 16 + field p 12 1, reserved := rs 13 3 }
  | 0x0E07 => some (lay 8 (rs 2 6))
  | 0x0E08 => some (lay 8 (rs 1 1 ++ rs 4 4))
  | 0x0E09 => some (lay 8 (rs 2 6))
  | _ => none

/-- The AIR group (R358). -/
def airLayout (op : Nat) (p : Bytes) : Option Layout :=
  match op with
  | 0x0F01 => some (lay 16 (rs 14 2))
  | 0x0F02 => some { fixed := 40, declared := 40 + 2 * field p 32 2, reserved := rs 1 1 ++ rb 35 0xF0 }
  | 0x0F03 => some { fixed := 16, declared := 16 + 8 * field p 3 1, reserved := rs 9 7 }
  | 0x0F04 => some (lay 8 (rs 2 6))
  | 0x0F05 => some (lay 32 ((if field p 3 1 == 0 then rs 6 2 else []) ++ rs 24 8))
  | 0x0F06 => some (lay 32 (rs 23 1 ++ rb 27 0xFE ++ rs 28 4))
  | 0x0F07 => some (lay 8 (rs 4 4))
  | 0x0F08 => some { fixed := 8, declared := 8 + field p 2 1, reserved := rs 3 5 }
  | 0x0F09 => some (lay 0 [])
  | 0x0F0A => some (lay 8 (rs 1 7))
  | 0x0F0B => some (lay 8 (rs 2 6))
  | 0x0F0C => some (lay 8 (rs 1 7))
  | _ => none

/-- The LINK group (R255). -/
def linkLayout (op : Nat) (_p : Bytes) : Option Layout :=
  match op with
  | 0x0901 => some (lay 8 (rs 1 7))
  | 0x0902 => some (lay 8 (rs 1 7))
  | 0x0903 => some (lay 8 (rs 2 6))
  | 0x0904 => some (lay 8 (rs 1 7))
  | 0x0905 => some (lay 8 (rs 2 6))
  | _ => none

/-- The PORT group (R275). -/
def portLayout (op : Nat) (_p : Bytes) : Option Layout :=
  match op with
  | 0x0A01 => some (lay 16 (rb 3 0xFC ++ rs 12 4))
  | 0x0A02 => some (lay 8 (rs 1 7))
  | 0x0A03 => some (lay 8 (rs 1 7))
  | _ => none

/-- The POWER group (R383). -/
def powerLayout (op : Nat) (_p : Bytes) : Option Layout :=
  match op with
  | 0x1001 => some (lay 8 (rb 1 0xFE ++ rs 4 4))
  | 0x1002 => some (lay 0 [])
  | 0x1003 => some (lay 16 (rs 1 1 ++ rs 12 4))
  | 0x1004 => some (lay 8 (rs 6 2))
  | 0x1005 => some (lay 24 (rb 0 0x80 ++ rs 1 3 ++ rs 20 4))
  | 0x1006 => some (lay 8 (rs 6 2))
  | 0x1007 => some (lay 0 [])
  | 0x1008 => some (lay 0 [])
  | _ => none

/-- The METER group (R403). -/
def meterLayout (op : Nat) (p : Bytes) : Option Layout :=
  match op with
  | 0x1101 => some (lay 8 (rs 2 2))
  | 0x1102 => some (lay 8 (rb 3 0xFE))
  | 0x1103 => some (lay 8 (rs 1 7))
  | 0x1104 => some (lay 8 (rs 1 7))
  | 0x1105 => some (lay 8 (rs 2 6))
  | 0x1106 => some (lay 16 (rb 3 0xFC ++ rs 11 5))
  | 0x1107 => some (lay 8 (rs 2 6))
  | 0x1108 => some (lay 8 (rs 1 7))
  | 0x1109 =>
    let n := field p 0 2
    some { fixed := 8, declared := 8 + 20 * n,
           reserved := rs 2 6 ++ (List.range (min n 204)).flatMap fun i => rs (10 + 20 * i) 2 }
  | 0x110A => some (lay 16 (rs 1 1 ++ rb 3 0xFC ++ rb 10 0xFE ++ rs 11 5))
  | 0x110B => some (lay 0 [])
  | _ => none

/-- The TWIN group (R426). -/
def twinLayout (op : Nat) (_p : Bytes) : Option Layout :=
  match op with
  | 0x1201 => some (lay 8 (rs 4 4))
  | 0x1202 => some (lay 0 [])
  | 0x1203 => some (lay 24 (rb 2 0xFE ++ rs 12 12))
  | 0x1204 => some (lay 0 [])
  | _ => none

/-- The CAL group (R459). -/
def calLayout (op : Nat) (_p : Bytes) : Option Layout :=
  match op with
  | 0x1401 => some (lay 0 [])
  | 0x1402 => some (lay 8 (rb 0 0xE0 ++ rs 1 1 ++ rs 4 4))
  | 0x1403 => some (lay 8 (rb 0 0xE0 ++ rs 1 7))
  | 0x1404 => some (lay 8 (rs 1 1 ++ rs 4 4))
  | 0x1405 => some (lay 8 (rs 1 7))
  | 0x1406 => some (lay 8 (rs 1 1 ++ rs 4 4))
  | _ => none

/-- The UPDATE group (R492). -/
def updateLayout (op : Nat) (p : Bytes) : Option Layout :=
  match op with
  | 0x1601 => some (lay 8 (rs 1 3))
  | 0x1602 => some { fixed := 8, declared := 8 + field p 4 2, reserved := rs 6 2 }
  | 0x1603 => some (lay 8 (rs 1 7))
  | 0x1604 => some (lay 8 (rb 1 0xFE ++ rs 4 4))
  | 0x1605 => some (lay 0 [])
  | 0x1606 => some (lay 0 [])
  | 0x1607 => some (lay 72 (rs 1 7))
  | _ => none

/-- The layout of an opcode's payload, by its group; none for an opcode the device does not know (R69). -/
def layoutOf (op : Nat) (p : Bytes) : Option Layout :=
  match op / 256 with
  | 0x00 => sysLayout op p
  | 0x01 => sysLayout op p
  | 0x02 => wallLayout op p
  | 0x03 => wallLayout op p
  | 0x04 => weaveLayout op p
  | 0x05 => ingestLayout op p
  | 0x06 => storeLayout op p
  | 0x07 => schedLayout op p
  | 0x08 => modeLayout op p
  | 0x09 => linkLayout op p
  | 0x0A => portLayout op p
  | 0x0B => timeLayout op p
  | 0x0C => timeLayout op p
  | 0x0D => healthLayout op p
  | 0x0E => fixLayout op p
  | 0x0F => airLayout op p
  | 0x10 => powerLayout op p
  | 0x11 => meterLayout op p
  | 0x12 => twinLayout op p
  | 0x13 => faultLayout op p
  | 0x14 => calLayout op p
  | 0x15 => reelLayout op p
  | 0x16 => updateLayout op p
  | _ => none

end Sys2Proof.Machine
end

