-- ==== Sys2Proof/Machine/Air.lean ====
section
/-! DEFINITION. Ezond Air: the AIR commands (R358, R359), the superframe, beacons and their moves (R340, R343, R355, R356),
crowd frames (R344, R347, R348), anchors and exchanges (R349 to R351), joins, supervision and resynchronisation (R352 to
R354). -/

namespace Sys2Proof.Machine

/-! ## Definitions (R334 to R341, R358) -/

/-- A happening on the air at the instant `t`: a distaff holds its radios idle (R413), and a device that gives no service (R36).
-/
def airs (t : Nat) (s : State) (f : State → State) : Res := happens t s fun s => if outsLive s then f s else s

/-- An enabled radio exists. -/
def anyRadioOn (s : State) : Bool := s.air.radios.any fun e => e.2.st != 0

/-- AIR_NET_SET. -/
def airNetSet (c : Cmd) (s : State) : State :=
  let p := c.payload
  let slot := field p 2 2
  let n := field p 4 2
  let ok (v : Nat) : Bool := decide (v ≤ 200)
  let s' := { s with air := { s.air with net := some p } }
  if slot < 500 || 20000 < slot || n < 8 || 512 < n || !ok (field p 6 1) || !ok (field p 7 1) || n * slot ≤ field p 8 4
      || 600 < field p 12 2 || s.air.radios.any (fun e => !slotsFit s' e.2 || decide (n < crowdSlots e.2 + 3)) then
    done c stRANGE s
  else if anyRadioOn s then done c stSTATE s
  else done c stOK { s' with air := { s'.air with k := none } }

def execAirNetSet (t : Nat) (r : CmdRef) (s : State) : Res := verb 0x0F01 t r s airNetSet

/-- AIR_RADIO_DEFINE. -/
def airRadioDefine (c : Cmd) (s : State) : State :=
  let p := c.payload
  let n := field p 0 1
  let old := radioOf s n
  let r : Radio := { old with cfg := p, band := field p 34 1 }
  if 3 < n || field p 2 2 < 1000 || 16000 < field p 2 2 || field p 4 4 == 0 || 120 < field p 16 2
      || (field p 19 1 != 0 && field p 19 1 != 0x80) || field p 27 1 == 0 || 3 < field p 27 1 || 1 < field p 31 1
      || 128 < field p 32 2 || 3 < field p 34 1 || !bit (field p 35 1) (field p 34 1)
      || 3 < field p 36 1 || (3 < field p 38 1 && field p 38 1 != 0xFF)
      || (s.air.net.isSome && (nSlots s < crowdSlots r + 3 || !slotsFit s r)) then done c stRANGE s
  else if old.st != 0 then done c stSTATE s
  else done c stOK { s with air := { s.air with radios := kset s.air.radios n r } }

def execAirRadioDefine (t : Nat) (r : CmdRef) (s : State) : Res := verb 0x0F02 t r s airRadioDefine

/-- AIR_BAND_DEFINE. A band keeps the airtime already charged to it. (DESIGN CHOICE, log 48) -/
def airBandDefine (c : Cmd) (s : State) : State :=
  let p := c.payload
  let (n, b) := (field p 0 1, field p 1 1)
  let nch := field p 3 1
  let cca := field p 6 2
  if 3 < n || 3 < b || 1 < field p 2 1 || nch == 0 || 16 < nch || field p 4 2 == 0 || 10000 < field p 4 2
      || (field p 2 1 == 1 && cca != 0 && (cca < 18 || 1000 < cca))
      || nch ≤ field p 8 1 then done c stRANGE s
  else if (radioOf s n).st != 0 then done c stSTATE s
  else
    let r := radioOf s n
    let d : Band := { cfg := p, buckets := (bandOf r b).buckets }
    let r : Radio := { r with bands := kset r.bands b d }
    done c stOK { s with air := { s.air with radios := kset s.air.radios n r } }

def execAirBandDefine (t : Nat) (r : CmdRef) (s : State) : Res := verb 0x0F03 t r s airBandDefine

/-- A radio is defined with the bands it uses, under a network. -/
def radioReady (s : State) (r : Radio) : Bool :=
  s.air.net.isSome && decide (40 ≤ r.cfg.length) && khas r.bands (field r.cfg 34 1)
    && (setBits 4 (field r.cfg 35 1)).all (khas r.bands) && khas r.bands (field r.cfg 36 1)
    && (field r.cfg 38 1 == 0xFF || khas r.bands (field r.cfg 38 1)) && !r.retired

/-- AIR_RADIO_ENABLE (R335, R357). -/
def airRadioEnable (c : Cmd) (s : State) : State :=
  let n := field c.payload 0 1
  let r := radioOf s n
  match field c.payload 1 1 with
  | 1 =>
    if 3 < n then done c stRANGE s
    else if r.st == 2 || !radioReady s r then done c stSTATE s
    else if r.st == 1 then done c stOK s
    else done c stOK (radioStart n s)
  | 0 =>
    if 3 < n then done c stRANGE s
    else if r.st == 2 then done c stSTATE s
    else if r.st == 0 then done c stOK s
    else radioDrained n (drainStart 4 n (modRadio n (fun r => { r with st := 2, ref := some c.ref }) (park c s)))
  | _ => done c stRANGE s

def execAirRadioEnable (t : Nat) (r : CmdRef) (s : State) : Res := verbF 0x0F04 t r s airRadioEnable

/-- The cells of a block. -/
def blockCells (b : Bytes) : Nat := field b 16 2 * field b 18 2

/-- AIR_CROWD_DEFINE (R347). -/
def airCrowdDefine (c : Cmd) (s : State) : State :=
  let p := c.payload
  let b := field p 0 1
  let first := field p 4 2
  let n := blockCells p
  let beyond := (nextBlocks s).any fun e => e.1 != b && decide (first < field e.2 4 2 + blockCells e.2)
    && decide (field e.2 4 2 < first + n)
  if 63 < b then done c stRANGE s
  else if field p 2 1 == 0xFF then
    done c stOK { s with air := { s.air with pendBlocks := s.air.pendBlocks ++ [(b, none)] } }
  else if 15 < field p 1 1 || 1 < field p 2 1 || 1 < field p 3 1
      || (field p 3 1 == 1 && (field p 6 2 < 1000 || 4000 < field p 6 2)) || n == 0 || 65536 < first + n || beyond then
    done c stRANGE s
  else done c stOK { s with air := { s.air with pendBlocks := s.air.pendBlocks ++ [(b, some p)] } }

def execAirCrowdDefine (t : Nat) (r : CmdRef) (s : State) : Res := verb 0x0F05 t r s airCrowdDefine

/-- Two anchors share a slot (R349). -/
def anchorsMeet (a b : Bytes) : Bool :=
  let m := 2 ^ min (field a 14 1) (field b 14 1)
  field a 2 1 == field b 2 1 && field a 12 2 == field b 12 2 && field a 15 1 % m == field b 15 1 % m

/-- AIR_NODE_ADD breaks a range. -/
def nodeAddBad (s : State) (p : Bytes) : Bool :=
  let n := field p 0 2
  let r := radioOf s (field p 2 1)
  let chm := field p 24 2
  let period := field p 14 1
  let sup := field p 16 2
  let out := field p 18 2
  let others := s.air.nodes.filter fun e => e.1 != n
  decide (4095 < n) || decide (3 < field p 2 1) || !khas r.bands (field p 3 1) || s.air.net.isNone
    || decide (field p 12 2 < 3 + crowdSlots r) || decide (nSlots s ≤ field p 12 2) || decide (6 < period)
    || decide (2 ^ period ≤ field p 15 1) || decide (sup < 100) || decide (60000 < sup)
    || decide (sup * 1000000 < 3 * 2 ^ period * airBi s)
    || (out != 0xFFFF && decide (4103 < out)) || decide (uMax s r < field p 22 1)
    || (out != 0xFFFF && (field p 20 2 == 0 || decide (513 < field p 20 2 + field p 22 1)))
    || chm == 0 || decide (2 ^ bandNch (bandOf r (field p 3 1)) ≤ chm)
    || (decide (15 < field p 26 1) && field p 26 1 != 0xFF)
    || others.any fun e => anchorsMeet e.2.cfg p || field e.2.cfg 4 8 == field p 4 8

/-- A node's record erased, with NODE_STATE 5. -/
def nodeErase (n : Nat) (s : State) : State :=
  let s := nodeOff n 5 s
  { s with air := { s.air with nodes := kerase s.air.nodes n } }

/-- AIR_NODE_ADD (R349, R352, R358). -/
def airNodeAdd (c : Cmd) (s : State) : State :=
  let p := c.payload
  let n := field p 0 2
  let old := kget? s.air.nodes n
  if bit (field p 27 1) 0 then
    match old with
    | none => done c stRANGE s
    | some q =>
      if q.conn then done c stOK (modNodeA n (fun q => { q with release := true }) (nodeAbort n s))
      else done c stOK (nodeErase n s)
  else if nodeAddBad s p then done c stRANGE s
  else if (match old with | some q => q.conn | none => false) then done c stSTATE s
  else
    let s := { s with air := { s.air with nodes := kset s.air.nodes n { cfg := p, chmap := field p 24 2 } } }
    done c stOK (nodeEvt n 0 s)

def execAirNodeAdd (t : Nat) (r : CmdRef) (s : State) : Res := verb 0x0F06 t r s airNodeAdd

/-- AIR_CHMAP (R351). -/
def airChmap (c : Cmd) (s : State) : State :=
  let p := c.payload
  let (n, b) := (field p 0 1, field p 1 1)
  let m := field p 2 2
  let r := radioOf s n
  if 3 < n || !khas r.bands b || m == 0 || 2 ^ bandNch (bandOf r b) ≤ m then done c stRANGE s
  else
    let hit := (s.air.nodes.filter fun e => nodeRadio e.2 == n && nodeBand e.2 == b).map (·.1)
    done c stOK (forEach hit s fun q s => modNodeA q (fun d =>
      if d.conn then { d with mapPend := some (m, (nodeEvent d (s.air.k.getD 0) + 8) % 65536), mapAcked := false }
      else { d with chmap := m }) s)

def execAirChmap (t : Nat) (r : CmdRef) (s : State) : Res := verb 0x0F07 t r s airChmap

/-- The messages in the downlink queue. -/
def downQueued (s : State) : Nat := (s.air.nodes.map fun e => (nodeRefs e.2).length).sum

/-- AIR_SEND (R359). -/
def airSendCmd (c : Cmd) (s : State) : State :=
  let p := c.payload
  let n := field p 0 2
  let len := field p 2 1
  match kget? s.air.nodes n with
  | none => done c (if 4095 < n || len == 0 || 32 < len then stRANGE else stSTATE) s
  | some q =>
    let r := radioOf s (nodeRadio q)
    if len == 0 || uMax s r < len then done c stRANGE s
    else if r.st != 1 || !q.conn || q.lostSync || q.release then done c stSTATE s
    else if 1024 ≤ downQueued s then done c stBUSY s
    else modNodeA n (fun q => { q with queue := q.queue ++ [(c.ref, bytesAt p 8 len)] }) (park c s)

def execAirSend (t : Nat) (r : CmdRef) (s : State) : Res := verb 0x0F08 t r s airSendCmd

def execAirRecv (t : Nat) (r : CmdRef) (s : State) : Res :=
  verb 0x0F09 t r s fun c s =>
    let l := s.air.uplink.take 16
    let left := s.air.uplink.drop 16
    let ent := l.flatMap fun e => leN 2 e.1 ++ leN 1 e.2.2.length ++ zeros 5 ++ leN 8 e.2.1 ++ padTo 32 e.2.2
    reply c (leN 2 l.length ++ leN 2 left.length ++ zeros 4 ++ ent) { s with air := { s.air with uplink := left } }

/-! ## Reading back (R359) -/

/-- The cells of all blocks. -/
def cellCount (s : State) : Nat := (s.air.blocks.map fun e => blockCells e.2).sum

/-- The cells one frame carries in a format. -/
def cellsPerFrame (s : State) (r : Radio) (fmt : Nat) : Nat := if fmt == 0 then crowdData s r / 3 else crowdData s r

/-- The frames of a full crowd cycle. -/
def cycleFrames (s : State) (r : Radio) : Nat :=
  (s.air.blocks.map fun e => let n := cellsPerFrame s r (field e.2 2 1)
    if n == 0 then 0 else (blockCells e.2 + n - 1) / n).sum

/-- AIR_STATUS. -/
def airStatusBytes (s : State) (n : Nat) : Bytes :=
  let r := radioOf s n
  let nodes := s.air.nodes.filter fun e => nodeRadio e.2 == n && e.2.conn
  let fmt := match s.air.blocks with | e :: _ => field e.2 2 1 | [] => 0
  let slots := crowdSlots r
  let rem := (List.range 4).flatMap fun b => match kget? r.bands b with
    | some d => leN 2 (bandRemaining s d * 10000 / max 1 (bandBudget d))
    | none => zeros 2
  leN 1 n ++ leN 1 (if r.st == 1 && (r.starved || r.noBand) then 3 else r.st) ++ leN 1 r.band ++ leN 1 (beaconCh r r.band)
    ++ leN 4 (sfNum (s.air.k.getD 0)) ++ leN 2 nodes.length ++ leN 2 (nodes.filter fun e => e.2.scanning).length
    ++ leN 2 (nodes.filter fun e => e.2.lostSync).length ++ leN 1 (uMax s r) ++ leN 1 (cellsPerFrame s r fmt)
    ++ leN 2 (if slots == 0 then 0 else (cycleFrames s r + slots - 1) / slots) ++ zeros 2 ++ rem ++ zeros 4

def execAirStatus (t : Nat) (r : CmdRef) (s : State) : Res :=
  verb 0x0F0A t r s fun c s =>
    let n := field c.payload 0 1
    if 3 < n then done c stRANGE s else reply c (airStatusBytes s n) s

/-- AIR_NODE_STATUS. -/
def nodeStatusBytes (s : State) (n : Nat) (q : ANode) : Bytes :=
  leN 2 n ++ leN 1 q.state ++ leN 1 (nodeRadio q) ++ leN 2 (nodeEvent q (s.air.k.getD 0))
    ++ leN 2 (min 65535 (guardNs s q s.now / 1000)) ++ leN 8 q.lastContact ++ leN 1 (nodeRefs q).length ++ zeros 3
    ++ leN 4 q.resends.toNat ++ leN 4 q.crcErr.toNat ++ zeros 4

def execAirNodeStatus (t : Nat) (r : CmdRef) (s : State) : Res :=
  verb 0x0F0B t r s fun c s =>
    let n := field c.payload 0 2
    match kget? s.air.nodes n with
    | some q => reply c (nodeStatusBytes s n q) s
    | none => done c stNOTFOUND s

def execAirCounters (t : Nat) (r : CmdRef) (s : State) : Res :=
  verb 0x0F0C t r s fun c s =>
    let n := field c.payload 0 1
    let q := radioOf s n
    if 3 < n then done c stRANGE s
    else reply c (leN 4 q.tx.toNat ++ leN 4 q.rxOk.toNat ++ leN 4 q.crcErr.toNat ++ leN 4 q.beaconSkip.toNat
      ++ leN 4 q.refused.toNat ++ leN 4 q.lbtBusy.toNat ++ leN 4 q.resends.toNat ++ leN 4 q.upRefused.toNat) s

/-! ## The superframe (R340, R347, R355) -/

/-- A radio owes recovery beacons: a connected node scans, or a beacon has moved within RECOVERY_HOLD_S (R355). -/
def recoveryDue (s : State) (n : Nat) (r : Radio) : Bool :=
  (match r.holdUntil with | some u => decide (s.now ≤ u) | none => false)
    || s.air.nodes.any fun e => nodeRadio e.2 == n && e.2.conn && e.2.scanning

/-- A superframe starts: block definitions take effect, the cells take the values of the last weave that began before it,
beacons that move go to their new band, and each radio decides on its recovery beacon. -/
def superframe (s : State) : State :=
  let bi := airBi s
  if bi == 0 || s.now < airPhase s then s
  else
    let k := (s.now - airPhase s) / bi
    if s.air.k == some k then s
    else
      let s := { s with air := { s.air with k := some k, blocks := nextBlocks s, pendBlocks := [], shown := s.fix.cells } }
      { s with air := { s.air with radios := kmap s.air.radios fun n r => { r with
        band := r.moving.getD r.band, moving := none, recovery := recoveryDue s n r } } }

def execSuperframeStart (t : Nat) (s : State) : Res := happens t s superframe

/-! ## Beacons (R343, R355, R356) -/

/-- AIR_STARVED emitted. -/
def starvedEvent (n st frm dest cause : Nat) (s : State) : State :=
  emit 0x0F01 (leN 1 n ++ leN 1 st ++ leN 1 frm ++ leN 1 dest ++ leN 1 cause ++ zeros 3 ++ leN 4 (sfNum (s.air.k.getD 0))) s

/-- The band beacons move to: among the other BEACON_BANDS, the one with the most budget of at least 1 s (R356). -/
def moveBand (s : State) (r : Radio) : Option Nat :=
  let l := (setBits 4 (field r.cfg 35 1)).filter fun b => b != r.band && khas r.bands b
    && decide (1000000000 ≤ bandRemaining s (bandOf r b))
  l.foldl (fun acc b => match acc with
    | none => some b
    | some a => if bandRemaining s (bandOf r a) < bandRemaining s (bandOf r b) then some b else acc) none

/-- The connected nodes of a radio count as scanning (R355). -/
def nodesScan (n : Nat) (s : State) : State :=
  forEach ((s.air.nodes.filter fun e => nodeRadio e.2 == n && e.2.conn && !e.2.scanning).map (·.1)) s fun q s =>
    nodeEvt q 3 (modNodeA q (fun d => { d with scanning := true }) s)

/-- A skipped beacon; once three in a row are skipped, each moves the beacons to another band from the next superframe (R356). -/
def beaconSkipped (n : Nat) (busy : Bool) (s : State) : State :=
  let s := modRadio n (fun r => { r with beaconSkip := r.beaconSkip + 1, skips := r.skips + 1
                                         skipBudget := r.skipBudget || !busy, skipLbt := r.skipLbt || busy }) s
  let r := radioOf s n
  if r.skips < 3 then s
  else
    let s := nodesScan n s
    let cause := if r.skipBudget && r.skipLbt then 2 else if r.skipLbt then 1 else 0
    match moveBand s r with
    | some b =>
      let s := starvedEvent n 1 r.band b cause s
      modRadio n (fun r => { r with moving := some b, returning := none, starved := true, noBand := false, skips := 0, skipBudget := false
                                    skipLbt := false, nextBand := none, countdown := 0
                                    holdUntil := some (s.now + recoveryHold s) }) s
    | none =>
      let s := if r.noBand then s else starvedEvent n 1 r.band 0xFF cause s
      modRadio n (fun r => { r with noBand := true }) s

/-- The home band has a quarter of its budget again: a radio away from it announces its return (R356). -/
def homeCheck (n : Nat) (s : State) : State :=
  let r := radioOf s n
  let home := field r.cfg 34 1
  let d := bandOf r home
  if r.st == 1 && r.band != home && r.nextBand.isNone && decide (bandBudget d ≤ 4 * bandRemaining s d) then
    modRadio n (fun r => { r with nextBand := some home, countdown := 8 }) s
  else s

/-- The beacon of slot 0 (R343, R356). -/
def beaconSend (n : Nat) (busy : Bool) (s : State) : State :=
  let r := radioOf s n
  match s.air.k with
  | none => s
  | some k =>
    if !radioOn r || s.now < slotTp s k 0 || r.beaconSf == some k then s
    else
      let s := homeCheck n (modRadio n (fun r => { r with beaconSf := some k }) s)
      -- the ninth beacon of an announced return is sent on the home band
      let frm := (radioOf s n).band
      let back := (radioOf s n).nextBand.isSome && (radioOf s n).countdown == 0
      let s := if back then modRadio n (fun r => { r with band := r.nextBand.getD r.band, nextBand := none
                                                          returning := some frm
                                                          holdUntil := some (s.now + recoveryHold s) }) s else s
      let r := radioOf s n
      let (d, s) := airSend n r.band (beaconCh r r.band) 0 true busy "BEACON" (beaconPdu s n k false) s
      match d with
      | .sent =>
        let s := modRadio n (fun r => { r with skips := 0, skipBudget := false, skipLbt := false, noBand := false
                                               countdown := r.countdown - 1 }) s
        match r.returning with
        | some b => starvedEvent n 0 b r.band 0 (modRadio n (fun r => { r with returning := none, starved := false }) s)
        | none => s
      | .refused => beaconSkipped n false s
      | .busy => beaconSkipped n true s

def execBeaconSend (t radio : Nat) (busy : Bool) (s : State) : Res := airs t s (beaconSend radio busy)

/-- The recovery beacon of slot 1 (R355). -/
def recoverySend (n : Nat) (busy : Bool) (s : State) : State :=
  let r := radioOf s n
  match s.air.k with
  | none => s
  | some k =>
    if !radioOn r || !r.recovery || s.now < slotTp s k 1 || r.recoverySf == some k then s
    else
      let s := modRadio n (fun r => { r with recoverySf := some k }) s
      (airSend n (field r.cfg 36 1) (field r.cfg 37 1) 0 true busy "BEACON" (beaconPdu s n k true) s).2

def execRecoveryBeaconSend (t radio : Nat) (busy : Bool) (s : State) : Res := airs t s (recoverySend radio busy)

def execRecoveryHoldExpiry (t radio : Nat) (s : State) : Res :=
  happens t s fun s => modRadio radio (fun r => match r.holdUntil with
    | some u => if u ≤ s.now then { r with holdUntil := none } else r
    | none => r) s

/-- A bucket closes and the window slides: what lies outside it is dropped, and the home band is looked at again (R338,
R356). -/
def bucketRoll (n b : Nat) (s : State) : State :=
  let k := s.now / 60000000000
  homeCheck n (modRadio n (fun r => { r with bands := kmod? r.bands b fun d =>
    { d with buckets := kfilter d.buckets fun i _ => decide (k < i + 60) } }) s)

def execBudgetBucketRoll (t radio band : Nat) (s : State) : Res := happens t s (bucketRoll radio band)

/-! ## Crowd frames (R344, R348, R357) -/

/-- The cells of a frame that starts at the `at_`-th cell of the ascending order: the block, its first cell and the count. -/
def crowdRun (s : State) (r : Radio) (at_ : Nat) : Option (Bytes × Nat × Nat) :=
  let blocks := sortBy (fun b => field b 4 2) (s.air.blocks.map (·.2))
  let rec go : List Bytes → Nat → Option (Bytes × Nat × Nat)
    | [], _ => none
    | b :: rest, i =>
      let n := blockCells b
      if i < n then
        let m := min (n - i) (min 234 (cellsPerFrame s r (field b 2 1)))
        if m == 0 then none else some (b, field b 4 2 + i, m)
      else go rest (i - n)
  go blocks at_

/-- The bytes of a cell in a format. -/
def cellBytes (fmt : Nat) (c : Nat × Nat × Nat) : Bytes :=
  let q (k v : Nat) : Nat := (2 * v * (2 ^ k - 1) + 255) / 510
  if fmt == 0 then beN 1 c.1 ++ beN 1 c.2.1 ++ beN 1 c.2.2
  else beN 1 (q 3 c.1 * 32 + q 3 c.2.1 * 4 + q 2 c.2.2)

/-- The crowd frame of one slot. -/
def crowdSend (n slot : Nat) (busy : Bool) (s : State) : State :=
  let r := radioOf s n
  match s.air.k with
  | none => s
  | some k =>
    let band := field r.cfg 38 1
    let fresh := match r.crowdSf with | some (j, i) => j != k || decide (i < slot) | none => true
    if !radioOn r || band == 0xFF || slot < 3 || 2 + crowdSlots r < slot || s.now < slotTp s k slot || !fresh
        || (s.flt.safe && field r.cfg 31 1 == 0) then s
    else
      let s := modRadio n (fun r => { r with crowdSf := some (k, slot) }) s
      let total := cellCount s
      match crowdRun s r (if total ≤ r.cellAt then 0 else r.cellAt) with
      | none => s
      | some (b, first, m) =>
        let fmt := field b 2 1
        let cells := (List.range m).map fun i => if s.flt.safe then (0, 0, 0) else kgetD s.air.shown (first + i) (0, 0, 0)
        let body := beN 4 (sfNum k) ++ beN 2 first ++ beN 1 m ++ beN 1 fmt ++ cells.flatMap (cellBytes fmt)
        let (d, s) := airSend n band (beaconCh r band) 2 true busy "CROWD" (airPdu s 2 0 0xFFFF body) s
        match d with
        | .sent =>
          let at_ := (if total ≤ r.cellAt then 0 else r.cellAt) + m
          modRadio n (fun r => { r with cellAt := if total ≤ at_ then 0 else at_ }) s
        | _ => s

def execCrowdSend (t radio slot : Nat) (busy : Bool) (s : State) : Res := airs t s (crowdSend radio slot busy)

/-! ## Anchors (R349 to R351, R354) -/

/-- What the next DOWN of a node carries: a DOWN that waits for its acknowledgement, else a pending MAP or RELEASE, the
oldest message, mirrored slots, or nothing (R350). (DESIGN CHOICE, log 48) -/
def nextDown (s : State) (q : ANode) : Down × List (CmdRef × Bytes) :=
  match q.down with
  | some d => (d, q.queue)
  | none =>
    if q.mapPend.isSome && !q.mapAcked then
      ({ kind := 3, body := beN 2 (q.mapPend.getD (0, 0)).1 ++ beN 2 (q.mapPend.getD (0, 0)).2 }, q.queue)
    else if q.release then ({ kind := 4, body := [] }, q.queue)
    else match q.queue with
      | (r, b) :: rest => ({ kind := 1, body := b, ref := some r }, rest)
      | [] =>
        let out := field q.cfg 18 2
        if out == 0xFFFF then ({ kind := 0, body := [] }, [])
        else
          let data := match outOf s out with | some o => o.data | none => []
          ({ kind := 2, body := bytesAt data (field q.cfg 20 2 - 1) (field q.cfg 22 1) }, [])

/-- The DOWN at a node's anchor (R350); a node whose guard would exceed the cap is LOST_SYNC and gets none (R354). -/
def anchorDown (n : Nat) (busy : Bool) (s : State) : State :=
  match kget? s.air.nodes n, s.air.k with
  | some q, some k =>
    let r := radioOf s (nodeRadio q)
    let slot := field q.cfg 12 2
    if !q.conn || !radioOn r || !isAnchor q k || k < q.firstSf || s.now < slotTp s k slot || q.anchor == some k then s
    else
      let ev := nodeEvent q k
      -- both sides use a new map from the anchor whose EVENT is INSTANT
      let s := modNodeA n (fun q => match q.mapPend with
        | some (m, i) => if i == ev then { q with chmap := m, mapPend := none, mapAcked := true
                                                  down := match q.down with
                                                    | some d => if d.kind == 3 then none else some d
                                                    | none => none } else q
        | none => q) s
      -- three anchors without an UP, and 3 × BI since the last contact, count as scanning
      let missed := q.missed + 1
      let s := modNodeA n (fun q => { q with anchor := some k, missed }) s
      let s := if 3 < missed && !q.scanning && decide (q.lastContact + 3 * airBi s ≤ s.now) then
          nodeEvt n 3 (modNodeA n (fun q => { q with scanning := true }) s) else s
      let q := (kget? s.air.nodes n).getD q
      if q.lostSync then s
      else if slotLen s / 4 < guardNs s q (slotTp s k slot) then
        nodeEvt n 2 (modNodeA n (fun q => { q with lostSync := true }) s)
      else
        -- a message whose resends are used up ends TIMEOUT (R359); an EMPTY is given up
        let spent := match q.down with
          | some d => decide (d.kind ≤ 1) && decide (nodeRetries q ≤ d.resends)
          | none => false
        let s := if spent then
            let ref := match q.down with | some d => d.ref | none => none
            let s := modNodeA n (fun q => { q with down := none }) s
            radioDrained (nodeRadio q) (match ref with | some c => finish c stTIMEOUT 0 [] s | none => s)
          else s
        let q := (kget? s.air.nodes n).getD q
        let gone := match q.down with | some d => d.kind == 4 && decide (nodeRetries q ≤ d.resends) | none => false
        if gone then nodeErase n s
        else
          let again := q.down.isSome
          let (d, rest) := nextDown s q
          let pdu := airPdu s 3 (b2n q.sn + 2 * b2n q.nesn) n (beN 2 ev ++ beN 1 d.kind ++ beN 1 d.body.length ++ d.body)
          let (dec, s) := airSend (nodeRadio q) (nodeBand q) (anchorChan n q ev) 1 true busy "DOWN" pdu s
          match dec with
          | .sent =>
            let keep := d.kind != 2
            let s := modNodeA n (fun q => { q with
              queue := rest, resends := q.resends + BitVec.ofNat 32 (b2n again)
              down := if keep then some { d with resends := d.resends + b2n again } else none }) s
            if again then modRadio (nodeRadio q) (fun r => { r with resends := r.resends + 1 }) s else s
          | _ => s
  | _, _ => s

def execAnchorDownSend (t node : Nat) (busy : Bool) (s : State) : Res := airs t s (anchorDown node busy)

/-! ## What nodes send (R350, R352 to R354) -/

/-- A contact from a node (R353): it no longer counts as scanning or LOST_SYNC. (DESIGN CHOICE, log 48) -/
def contact (n : Nat) (s : State) : State :=
  match kget? s.air.nodes n with
  | none => s
  | some q =>
    let s' := modNodeA n (fun q => { q with lastContact := s.now, missed := 0, scanning := false, lostSync := false }) s
    if q.conn && (q.scanning || q.lostSync) then nodeEvt n 1 s' else s'

/-- An UP of a node counted good or bad. -/
def upCounted (u : AirUp) (s : State) : State :=
  if u.crcOk then modRadio u.radio (fun r => { r with rxOk := r.rxOk + 1 }) s
  else modNodeA u.node (fun q => { q with crcErr := q.crcErr + 1 })
    (modRadio u.radio (fun r => { r with crcErr := r.crcErr + 1 }) s)

/-- The DOWN in flight acknowledged (R350, R359). (DESIGN CHOICE, log 48) -/
def downAcked (n : Nat) (d : Down) (s : State) : State :=
  let s := modNodeA n (fun q => { q with down := none }) s
  match d.kind with
  | 1 => match d.ref with | some r => finish r stOK 0 [] s | none => s
  | 3 => modNodeA n (fun q => { q with mapAcked := match q.mapPend with
      | some m => d.body == beN 2 m.1 ++ beN 2 m.2
      | none => true }) s
  | 4 => nodeErase n s
  | _ => s

/-- The ACK 150 µs after an UP (R350). -/
def ackSend (n : Nat) (event : U16) (s : State) : State :=
  match kget? s.air.nodes n with
  | none => s
  | some q =>
    let pdu := airPdu s 5 (b2n q.sn + 2 * b2n q.nesn) n (beN 2 event.toNat)
    (airSend (nodeRadio q) (nodeBand q) (anchorChan n q event.toNat) 1 false false "ACK" pdu s).2

/-- An UP of an exchange (R350). (DESIGN CHOICE, log 48) -/
def upRx (u : AirUp) (s : State) : State :=
  match kget? s.air.nodes u.node, s.air.k with
  | some q, some k =>
    if !radioOn (radioOf s u.radio) || nodeRadio q != u.radio then s
    else if !u.crcOk then upCounted u s
    else if !q.conn || q.anchor != some k || q.lostSync then s
    else
      let s := contact u.node (upCounted u s)
      let acked := u.nesn != q.sn
      let s := if acked then modNodeA u.node (fun q => { q with sn := !q.sn }) s else s
      let s := if acked then (match q.down with | some d => downAcked u.node d s | none => s) else s
      -- a new frame of the node has the sequence number expected of it
      let fresh := u.sn == q.nesn
      let s := if !fresh then s
        else if u.kind == 1 then
          if 256 ≤ s.air.uplink.length then modRadio u.radio (fun r => { r with upRefused := r.upRefused + 1 }) s
          else
            let was := s.air.uplink.isEmpty
            let s := { s with air := { s.air with uplink := s.air.uplink ++ [(u.node, s.now, u.body.take 32)] } }
            let s := modNodeA u.node (fun q => { q with nesn := !q.nesn }) s
            if was then emit 0x0F03 (leN 2 s.air.uplink.length) s else s
        else modNodeA u.node (fun q => { q with nesn := !q.nesn }) s
      radioDrained u.radio (ackSend u.node u.event s)
  | _, _ => s

def execUpRx (t : Nat) (u : AirUp) (s : State) : Res := airs t s (upRx u)

/-- A RESYNC in slot 2: a contact, answered with ACK; LOST_SYNC is cleared (R354). -/
def resyncRx (u : AirUp) (s : State) : State :=
  match kget? s.air.nodes u.node with
  | some q =>
    if !radioOn (radioOf s u.radio) || nodeRadio q != u.radio then s
    else if !u.crcOk then upCounted u s
    else if !q.conn then s
    else ackSend u.node u.event (contact u.node (upCounted u s))
  | none => s

def execResyncRx (t : Nat) (u : AirUp) (s : State) : Res := airs t s (resyncRx u)

/-- The first superframe at least 2 × BI on whose anchor is a node's (R352). -/
def firstAnchor (s : State) (q : ANode) : Nat :=
  let bi := max 1 (airBi s)
  let k0 := (s.now + 2 * bi - airPhase s + bi - 1) / bi
  let m := 2 ^ nodePeriod q
  k0 + (field q.cfg 15 1 + m - sfNum k0 % m) % m

/-- A JOIN_REQ: answered where its EUI is recorded on this radio and its node is not connected (R352). From a connected
node it is a contact and gets no answer (R353). -/
def joinRx (n : Nat) (eui : U64) (s : State) : State :=
  let r := radioOf s n
  match s.air.nodes.find? (fun e => field e.2.cfg 4 8 == eui.toNat && nodeRadio e.2 == n) with
  | none => s
  | some (node, q) =>
    if !radioOn r then s
    else
      let s := modRadio n (fun r => { r with rxOk := r.rxOk + 1 }) s
      if q.conn then contact node s
      else if r.st != 1 then s
      else
        let first := firstAnchor s q
        let body := beN 8 eui.toNat ++ beN 2 (field q.cfg 12 2) ++ beN 1 (nodePeriod q) ++ beN 1 (field q.cfg 15 1)
          ++ beN 1 (nodeBand q) ++ beN 1 0 ++ beN 2 q.chmap ++ beN 2 (field q.cfg 16 2) ++ beN 4 (sfNum first)
        let (d, s) := airSend n r.band (beaconCh r r.band) 1 false false "JOIN_RSP" (airPdu s 7 0 node body) s
        match d with
        | .sent => nodeEvt node 1 (modNodeA node (fun q => { q with
            conn := true, firstSf := first, sn := false, nesn := false, missed := 0, anchor := none, lostSync := false
            scanning := false, lastContact := s.now }) s)
        | _ => s

def execJoinReqRx (t radio : Nat) (eui : U64) (s : State) : Res := airs t s (joinRx radio eui)

/-- No contact for SUP_MS: the connection is lost (R353, R359). -/
def supervision (n : Nat) (s : State) : State :=
  match kget? s.air.nodes n with
  | some q =>
    if q.conn && decide (q.lastContact + 1000000 * field q.cfg 16 2 ≤ s.now) then
      (if q.release then nodeErase n s else radioDrained (nodeRadio q) (nodeOff n 4 s))
    else s
  | none => s

def execSupervisionTimeout (t node : Nat) (s : State) : Res := happens t s (supervision node)

end Sys2Proof.Machine
end

