-- ==== Sys2Proof/Machine/Pcie.lean ====
section
/-! DEFINITION. The PCI Express endpoint (R53, R54): what its configuration space reports, and BAR2 with the MSI-X table and
the pending bits. -/

namespace Sys2Proof.Machine

/-- What the configuration space reports (R53). Speeds are in units of 0.1 GT/s. -/
structure PcieConfig where
  vendor : U16
  device : U16
  classCode : BitVec 24
  functions : Nat
  msixVectors : Nat
  aer : Bool
  powerStates : List String
  maxPayload : Nat
  maxReadRequest : Nat
  addressBits : Nat
  speed : Nat
  width : Nat
  deriving DecidableEq, Repr

/-- The configuration space (R53): its constants, and the speed and width to which the link trained. (DESIGN CHOICE, log 7) -/
def pcieConfig (s : State) : PcieConfig :=
  { vendor := Config.vendorId, device := 0x6430, classCode := 0x048000, functions := 1, msixVectors := 32, aer := true
    powerStates := ["D0", "D3hot", "D3cold"], maxPayload := 512, maxReadRequest := 4096, addressBits := 64
    speed := if s.hif.pcieUp then s.hif.pcieSpeed else 0, width := if s.hif.pcieUp then s.hif.pcieWidth else 0 }

/-- A speed, in 0.1 GT/s, and a width that the endpoint trains to (R53). -/
def trains (speed width : Nat) : Bool := [160, 80, 50, 25].contains speed && [4, 2, 1].contains width

/-- An entry of the MSI-X table. -/
def msixEntry (s : State) (n : Nat) : MsixEntry := kgetD s.hif.msix n {}

/-- A 32-bit word of BAR2 (R54): the table of 32 entries of 16 bytes at 0x0000 (message address, upper address, data, vector
control with MASK in bit 0), the pending bits at 0x1000; 0 elsewhere. (PRESUMED, log 74) -/
def bar2Read (s : State) (o : Nat) : Nat :=
  if o < 0x200 then
    let e := msixEntry s (o / 16)
    match o % 16 / 4 with
    | 0 => e.addr.toNat % 2 ^ 32
    | 1 => e.addr.toNat / 2 ^ 32
    | 2 => e.data.toNat
    | _ => b2n e.masked
  else if o == 0x1000 then s.hif.msixPend
  else 0

/-- An entry of the MSI-X table changed; a vector whose mask ends while its message is pending sends it. (PRESUMED, log 74) -/
def msixSet (n : Nat) (e : MsixEntry) (s : State) : State :=
  let s := { s with hif := { s.hif with msix := kset s.hif.msix n e } }
  if !e.masked && bit s.hif.msixPend n then
    put (.msix n) { s with hif := { s.hif with msixPend := setBit s.hif.msixPend n false } }
  else s

/-- A 32-bit word of BAR2 written; the pending bits are read-only. (PRESUMED, log 74) -/
def bar2Write (o : Nat) (v : U32) (s : State) : State :=
  if o < 0x200 && o % 4 == 0 then
    let n := o / 16
    let e := msixEntry s n
    match o % 16 / 4 with
    | 0 => msixSet n { e with addr := (e.addr &&& 0xFFFFFFFF00000000#64) ||| ((v &&& 0xFFFFFFFC#32).setWidth 64) } s
    | 1 => msixSet n { e with addr := (e.addr &&& 0xFFFFFFFF#64) ||| ((v.setWidth 64) <<< 32) } s
    | 2 => msixSet n { e with data := v } s
    | _ => msixSet n { e with masked := v.getLsbD 0 } s
  else s

/-- The endpoint is reset by PCIE_PERST_N: its table and pending bits, and nothing else of the device (R377, R495). (PRESUMED, log 74) -/
def endpointReset (s : State) : State := { s with hif := { s.hif with msix := [], msixPend := 0 } }

end Sys2Proof.Machine
end

