-- ==== Sys2Proof/Machine/Ingest.lean ====
section
/-! DEFINITION. Ingest: video with cut-through and rollback (R110 to R116), audio and taps (R117 to R120), sACN (R121 to
R124), host planes (R125 to R127), and the INGEST commands (R128 to R130). -/

namespace Sys2Proof.Machine

/-- A source of a kind named by the active wall (R125, R128). -/
def sourceInWall (s : State) (kind id : Nat) : Bool :=
  match s.wall.active with
  | some w => w.srcs.any fun r => r.kind == kind && r.source == id
  | none => false

/-- A video stream changed. -/
def modVideo (id : Nat) (f : Video → Video) (s : State) : State :=
  { s with ing := { s.ing with videos := kmod? s.ing.videos id f } }
/-- An audio stream changed. -/
def modAudio (id : Nat) (f : Audio → Audio) (s : State) : State :=
  { s with ing := { s.ing with audios := kmod? s.ing.audios id f } }
/-- A pixel map changed. -/
def modMap (id : Nat) (f : PMap → PMap) (s : State) : State :=
  { s with ing := { s.ing with maps := kmod? s.ing.maps id f } }
/-- A host plane changed. -/
def modPlane (id : Nat) (f : HPlane → HPlane) (s : State) : State :=
  { s with ing := { s.ing with planes := kmod? s.ing.planes id f } }

/-- SOURCE_STATE emitted (R130). -/
def sourceEvent (kind st id : Nat) (s : State) : State := emit 0x0501 (leN 1 kind ++ leN 1 st ++ leN 2 id) s

/-- A packet that no stream takes, counted for its port (R107). -/
def unmatched (port : Nat) (s : State) : State :=
  { s with ing := { s.ing with ports := kmod s.ing.ports port {} fun c => { c with unmatched := c.unmatched + 1 } } }

/-- A packet accepted on a port, counted for it (R129). -/
def portPacket (port bytes : Nat) (s : State) : State :=
  { s with ing := { s.ing with ports := kmod s.ing.ports port {} fun c =>
      { c with packets := c.packets + 1, bytes := c.bytes + BitVec.ofNat 64 bytes } } }

/-- An IGMP report or leave for a multicast group of a port (R107). (PRESUMED, log 26) -/
def igmp (port : Nat) (group : U32) (join : Bool) (s : State) : State :=
  if group.toNat / 2 ^ 28 == 14 then queueTx port { kind := .igmp group join } s else s

/-- A video or an audio stream is defined for a group on a port. -/
def groupUsed (s : State) (port : Nat) (group : U32) : Bool :=
  s.ing.videos.any (fun e => e.2.port == port && e.2.group == group)
    || s.ing.audios.any fun e => e.2.port == port && e.2.group == group

/-- A group that no stream of the port has any more is left (R107). (PRESUMED, log 26) -/
def igmpLeave (port : Nat) (group : U32) (s : State) : State :=
  if groupUsed s port group then s else igmp port group false s

/-- An ingest object other than the one removed still receives on a port. -/
def portFed (s : State) (port : Nat) : Bool :=
  s.ing.videos.any (fun e => e.2.port == port) || s.ing.audios.any (fun e => e.2.port == port)
    || s.ing.maps.any fun e => e.2.port == port || e.2.port == 0xFF

/-- The last source of a port removed: what waits in its ingress bobbin is flushed (R109). (DESIGN CHOICE, log 75) -/
def portFlush (port : Nat) (s : State) : State :=
  if portFed s port || 63 < port then s else bobFlush (ingressBob port) s

/-- Words of a frame that fail their parity as its port's ingress bobbin delivers them (R26). -/
def ingressPoison (port n : Nat) (s : State) : State := bobPoisoned (ingressBob port) n s

/-! ## Video (R110 to R116) -/

/-- Where a video source's pixels are written: the direct path of Draught, or its back copy (R112, R116). -/
def videoKey (s : State) (id : Nat) (v : Video) (px : Nat) : Nat :=
  if s.place.profile == 3 then wordKey 3 (planeObj 0 id) 0 px else wordKey 1 (planeObj 0 id) (1 - v.front) px

/-- Pixels `a` to `b − 1` of a frame written with VALID = 0 (R113). -/
def writeInvalid (id : Nat) (v : Video) (a b : Nat) (s : State) : State :=
  forEach (List.range (b - a)) s fun i s => storeWrite (videoKey s id v (a + i)) 0 s

/-- A code triple converted and written as a ply (R111). -/
def writePixel (id : Nat) (v : Video) (px : Nat) (poison : Bool) (c : Nat × Nat × Nat) (s : State) : State :=
  let (r, g, b) := videoRgb v.sampling v.depth v.bt2020 v.full c
  let (s0, s) := jitter (videoStrand v.pq v.nits r) s
  let (s1, s) := jitter (videoStrand v.pq v.nits g) s
  let (s2, s) := jitter (videoStrand v.pq v.nits b) s
  storeWrite (videoKey s id v px) (slotWord { s0, s1, s2 } true poison) s

/-- The CRC-32 of a frame's plies as ingest computes it (R215). (DESIGN CHOICE, log 25) -/
def frameCrc (s : State) (id copy px : Nat) : U32 :=
  crc32 ((List.range px).flatMap fun i => leN 8 ((wordAt s (wordKey 1 (planeObj 0 id) copy i)).data.toNat % 2 ^ 54))

/-- The frame time of an RTP timestamp of the 90 kHz clock, unwrapped against TIME (R284). (PRESUMED, log 26) -/
def rtpTime (ts : U32) (now : Nat) : Nat :=
  let cur := now * 9 / 100000
  let near := cur + 2 ^ 31
  let k := (near - ts.toNat) / 2 ^ 32
  (ts.toNat + k * 2 ^ 32) * 100000 / 9

/-- The codes of a packet's pixels: in 4:2:2, both pixels of a group take the Cb and the Cr of its first (R111). -/
def groupCodes (sampling offset : Nat) (l : List (Nat × Nat × Nat)) : List (Nat × Nat × Nat) :=
  (List.range l.length).map fun i =>
    let c := l.getD i (0, 0, 0)
    if sampling == 0 && (offset + i) % 2 == 1 && 0 < i then (c.1, (l.getD (i - 1) (0, 0, 0)).2) else c

/-- A stream frame completes (R112, R113): pixels no packet reached are invalid, the back copy becomes the front copy,
a change of picture wakes Calm (R217) and breaks stillness (R215), and frame lock takes its time (R284). -/
def videoComplete (id : Nat) (s : State) : State :=
  match kget? s.ing.videos id with
  | none => s
  | some v =>
    let px := v.w * v.h
    let missing := px - v.next
    let s := writeInvalid id v v.next px s
    let gaps := v.gaps + missing
    let crc := if s.place.profile == 3 then v.frontCrc else frameCrc s id (1 - v.front) px
    let changed := crc != v.frontCrc || !v.hasFront
    let tv := rtpTime (v.ts.getD 0) s.now
    let s := modVideo id (fun v => { v with
      front := 1 - v.front, hasFront := true, frontCrc := crc, opened := false, next := 0, gaps := 0, woven := v.read
      verdict := none, prevTs := v.ts
      read := false
      cnt := { v.cnt with
        frames := v.cnt.frames + 1
        gapPx := v.cnt.gapPx + BitVec.ofNat 32 missing
        incomplete := v.cnt.incomplete + BitVec.ofNat 32 (b2n (decide (0 < gaps)))
        skipped := v.cnt.skipped + BitVec.ofNat 32 (b2n (v.hasFront && !v.woven)) } }) s
    let s := lockWakes s.mode.pending.isSome (videoLock id tv s)
    if changed then calmWake 1 { s with mode := { s.mode with moved := true } } else s

/-- The stream a video packet belongs to (R107). -/
def findVideo (s : State) (p : VideoPkt) : Option (Nat × Video) :=
  s.ing.videos.find? fun e => e.2.port == p.port && e.2.group == p.group && e.2.udp == p.udpPort
    && (e.2.filterIp == 0 || e.2.filterIp == p.srcIp)

/-- A video packet received (R111 to R113, R116, R130). On the direct path a weave reads the frame as it comes. -/
def videoPacket (p : VideoPkt) (s : State) : State :=
  let s := ingressPoison p.port p.poison s
  match findVideo s p with
  | none => unmatched p.port s
  | some (id, _) =>
    let s := portPacket p.port p.bytes s
    let v0 := (kget? s.ing.videos id)
    let later := match v0 with
      | some v => v.opened && (match v.ts with | some t => decide (0 < signedN 32 (p.ts - t).toNat) | none => false)
      | none => false
    let s := if later then videoComplete id s else s
    match kget? s.ing.videos id with
    | none => s
    | some v =>
      let stale := match (if v.opened then v.ts else v.prevTs) with
        | some t => decide (signedN 32 (p.ts - t).toNat < 0) || (!v.opened && p.ts == t)
        | none => false
      let gap := match v.seq with | some q => p.seq != q + 1 | none => false
      let s := modVideo id (fun v => { v with
        seq := some p.seq, lastAt := s.now
        cnt := { v.cnt with
          packets := v.cnt.packets + 1, bytes := v.cnt.bytes + BitVec.ofNat 64 p.bytes
          seqGaps := v.cnt.seqGaps + BitVec.ofNat 32 (b2n gap)
          poison := v.cnt.poison + BitVec.ofNat 32 p.poison } }) s
      let s := if v.lost then sourceEvent 0 1 id (modVideo id (fun v => { v with lost := false }) s) else s
      if stale then s
      else
        let px := v.w * v.h
        let at_ := min (p.row * v.w + p.offset) px
        let next := if v.opened then v.next else 0
        let s := writeInvalid id v next at_ s
        let codes := (groupCodes v.sampling p.offset p.pixels).take (px - at_)
        let s := forEach ((List.range codes.length).zip codes) s fun q s => writePixel id v (at_ + q.1) (p.poison != 0) q.2 s
        let direct := s.place.profile == 3 && s.mode.weaving && sourceInWall s 0 id
        let s := modVideo id (fun v => { v with
          opened := true, ts := some p.ts, next := max next (at_ + codes.length), gaps := (if v.opened then v.gaps else 0) + (at_ - next)
          read := v.read || direct
          cnt := { v.cnt with gapPx := v.cnt.gapPx + BitVec.ofNat 32 (at_ - next) }
          verdict := if p.cut then some (at_, codes.length, p.marker) else none
          verdictLen := p.bytes, verdictPoison := p.poison != 0 }) s
        let s := releaseDirect id v.w at_ codes.length p.ts s
        if p.marker && !p.cut then videoComplete id s else s

/-- A packet may be consumed by cut-through: its stream has a threshold and the frame reaches it (R28, R108). (DESIGN CHOICE, log 25) -/
def cutThrough (s : State) (p : VideoPkt) : Bool :=
  p.cut && (match findVideo s p with
    | some (_, v) => v.thresh != 0 && decide (8 * v.thresh ≤ p.bytes)
    | none => false)

/-- A video packet received. One consumed by cut-through is counted by its verdict, and one that the MAC drops at its start is
not consumed (R109, R268). (DESIGN CHOICE, log 25) -/
def videoRx (p : VideoPkt) (s : State) : State :=
  if cutThrough s p && (portOf s p.port).role == 1 && !(portOf s p.port).retired && (rxDrop s p.port true).isNone
      && decide (p.bytes ≤ 9216) then videoPacket p s
  else rxGate 1 p.port p.bytes (castOfIp p.group) none false true s (videoPacket { p with cut := false })

def execVideoPacket (t : Nat) (p : VideoPkt) (s : State) : Res := occurs t s (videoRx p)

/-- The woven pixels of the current epoch that a span of a video source supplies on the direct path, set VALID = 0
(R114, R116). -/
def rollbackWoven (id first count : Nat) (v : Video) (s : State) : State :=
  match s.wall.active with
  | none => s
  | some w =>
    forEach w.tiles s fun r s =>
      forEach (List.range (tilePx r)) s fun i s =>
        let (x, y) := canvasXY r i
        let hit := w.srcs.any fun q => q.kind == 0 && q.source == id && covers q x y &&
          (let (sx, sy) := srcXY q x y
           decide (first ≤ sy * v.w + sx) && decide (sy * v.w + sx < first + count))
        if hit then invalidate (wovenKey w r (epochNow s) i) s else s

/-- The MAC's verdict on the frame last consumed by cut-through on a port. Where the FCS failed, the span of the packet is rolled
back, unless its words were poisoned (R114). (DESIGN CHOICE, log 25) -/
def fcsVerdict (port : Nat) (ok : Bool) (s : State) : State :=
  match s.ing.videos.find? (fun e => e.2.port == port && e.2.verdict.isSome) with
  | none => s
  | some (id, v) =>
    match v.verdict with
    | none => s
    | some (first, count, marker) =>
      let s' := modVideo id (fun v => { v with verdict := none }) s
      if ok then
        let s := countRx port v.verdictLen (castOfIp v.group) none false false s'
        closeSkeins (if marker then videoComplete id s else s)
      else
        let s := rxError port 25 s'
        if v.verdictPoison then closeSkeins s
        else
          let s := forEach (List.range count) s fun i s => invalidate (videoKey s id v (first + i)) s
          let s := if s.place.profile == 3 then rollbackWoven id first count v s else s
          closeSkeins (modVideo id (fun v => { v with
            cnt := { v.cnt with rollbacks := v.cnt.rollbacks + 1
                                rollbackPx := v.cnt.rollbackPx + BitVec.ofNat 32 count } }) s)

def execFcsVerdict (t port : Nat) (ok : Bool) (s : State) : Res := occurs t s (fcsVerdict port ok)

/-- INGEST_VIDEO_DEFINE (R110, R128). (DESIGN CHOICE, log 25; DESIGN CHOICE, log 65) -/
def videoDefine (c : Cmd) (s : State) : State :=
  let p := c.payload
  let id := field p 0 2
  let fmt := field p 15 1
  let nits := field p 20 2
  let th := field p 22 2
  let w := field p 16 2
  let h := field p 18 2
  let depth := field p 14 1
  let pq := fmt / 16 % 4 == 1
  if 1023 < id || 63 < field p 2 1 || 2 < field p 3 1 || !(depth == 8 || depth == 10 || depth == 12)
      || 1 < fmt % 16 || 1 < fmt / 16 % 4 || w == 0 || 8192 < w || h == 0 || 8192 < h || 33554432 < w * h
      || (nits != 0 && (nits < 80 || 10000 < nits))
      || (th != 0 && th != 0xFFFF && (th < 16 || 1024 < th))
      || (!khas s.ing.videos id && 32 ≤ s.ing.videos.length) then done c stRANGE s
  else if sourceInWall s 0 id || isChainPort s (field p 2 1) then done c stSTATE s
  else
    let v : Video := {
      port := field p 2 1, sampling := field p 3 1, group := BitVec.ofNat 32 (beNat (bytesAt p 4 4)),
      filterIp := BitVec.ofNat 32 (beNat (bytesAt p 8 4)), udp := field p 12 2, depth, bt2020 := fmt % 16 == 1, pq,
      full := bit fmt 6, bpm := bit fmt 7, w, h, nits := if nits == 0 then 203 else nits,
      thresh := if th == 0xFFFF then 32 else th }
    let old := kget? s.ing.videos id
    let s := { s with ing := { s.ing with videos := kset s.ing.videos id v } }
    let s := match old with | some o => portFlush o.port (igmpLeave o.port o.group s) | none => s
    done c stOK (igmp v.port v.group true s)

def execIngestVideoDefine (t : Nat) (r : CmdRef) (s : State) : Res := verb 0x0501 t r s videoDefine

/-! ## Audio and taps (R117 to R120) -/

/-- The channels of a stream deliver zero (R118, R128). -/
def chansSilent (a : Audio) (s : State) : State :=
  { s with ing := { s.ing with chans := kfilter s.ing.chans fun n _ => !(decide (a.first ≤ n) && decide (n < a.first + a.channels)) } }

/-- INGEST_AUDIO_DEFINE (R117, R128). (DESIGN CHOICE, log 25; DESIGN CHOICE, log 65) -/
def audioDefine (c : Cmd) (s : State) : State :=
  let p := c.payload
  let id := field p 0 1
  let n := field p 2 1
  let first := field p 3 1
  let off := field p 16 2
  let overlap := s.ing.audios.any fun e => e.1 != id && decide (e.2.first < first + n) && decide (first < e.2.first + e.2.channels)
  if 15 < id || 63 < field p 1 1 || n == 0 || 64 < first + n || 1 < field p 14 1 || (field p 14 1 == 0 && 8 < n)
      || (off != 0 && (off < 125 || 10000 < off)) || overlap then done c stRANGE s
  else if isChainPort s (field p 1 1) then done c stSTATE s
  else
    let a : Audio := {
      port := field p 1 1, channels := n, first, group := BitVec.ofNat 32 (beNat (bytesAt p 4 4)),
      filterIp := BitVec.ofNat 32 (beNat (bytesAt p 8 4)), udp := field p 12 2, ptime := field p 14 1,
      offsetUs := if off == 0 then 1000 else off }
    let old := kget? s.ing.audios id
    let s := { s with ing := { s.ing with audios := kset s.ing.audios id a } }
    let s := match old with
      | some o => portFlush o.port (igmpLeave o.port o.group (chansSilent o s))
      | none => s
    done c stOK (igmp a.port a.group true s)

def execIngestAudioDefine (t : Nat) (r : CmdRef) (s : State) : Res := verb 0x0502 t r s audioDefine

/-- The PTP time of sample `k` of the media clock (R283). -/
def sampleTime (k : Nat) : Nat := k * 1000000 / 48

/-- An audio packet received (R107, R118, R130): each packet that its number shows missing counts in SEQ_GAPS. -/
def audioPacket (p : AudioPkt) (s : State) : State :=
  let s := ingressPoison p.port p.poison s
  match s.ing.audios.find? (fun e => e.2.port == p.port && e.2.group == p.group && e.2.udp == p.udpPort
      && (e.2.filterIp == 0 || e.2.filterIp == p.srcIp)) with
  | none => unmatched p.port s
  | some (id, a) =>
    let s := portPacket p.port p.bytes s
    let ahead := match a.seq with | some q => (p.seq - q - 1).toNat | none => 0
    let missing := if ahead < 32768 then ahead else 0
    let late := decide (sampleTime p.rtpTime + 1000 * a.offsetUs ≤ s.now)
    let q := if late then a.queue
      else ((List.range p.samples.length).zip p.samples).foldl
        (fun q e => kset q (p.rtpTime + e.1) (e.2, p.poison != 0)) a.queue
    let s := modAudio id (fun a => { a with
      seq := if ahead < 32768 then some p.seq else a.seq, lastAt := s.now, queue := q
      cnt := { a.cnt with
        packets := a.cnt.packets + BitVec.ofNat 64 (b2n (!late))
        bytes := a.cnt.bytes + BitVec.ofNat 64 (if late then 0 else p.bytes)
        seqGaps := a.cnt.seqGaps + BitVec.ofNat 32 missing, late := a.cnt.late + BitVec.ofNat 32 (b2n late)
        poison := a.cnt.poison + BitVec.ofNat 32 p.poison } }) s
    if a.lost then sourceEvent 1 1 id (modAudio id (fun a => { a with lost := false }) s) else s

def execAudioPacket (t : Nat) (p : AudioPkt) (s : State) : Res :=
  occurs t s fun s => rxGate 1 p.port p.bytes (castOfIp p.group) none false false s (audioPacket p)

/-- log2(e) in units of 2^-96. -/
def log2e : Nat := 114302077158074026402637675936

/-- 1 − exp(−1 / (48 × t)) and exp(−1 / (48 × t)) in units of 2^-96 (R119). -/
def decay (ms : Nat) : Nat :=
  let q := exp2Fix (-((log2e / (48 * max ms 1) : Nat) : Int))
  (q.num * (2 ^ 96 : Nat) / (q.den : Int)).toNat

/-- One sample of an ENVELOPE tap (R119), e in units of 2^-96. -/
def envelope (t : Tap) (sample : Q) : Tap :=
  let a := (sample.num.natAbs * 2 ^ 96) / sample.den
  let e := if t.acc < a then t.acc + (a - t.acc) * (2 ^ 96 - decay t.t1) / 2 ^ 96 else t.acc * decay t.t2 / 2 ^ 96
  { t with acc := e, value := levelTw 8192 e (2 ^ 96) }

/-- The zero samples after which a tap's filter has nothing left of what came before: 1 s. (DESIGN CHOICE, log 22) -/
def filterRests : Nat := 48000

/-- One sample of a BAND tap whose filter gives `y` (R119): the mean square follows y² with time constant T1. -/
def meanSquare (t : Tap) (y : Nat) : Tap :=
  let k := 2 ^ 96 - decay t.t1
  let m := if t.acc < y then t.acc + (y - t.acc) * k / 2 ^ 96 else t.acc - (t.acc - y) * k / 2 ^ 96
  { t with acc := m, value := levelTw 4096 m (2 ^ 96) }

/-- One sample of a tap (R119, R120), `bad` the channels whose sample is poisoned. What a BAND tap's filter answers is free: the
manual bounds the filter, it does not give it; one whose input has rested gives 0. (DESIGN CHOICE, log 22) -/
def tapSample (bad : List Nat) (id : Nat) (t : Tap) (s : State) : State :=
  let ch := fun n => kgetD s.ing.chans n 0
  let x := if t.chB == 0xFF then qf (ch t.chA) (2 ^ 23) else qf (ch t.chA + ch t.chB) (2 ^ 24)
  let t := { t with poison := t.poison || bad.contains t.chA || bad.contains t.chB
                    silent := if x.num = 0 then min filterRests (t.silent + 1) else 0 }
  let t' := if t.kind == 0 then envelope t x
    else meanSquare t (if t.silent == filterRests then 0 else Config.bandSquare id s.now % 2 ^ 97)
  { s with ing := { s.ing with taps := kset s.ing.taps id t' } }

/-- The sample of the media clock due at this instant is delivered on every channel, and every tap takes it (R118,
R119). -/
def audioSampleDue (s : State) : State :=
  let due (a : Audio) : List Int × Bool :=
    if a.lost then ([], false) else (kget? a.queue ((s.now - 1000 * a.offsetUs) * 48 / 1000000)).getD ([], false)
  let bad := s.ing.audios.flatMap fun e => if (due e.2).2 then (List.range e.2.channels).map (e.2.first + ·) else []
  let s := forEach s.ing.audios s fun e s =>
    let a := e.2
    let k := (s.now - 1000 * a.offsetUs) * 48 / 1000000
    let smp := (due a).1
    let s := modAudio e.1 (fun a => { a with queue := kfilter a.queue fun q _ => decide (k < q) }) s
    forEach (List.range a.channels) s fun i s =>
      { s with ing := { s.ing with chans := kset s.ing.chans (a.first + i) (smp.getD i 0) } }
  forEach s.ing.taps s fun e s => tapSample bad e.1 e.2 s

def execAudioSampleDue (t : Nat) (s : State) : Res := occurs t s audioSampleDue

/-- INGEST_TAP_DEFINE (R119, R120, R128). -/
def tapDefine (c : Cmd) (s : State) : State :=
  let p := c.payload
  let id := field p 0 1
  let k := field p 1 1
  let t1 := field p 6 2
  let t2 := field p 8 2
  if 31 < id || !(k == 0 || k == 1 || k == 0xFF) then done c stRANGE s
  else if k == 0xFF then done c stOK { s with ing := { s.ing with taps := kerase s.ing.taps id } }
  else if 63 < field p 2 1 || (63 < field p 3 1 && field p 3 1 != 0xFF) || 9 < field p 4 1
      || 1000 < t1 || t1 < (if k == 0 then 1 else 5) || (k == 0 && (t2 == 0 || 10000 < t2)) then done c stRANGE s
  else
    let t : Tap := { kind := k, chA := field p 2 1, chB := field p 3 1, band := field p 4 1, t1, t2, silent := filterRests }
    done c stOK { s with ing := { s.ing with taps := kset s.ing.taps id t } }

def execIngestTapDefine (t : Nat) (r : CmdRef) (s : State) : Res := verb 0x0503 t r s tapDefine

/-- INGEST_TAP_READ (R128). -/
def execIngestTapRead (t : Nat) (r : CmdRef) (s : State) : Res :=
  verb 0x0509 t r s fun c s => reply c ((List.range 32).flatMap fun i =>
    match kget? s.ing.taps i with | some t => leN 4 (twos 32 t.value) | none => leN 4 0x80000000) s

/-! ## sACN (R121 to R124) -/

/-- The pixels a universe holds in a map, and the universes a map takes (R123). -/
def pxPerUniv (m : PMap) : Nat := if m.channels == 3 then 170 else 85
def mapUnivs (m : PMap) : Nat := (m.w * m.h + pxPerUniv m - 1) / pxPerUniv m

/-- A universe belongs to a map. -/
def mapHas (m : PMap) (u : Nat) : Bool := decide (m.firstUniv ≤ u) && decide (u < m.firstUniv + mapUnivs m)

/-- The maps that a universe belongs to, of those that receive it on one port, or with `scope` 0xFF on all. -/
def mapsOf (s : State) (n scope : Nat) : List (Nat × PMap) := s.ing.maps.filter fun e => mapHas e.2 n && e.2.port == scope

/-- A universe is the BASE of an output (R318). -/
def baseUsed (s : State) (n : Nat) : Bool := n != 0 && s.fix.outs.any fun e => e.2.d.base == n

/-- The scopes in which a universe received on a port is in use: that of the port, and that of all ports, to which the BASE of
an output belongs (R121, R123, R318). -/
def scopesOf (s : State) (n port : Nat) : List Nat :=
  [port, 0xFF].filter fun k => !(mapsOf s n k).isEmpty || (k == 0xFF && baseUsed s n)

/-- The universes in use by these maps and as the BASE of outputs, each once (R121). -/
def inputUnivs (maps : List (Nat × PMap)) (bases : List Nat) : Nat :=
  let spans := sortBy (fun (q : Nat × Nat) => q.1) ((maps.map fun e => (e.2.firstUniv, e.2.firstUniv + mapUnivs e.2))
    ++ (bases.filter (· != 0)).map fun u => (u, u + 1))
  (spans.foldl (fun (acc : Nat × Nat) q => (max acc.1 q.2, acc.2 + (q.2 - max acc.1 q.1))) (0, 0)).2

/-- The record of a universe in a scope. -/
def univOf (s : State) (n scope : Nat) : Univ := kgetD s.ing.univs (univKey n scope) {}

/-- The record of a universe in a scope changed. -/
def modUniv (n scope : Nat) (f : Univ → Univ) (s : State) : State :=
  { s with ing := { s.ing with univs := kmod s.ing.univs (univKey n scope) {} f } }

/-- The counters of every map that a universe belongs to changed. -/
def countUniv (n scope : Nat) (f : IngCnt → IngCnt) (s : State) : State :=
  forEach (mapsOf s n scope) s fun e s => modMap e.1 (fun m => { m with cnt := f m.cnt }) s

/-- The source in force of a universe: the highest priority, then the lowest CID (R122). -/
def univBest (u : Univ) : Option USrc :=
  u.srcs.foldl (fun acc q => match acc with
    | none => some q
    | some b => if b.prio < q.prio || (b.prio == q.prio && q.cid.toNat < b.cid.toNat) then some q else some b) none

/-- Data of a map's universe becomes pending, or waits for the map's synchronization packet (R124). -/
def univTake (sync : Nat) (d : UData) (k : MUniv) : MUniv :=
  if sync == 0 then { k with pend := some d } else { k with wait := some d }

/-- Data of a universe is taken by every map and, as a BASE, by outputs of its scope (R124, R318); data that differ from those
held wake Calm (R217). -/
def univPend (n scope : Nat) (d : UData) (s : State) : State :=
  let maps := mapsOf s n scope
  let base := scope == 0xFF && baseUsed s n
  let changed := maps.any (fun e => (kgetD e.2.univs (n - e.2.firstUniv) {}).held != some d)
    || (base && (univOf s n scope).held != some d.slots)
  let s := forEach maps s fun e s =>
    modMap e.1 (fun m => { m with univs := kmod m.univs (n - m.firstUniv) {} (univTake m.sync d) }) s
  let s := if base then modUniv n scope (fun u => { u with pend := some d }) s else s
  if changed then calmWake 3 s else s

/-- The maps of a universe are lost once it has no source left, or receiving again (R122, R130). -/
def univMapState (n scope : Nat) (s : State) : State :=
  forEach (mapsOf s n scope) s fun e s =>
    let lost := (List.range (mapUnivs e.2)).any fun i => (univOf s (e.2.firstUniv + i) scope).srcs.isEmpty
    match kget? s.ing.maps e.1 with
    | some m => if m.lost == lost then s
        else sourceEvent 2 (if lost then 0 else 1) e.1 (modMap e.1 (fun m => { m with lost }) s)
    | none => s

/-- The source in force of a universe may have changed: the next in order takes over with its last data (R122). -/
def univSwitch (n scope : Nat) (was : Option USrc) (s : State) : State :=
  match was, univBest (univOf s n scope) with
  | some a, some b => if a.cid == b.cid then s else univPend n scope b.data s
  | _, _ => s

/-- A source leaves a universe (R122). -/
def univLeave (n scope : Nat) (cid : BitVec 128) (s : State) : State :=
  let was := univBest (univOf s n scope)
  univMapState n scope
    (univSwitch n scope was (modUniv n scope (fun u => { u with srcs := u.srcs.filter fun q => q.cid != cid }) s))

/-- What becomes of an sACN data packet in a scope: discarded and counted late, from a fifth source, or accepted (R121, R122). -/
inductive SacnFate where
  | late | fifth | taken
  deriving DecidableEq, Repr

/-- The data packets that a universe accepted in the last second. -/
def univWindow (s : State) (u : Univ) : List Nat := u.window.filter fun a => decide (s.now < a + 1000000000)

/-- The fate of a data packet in a scope. -/
def sacnFate (p : SacnPkt) (s : State) (scope : Nat) : SacnFate :=
  let u := univOf s p.univ scope
  match u.srcs.find? fun q => q.cid == p.cid with
  | some q => if (q.seq - p.seq).toNat ≤ 20 || 1000 ≤ (univWindow s u).length then .late else .taken
  | none => if 1000 ≤ (univWindow s u).length then .late else if 4 ≤ u.srcs.length then .fifth else .taken

/-- A data packet handled in a scope (R121, R122, R124). -/
def sacnScope (p : SacnPkt) (scope : Nat) (s : State) : State :=
  let u := univOf s p.univ scope
  match sacnFate p s scope with
  | .late => countUniv p.univ scope (fun k => { k with late := k.late + 1 }) s
  | .fifth => s
  | .taken =>
    let gap := match u.srcs.find? fun q => q.cid == p.cid with | some q => p.seq != q.seq + 1 | none => false
    let s := countUniv p.univ scope (fun k => { k with
      packets := k.packets + 1, bytes := k.bytes + BitVec.ofNat 64 p.bytes
      seqGaps := k.seqGaps + BitVec.ofNat 32 (b2n gap), poison := k.poison + BitVec.ofNat 32 p.poison }) s
    let s := modUniv p.univ scope (fun u => { u with window := univWindow s u ++ [s.now] }) s
    if p.terminated then univLeave p.univ scope p.cid s
    else
      let src : USrc := { cid := p.cid, prio := p.prio, seq := p.seq, lastAt := s.now
                          data := { slots := p.data, poison := p.poison != 0 } }
      let was := univBest u
      let s := modUniv p.univ scope (fun u => { u with srcs := u.srcs.filter (fun q => q.cid != p.cid) ++ [src] }) s
      let s := match univBest (univOf s p.univ scope) with
        | some b => if b.cid == p.cid then univPend p.univ scope b.data s else univSwitch p.univ scope was s
        | none => s
      univMapState p.univ scope s

/-- The UDP port of E1.31 and the group of a universe; a unicast address also receives it (R121). (PRESUMED, log 26) -/
def sacnAddressed (dst : U32) (udp univ : Nat) : Bool :=
  udp == 5568 && (dst.toNat / 2 ^ 28 != 14 || dst.toNat == 0xEFFF0000 + univ)

/-- An sACN data packet received (R107, R121, R122, R124). -/
def sacnData (p : SacnPkt) (s : State) : State :=
  let s := ingressPoison p.port p.poison s
  let scopes := scopesOf s p.univ p.port
  if !sacnAddressed p.dst p.udpPort p.univ || p.startCode != 0 || p.discovery || p.preview
      || scopes.all (fun k => sacnFate p s k == .fifth) then unmatched p.port s
  else forEach scopes (portPacket p.port p.bytes s) fun k s => sacnScope p k s

def execSacnDataPacket (t : Nat) (p : SacnPkt) (s : State) : Res :=
  occurs t s fun s => rxGate 1 p.port p.bytes (castOfIp p.dst) none false false s (sacnData p)

/-- The length of the frame of an E1.31 synchronization packet. -/
def syncFrameLen : Nat := udpLen 49

/-- A synchronization packet: the waiting data of every universe of a map synchronized by it becomes pending (R124). -/
def sacnSync (port : Nat) (p : SyncPkt) (s : State) : State :=
  let hit := s.ing.maps.filter fun e => e.2.sync == p.univ && (e.2.port == 0xFF || e.2.port == port) && p.univ != 0
  if hit.isEmpty || !sacnAddressed p.dst p.udpPort p.univ then unmatched port s
  else forEach hit (portPacket port syncFrameLen s) fun e s => modMap e.1 (fun m => { m with
    univs := kmap m.univs fun _ k => match k.wait with | some d => { k with wait := none, pend := some d } | none => k }) s

def execSacnSyncPacket (t port : Nat) (p : SyncPkt) (s : State) : Res :=
  occurs t s fun s => rxGate 1 port syncFrameLen (castOfIp p.dst) none false false s (sacnSync port p)

/-- A source silent for 2.5 s leaves its universe, in each scope that has it (R122). -/
def sacnTimeout (n : Nat) (cid : BitVec 128) (s : State) : State :=
  forEach (List.range 256) s fun k s => match (univOf s n k).srcs.find? (fun q => q.cid == cid) with
    | some q => if q.lastAt + 2500000000 ≤ s.now then univLeave n k cid s else s
    | none => s

def execSacnSourceTimeout (t univ : Nat) (cid : BitVec 128) (s : State) : Res := occurs t s (sacnTimeout univ cid)

/-- One pixel of a map from its universes' applied values: its codes, or none where its universe was never received, and whether
they are poisoned (R123, R124). -/
def mapPixel (m : PMap) (i : Nat) : Option (Nat × Nat × Nat × Bool) :=
  let y := i / max m.w 1
  let x := i % max m.w 1
  let k := if m.serpentine && y % 2 == 1 then y * m.w + (m.w - 1 - x) else i
  let o := k % pxPerUniv m * m.channels
  (kgetD m.univs (k / pxPerUniv m) {}).held.map fun d =>
    let b := d.slots
    if m.channels == 3 then ((byteAt b o).toNat, (byteAt b (o + 1)).toNat, (byteAt b (o + 2)).toNat, d.poison)
    else (beNat (bytesAt b o 2), beNat (bytesAt b (o + 2) 2), beNat (bytesAt b (o + 4) 2), d.poison)

/-- A channel of a map: an 8-bit code exactly, a 16-bit code to within ±1 (R123). -/
def mapStrand (m : PMap) (c : Nat) (s : State) : Nat × State :=
  if m.channels == 3 then (channelStrand m.transfer m.gamma 8 c, s)
  else jitter (channelStrand m.transfer m.gamma 16 c) s

/-- A map's back copy written from its universes, and swapped to the front (R123, R124). -/
def mapApply (id : Nat) (m : PMap) (s : State) : State :=
  let s := forEach (List.range (m.w * m.h)) s fun i s =>
    let key := wordKey 1 (planeObj 2 id) (1 - m.front) i
    match mapPixel m i with
    | some (a, b, c, bad) =>
      let (s0, s) := mapStrand m a s
      let (s1, s) := mapStrand m b s
      let (s2, s) := mapStrand m c s
      storeWrite key (slotWord { s0, s1, s2 } true bad) s
    | none => storeWrite key 0 s
  modMap id (fun m => { m with front := 1 - m.front, hasFront := true, cnt := { m.cnt with frames := m.cnt.frames + 1 } }) s

/-- The pending data of a map's universes applied. -/
def univsPut (m : PMap) : PMap :=
  { m with univs := kmap m.univs fun _ k => if k.pend.isSome then { k with held := k.pend, pend := none } else k }

/-- At the start of each epoch's weave, all pending universes of a map are applied together (R124); changed data break stillness
(R215). -/
def univsApply (s : State) : State :=
  let due := s.ing.maps.filter fun e => e.2.univs.any fun k => k.2.pend.isSome
  let changed := due.any fun e => e.2.univs.any fun k => k.2.pend.isSome && k.2.pend != k.2.held
  let s := { s with mode := { s.mode with moved := s.mode.moved || changed } }
  forEach due s fun e s => mapApply e.1 (univsPut e.2) (modMap e.1 univsPut s)

/-- The pending data of the BASE universes applied at a boundary (R318, R321); poisoned data leave the values as they are.
(PRESUMED, log 26) -/
def basesApply (s : State) : State :=
  { s with ing := { s.ing with univs := kmap s.ing.univs fun _ u => match u.pend with
      | some d => { u with pend := none, held := if d.poison then u.held else some d.slots }
      | none => if u.held.isSome then u else { u with held := (univBest u).map fun q => q.data.slots } } }

/-- A new map starts from the last data of the source in force of each of its universes. (PRESUMED, log 26) -/
def mapStart (m : PMap) (s : State) : PMap :=
  { m with univs := (List.range (mapUnivs m)).foldl (fun l i => match univBest (univOf s (m.firstUniv + i) m.port) with
      | some q => kset l i (univTake m.sync q.data {})
      | none => l) [] }

/-- The universes that nothing uses any more forgotten. -/
def univsPrune (s : State) : State :=
  { s with ing := { s.ing with univs := kfilter s.ing.univs fun k _ => (scopesOf s (k / 256) (k % 256)).contains (k % 256) } }

/-- INGEST_SACN_MAP_DEFINE (R121, R123, R128). -/
def mapDefine (c : Cmd) (s : State) : State :=
  let p := c.payload
  let id := field p 0 2
  let ch := field p 3 1
  let m : PMap := { port := field p 2 1, channels := ch, firstUniv := field p 4 2, sync := field p 6 2, w := field p 8 2,
                    h := field p 10 2, serpentine := field p 12 1 == 1, transfer := field p 13 1, gamma := field p 14 2 }
  if 1023 < id || (63 < m.port && m.port != 0xFF) || !(ch == 3 || ch == 6) || m.firstUniv == 0 || 63999 < m.sync
      || m.w == 0 || m.h == 0 || 1 < field p 12 1 || 2 < m.transfer
      || (if m.transfer == 1 then m.gamma < 1000 || 4000 < m.gamma else m.gamma != 0)
      || 1024 < mapUnivs m || 63999 < m.firstUniv + mapUnivs m - 1 
      || 4096 < inputUnivs (kset s.ing.maps id m) (s.fix.outs.map fun e => e.2.d.base) then
    done c stRANGE s
  else if sourceInWall s 2 id || (m.port != 0xFF && isChainPort s m.port) then done c stSTATE s
  else
    let old := kget? s.ing.maps id
    let s := univsPrune { s with ing := { s.ing with maps := kset s.ing.maps id (mapStart m s) } }
    done c stOK (match old with | some o => portFlush o.port s | none => s)

def execIngestSacnMapDefine (t : Nat) (r : CmdRef) (s : State) : Res := verb 0x0504 t r s mapDefine

/-! ## Host planes (R125 to R127) -/

/-- INGEST_PLANE_DEFINE (R49, R125, R128). -/
def planeDefine (c : Cmd) (s : State) : State :=
  let p := c.payload
  let id := field p 0 2
  let v : HPlane := { layout := field p 2 1, transfer := field p 3 1, gamma := field p 4 2, w := field p 6 2, h := field p 8 2 }
  if 1023 < id || 3 < v.layout || 2 < v.transfer
      || (if v.transfer == 1 then v.gamma < 1000 || 4000 < v.gamma else v.gamma != 0)
      || v.w == 0 || 16384 < v.w || v.h == 0 || 16384 < v.h || 234881024 < v.w * v.h * layoutBytes v.layout
      || (!khas s.ing.planes id && 64 ≤ s.ing.planes.length) then done c stRANGE s
  else match kget? s.ing.planes id with
  | some o =>
    if sourceInWall s 1 id then
      if o.layout == v.layout && o.w == v.w && o.h == v.h then
        if modeOn s then done c stOK (modPlane id (fun o => { o with pend := some (v.transfer, v.gamma), cnt := {} }) s)
        else done c stOK (modPlane id (fun o => { o with transfer := v.transfer, gamma := v.gamma, cnt := {} }) s)
      else done c stSTATE s
    else if o.sub.isSome then done c stSTATE s
    else done c stOK { dropObject 1 (planeObj 1 id) 0 (dropObject 1 (planeObj 1 id) 1 s) with
                       ing := { s.ing with planes := kset s.ing.planes id v } }
  | none => done c stOK { s with ing := { s.ing with planes := kset s.ing.planes id v } }

def execIngestPlaneDefine (t : Nat) (r : CmdRef) (s : State) : Res := verb 0x0505 t r s planeDefine

/-- A plane's new transfer takes effect at the frame boundary (R49), and breaks stillness (R215). -/
def planeTables (s : State) : State :=
  let any := s.ing.planes.any fun e => e.2.pend.isSome
  { s with ing := { s.ing with planes := kmap s.ing.planes fun _ v => match v.pend with
              | some (t, g) => { v with transfer := t, gamma := g, pend := none }
              | none => v }
           mode := { s.mode with moved := s.mode.moved || any } }

/-- INGEST_PLANE_SUBMIT starts its copy (R126, R127). -/
def planeSubmit (c : Cmd) (s : State) : State :=
  let p := c.payload
  let id := field p 0 2
  match kget? s.ing.planes id with
  | none => done c stNOTFOUND s
  | some v =>
    let policy := if field p 2 1 == 0xFF then 0 else field p 2 1
    if 1 < policy || 1 < field p 3 1 || field p 8 8 % 4 != 0 || field p 16 4 % 4 != 0
        || field p 16 4 < v.w * layoutBytes v.layout then done c stRANGE s
    else if v.sub.isSome || (field p 3 1 == 1 && !modeOn s) then done c stSTATE s
    else
      let sub : Submit := { ref := c.ref, when_ := field p 3 1, epoch := BitVec.ofNat 32 (field p 4 4), policy
                            grace := field p 20 4, addr := BitVec.ofNat 64 (field p 8 8), stride := field p 16 4 }
      park c (modPlane id (fun v => { v with sub := some sub }) s)

def execIngestPlaneSubmit (t : Nat) (r : CmdRef) (s : State) : Res := verb 0x0506 t r s planeSubmit

/-- A plane's back copy becomes its front copy (R126). -/
def planeSwap (id : Nat) (s : State) : State :=
  { modPlane id (fun v => { v with front := 1 - v.front, hasFront := true, sub := none,
                                   cnt := { v.cnt with frames := v.cnt.frames + 1 } }) s with
    mode := { s.mode with moved := true } }

/-- The DMA of a submission ends: the back copy is written, the completion record says on time, LATE or PAST, and the
copy becomes front at its instant (R126). -/
def planeCopied (id : Nat) (image : Bytes) (s : State) : State :=
  match kget? s.ing.planes id with
  | none => s
  | some v =>
    match v.sub with
    | none => s
    | some q =>
      if q.copied || (findCmd q.ref s).isNone then s
      else
        let timed := q.when_ == 1 && !epochPassed s q.epoch
        let late := if q.when_ == 1 && !timed then changeInstant s - weaveTimeI s q.epoch else 0
        if q.policy == 1 && q.grace < late then
          finish q.ref stPAST 0 [] (modPlane id (fun v => { v with sub := none }) s)
        else
          let bytes := v.w * v.h * layoutBytes v.layout
          let img := padTo ((bytes + 7) / 8 * 8) (image.take bytes)
          let s := forEach (List.range ((bytes + 7) / 8)) s fun i s =>
            storeWrite (wordKey 1 (planeObj 1 id) (1 - v.front) i) (field img (8 * i) 8) s
          let s := if late ≤ q.grace then finish q.ref stOK 0 [] s else finish q.ref stLATE late [] s
          let s := if !modeOn s then planeSwap id s
            else modPlane id (fun v => { v with sub := some { q with copied := true, timed } }) s
          calmWake 2 s

def execPlaneCopyDone (t source : Nat) (image : Bytes) (s : State) : Res := occurs t s (planeCopied source image)

/-- At a boundary a copied submission becomes front: one for an epoch at the start of the first weave from that epoch on, so only
where this boundary's epoch is `woven` (R126, R209). (DESIGN CHOICE, log 38) -/
def planesDue (woven : Bool) (s : State) : State :=
  forEach s.ing.planes s fun e s => match e.2.sub with
    | some q => if q.copied && (!q.timed || (woven && epochPassed s q.epoch)) then planeSwap e.1 s else s
    | none => s

/-! ## Removing and counting (R128, R129, R130) -/

/-- INGEST_REMOVE (R109, R128). -/
def ingestRemove (c : Cmd) (s : State) : State :=
  let k := field c.payload 0 1
  let id := field c.payload 2 2
  match k with
  | 0 => match kget? s.ing.videos id with
    | none => done c stNOTFOUND s
    | some v => if sourceInWall s 0 id then done c stSTATE s
        else done c stOK (portFlush v.port (igmpLeave v.port v.group
          { s with ing := { s.ing with videos := kerase s.ing.videos id } }))
  | 1 => match kget? s.ing.audios id with
    | none => done c stNOTFOUND s
    | some a => done c stOK (portFlush a.port (igmpLeave a.port a.group
        (chansSilent a { s with ing := { s.ing with audios := kerase s.ing.audios id } })))
  | 2 => match kget? s.ing.maps id with
    | none => done c stNOTFOUND s
    | some m => if sourceInWall s 2 id then done c stSTATE s
        else done c stOK (portFlush m.port (univsPrune { s with ing := { s.ing with maps := kerase s.ing.maps id } }))
  | 3 => match kget? s.ing.planes id with
    | none => done c stNOTFOUND s
    | some v => if sourceInWall s 1 id || v.sub.isSome then done c stSTATE s
        else done c stOK { dropObject 1 (planeObj 1 id) 0 (dropObject 1 (planeObj 1 id) 1 s) with
                           ing := { s.ing with planes := kerase s.ing.planes id } }
  | _ => done c stNOTFOUND s

def execIngestRemove (t : Nat) (r : CmdRef) (s : State) : Res := verb 0x0507 t r s ingestRemove

/-- An INGEST_COUNTERS response (R129). -/
def ingestBytes (k : IngCnt) : Bytes :=
  leN 8 k.packets.toNat ++ leN 8 k.bytes.toNat ++ leN 4 k.seqGaps.toNat ++ leN 4 k.late.toNat ++ leN 4 k.rollbacks.toNat
    ++ leN 4 k.rollbackPx.toNat ++ leN 4 k.gapPx.toNat ++ leN 4 k.frames.toNat ++ leN 4 k.incomplete.toNat
    ++ leN 4 k.skipped.toNat ++ leN 4 k.repeated.toNat ++ leN 4 k.unmatched.toNat ++ leN 4 k.poison.toNat ++ zeros 4

/-- The counters of an ingest object (R129). -/
def ingestCnt (s : State) (kind id : Nat) : Option IngCnt :=
  match kind with
  | 0 => (kget? s.ing.videos id).map (·.cnt)
  | 1 => (kget? s.ing.audios id).map (·.cnt)
  | 2 => (kget? s.ing.maps id).map (·.cnt)
  | 3 => (kget? s.ing.planes id).map (·.cnt)
  | 4 => if id < 64 then some (kgetD s.ing.ports id {}) else none
  | _ => none

def execIngestCounters (t : Nat) (r : CmdRef) (s : State) : Res :=
  verb 0x0508 t r s fun c s => match ingestCnt s (field c.payload 0 1) (field c.payload 2 2) with
    | some k => reply c (ingestBytes k) s
    | none => done c stNOTFOUND s

/-- A stream with no packet for its time is lost (R130): 100 ms for video, 20 ms for audio; a lost lock source shows in
LOCK_STATE (R284). (DESIGN CHOICE, log 25) -/
def streamLost (kind id : Nat) (s : State) : State :=
  match kind with
  | 0 => match kget? s.ing.videos id with
    | some v => if v.lost || s.now < v.lastAt + 100000000 then s
        else
          let s := sourceEvent 0 0 id (modVideo id (fun v => { v with lost := true }) s)
          if s.time.lockSource == 1 && s.time.lockId == id then setLock 4 s else s
    | none => s
  | 1 => match kget? s.ing.audios id with
    | some a => if a.lost || s.now < a.lastAt + 20000000 then s
        else sourceEvent 1 0 id (modAudio id (fun a => { a with lost := true }) s)
    | none => s
  | _ => s

def execStreamLostTimeout (t kind id : Nat) (s : State) : Res := occurs t s (streamLost kind id)

/-- An IGMP query of a port is answered with reports for the groups defined on it (R107). -/
def igmpQuery (port : Nat) (group : U32) (s : State) : State :=
  let mine := fun g => group == 0 || g == group
  let s := forEach s.ing.videos s fun e s => if e.2.port == port && mine e.2.group then igmp port e.2.group true s else s
  forEach s.ing.audios s fun e s => if e.2.port == port && mine e.2.group then igmp port e.2.group true s else s

def execIgmpQuery (t port : Nat) (group : U32) (s : State) : Res :=
  occurs t s fun s => rxGate 1 port 64 .multi none false false s (igmpQuery port group)

end Sys2Proof.Machine
end

