-- ==== Sys2Proof/Machine/Sched.lean ====
section
/-! DEFINITION. The SCHED commands (R198), control threads (R193 to R197), TAKE, its timeout and bank gating (R182 to R184),
and drains that expire (R191, R192). -/

namespace Sys2Proof.Machine

/-! ## Control threads (R193 to R197) -/

/-- A command that waits may start: the ORDERED flag holds it until every earlier command of its mailbox has completed
(R65), and a mailbox's command needs one of the 192 COMMAND threads (R193, R194). (DESIGN CHOICE, log 19) -/
def mayStart (s : State) (c : Cmd) : Bool :=
  match c.ref, c.phase with
  | _, .async => false
  | .cue _ _, _ => c.core.isNone
  | .mbx n _, .waiting =>
    decide (s.sched.command.busy < 192) && (!c.ordered || (inFlight s n).all fun d => decide (c.order ≤ d.order))
  | .mbx _ _, .thread => c.core.isNone

/-- The command a core would run next: the highest priority, the first in turn within it. (DESIGN CHOICE, log 19) -/
def bestCmd (s : State) (core : Nat) : Option Cmd :=
  (s.cmds.filter fun c => mayStart s c && coreServes s core c).foldl (fun acc c => match acc with
    | none => some c
    | some b => if b.prio < c.prio || (b.prio == c.prio && c.turn < b.turn) then some c else some b) none

/-- The command a core runs. -/
def onCore (s : State) (core : Nat) : Option Cmd := s.cmds.find? fun c => c.core == some core

/-- A thread is given a core; a command that waited takes a COMMAND thread. (DESIGN CHOICE, log 19) -/
def giveCore (core : Nat) (c : Cmd) (s : State) : State :=
  let s := match c.ref, c.phase with
    | .mbx _ _, .waiting =>
      let k := s.sched.command
      { s with sched := { s.sched with command := { k with busy := k.busy + 1, peak := max k.peak (k.busy + 1) } } }
    | _, _ => s
  modCmd c.ref (fun d => { d with core := some core, phase := .thread, since := s.now }) s

/-- A core in service takes the best ready thread: it is free, or that thread runs in place of one of lower priority.
(DESIGN CHOICE, log 19) -/
def dispatch (core : Nat) (s : State) : State :=
  if 8 ≤ core || !bit s.sched.coresUp core || !s.hif.ready then s
  else match bestCmd s core with
  | none => s
  | some c =>
    match onCore s core with
    | none => giveCore core c s
    | some d => if d.prio < c.prio then giveCore core c (modCmd d.ref (fun d => { d with core := none }) s) else s

def execThreadDispatch (t core : Nat) (s : State) : Res := happens t s (dispatch core)

/-- The 200 µs quantum of a core's thread ends: a ready thread of the same priority or higher runs next, and this one goes
to the end of its priority. (DESIGN CHOICE, log 19) -/
def quantum (core : Nat) (s : State) : State :=
  match onCore s core, bestCmd s core with
  | some d, some c =>
    if d.prio ≤ c.prio && decide (d.since + 200000 ≤ s.now) then
      let s := modCmd d.ref (fun d => { d with core := none, turn := s.hif.turns }) s
      giveCore core c { s with hif := { s.hif with turns := s.hif.turns + 1 } }
    else s
  | _, _ => s

def execThreadQuantumExpiry (t core : Nat) (s : State) : Res := happens t s (quantum core)

/-- A 10 ms window ends: where the COMMAND class fell short of 10 % of the cluster, its oldest ready thread is raised to
priority 11, and once the class has its floor the threads raised fall back; BACKGROUND's floor is 5 % (R195). The times are
those of the class's threads over the eight cores. (DESIGN CHOICE, log 19) -/
def classFloor (commandNs backgroundNs : Nat) (s : State) : State :=
  let cores := (setBits 8 s.sched.coresUp).length
  let ready := s.cmds.filter fun c => mayStart s c && (match c.ref with | .mbx _ _ => true | _ => false)
  let s := if commandNs * 10 < cores * 10000000 then
      match (sortBy (fun c => c.order) ready).head? with
      | some c =>
        let k := s.sched.command
        modCmd c.ref (fun d => { d with prio := max d.prio 11 })
          { s with sched := { s.sched with command := { k with raises := k.raises + 1 } } }
      | none => s
    else { s with cmds := s.cmds.map fun c => { c with prio := c.base } }
  if 0 < backgroundThreads s && backgroundNs * 20 < cores * 10000000 then
    let k := s.sched.background
    { s with sched := { s.sched with background := { k with raises := k.raises + 1 } } }
  else s

def execClassFloorWindow (t _timedNs commandNs backgroundNs : Nat) (s : State) : Res :=
  happens t s (classFloor commandNs backgroundNs)

/-! ## TAKE and gating (R182 to R184) -/

/-- A spindle that TAKEs: in service, not draining, its bank awake and not being left, room to prefetch, and not blocked
or idle. -/
def canTake (s : State) (i : Nat) : Bool :=
  let q := spOf s i
  spUp s i && !q.draining && q.blocked.isNone && !spIdle q && !(sbOf s (spBank i)).gated && decide (q.prefetch.length < 2)

def execTakeIssue (t spindle : Nat) (s : State) : Res :=
  happens t s fun s => if canTake s spindle then takeIssue spindle s else s

def execTakeTimeout (t spindle : Nat) (s : State) : Res := happens t s (takeTimeout spindle)

def execBankGate (t bank : Nat) (s : State) : Res := happens t s (bankGate bank)

/-! ## Spindles in and out of service (R186 to R188, R198) -/

/-- A spindle that was being disabled leaves service, with its placement trigger (R186). -/
def spindleOff (i : Nat) (s : State) : State :=
  let s := spindleOut i .disabled s
  let s := if sbankUp s (spBank i) then s
    else forEach ((wallTiles s).filter fun r => bankOfTile s r == some (spBank i)) s fun r s => withdrawTile r.tile s
  placeTrigger 2 10 i s

/-- A spindle's disable: it takes no further token, hands back what it prefetched, and finishes its hank. -/
def spindleDisable (i : Nat) (s : State) : State :=
  let q := spOf s i
  let b := spBank i
  let s := modSp i (fun q => { q with draining := true, prefetch := [], blocked := none, back := q.prefetch.length }) s
  let s := modSb b (fun k => { k with takes := k.takes.filter (· != i) }) s
  let s := serveBlocked b 32 (handBack b q.prefetch (drainStart 0 i s))
  if q.hank.isSome || q.last.isSome then s else spindleOff i s

/-- A bank being disabled, once a placement without it is in force, stops taking tokens and powers down (R187). -/
def banksLeave (s : State) : State :=
  forEach ((List.range 16).filter fun b => (sbOf s b).disabling && !s.place.inForce.powered.contains b) s fun b s =>
    let s := forEach ((bankSpindles b).filter (spUp s)) s fun i s => spindleOut i .disabled s
    modSb b (fun k => { k with disabling := false }) s

/-- A spindle back in service. -/
def spindleOn (i : Nat) (s : State) : State :=
  placeTrigger 3 10 i (spindleEvent i 0 0 (modSp i (fun q => { q with svc := .up, idle := false }) s))

/-- SCHED_SPINDLE. -/
def schedSpindle (c : Cmd) (s : State) : State :=
  let p := c.payload
  let i := field p 2 2
  let pixel := s.fab.svcLevel == 2
  match field p 0 1, field p 1 1 with
  | 0, 0 =>
    if 255 < i then done c stRANGE s
    else if !spUp s i || (spOf s i).draining || (pixel && (spindlesUp s).all (fun j => j == i || (spOf s j).draining || (sbOf s (spBank j)).disabling)) then
      done c stSTATE s
    else spindleDisable i (done c stACCEPTED s)
  | 1, 0 =>
    if 255 < i then done c stRANGE s
    else if (spOf s i).svc != .disabled || (sbOf s (spBank i)).disabling then done c stSTATE s
    else spindleOn i (done c stACCEPTED s)
  | 0, 1 =>
    if 15 < i then done c stRANGE s
    else if !sbankUp s i || (sbOf s i).disabling
        || (pixel && (spindlesUp s).all (fun j => spBank j == i || (spOf s j).draining || (sbOf s (spBank j)).disabling)) then
      done c stSTATE s
    else
      let s := modSb i (fun k => { k with disabling := true }) (placeTrigger 2 10 (16 * i) (done c stACCEPTED s))
      -- a bank that placement does not use leaves at once
      if s.place.inForce.powered.contains i then s else banksLeave s
  | 1, 1 =>
    let l := (bankSpindles i).filter fun j => (spOf s j).svc == .disabled
    if 15 < i then done c stRANGE s
    else if l.isEmpty || (sbOf s i).disabling || (bankSpindles i).any (fun j => (spOf s j).draining) then done c stSTATE s
    else forEach l (done c stACCEPTED s) spindleOn
  | _, _ => done c stRANGE s

def execSchedSpindle (t : Nat) (r : CmdRef) (s : State) : Res := verbF 0x0704 t r s schedSpindle

/-! ## The other SCHED commands (R198) -/

def execSchedTakeSet (t : Nat) (r : CmdRef) (s : State) : Res :=
  verb 0x0703 t r s fun c s =>
    let a := field c.payload 0 4
    let b := field c.payload 4 4
    if a == 0 || 10000 < a || 10000 < b then done c stRANGE s
    else if modeOn s then done c stOK { s with sched := { s.sched with pendTake := some (a, b) } }
    else done c stOK { s with sched := { s.sched with takeUs := a, gateUs := b } }

/-- The ranges of the settable drain timeouts in µs (R192). -/
def drainRange (f : Nat) : Nat × Nat :=
  match f with | 0 => (5, 1000) | 1 => (100, 100000) | 2 => (25000, 1000000) | 3 => (1000, 1000000) | _ => (1000, 1000000)

def execSchedDrainSet (t : Nat) (r : CmdRef) (s : State) : Res :=
  verb 0x0705 t r s fun c s =>
    let f := field c.payload 0 1
    let v := field c.payload 4 4
    if 4 < f || v < (drainRange f).1 || (drainRange f).2 < v then done c stRANGE s
    else done c stOK { s with sched := { s.sched with drainUs := s.sched.drainUs.set f v } }

def execSchedClassSet (t : Nat) (r : CmdRef) (s : State) : Res :=
  verb 0x0706 t r s fun c s =>
    let n := field c.payload 0 1
    let v := field c.payload 1 1
    if n == 0 || 15 < n || v < 6 || 11 < v then done c stRANGE s
    else done c stOK { s with sched := { s.sched with prio := kset s.sched.prio n v } }

/-- The priority of a mailbox's commands (R194). -/
def prioOf (s : State) (n : Nat) : Nat := kgetD s.sched.prio n (if n == 15 && s.hif.inband then 7 else 8)

/-- SCHED_STATUS. -/
def schedStatusBytes (s : State) : Bytes :=
  let bits (n : Nat) (f : Nat → Bool) : Nat := bitsOf ((List.range n).map f)
  leN 32 (bits 256 (spUp s)) ++ leN 2 (bits 16 fun b => (sbOf s b).gated)
    ++ leN 2 (bits 16 fun b => s.place.inForce.powered.contains b)
    ++ leN 2 (bits 16 fun b => (sbOf s b).disabling || (bankSpindles b).any fun i => (spOf s i).draining) ++ zeros 2
    ++ leN 4 s.sched.takeUs ++ leN 4 s.sched.gateUs ++ ((List.range 15).flatMap fun i => leN 1 (prioOf s (i + 1))) ++ zeros 1

def execSchedStatus (t : Nat) (r : CmdRef) (s : State) : Res :=
  verb 0x0701 t r s fun c s => reply c (schedStatusBytes s) s

def execSchedCounters (t : Nat) (r : CmdRef) (s : State) : Res :=
  verb 0x0702 t r s fun c s =>
    let b := field c.payload 0 1
    let k := sbOf s b
    if 15 < b then done c stRANGE s
    else reply c (leN 8 k.hanks.toNat ++ leN 4 k.takesBlocked.toNat ++ leN 4 k.takesIdle.toNat ++ leN 4 k.gates.toNat
      ++ leN 4 k.wakes.toNat ++ leN 4 k.handback.toNat ++ leN 4 k.stale.toNat) s

/-- The commands taken that wait for a thread. -/
def waitingCmds (s : State) : Nat :=
  (s.cmds.filter fun c => (match c.ref with | .mbx _ _ => true | _ => false) && c.phase == .waiting).length

def execSchedThreads (t : Nat) (r : CmdRef) (s : State) : Res :=
  verb 0x0707 t r s fun c s =>
    let f (k : ThreadClass) : Bytes := leN 2 k.busy ++ leN 2 k.peak ++ leN 4 k.raises.toNat
    reply c (f s.sched.timed ++ f s.sched.command ++ f s.sched.background ++ leN 2 (waitingCmds s) ++ zeros 6) s

end Sys2Proof.Machine
end

