-- ==== Sys2Proof/Machine/Wall.lean ====
section
/-! DEFINITION. The WALL and PLACE commands (R87, R104), the check of a staged wall image (R82 to R86, R89), and what comes
into force with a wall, a profile and a placement (R89, R93, R100, R103). -/

namespace Sys2Proof.Machine

/-! ## A wall image (R82 to R86) -/

/-- The offset of the `i`-th chain record, tile record and source record of an image. -/
def chainOff (i : Nat) : Nat := 32 + 16 * i
def tileOff (chains i : Nat) : Nat := 32 + 16 * chains + 40 * i
def srcOff (chains tiles i : Nat) : Nat := 32 + 16 * chains + 40 * tiles + 24 * i

/-- The chain record at an offset. -/
def parseChain (b : Bytes) (o : Nat) : ChainRec :=
  { chain := field b o 1, tiles := field b (o + 1) 1, format := field b (o + 2) 1, portA := field b (o + 4) 1
    portB := field b (o + 5) 1, fs := field b (o + 8) 4 }

/-- The tile record at an offset. -/
def parseTile (b : Bytes) (o : Nat) : TileRec :=
  { tile := field b o 2, chain := field b (o + 2) 1, pos := field b (o + 3) 1, w := field b (o + 4) 2, h := field b (o + 6) 2
    cx := field b (o + 8) 4, cy := field b (o + 12) 4, rot := field b (o + 16) 1, low := field b (o + 17) 1 == 1
    pitch := field b (o + 18) 2, coef := field b (o + 20) 2, px := sfield b (o + 24) 4, py := sfield b (o + 28) 4
    pz := sfield b (o + 32) 4 }

/-- The source record at an offset. -/
def parseSrc (b : Bytes) (o : Nat) : SrcRec :=
  { source := field b o 2, kind := field b (o + 2) 1, layer := field b (o + 3) 1, sx := field b (o + 4) 2
    sy := field b (o + 6) 2, w := field b (o + 8) 2, h := field b (o + 10) 2, cx := field b (o + 12) 4, cy := field b (o + 16) 4 }

/-- A wall image read from its bytes. -/
def parseWall (b : Bytes) : WallImg :=
  let nt := field b 6 2
  let nc := field b 8 1
  let ns := field b 10 2
  { canvasW := field b 12 4, canvasH := field b 16 4
    chains := (List.range nc).map fun i => parseChain b (chainOff i)
    tiles := (List.range nt).map fun i => parseTile b (tileOff nc i)
    srcs := (List.range ns).map fun i => parseSrc b (srcOff nc nt i)
    crc := BitVec.ofNat 32 (field b 24 4) }

/-- The header checks of R89 step 2: the offset of the first header field that fails. -/
def headBad (b : Bytes) (total : Nat) : Option Nat :=
  let nt := field b 6 2
  let nc := field b 8 1
  let ns := field b 10 2
  if field b 0 4 != 0x314C5250 then some 0
  else if field b 4 2 != 1 then some 4
  else if nt == 0 || 8192 < nt then some 6
  else if nc == 0 || 64 < nc then some 8
  else if 1024 < ns then some 10
  else if field b 20 4 != 32 + 16 * nc + 40 * nt + 24 * ns || field b 20 4 != total then some 20
  else none

/-- The CRC of an image, with its own field as 0 (R82). -/
def wallCrc (b : Bytes) : U32 := crc32 (b.take 24 ++ zeros 4 ++ b.drop 28)

/-- A list of (offset, breaks) as the offsets that break. -/
def broken (l : List (Nat × Bool)) : List Nat := (l.filter (·.2)).map (·.1)

/-- The offending fields of a chain record (R83, R86). -/
def chainBad (b : Bytes) (w : WallImg) (i : Nat) (c : ChainRec) : List Nat :=
  let o := chainOff i
  let before := w.chains.take i
  let ports := before.flatMap fun d => [d.portA, d.portB]
  let held := (w.tiles.filter fun r => r.chain == c.chain).map (·.pos)
  broken [
    (o, decide (63 < c.chain) || before.any (fun d => d.chain == c.chain)),
    (o + 1, c.tiles == 0 || !((List.range c.tiles).all fun p => held.contains (p + 1))),
    (o + 2, decide (1 < c.format)),
    (o + 3, field b (o + 3) 1 != 0),
    (o + 4, decide (63 < c.portA) || ports.contains c.portA),
    (o + 5, c.portB != 0xFF && (decide (63 < c.portB) || c.portB == c.portA || ports.contains c.portB)),
    (o + 6, field b (o + 6) 2 != 0),
    (o + 8, c.fs != 0 && (c.format == 1 || decide (c.fs < 131072) || decide (262143 < c.fs))),
    (o + 12, field b (o + 12) 4 != 0)]

/-- A tile's columns and rows on the canvas after rotation (R84). -/
def tileSpan (r : TileRec) : Nat × Nat := if r.rot % 2 == 0 then (r.w, r.h) else (r.h, r.w)

/-- The offending fields of a tile record (R84, R86); a coefficient set is one of the 1,024 of METER_COEF_SET (R403).
(DESIGN CHOICE, log 37; DEDUCED, log 73) -/
def tileBad (b : Bytes) (w : WallImg) (i : Nat) (r : TileRec) : List Nat :=
  let o := tileOff w.chains.length i
  let before := w.tiles.take i
  let sum := (before.map tilePx).sum
  let (sw, sh) := tileSpan r
  broken [
    (o, decide (8191 < r.tile) || before.any (fun q => q.tile == r.tile)),
    (o + 2, (chainOf w r.chain).isNone),
    (o + 3, r.pos == 0 || (match chainOf w r.chain with | some c => decide (c.tiles < r.pos) | none => false)
      || before.any (fun q => q.chain == r.chain && q.pos == r.pos)),
    (o + 4, r.w == 0 || decide (1024 < r.w) || (decide (sum ≤ 33554432) && decide (33554432 < sum + tilePx r))),
    (o + 6, r.h == 0 || decide (1024 < r.h) || decide (65536 < r.w * r.h)),
    (o + 8, decide (w.canvasW < r.cx + sw)),
    (o + 12, decide (w.canvasH < r.cy + sh)),
    (o + 16, decide (3 < r.rot)),
    (o + 17, decide (1 < field b (o + 17) 1)),
    (o + 18, decide (r.pitch < 100)),
    (o + 20, decide (1023 < r.coef)),
    (o + 22, field b (o + 22) 2 != 0),
    (o + 36, field b (o + 36) 4 != 0)]

/-- The offending fields of a source record (R85, R86); a source identifier is one of the 1,024 of the INGEST group. (DEDUCED, log 73) -/
def srcBad (b : Bytes) (w : WallImg) (i : Nat) (r : SrcRec) : List Nat :=
  let o := srcOff w.chains.length w.tiles.length i
  broken [
    (o, decide (1023 < r.source)),
    (o + 2, decide (2 < r.kind)),
    (o + 3, decide (15 < r.layer)),
    (o + 8, r.w == 0),
    (o + 10, r.h == 0),
    (o + 12, decide (w.canvasW < r.cx + r.w)),
    (o + 16, decide (w.canvasH < r.cy + r.h)),
    (o + 20, field b (o + 20) 4 != 0)]

/-- The least of a list of offsets. -/
def least (l : List Nat) : Option Nat := (sortBy id l).head?

/-- The first offending field of an image, in image order (R89 step 4). -/
def imageBad (b : Bytes) (w : WallImg) : Option Nat :=
  let head := broken [
    (9, field b 9 1 != 0),
    (12, w.canvasW == 0 || decide (1048576 < w.canvasW)),
    (16, w.canvasH == 0 || decide (1048576 < w.canvasH)),
    (28, field b 28 4 != 0)]
  least (head
    ++ ((List.range w.chains.length).zip w.chains).flatMap (fun q => chainBad b w q.1 q.2)
    ++ ((List.range w.tiles.length).zip w.tiles).flatMap (fun q => tileBad b w q.1 q.2)
    ++ ((List.range w.srcs.length).zip w.srcs).flatMap (fun q => srcBad b w q.1 q.2))

/-! ## The checks against the rest of the device (R89) -/

/-- A source of a kind is defined. -/
def sourceDefined (s : State) (kind id : Nat) : Bool :=
  match kind with
  | 0 => khas s.ing.videos id
  | 1 => khas s.ing.planes id
  | _ => khas s.ing.maps id

/-- The first source record whose source is not defined. -/
def sourceMissing (s : State) (w : WallImg) : Option Nat :=
  (((List.range w.srcs.length).zip w.srcs).find? fun q => !sourceDefined s q.2.kind q.2.source).map fun q =>
    srcOff w.chains.length w.tiles.length q.1

/-- A port serves ingest or the in-band mailbox. -/
def portServes (s : State) (p : Nat) : Bool :=
  s.ing.videos.any (fun e => e.2.port == p) || s.ing.audios.any (fun e => e.2.port == p)
    || s.ing.maps.any (fun e => e.2.port == p) || (s.hif.inband && s.hif.inbPort == p)

/-- The ports a wall's chains name. -/
def wallPorts (w : WallImg) : List Nat :=
  w.chains.flatMap fun c => if c.portB == 0xFF then [c.portA] else [c.portA, c.portB]

/-- The first source record whose plane is larger than 224 MiB (R135). -/
def planeTooLarge (s : State) (w : WallImg) (profile : Nat) : Option Nat :=
  (((List.range w.srcs.length).zip w.srcs).find? fun q =>
    decide (bankRoom < planeSize s profile q.2.kind q.2.source)).map fun q => srcOff w.chains.length w.tiles.length q.1

/-- The DETAIL of the last check of R89: the weave rules, the direct path, the source planes, and the limits of R91.
(DESIGN CHOICE, log 62) -/
def wallRulesBad (w : WallImg) (profile : Nat) (pins : List Pin) (s : State) : Option Nat :=
  let direct := if profile == 3 then videoOverlap w else none
  if profile == 3 && !(match s.weave.active with | some v => scaleFits w v s.mode.slots | none => true) then some 0xFFFFFFFF
  else match direct with
    | some i => some (srcOff w.chains.length w.tiles.length i + 12)
    | none => match planeTooLarge s w profile with
      | some o => some o
      | none =>
        if !buffersFit s w profile pins || !admits (some w) s.weave.active s.mode.mode profile s then some 0xFFFFFFFF
        else none

/-- The pins that a wall activation keeps: those whose chains and tiles, and for KIND 2 whose source, the wall has (R89).
(DESIGN CHOICE, log 37) -/
def pinKept (w : WallImg) (p : Pin) : Bool :=
  if p.kind == 2 then w.srcs.any (fun r => r.source == p.object)
  else match chainOf w p.chain with
    | some c => p.kind != 0 || decide (p.last ≤ c.tiles)
    | none => false

/-- A change of wall, profile or mode is pending (R89, R93, R208). -/
def changePending (s : State) : Bool :=
  s.wall.pending.isSome || s.place.pendProfile.isSome || s.mode.pending.isSome

/-- WALL_DEFINE (R87, R88). DETAIL holds the bytes staged after it, whatever its status. (DEDUCED, log 73) -/
def wallDefine (c : Cmd) (s : State) : State :=
  let p := c.payload
  let o := field p 0 4
  let total := field p 4 4
  let data := p.drop 16
  if total < 32 || 353312 < total || data.isEmpty || 4080 < data.length || total < o + data.length
      || (o != 0 && (o != s.wall.staged.length || total != s.wall.stagedTotal)) then complete c stRANGE s.wall.staged.length [] s
  else
    let staged := if o == 0 then data else s.wall.staged ++ data
    complete c stOK staged.length [] { s with wall := { s.wall with staged, stagedTotal := total } }

def execWallDefine (t : Nat) (r : CmdRef) (s : State) : Res := verb 0x0201 t r s wallDefine

/-- WALL_ACTIVATE (R87, R89). -/
def wallActivate (c : Cmd) (s : State) : State :=
  let b := s.wall.staged
  let keep := bit (field c.payload 0 1) 0
  let w := parseWall b
  if changePending s || b.isEmpty || b.length != s.wall.stagedTotal then done c stSTATE s
  else match headBad b s.wall.stagedTotal with
  | some o => complete c stRANGE o [] s
  | none =>
    if wallCrc b != w.crc then done c stSTATE s
    else match imageBad b w with
    | some o => complete c stRANGE o [] s
    | none => match sourceMissing s w with
      | some o => complete c stNOTFOUND o [] s
      | none =>
        if (wallPorts w).any (portServes s) then done c stSTATE s
        else
          let pins := if keep then s.place.pins.filter (pinKept w) else []
          match wallRulesBad w s.place.profile pins s with
          | some d => complete c stRANGE d [] s
          | none =>
            let s := done c stACCEPTED { s with wall := { s.wall with pending := some (w, keep), pendKept := b } }
            calmWake 4 (placeTrigger 0 0 0 s)

def execWallActivate (t : Nat) (r : CmdRef) (s : State) : Res := verbF 0x0202 t r s wallActivate

/-- WALL_STATUS's response (R87). -/
def wallStatusBytes (s : State) : Bytes :=
  let (crc, tiles, chains) := match s.wall.active with
    | some w => (w.crc.toNat, w.tiles.length, w.chains.length)
    | none => (0, 0, 0)
  let st := if s.wall.pending.isSome then 2 else if s.wall.active.isSome then 1 else 0
  leN 4 s.wall.staged.length ++ leN 4 crc ++ leN 4 s.wall.activeEpoch.toNat ++ leN 2 tiles ++ leN 1 chains ++ leN 1 st

def execWallStatus (t : Nat) (r : CmdRef) (s : State) : Res :=
  verb 0x0203 t r s fun c s => reply c (wallStatusBytes s) s

/-! ## PLACE commands (R93, R99, R104, R105) -/

/-- PLACE_PROFILE (R91, R93, R116, R208). (DESIGN CHOICE, log 37) -/
def placeProfile (c : Cmd) (s : State) : State :=
  let p := field c.payload 0 1
  let bad := match s.wall.active with
    | some w => (wallRulesBad w p s.place.pins s).isSome
    | none => !admits none s.weave.active s.mode.mode p s
  if 3 < p then done c stRANGE s
  else if changePending s then done c stSTATE s
  else if p == s.place.profile then done c stOK s
  else if p == 3 && 1 < modeN s.mode.mode then done c stSTATE s
  else if bad then complete c stRANGE 0xFFFFFFFF [] s
  else
    let s := done c stACCEPTED { s with
      place := { s.place with pendProfile := some p }
      mode := { s.mode with calmAuto := s.mode.calmAuto && p != 3 } }
    calmWake 4 (placeTrigger 1 0 0 s)

def execPlaceProfile (t : Nat) (r : CmdRef) (s : State) : Res := verbF 0x0301 t r s placeProfile

/-- A pin's fields read from a PLACE_PIN. -/
def parsePin (p : Bytes) (num since : Nat) : Pin :=
  { num, kind := field p 0 1, chain := field p 1 1, first := field p 2 1, last := field p 3 1, object := field p 4 2
    target := field p 6 2, since }

/-- What a pin names is not in the wall (R104). (DESIGN CHOICE, log 37) -/
def pinAbsent (w : WallImg) (q : Pin) : Bool :=
  if q.kind == 2 then !w.srcs.any (fun r => r.source == q.object)
  else match chainOf w q.chain with
    | none => true
    | some c => q.kind == 0 && (q.first == 0 || decide (q.last < q.first) || decide (c.tiles < q.last))

/-- A KIND 0 pin overlaps a held one. -/
def pinOverlaps (s : State) (q : Pin) : Bool :=
  q.kind == 0 && s.place.pins.any fun p =>
    p.kind == 0 && p.chain == q.chain && decide (p.first ≤ q.last) && decide (q.first ≤ p.last)

/-- A pin's target is out of range, or its two banks are one. -/
def pinRangeBad (w : WallImg) (q : Pin) : Bool :=
  match q.kind with
  | 0 => decide (15 < q.target)
  | 3 => (match chainOf w q.chain with | some c => decide (c.tiles < q.first) | none => true)
  | _ => decide (31 < q.target % 256) || decide (31 < q.target / 256) || q.target % 256 == q.target / 256

/-- The lowest pin number free. -/
def freePin (s : State) : Nat :=
  ((List.range 256).find? fun n => !s.place.pins.any (fun p => p.num == n)).getD 0

/-- A pin or its removal triggers a placement, or waits for the one after the pending placement (R100, R103). -/
def pinTrigger (s : State) : State :=
  if s.place.triggers.isEmpty then placeTrigger 4 0 0 s
  else { s with place := { s.place with pinAt := some s.now } }

/-- PLACE_PIN (R99, R104). -/
def placePin (c : Cmd) (s : State) : State :=
  -- a pin accepted while a placement is pending acts in the one after (R103)
  let since := s.place.gen + (if s.place.triggers.isEmpty then 1 else 2)
  let q := parsePin c.payload (freePin s) since
  let held := s.place.pins ++ [q]
  if 3 < q.kind then complete c stRANGE 0 [] s
  else match s.wall.active with
  | none => done c stSTATE s
  | some w =>
    let unringed := q.kind == 3 && (match chainOf w q.chain with | some d => d.portB == 0xFF | none => false)
    if pinAbsent w q then done c stNOTFOUND s
    else if 256 ≤ s.place.pins.length || unringed || pinOverlaps s q then done c stSTATE s
    else if pinRangeBad w q || !buffersFit s w s.place.profile held
        || (s.place.profile == 2 && 8 < ((held.filter fun p => p.kind == 0).map (·.target)).eraseDups.length) then
      done c stRANGE s
    else
      pinTrigger (complete c stOK q.num [] { s with place := { s.place with pins := held } })

def execPlacePin (t : Nat) (r : CmdRef) (s : State) : Res := verbF 0x0302 t r s placePin

/-- PLACE_UNPIN (R99, R104). -/
def placeUnpin (c : Cmd) (s : State) : State :=
  let n := field c.payload 0 2
  if n == 0xFFFF then pinTrigger (done c stOK { s with place := { s.place with pins := [] } })
  else if s.place.pins.any (fun p => p.num == n) then
    pinTrigger (done c stOK { s with place := { s.place with pins := s.place.pins.filter fun p => p.num != n } })
  else done c stNOTFOUND s

def execPlaceUnpin (t : Nat) (r : CmdRef) (s : State) : Res := verbF 0x0303 t r s placeUnpin

/-- An end's load in 0.1 % of its line rate (R105). -/
def loadPermille (s : State) (bytes speed : Nat) : Nat :=
  if modeOn s then bytes * 8 * rateNum s.mode.mode * 1000 / (lineRate speed * rateDen s.mode.mode) else 0

/-- A chain record of PLACE_REPORT. -/
def chainReport (s : State) (w : WallImg) (c : ChainRec) : Bytes :=
  let k := splitOf s c
  let (a, b) := splitLoads w c s.place.profile k
  let speed (endB : Bool) (n : Nat) : Nat :=
    if n == 0 || (endB && c.portB == 0xFF) then 0xFF else (portOf s (portOfEnd c endB)).speed
  let load (endB : Bool) (n : Nat) : Nat :=
    if n == 0 || (endB && c.portB == 0xFF) then 0 else loadPermille s n (portOf s (portOfEnd c endB)).speed
  let banks := (kget? s.place.inForce.woven c.chain).getD (0xFF, 0xFF)
  leN 1 c.chain ++ leN 1 k ++ leN 1 (speed false a) ++ leN 1 (speed true b) ++ leN 2 (load false a) ++ leN 2 (load true b)
    ++ leN 1 banks.1 ++ leN 1 banks.2 ++ zeros 6

/-- A bank record of PLACE_REPORT: its load in 0.1 % of its admitted share. -/
def bankReport (s : State) (w : WallImg) (b : Nat) : Bytes :=
  let tiles := w.tiles.filter fun r => bankOfTile s r == some b
  let ops := (match s.weave.active with | some v => plyOps v | none => 0) * (tiles.map tilePx).sum
  let up := ((bankSpindles b).filter (spUp s)).length
  let share := (profileLimits s.place.profile).2.1 * up
  let load := if share == 0 || !modeOn s then 0
    else ops * rateNum s.mode.mode * 1000 * (if s.place.profile == 2 then 128 else 256) / (share * rateDen s.mode.mode)
  leN 2 load ++ leN 2 tiles.length ++ leN 1 (s.place.inForce.runs.filter fun q => q.bank == b).length
    ++ leN 1 (b2n (s.place.inForce.powered.contains b)) ++ zeros 2

/-- PLACE_REPORT's response (R105). -/
def placeReportBytes (s : State) : Bytes :=
  let pl := s.place.inForce
  let srcs := pl.planes
  let up := bitsOf ((List.range 16).map (sbankUp s))
  let ports := bitsOf ((List.range 64).map fun p => !(portOf s p).retired)
  let head := leN 4 pl.epoch.toNat ++ leN 1 s.place.profile ++ leN 1 s.place.shed ++ leN 1 pl.cause ++ zeros 1 ++ leN 2 up
    ++ leN 2 s.place.pins.length ++ leN 4 s.store.up ++ leN 8 ports ++ leN 2 pl.runs.length ++ leN 2 srcs.length
    ++ leN 2 (s.place.pins.filter (·.suspended)).length ++ zeros 2
  match s.wall.active with
  | none => head ++ zeros 128
  | some w =>
    head ++ (sortBy (fun (c : ChainRec) => c.chain) w.chains).flatMap (chainReport s w)
      ++ (List.range 16).flatMap (bankReport s w)
      ++ pl.runs.flatMap (fun q => leN 1 q.chain ++ leN 1 q.first ++ leN 1 q.last ++ leN 1 q.bank)
      ++ srcs.flatMap (fun e => leN 2 (e.1 / 4) ++ leN 1 e.2.1 ++ leN 1 e.2.2)

def execPlaceReport (t : Nat) (r : CmdRef) (s : State) : Res :=
  verb 0x0304 t r s fun c s => reply c (placeReportBytes s) s

/-! ## A wall, a profile and a placement come into force (R89, R93, R100) -/

/-- The setpoint window of a profile in mV (R20). -/
def vWindow (profile : Nat) : Nat × Nat :=
  match profile with | 0 => (800, 900) | 1 => (740, 860) | 2 => (700, 760) | _ => (800, 900)

/-- The profile pending comes into force: shed steps cleared, the setpoint moved into its window, and the shed requests
of the pace loop dropped (R20, R93). -/
def profileInForce (s : State) : State :=
  match s.place.pendProfile with
  | none => s
  | some p =>
    let (lo, hi) := vWindow p
    { s with
      place := { s.place with profile := p, pendProfile := none, shed := 0 }
      fab := { s.fab with vcore := clampN lo hi s.fab.vcore, shedPending := false, restoreFrom := none, restoreRun := 0 }
      mode := { s.mode with calmAuto := s.mode.calmAuto && p != 3 } }

/-- A tile of the old wall that the new one drops or resizes loses its correction and its defect entries; a tile new to
the wall starts with its THERMAL target (R139, R165, R305). -/
def tilesChanged (old : Option WallImg) (w : WallImg) (s : State) : State :=
  let olds := match old with | some v => v.tiles | none => []
  let same (r : TileRec) : Bool := match tileOf w r.tile with | some q => q.w == r.w && q.h == r.h | none => false
  let gone := (sortBy (fun (r : TileRec) => r.tile) olds).filter fun r => !same r
  let s := forEach gone s fun r s =>
    let c := corrOf s r.tile
    let s := corrLoadAborted r.tile s
    let s := forEach [0, 2, 3] s fun copy s => dropObject 2 r.tile copy s
    let s := modCorr r.tile (fun c => { persisting := c.persisting }) s
    tileReplaced r.tile (if c.present || c.ready.isSome then corrEvent r.tile 0 s else s)
  let fresh := w.tiles.filter fun r => !olds.any (fun q => q.tile == r.tile)
  let keep := s.weave.thermA.filter fun e => (tileOf w e.1).isSome && olds.any (fun q => q.tile == e.1)
  { s with weave := { s.weave with
      thermA := fresh.foldl (fun m r => kset m r.tile (kgetD s.weave.thermT r.tile 0)) keep } }

/-- The pins that a wall drops, each recorded (R89). -/
def dropPins (w : WallImg) (keep : Bool) (s : State) : State :=
  let gone := s.place.pins.filter fun p => !(keep && pinKept w p)
  let s := { s with place := { s.place with pins := s.place.pins.filter fun p => keep && pinKept w p } }
  forEach gone s fun p s => record 4 (9 * 1024) 0x0380 (leN 2 p.num ++ leN 1 p.kind ++ zeros 5) s

/-- The wall pending comes into force (R89, R90); `e` is the first epoch woven with it. -/
def wallInForce (e : U32) (s : State) : State :=
  match s.wall.pending with
  | none => s
  | some (w, keep) =>
    let old := s.wall.active
    let s := dropPins w keep (tilesChanged old w s)
    let s := { s with wall := { s.wall with active := some w, activeEpoch := e, pending := none, kept := s.wall.pendKept } }
    let s := { s with store := { s.store with words := kfilter s.store.words fun k _ => k / 2 ^ 46 != 0 } }
    let s := enumChanged old (applyRoles s)
    restoreAll (emit 0x0201 (leN 4 e.toNat ++ leN 4 w.crc.toNat) s)

/-- PLACED emitted (R106). (DEDUCED, log 35) -/
def placedEvent (e : U32) (q : Trigger) (s : State) : State :=
  let unit := q.cause == 2 || q.cause == 3
  emit 0x0301 (leN 4 e.toNat ++ leN 1 q.cause ++ leN 1 s.place.shed ++ leN 1 (if unit then q.subsys else 0) ++ zeros 1
    ++ leN 2 (if unit then q.inst else 0)) s

/-- The placement due now comes into force with the wall and the profile that wait for it (R89, R93, R100, R103); `e` is
the first epoch woven under it, `group` the triggers it covers. (DEDUCED, log 35) -/
def placementInForce (group : List Trigger) (e : U32) (s : State) : State :=
  match mainTrigger group with
  | none => s
  | some q =>
    let late := s.place.pinAt
    let s := { s with
      place := { s.place with triggers := s.place.triggers.filter (fun r => !group.contains r), pinAt := none }
      mode := { s.mode with moved := true } }
    let s := if group.any (fun r => r.cause == 1) then profileInForce s else s
    let s := if group.any (fun r => r.cause == 0) then wallInForce e s else s
    let s := checkFixed (computePlacement e q.cause s)
    let s := placedEvent e q (banksLeave s)
    match late with
    | some a => { s with place := { s.place with triggers := s.place.triggers ++ [{ cause := 4, subsys := 0, inst := 0, at_ := a }] } }
    | none => s

/-- The lead of a placement with no mode in force has passed (R94, R100). -/
def leadExpiry (s : State) : State :=
  let group := dueTriggers s.now false s.place.triggers
  if modeOn s || group.isEmpty || (match s.mode.pending with | some m => group.any (fun q => q.cause == 7 && q.at_ + 8000000 == m.bc) | none => false)
  then s
  else fixNow (placementInForce group (epochNow s) s)

def execPlacementLeadExpiry (t : Nat) (s : State) : Res := occurs t s leadExpiry

end Sys2Proof.Machine
end

