-- ==== Sys2Proof/Machine/Pace.lean ====
section
/-! DEFINITION. The pace loop (R17 to R24), the junction temperature (R21), and the rows of bobbins (R26 to R33). -/

namespace Sys2Proof.Machine

/-! ## The pace loop -/

/-- A bank monitor counts a completed pixel's ply-operations in its window (R17, R180). -/
def paceCount (b n : Nat) (s : State) : State :=
  let l := kgetD s.fab.windows b []
  { s with fab := { s.fab with windows := kset s.fab.windows b ((l.headD 0 + n) :: l.tail) } }

/-- A 1 µs window ends on every monitor; the last 16 are kept (R17, R18). `fabric` is the fabric monitor's count. -/
def paceWindow (fabric : Nat) (s : State) : State :=
  { s with fab := { s.fab with
      windows := kmap s.fab.windows fun _ l => 0 :: l.take 16
      fabWindow := (fabric :: s.fab.fabWindow).take 16 } }

def execPaceWindowEnd (t fabric : Nat) (s : State) : Res := happens t s (paceWindow fabric)

/-- The counts of the last 16 windows of every bank: ply-operations per 16 µs. (DESIGN CHOICE, log 64) -/
def paceRate (s : State) : Nat := (s.fab.windows.map fun e => (e.2.tail.take 16).sum).sum

/-- The tail allowance of the placement in force in ns: the retry guard and the time to send the last skeins. (DESIGN CHOICE, log 37) -/
def tailAllow (s : State) : Nat := 50000 + Config.tailNs s.place.gen

/-- The weave deadline of the epoch that is woven: the next boundary less the tail allowance. (DESIGN CHOICE, log 64) -/
def weaveDeadline (s : State) : Nat := nextBoundary s - tailAllow s

/-- The ceiling in use (R20, R21). -/
def ceiling (s : State) : Nat := (vWindow s.place.profile).2 - (if s.fab.hotcap then 50 else 0)

/-- The projected slack in 0.1 % of the frame period; with no rate measured, no slack at all (R18). (DESIGN CHOICE, log 64) -/
def projectedSlack (s : State) : Int :=
  let rate := paceRate s
  let p := periodNs s.mode.mode
  if rate == 0 || p == 0 then -1000
  else
    let finish : Nat := s.now + remainingOps s * 16000 / rate
    (((weaveDeadline s : Int) - (finish : Int)) * 1000) / (p : Int)

/-- A shed step further in the profile's order exists (R92). -/
def canShed (s : State) : Bool := decide (s.place.shed < (shedOrder s.place.profile).length)

/-- An evaluation of the projected slack every 20 µs of a weave in progress, once the rail has settled: a raise, or at the ceiling in
use a shed request (R18, R22). (DESIGN CHOICE, log 64) -/
def paceEvaluate (s : State) : State :=
  if s.fab.frozen || s.fab.settling || s.fab.weaveFinish.isSome || s.now < s.fab.lastEvalAt + 20000 then s
  else
    let slack := projectedSlack s
    let s := { s with fab := { s.fab with lastEvalAt := s.now } }
    if s.fab.vcore < ceiling s then
      if slack < s.fab.raiseTh then
        { s with fab := { s.fab with vcore := min (ceiling s) (s.fab.vcore + 10), settling := true } }
      else s
    else if slack < s.fab.shedTh && canShed s then { s with fab := { s.fab with shedPending := true } }
    else s

def execPaceEvaluation (t : Nat) (s : State) : Res := happens t s paceEvaluate

def execRailSettled (t : Nat) (s : State) : Res :=
  happens t s fun s => { s with fab := { s.fab with settling := false } }

/-- The setpoint moved down to the ceiling in use (R21). -/
def clampCeiling (s : State) : State := { s with fab := { s.fab with vcore := min s.fab.vcore (ceiling s) } }

/-- The junction temperature read, in tenths of a degree (R21). -/
def junctionTemp (tenths : Int) (s : State) : State :=
  let hot := if 1000 ≤ tenths then true else if tenths < 950 then false else s.fab.hotcap
  let s := { s with fab := { s.fab with tj := tenths, hotcap := hot } }
  if hot && !modeOn s then clampCeiling s else s

/-- The pace loop's work at a boundary that ends a woven epoch (R19, R22 to R24): the slack recorded, a miss counted, the
lower threshold counted, and the restore, which the next boundary makes. (DESIGN CHOICE, log 64) -/
def paceBoundary (b : Nat) (s : State) : State :=
  let p := periodNs s.mode.mode
  let deadline := b - tailAllow s
  let miss := match s.fab.weaveFinish with | some f => decide (deadline < f) | none => true
  let finish := s.fab.weaveFinish.getD b
  let slack : Int := if p == 0 then 0 else (((deadline : Int) - (finish : Int)) * 1000) / (p : Int)
  let (lo, _) := vWindow s.place.profile
  let above := decide ((s.fab.lowerTh : Int) < slack)
  let run := if above then s.fab.lowerRun + 1 else 0
  -- a raise at the same instant takes effect in place of the lowering (R23)
  let lower := decide (16 ≤ run) && !(s.fab.lastEvalAt == b && s.fab.settling)
  let shed := decide (0 < s.place.shed)
  let rr := if shed && above then s.fab.restoreRun + 1 else 0
  let s := { s with fab := { s.fab with
    slack, lowerRun := if lower then 0 else run
    vcore := if lower then max lo (s.fab.vcore - 10) else s.fab.vcore
    restoreRun := if 64 ≤ rr then 0 else rr
    restoreFrom := if 64 ≤ rr && s.fab.restoreFrom.isNone then some (b + 1) else s.fab.restoreFrom
    weaveFinish := none } }
  if miss then
    let n := s.fab.missRun + 1
    let s := { s with fab := { s.fab with paceMiss := s.fab.paceMiss + 1, missRun := n } }
    let dropped := (s.link.skeins.filter (·.dropped)).length
    let s := record 4 0x3000 0x0780 (leN 4 (epochNow s).toNat ++ leN 2 (twos 16 slack) ++ leN 2 (min 65535 dropped)) s
    if n == 8 then raise 0x3000 0 [8] s else s
  else
    let s := { s with fab := { s.fab with missRun := 0 } }
    { s with flt := { s.flt with srcs := kmod? s.flt.srcs 0x3000 fun q => { q with ok := true } } }

/-- A shed request or restore taken at this boundary (R22, R92, R100), with its PLACED unless a placement that takes effect
here carries it (R23, R103); a request takes the place of a restore. `e` is the epoch woven from it. (DESIGN CHOICE, log 64) -/
def shedBoundary (e : U32) (carried : Bool) (s : State) : State :=
  let place (cause : Nat) (n : Nat) (s : State) : State :=
    let s := { s with place := { s.place with shed := n }, mode := { s.mode with moved := true } }
    if carried then s
    else placedEvent e { cause, subsys := 0, inst := 0, at_ := s.now }
      { s with place := { s.place with inForce := { s.place.inForce with epoch := e, cause } } }
  let sh := s.fab.shedPending
  let re := match s.fab.restoreFrom with | some a => decide (a ≤ s.now) | none => false
  let s := { s with fab := { s.fab with shedPending := false, restoreFrom := if re then none else s.fab.restoreFrom } }
  if sh && canShed s then place 5 (s.place.shed + 1) { s with fab := { s.fab with restoreRun := 0 } }
  else if re && 0 < s.place.shed then place 6 (s.place.shed - 1) s
  else s

/-! ## Bobbins (R26 to R31, R33) -/

def execBobbinWrite (t id : Nat) (word : U64) (eoi poison : Bool) (s : State) : Res :=
  happens t s (bobWrite id { word, eoi, poison })

def execBobbinRead (t id : Nat) (parityOk : Bool) (s : State) : Res :=
  happens t s fun s => match bobDef id with
    | some d => bobRead d id parityOk s
    | none => s

def execBobbinFlush (t id : Nat) (s : State) : Res := happens t s (bobFlush id)

def execUnderrunClear (t : Nat) (v : U32) (s : State) : Res := happens t s (underrunClear v)

end Sys2Proof.Machine
end

