-- ==== Sys2Proof/Machine/Mailbox.lean ====
section
/-! DEFINITION. The command path of the host interface: rings and doorbells (R59 to R63), the checks a command meets
when it is taken (R64, R65, R79), responses (R66, R67), events (R75) and the in-band mailbox (R77, R78). -/

namespace Sys2Proof.Machine

/-! ## Interrupt status and mask (R58, R59) -/

/-- HIF_INT_MASK written: a mask bit that rises over a set status bit sends that vector's message, unless it has been
sent since the bit was last cleared. -/
def intMaskWrite (v : U32) (s : State) : State :=
  let v := v &&& 0x1FFFFF#32
  let due := v &&& (~~~ s.hif.intMask) &&& s.hif.intStat &&& (~~~ s.hif.intSent)
  let s := { s with hif := { s.hif with intMask := v, intSent := s.hif.intSent ||| due } }
  forEach (setBits 21 due.toNat) s fun n s => msixSend n s

/-- HIF_INT_STAT written: each 1 clears its bit. -/
def intStatClear (v : U32) (s : State) : State :=
  { s with hif := { s.hif with intStat := s.hif.intStat &&& (~~~ v), intSent := s.hif.intSent &&& (~~~ v) } }

def execHifIntMaskWrite (t : Nat) (v : U32) (s : State) : Res := happens t s (intMaskWrite v)

def execHifIntStatClear (t : Nat) (v : U32) (s : State) : Res := happens t s (intStatClear v)

/-- FLT_VIOL written: a 1 in VALID clears the capture and re-arms it (R80). -/
def violClear (v : U32) (s : State) : State :=
  if v.getLsbD 31 then { s with hif := { s.hif with viol := 0, violAddr := 0 } } else s

def execFltViolClear (t : Nat) (v : U32) (s : State) : Res := happens t s (violClear v)

/-! ## Rings (R60 to R63) -/

/-- The entries of a mailbox's rings. -/
def ringSize (m : Mbx) : Nat := 2 ^ (m.size + 4)

/-- The BAR0 offset of a register of mailbox `n`. -/
def mbxReg (n o : Nat) : Nat := 0x400 + 0x40 * n + o

/-- A BAR0 violation of KIND 0 on a write: discarded and reported as an Unsupported Request (R79, R80). -/
def barViolate (off : Nat) (write : Bool) (s : State) : State :=
  put (.unsupportedRequest off write) (violate 0 (BitVec.ofNat 32 off) false 0 0 s)

/-- A register of mailbox `n` is unassigned: mailbox 15 serves in-band, or mailbox 0 has no command ring (R60). -/
def mbxUnassigned (n o : Nat) (s : State) : Bool :=
  (n == 15 && s.hif.inband) || (n == 0 && (o == 0 || o == 4 || o == 0x14 || o == 0x18))

/-- Room in the response ring of a mailbox. -/
def ringRoom (m : Mbx) : Bool := decide ((m.rtail - m.rhead).toNat < ringSize m)

/-- One event written into the ring of mailbox 0, or counted as lost, under the next SEQ; the reel copies it (R75,
R461, R467). `age` is how long ago it was raised. -/
def writeEvent (code : Nat) (data : Bytes) (time age source : Nat) (s : State) : State :=
  let seq := s.hif.evSeq
  let m := mbxOf s 0
  let s := { s with hif := { s.hif with evSeq := seq + 1 } }
  let s := offerRec { cls := 1, flags := recFlags s, source := source * 1024, code,
                      time := recTime s - age, data := leN 4 seq.toNat ++ padTo 16 data } s
  if m.enable && ringRoom m then
    let phase := 1 - m.rtail.toNat / ringSize m % 2
    let entry := leN 2 code ++ leN 1 source ++ leN 1 (128 * phase) ++ leN 4 seq.toNat ++ leN 8 time ++ padTo 16 data
    let s := modMbx 0 (fun m => { m with rtail := m.rtail + 1 }) s
    setInt 0 (put (.event (m.rtail.toNat % ringSize m) entry) s)
  else
    setInt 19 { s with hif := { s.hif with
      evtLost := s.hif.evtLost + 1
      lostFirst := if s.hif.lostCount == 0 then seq else s.hif.lostFirst
      lostCount := s.hif.lostCount + 1 } }

/-- EVENTS_LOST written where events have been lost and the ring has room again (R75). -/
def eventsLost (s : State) : State :=
  let m := mbxOf s 0
  if decide (0 < s.hif.lostCount) && m.enable && ringRoom m then
    let data := leN 4 s.hif.lostFirst.toNat ++ leN 4 s.hif.lostCount
    writeEvent 0x0001 data s.now 0 6 { s with hif := { s.hif with lostCount := 0 } }
  else s

/-- The oldest event waiting is written, after EVENTS_LOST where any has been lost (R75). -/
def eventWrite (s : State) : State :=
  match s.hif.evq with
  | [] => s
  | e :: r => writeEvent e.code e.data e.time (s.now - e.time) e.source
      (eventsLost { s with hif := { s.hif with evq := r } })

def execEventWrite (t : Nat) (s : State) : Res := happens t s eventWrite

/-- The drain of mailbox `n` ends once nothing is in flight and every response is written (R63); it emits DRAIN_END
(R191, R199), and an in-band mailbox 15 leaves in-band service (R72). -/
def mbxDrainEnd (n : Nat) (s : State) : State :=
  let m := mbxOf s n
  if m.draining && m.recs.isEmpty && (inFlight s n).isEmpty then
    let aborted := match s.sched.drains.find? (fun d => d.function == 0xFF && d.inst == n) with
      | some d => d.aborted
      | none => 0
    let s := modMbx n (fun m => { m with draining := false }) s
    let s := { s with sched := { s.sched with
      drains := s.sched.drains.filter fun d => !(d.function == 0xFF && d.inst == n) } }
    let s := if n == 15 && s.hif.inband && !s.hif.inbEnabled then { s with hif := { s.hif with inband := false } } else s
    emit 0x0702 (leN 1 0xFF ++ leN 1 0 ++ leN 2 n ++ leN 4 aborted) s
  else s

/-- The drain of mailbox `n` starts, with its timeout of 100 ms (R63). -/
def mbxDrainStart (n : Nat) (s : State) : State :=
  let s := modMbx n (fun m => { m with draining := true }) s
  mbxDrainEnd n { s with sched := { s.sched with
    drains := s.sched.drains ++ [{ function := 0xFF, inst := n, expires := s.now + 100000000 }] } }

/-- MBX_CFG of mailbox `n` written (R60, R61, R63). -/
def mbxCfgWrite (n : Nat) (v : U32) (s : State) : State :=
  let m := mbxOf s n
  let en := v.getLsbD 31
  let size := v.toNat % 16
  if mbxUnassigned n 0x10 s || decide (9 ≤ size) || (en && m.draining && !m.enable)
      || (size != m.size && (m.enable || m.draining)) then
    barViolate (mbxReg n 0x10) true s
  else if en && !m.enable then
    let s := modMbx n (fun m => { m with enable := true, size, head := 0, tail := 0, rtail := 0, rhead := 0 }) s
    if n == 0 then eventsLost s else s
  else if !en && m.enable then
    mbxDrainStart n (modMbx n (fun m => { m with enable := false }) s)
  else modMbx n (fun m => { m with size }) s

def execMbxEnable (t n : Nat) (v : U32) (s : State) : Res :=
  happens t s (mbxCfgWrite (n % 16) (v ||| 0x80000000#32))

def execMbxDisable (t n : Nat) (v : U32) (s : State) : Res :=
  happens t s (mbxCfgWrite (n % 16) (v &&& 0x7FFFFFFF#32))

/-- The producer index of a command ring written: the doorbell (R61). -/
def mbxTailWrite (n v : Nat) (s : State) : State :=
  let m := mbxOf s n
  let i : U16 := BitVec.ofNat 16 v
  if mbxUnassigned n 0x14 s then barViolate (mbxReg n 0x14) true s
  else if !m.enable then s
  else if ringSize m < (i - m.head).toNat then
    put (.unsupportedRequest (mbxReg n 0x14) true)
      (violate 3 (BitVec.ofNat 32 (i.toNat + 0x14 * 65536)) false n 0 s)
  else modMbx n (fun m => { m with tail := i }) s

def execMbxTailDoorbell (t n v : Nat) (s : State) : Res := happens t s (mbxTailWrite (n % 16) v)

/-- The consumer index of a response ring written by the host (R61). -/
def mbxRheadSet (n v : Nat) (s : State) : State :=
  let m := mbxOf s n
  let i : U16 := BitVec.ofNat 16 v
  if mbxUnassigned n 0x20 s then barViolate (mbxReg n 0x20) true s
  else if (m.rtail - m.rhead).toNat < (i - m.rhead).toNat then
    put (.unsupportedRequest (mbxReg n 0x20) true)
      (violate 3 (BitVec.ofNat 32 (i.toNat + 0x20 * 65536)) false n 0 s)
  else
    let s := modMbx n (fun m => { m with rhead := i }) s
    if n == 0 then eventsLost s else s

def execMbxRheadWrite (t n v : Nat) (s : State) : Res := happens t s (mbxRheadSet (n % 16) v)

/-! ## Taking a command (R64, R65, R79) -/

/-- The lowest nonzero byte of `b` in a list of (offset, mask). -/
def firstReserved (b : Bytes) (l : List (Nat × Nat)) : Option Nat :=
  match l.find? (fun p => (byteAt b p.1).toNat &&& p.2 != 0) with
  | some p => some p.1
  | none => none

/-- The layout checks of a payload of `len` bytes: short, reserved, impossible (steps 6 to 8 of R79); answers the KIND
and the FLT_ADDR of the first that fails. (DESIGN CHOICE, log 61) -/
def payloadCheck (layout : Nat → Bytes → Option Layout) (op len : Nat) (p : Bytes) : Option (Nat × Nat) :=
  match layout op p with
  | none => none
  | some l =>
    if len < l.fixed || len < l.declared then some (1, 64 + len)
    else match firstReserved p l.reserved with
      | some o => some (1, 64 + o)
      | none => match l.impossible with
        | v :: _ => some (2, v)
        | [] => none

/-- The checks of R79 on a command's header: the reserved flag bits, the reserved bytes of the KDC6400 header, and a
LENGTH above 4,096 (steps 2 and 3). (DESIGN CHOICE, log 61) -/
def headerCheck (h : Bytes) : Option (Nat × Nat) :=
  if (byteAt h 6).toNat &&& 0xFC != 0 then some (1, 6)
  else if (byteAt h 7).toNat != 0 then some (1, 7)
  else if (byteAt h 6).toNat % 2 == 0 then
    match firstReserved h (rs 12 4) with
    | some o => some (1, o)
    | none => if 4096 < field h 4 2 then some (1, 4) else none
  else if 4096 < field h 4 2 then some (1, 4)
  else none

/-- The first check of R79 that a command fails, in R79's order. `entry` is the 64-byte ring entry, or the 16-byte
header of an in-band command. (DESIGN CHOICE, log 61) -/
def commandCheck (layout : Nat → Bytes → Option Layout) (n : Nat) (inb : Bool) (entry p : Bytes) (s : State) :
    Option (Nat × Nat) :=
  match (if inb then none else firstReserved entry (rs 36 28)) with
  | some o => some (1, o)
  | none => match headerCheck entry with
    | some k => some k
    | none =>
      if !inb && decide (65536 < field entry 32 4) then some (1, 32)
      else if (findCmd (.mbx n (field entry 2 2)) s).isSome then some (1, 2)
      else payloadCheck layout (field entry 0 2) (field entry 4 2) p

/-- The instant by which a command must complete: under LAYOUT 1 a PTP time, under LAYOUT 0 µs from now (R65). -/
def deadlineOf (h : Bytes) (now : Nat) : Option Nat :=
  if (byteAt h 6).toNat % 2 == 1 then (if field h 8 8 == 0 then none else some (field h 8 8))
  else if field h 8 4 == 0 then none else some (now + 1000 * field h 8 4)

/-- The priority of mailbox `n`: 8, or 7 for mailbox 15 in-band, unless set (R194). -/
def mbxPrio (s : State) (n : Nat) : Nat := kgetD s.sched.prio n (if n == 15 && s.hif.inband then 7 else 8)

/-- A command taken on mailbox `n`: checked (R79), refused with TIMEOUT where its deadline has passed (R74), and
otherwise in flight, waiting for a thread (R62, R194). -/
def intake (layout : Nat → Bytes → Option Layout) (n : Nat) (entry payload : Bytes) (inb : Option InbFrom) (s : State) :
    State :=
  let op := field entry 0 2
  let tag := field entry 2 2
  let len := field entry 4 2
  let p := padTo (min len 4096) payload
  let c : Cmd := { ref := .mbx n tag, opcode := op, ordered := bit (field entry 6 2) 1, deadline := deadlineOf entry s.now,
                   payload := p, respAddr := BitVec.ofNat 64 (field entry 24 8),
                   respLen := if inb.isSome then 4096 else field entry 32 4,
                   inband := inb, order := s.hif.cmdOrder, base := mbxPrio s n, prio := mbxPrio s n, turn := s.hif.turns,
                   takenAt := s.now }
  let answer (st : Nat) (s : State) : State :=
    modMbx n (fun m => { m with
      recs := m.recs ++ [{ tag, opcode := op, status := st, respAddr := c.respAddr, respLen := c.respLen, inband := inb,
                           time := s.now }]
      tags := kset m.tags tag (s.now + 1000000000) }) s
  match commandCheck layout n inb.isSome entry p s with
  | some (kind, addr) => answer 0x30 (violate kind (BitVec.ofNat 32 addr) inb.isSome n tag s)
  | none =>
    if (match c.deadline with | some d => decide (d ≤ s.now) | none => false) then answer 0x11 s
    else
      let s := modMbx n (fun m => { m with tags := kerase m.tags tag }) s
      { s with cmds := s.cmds ++ [c], hif := { s.hif with cmdOrder := s.hif.cmdOrder + 1, turns := s.hif.turns + 1 } }

/-- Mailbox `n` may take a command from its ring now (R62, R63). -/
def mayTake (n : Nat) (s : State) : Bool :=
  let m := mbxOf s n
  n != 0 && s.hif.ready && m.enable && !m.draining && m.head != m.tail && decide ((inFlight s n).length < 64)

/-! ## Responses (R66, R67, R77, R78) -/

/-- The KDC6400 value of a status (R81). -/
def compatStatus (st : Nat) : Nat :=
  if st ≤ 0x03 then 0x00
  else if st == 0x10 then 0x01
  else if st == 0x31 then 0x04
  else if st == 0x11 || st == 0x12 || st == 0x13 || st == 0x3F then 0x03
  else 0x02

/-- A response-ring entry (R66, R67). -/
def responseEntry (compat : Bool) (r : CRec) (trunc phase : Bool) (bytes : Nat) : Bytes :=
  leN 2 r.tag ++ leN 2 r.opcode ++ leN 1 (if compat then compatStatus r.status else r.status) ++ leN 1 r.status
    ++ leN 2 (b2n trunc + 32768 * b2n phase) ++ leN 4 bytes ++ leN 4 0 ++ leN 8 r.detail.toNat ++ leN 8 r.time

/-- The UDP payload of an in-band response, authenticated under the slot's key (R77). (DESIGN CHOICE, log 15) -/
def inbandBody (key : Bytes) (slot seq : Nat) (retry : Bool) (entry payload : Bytes) : Bytes :=
  let body := leN 1 1 ++ leN 1 slot ++ leN 1 (b2n retry) ++ leN 1 0 ++ leN 8 seq ++ entry ++ payload
  body ++ hmacSha256 key body

/-- A kept or new in-band response sent, authenticated with its command's key (R78). (DESIGN CHOICE, log 15) -/
def inbandSend (i : InbFrom) (retry : Bool) (entry payload : Bytes) (s : State) : State :=
  let body := inbandBody i.secret i.key i.seq retry entry payload
  queueTx i.port { kind := .inband i.ip i.udp, cast := .uni, body, len := udpLen body.length } s

/-- The largest response payload that fits a port's frame: of the IP datagram `mtu` less the IP, UDP and in-band headers and the MAC. -/
def inbandRoom (mtu : Nat) : Nat := mtu - 28 - 12 - 32 - 32

/-- The oldest completion record of mailbox `n` written: to the host ring once it has room, payload first (R62, R66,
R67), or as an in-band datagram (R78); then its interrupt (R59) and the end of a drain (R63). (DESIGN CHOICE, log 15) -/
def responseWrite (mtu n : Nat) (s : State) : State :=
  let m := mbxOf s n
  match m.recs with
  | [] => s
  | r :: rest =>
    if (match r.after with | some (k, tag) => (mbxOf s k).recs.any (fun q => q.tag == tag) | none => false) then s
    else match r.inband with
    | some i =>
      let room := inbandRoom mtu
      let cut := r.payload.take room
      let (phase, s) := drawArbiter s
      let entry := responseEntry s.hif.compat r (decide (room < r.payload.length)) phase cut.length
      let s := inbandSend i false entry cut s
      let kept := s.hif.kept.filter (fun k => k.tag != r.tag) ++ [{ tag := r.tag, key := i.key, entry, payload := cut }]
      let s := { s with hif := { s.hif with kept := kept.drop (kept.length - 16) } }
      mbxDrainEnd n (modMbx n (fun m => { m with recs := rest }) s)
    | none =>
      if ringRoom m then
        let cut := r.payload.take r.respLen
        let phase := m.rtail.toNat / ringSize m % 2 == 0
        let entry := responseEntry s.hif.compat r (decide (r.respLen < r.payload.length)) phase cut.length
        let s := put (.response n (m.rtail.toNat % ringSize m) r.respAddr cut entry) s
        let s := modMbx n (fun m => { m with recs := rest, rtail := m.rtail + 1 }) s
        mbxDrainEnd n (setInt n s)
      else s

/-! ## The in-band mailbox (R77, R78) -/

/-- One more in-band datagram dropped (R58). -/
def inbDropped (s : State) : State := { s with hif := { s.hif with inbDrop := s.hif.inbDrop + 1 } }

/-- An in-band datagram handled (R78). (DESIGN CHOICE, log 15) -/
def inbandDatagram (layout : Nat → Bytes → Option Layout) (d : Datagram) (s : State) : State :=
  let p := d.payload
  let len := field p 16 2
  let slot := field p 1 1
  let key := kgetD s.hif.keys slot []
  if !(s.hif.inband && s.hif.inbEnabled && s.hif.ready && d.port == s.hif.inbPort && d.dstIp == s.hif.inbIp
       && d.udpPort == s.hif.inbUdp) then s
  else if d.fragment || decide (p.length < 60) || p.length != 60 + len || field p 0 1 != 1
      || decide (64 ≤ (inFlight s 15).length) || decide (4 ≤ slot) || !bit s.hif.inbKeys slot || key.isEmpty then
    inbDropped s
  else if hmacSha256 key (p.take (28 + len)) != p.drop (28 + len) then
    { s with hif := { s.hif with inbAuthFail := s.hif.inbAuthFail + 1 } }
  else if field p 4 8 ≤ kgetD s.hif.keySeq slot 0 then
    { s with hif := { s.hif with inbReplay := s.hif.inbReplay + 1 } }
  else
    let s := { s with hif := { s.hif with inbRx := s.hif.inbRx + 1, keySeq := kset s.hif.keySeq slot (field p 4 8) } }
    let i : InbFrom := { key := slot, secret := key, seq := field p 4 8, port := d.port, ip := d.srcIp, udp := d.srcUdp }
    match (if bit (field p 2 1) 0 then s.hif.kept.find? (fun k => k.tag == field p 14 2) else none) with
    | some k => inbandSend i true k.entry k.payload s
    | none => intake layout 15 (bytesAt p 12 16) (bytesAt p 28 len) (some i) s

/-! ## The SYS and MBX commands (R71, R72) -/

def execSysNop (t : Nat) (r : CmdRef) (s : State) : Res := verb 0x0000 t r s fun c s => reply c c.payload s

/-- MBX_INBAND_SET (R71, R72). (DESIGN CHOICE, log 15) -/
def inbandSet (c : Cmd) (s : State) : State :=
  let p := c.payload
  let keys := field p 8 1 % 16
  if !keyAuthority c then done c stDENIED s
  else match field p 0 1 with
  | 0 =>
    let s := done c stOK { s with hif := { s.hif with inbEnabled := false } }
    if s.hif.inband then mbxDrainStart 15 s else s
  | 1 =>
    if 63 < field p 1 1 || field p 2 2 == 0 || field p 4 4 == 0 then done c stRANGE s
    else if (setBits 4 keys).all (fun k => (kgetD s.hif.keys k []).isEmpty) || (mbxOf s 15).enable then done c stSTATE s
    else
      done c stOK { s with hif := { s.hif with
        inbEnabled := true, inband := true, inbPort := field p 1 1, inbUdp := field p 2 2,
        inbIp := BitVec.ofNat 32 (beNat (bytesAt p 4 4)), inbKeys := keys } }
  | _ => done c stRANGE s

def execMbxInbandSet (t : Nat) (r : CmdRef) (s : State) : Res := verb 0x0102 t r s inbandSet

/-- MBX_KEY_SET: a key of zeros empties the slot, and the slot's highest SEQ restarts at 0 (R71, R72, R78). -/
def keySet (c : Cmd) (s : State) : State :=
  let slot := field c.payload 0 1
  let key := bytesAt c.payload 4 32
  if !keyAuthority c then done c stDENIED s
  else if 3 < slot then done c stRANGE s
  else
    done c stOK { s with hif := { s.hif with
      keys := if key.all (· == 0#8) then kerase s.hif.keys slot else kset s.hif.keys slot key
      keySeq := kset s.hif.keySeq slot 0 } }

def execMbxKeySet (t : Nat) (r : CmdRef) (s : State) : Res := verb 0x0103 t r s keySet

/-- The memory of a completed command's tag ends after 1 s (R73). -/
def tagExpiry (n tag : Nat) (s : State) : State :=
  match kget? (mbxOf s n).tags tag with
  | some u => if u ≤ s.now then modMbx n (fun m => { m with tags := kerase m.tags tag }) s else s
  | none => s

def execTagMemoryExpiry (t n tag : Nat) (s : State) : Res := happens t s (tagExpiry n tag)

end Sys2Proof.Machine
end

