-- ==== Sys2Proof/Machine/Mode.lean ====
section
/-! DEFINITION. The MODE commands (R205, R207, R208, R219). -/

namespace Sys2Proof.Machine

/-- The slot settings keep R210 and R211: the bytes of slots N and above are 0, and with N = 1 every byte. -/
def slotsOk (slots n : Nat) : Bool := if n == 1 then slots == 0 else slots / 2 ^ (8 * n) == 0

/-- MODE_SET (R205 to R208, R91, R94). (DESIGN CHOICE, log 36) -/
def modeSet (c : Cmd) (s : State) : State :=
  let p := c.payload
  let mode := field p 0 1
  let policy := if field p 1 1 == 0xFF then 0 else field p 1 1
  let when_ := field p 2 1
  let e : U32 := BitVec.ofNat 32 (field p 4 4)
  let phase := field p 8 4
  let grace := field p 12 4
  let slots := field p 16 4
  let same := modeOn s && mode == s.mode.mode && phase == s.mode.phase
  if (modeRow mode).isNone || 1 < policy || 1 < when_ || rateDen mode * 1000000000 ≤ phase * rateNum mode
      || !slotsOk slots (modeN mode) then done c stRANGE s
  else if changePending s || (1 < modeN mode && s.place.profile == 3) || (when_ == 1 && !modeOn s) then done c stSTATE s
  else if same && slots == s.mode.slots.toNat then done c stOK s
  else if !admits s.wall.active s.weave.active mode s.place.profile s then done c stRANGE s
  else
    let lead := max s.now (c.takenAt + 8000000)
    let target := commitTimeI s e
    let bc := if when_ == 1 then changeBoundary s mode phase (max target lead) else changeBoundary s mode phase lead
    let late := if when_ == 1 then bc - target else 0
    let (act, st) := latePolicy policy grace late
    if !act then done c stPAST s
    else
      let s := { s with mode := { s.mode with calmAuto := s.mode.calmAuto && modeN mode == 1 } }
      let detail := if st == stLATE then late else 0
      calmWake 4 (modeAsk mode phase (BitVec.ofNat 32 slots) bc (some c.ref) st detail (park c s))

def execModeSet (t : Nat) (r : CmdRef) (s : State) : Res := verbF 0x0801 t r s modeSet

/-- The STATE of MODE_STATUS. -/
def modeState (s : State) : Nat :=
  if s.mode.calm && s.mode.wakeAt.isNone then 4
  else if s.mode.settle.isSome then 3
  else if s.mode.pending.isSome then 2
  else if modeOn s then 1
  else 0

/-- The epoch committed at an instant: that whose period ends there (R203). -/
def epochEnding (s : State) (at_ : Nat) : U32 :=
  epochNow s + BitVec.ofNat 32 (boundaryIdx s.mode.mode s.mode.phase at_ - s.mode.n)

/-- MODE_STATUS's response (R219). -/
def modeStatusBytes (s : State) : Bytes :=
  let m := s.mode
  let (pm, ca) := match m.pending with
    | some q => (q.mode, if modeOn s then (epochEnding s q.bc).toNat else (epochNow s).toNat)
    | none => (0, 0)
  leN 1 m.mode ++ leN 1 (if modeOn s then modeN m.mode else 0) ++ leN 1 (modeState s) ++ zeros 1 ++ leN 4 (epochNow s).toNat
    ++ leN 8 m.counter.toNat ++ leN 8 m.lastFlip.toNat ++ leN 4 m.lastFlipEpoch.toNat ++ leN 4 m.phase ++ leN 1 pm ++ zeros 3
    ++ leN 4 ca ++ leN 4 m.slots.toNat ++ leN 2 (min 65535 m.still) ++ leN 1 (b2n m.calmAuto) ++ zeros 1

def execModeStatus (t : Nat) (r : CmdRef) (s : State) : Res :=
  verb 0x0802 t r s fun c s => reply c (modeStatusBytes s) s

/-- MODE_CALM_SET (R219); on the distaff it returns STATE (R425). -/
def modeCalmSet (c : Cmd) (s : State) : State :=
  let en := field c.payload 0 1
  let n := field c.payload 2 2
  let frames := if n == 0 then 120 else n
  if 1 < en || n == 1 then done c stRANGE s
  else if isDistaff s then done c stSTATE s
  else if en == 1 && (s.place.profile == 3 || 1 < modeN s.mode.mode || !modeOn s) then done c stSTATE s
  else
    done c stOK { s with mode := { s.mode with
      calmAuto := en == 1, stillFrames := frames, still := if frames == s.mode.stillFrames then s.mode.still else 0 } }

def execModeCalmSet (t : Nat) (r : CmdRef) (s : State) : Res := verb 0x0803 t r s modeCalmSet

/-- MODE_CALM_EXIT (R218, R219). The distaff leaves Calm only with its active, and answers STATE (R425). -/
def execModeCalmExit (t : Nat) (r : CmdRef) (s : State) : Res :=
  verb 0x0804 t r s fun c s =>
    if s.mode.calm && s.mode.wakeAt.isNone && !isDistaff s then calmWakeFrom c.takenAt 0 (done c stOK s) else done c stSTATE s

end Sys2Proof.Machine
end

