-- ==== Sys2Proof/Machine/Link.lean ====
section
/-! DEFINITION. The link layer's moves: transmit (R232, R234, R264), what tiles answer (R238, R239, R241 to R250), and the
LINK commands (R255 to R257). -/

namespace Sys2Proof.Machine

/-! ## Transmit (R232, R264, R271, R272) -/

/-- A port's line is idle and may start a frame: not while it retrains. -/
def lineIdle (s : State) (p : Nat) : Bool :=
  let q := portOf s p
  decide (q.busyUntil ≤ s.now) && !(match q.req with | some r => r.retrain | none => false)

/-- A waiting frame may start now: pause defers a standard port's frames (R263), and a chain being enumerated sends no
skein, COMMIT or PROBE (R242). -/
def eligible (s : State) (p : Nat) (f : TxFrame) : Bool :=
  let q := portOf s p
  let held := match f.kind with | .skein _ _ _ => true | .commit _ => true | .probe => true | _ => false
  if q.role == 1 && s.now < q.pausedUntil then false
  else if held then (match endOfPort s p with | some (c, _) => chainReady s c.chain | none => false)
  else true

/-- The record, chain and end of a skein's tile. -/
def skeinPlace (s : State) (tile : Nat) : Option (WallImg × TileRec × ChainRec × Bool) :=
  match s.wall.active with
  | none => none
  | some w => match tileOf w tile with
    | none => none
    | some r => match chainOf w r.chain with
      | some c => some (w, r, c, endOfTile s c r)
      | none => none

/-- A frame of a chain port or another starts: what its kind adds as it leaves, its counters and its timestamp. (DESIGN CHOICE, log 42) -/
def startFrame (p : Nat) (f : TxFrame) (s : State) : State :=
  let q := portOf s p
  let s := match f.tsId with | some id => stampTx p id s | none => s
  let s := match f.kind with
    | .commit copy => if copy == 0 then modLnk p (fun c => { c with commits := c.commits + 1 }) s else s
    | .safe _ => modLnk p (fun c => { c with safeSent := c.safeSent + 1 }) s
    | _ => s
  let f := match f.kind with
    | .commit _ => { f with body := f.body.take 24 ++ beN 8 (txStamp s p / 65536) ++ f.body.drop 32 }
    | _ => f
  let f := { f with head := frameHead p f }
  let s := put (.frame p f) (countTx true p f s)
  modPort p (fun k => { k with current := some f, busyUntil := s.now + lineNs q.speed (f.len + 8) }) s

/-- A skein's frame starts, made from the frame store; one whose last bit cannot leave before the guard is dropped
(R232). (DESIGN CHOICE, log 42) -/
def startSkein (p tile idx : Nat) (poll : Bool) (f : TxFrame) (s : State) : Option State :=
  match findSkein s tile idx, skeinPlace s tile with
  | some k, some (w, r, c, b) =>
    if f.epoch != s.link.epoch then none
    else
      let gen := (chainLk s c.chain).gen
      let (body, s') := skeinBody w c b p r k poll s
      let f := { f with body, len := ezLen body }
      let last := s.now + lineNs (portOf s p).speed (f.len + 8)
      if guardAt s < last then none
      else
        let s := modLnk p (fun n => if k.sends == 0 then { n with skeins := n.skeins + 1 }
          else { n with retries := n.retries + 1, polls := n.polls + (if poll then 1 else 0) }) s'
        let s := modSkein tile idx (fun q => { q with sends := q.sends + 1 }) s
        let all := (tileSkeins s tile).all fun q => decide (0 < q.sends)
        let s := if gen == 2 && all then modTile tile (fun t => { t with waitFrom := some last, polled := poll }) s else s
        some (startFrame p f s)
  | _, _ => none

/-- A skein's frame that cannot start by the guard any more: a first send or a resend is dropped for the epoch, and a POLL is
counted (R232, R238). -/
def skeinLate (p tile idx : Nat) (poll : Bool) (s : State) : State :=
  match findSkein s tile idx with
  | none => s
  | some k =>
    if poll then modLnk p (fun n => { n with polls := n.polls + 1 }) s
    else if k.dropped then s
    else dropSkein p tile idx s

/-- The port starts the waiting frame of the highest class; frames that cannot start any more are dropped on the way.
(DESIGN CHOICE, log 42) -/
def transmit (p : Nat) : Nat → State → State
  | 0, s => s
  | n + 1, s =>
    let q := portOf s p
    match nextTx s (q.queue.filter (eligible s p)) with
    | none => s
    | some (f, _) =>
      let s := modPort p (fun k => { k with queue := dropFirst (· == f) k.queue, current := none }) s
      match f.kind with
      | .skein tile idx poll =>
        match startSkein p tile idx poll f s with
        | some s => s
        | none =>
          transmit p n (if f.epoch == s.link.epoch then skeinLate p tile idx poll s else s)
      | _ => startFrame p f s

/-- A port being disabled leaves service once its queue has drained, with its command's completion (R192, R275). -/
def portOff (p : Nat) (s : State) : State :=
  match (portOf s p).off with
  | none => s
  | some r =>
    let s := receiverOff p (modPort p (fun q => { q with off := none, queue := [], role := 0, req := none, pausedUntil := 0 }) s)
    finish r stOK 0 [] (portEvent p 0 2 (drainEnd 1 p s))

/-- A port's drain ends where nothing is left to send. -/
def portDrained (p : Nat) (s : State) : State :=
  let q := portOf s p
  if q.off.isSome && q.queue.isEmpty && q.busyUntil ≤ s.now then portOff p s else s

/-- FRAME_TRANSMIT_START (R264). -/
def transmitStart (p : Nat) (s : State) : State :=
  if 64 < p || !lineIdle s p || (portOf s p).retired then s
  else portDrained p (transmit p ((portOf s p).queue.length) (modPort p (fun q => { q with current := none }) s))

def execFrameTransmitStart (t port : Nat) (s : State) : Res := occurs t s (transmitStart port)

/-- The COMMIT copies of an epoch queued on every chain end in service that serves a tile (R234); none after R443 until
the release. -/
def commitCopy (copy : Nat) (s : State) : State :=
  let lead := if copy == 0 then 45000 else 42000
  if 1 < copy || !s.link.sending || s.now + lead < s.link.commitAt || s.fab.svcLevel != 2 || s.flt.hushed then s
  else forEach (allEnds s) s fun e s =>
    if hopsOf s e.1 e.2.1 == 0 || !chainReady s e.1.chain then s
    else
      let rest := beN 4 s.link.epoch.toNat ++ beN 8 s.link.commitAt ++ zeros 8
      queueTx e.2.2 (castEnd s e.1 e.2.1 2 copy (.commit copy) s.link.epoch (rest ++ zeros 4)) s

/-- At the retry guard every skein not yet sent is dropped for the epoch, with every resend that waits (R24, R232); a POLL that
waits is counted (R238). -/
def guardExpiry (s : State) : State :=
  if !s.link.sending || s.now < guardAt s then s
  else
    let late := s.link.skeins.filter fun k => k.sends == 0 && !k.dropped
    let resends := s.link.ports.flatMap fun e => e.2.queue.filterMap fun f => match f.kind with
      | .skein tile idx poll => if f.epoch == s.link.epoch && isResend s f then some (e.1, tile, idx, poll) else none
      | _ => none
    let s := forEach resends s fun q s => skeinLate q.1 q.2.1 q.2.2.1 q.2.2.2 s
    let s := forEach late s fun k s =>
      match s.wall.active with
      | none => s
      | some w => match (tileOf w k.tile).bind (servePort s w) with
        | some (_, _, p) => dropSkein p k.tile k.idx s
        | none => modSkein k.tile k.idx (fun q => { q with dropped := true }) s
    { s with link := { s.link with ports := kmap s.link.ports fun _ q => { q with queue := q.queue.filter (fun f =>
        match f.kind with | .skein _ _ _ => false | _ => true) } } }

def execCommitCopySend (t copy : Nat) (s : State) : Res := occurs t s (commitCopy copy)

def execSkeinGuardExpiry (t : Nat) (s : State) : Res := occurs t s guardExpiry

/-! ## Tile frames (R226, R238 to R241) -/

/-- The chain, end and tile that a received tile frame names, where the port is that end of that chain. -/
def tileOfHdr (s : State) (h : TileHdr) : Option (ChainRec × Bool × TileRec) :=
  match endOfPort s h.port with
  | some (c, b) =>
    if c.chain == h.chain && endNum b == h.toEnd then (tileAtHop s c b h.hop).map fun r => (c, b, r) else none
  | none => none

/-- A good tile frame handled: counted, handed to its tile where it names one, and its GEN, the tile's GEN_HI, noted (R226,
R243, R408, R421). (DESIGN CHOICE, log 41) -/
def tileFrame (h : TileHdr) (ty : Nat) (s : State) (f : ChainRec → Bool → TileRec → State → State) : State :=
  rxGate 2 h.port (max 64 (30 + h.len)) .multi (some ty) false false s fun s =>
    match tileOfHdr s h with
    | some (c, b, r) => genSeen h.gen (modTile r.tile (fun k => { k with genHi := h.gen.toNat }) (f c b r s))
    | none => s

/-- An ACK (R238). -/
def ackRx (h : TileHdr) (e : U32) (s : State) : State :=
  tileFrame h 3 s fun _ _ r s =>
    if e == s.link.epoch then modTile r.tile (fun k => { k with acked := true, waitFrom := none }) s else s

def execAckRx (t : Nat) (h : TileHdr) (epoch : U32) (_count : Nat) (s : State) : Res :=
  occurs t s (ackRx h epoch)

/-- A skein's frame waits on a port. -/
def skeinQueued (s : State) (p tile idx : Nat) : Bool :=
  (portOf s p).queue.any fun f => match f.kind with | .skein t i _ => t == tile && i == idx | _ => false

/-- A NAK: counted, and its missing skeins resent before the guard (R238, R239, R254). -/
def nakRx (h : TileHdr) (e : U32) (base : Nat) (missing : U64) (s : State) : State :=
  tileFrame h 4 s fun c _ r s =>
    let s := linkError h.port (modLnk h.port (fun n => { n with nakRx := n.nakRx + 1 }) s)
    if e != s.link.epoch || guardAt s ≤ s.now || (chainLk s c.chain).gen == 1 then s
    else
      let s := modTile r.tile (fun k => { k with waitFrom := none, polled := false }) s
      forEach (setBits 64 missing.toNat) s fun i s =>
        match findSkein s r.tile (base + i) with
        | some k => if k.sends == 0 || skeinQueued s h.port r.tile (base + i) then s else queueSkein k false s
        | none => s

def execNakRx (t : Nat) (h : TileHdr) (epoch : U32) (base : Nat) (missing : U64) (s : State) : Res :=
  occurs t s (nakRx h epoch base missing)

/-- ACK_WAIT has passed with neither ACK nor NAK: an unanswered POLL is a link error, and the highest skein is polled
(R238, R239). -/
def ackWait (tile : Nat) (s : State) : State :=
  match (tileLk s tile).waitFrom, skeinPlace s tile with
  | some from_, some (_, _, c, b) =>
    let k := tileLk s tile
    let wait := 10000 + 2 * ((offOf k b).getD 0) / 64
    if k.acked || s.now < from_ + wait then s
    else
      let p := portOfEnd c b
      let s := if k.polled then linkError p s else s
      let s := modTile tile (fun q => { q with waitFrom := none }) s
      if guardAt s ≤ s.now then modLnk p (fun n => { n with polls := n.polls + 1 }) s
      else match (tileSkeins s tile).getLast? with
        | some q => queueSkein q true s
        | none => s
  | _, _ => s

def execAckWaitExpiry (t tile : Nat) (s : State) : Res := occurs t s (ackWait tile)

/-- A tile frame with a generation newer than the device's (R257). -/
def genNewer (c : ChainRec) (g : U16) (tile : Nat) (s : State) : State :=
  if newerGen g.toNat s.twin.cgen.toNat then
    emit 0x0903 (leN 1 c.chain ++ zeros 1 ++ leN 2 g.toNat ++ leN 2 tile) s
  else s

/-! ## Enumeration (R242, R244, R246, R250, R254) -/

/-- A REPLY noted by its end (R242). -/
def replyNote (c : ChainRec) (endB : Bool) (r : Reply) (s : State) : State :=
  if (chainLk s c.chain).phase != 1 || r.hop == 0 || c.tiles < r.hop then s
  else modChain c.chain (fun k => if endB then { k with foundB := kset k.foundB r.hop r }
    else { k with foundA := kset k.foundA r.hop r }) s

/-- The hops answered without a gap from an end. -/
def reach (tiles : Nat) (found : KMap Reply) : Nat :=
  ((List.range tiles).find? fun i => !khas found (i + 1)).getD tiles

/-- The position after which a chain is broken as the answers to DISCOVER show it; 0 for a whole chain (R242, R250). A ring is
whole where every tile answers both ends: a DISCOVER then passes every cable from one end to the other. (DESIGN CHOICE, log 41) -/
def breakOf (s : State) (c : ChainRec) : Nat :=
  let k := chainLk s c.chain
  let ends := (upEnds s c).map (·.1)
  let a := reach c.tiles k.foundA
  let b := reach c.tiles k.foundB
  if ends.contains false && a != c.tiles then a
  else if ends.contains true && b != c.tiles then c.tiles - b
  else 0

/-- A MEASURE queued to a hop (R246). -/
def measure (c : ChainRec) (endB : Bool) (p hop : Nat) (s : State) : State :=
  let rest := beN 1 3 ++ zeros 1 ++ beN 2 s.link.seq.toNat
  queueTx p (uniEnd s c endB hop 6 .measure rest) { s with link := { s.link with seq := s.link.seq + 1 } }

/-- The collection of REPLYs ends after 2 ms: the chain's generation and break, the SERIALs, and 16 MEASUREs to every tile
found, from each end (R242, R305). -/
def collectEnd (chain : Nat) (s : State) : State :=
  match s.wall.active.bind (fun w => chainOf w chain) with
  | none => s
  | some c =>
    let k := chainLk s chain
    if k.phase != 1 || s.now < k.began + 2000000 then s
    else
      let replies := (List.range c.tiles).filterMap fun i =>
        match kget? k.foundA (i + 1) with
        | some r => some (i + 1, r)
        | none => (kget? k.foundB (hopPos c true (i + 1))).map fun r => (i + 1, r)
      let old := replies.any fun q => q.2.maxVer ≤ 1
      let gen := if old then 1 else chainGen s c
      let s := modChain chain (fun q => { q with gen, gen1Tile := old, brk := breakOf s c, phase := 2 }) s
      let s := forEach ((s.wall.active.map fun w => chainTiles w chain).getD []) s fun r s =>
        match replies.find? (fun q => q.1 == r.pos) with
        | some q => modTile r.tile (fun t => { t with reply := some q.2 }) (tileSerial r.tile q.2.serial s)
        | none => modTile r.tile (fun t => { t with reply := none }) s
      forEach (upEnds s c) s fun e s =>
        let hops := (if e.1 then k.foundB else k.foundA).map (·.1)
        forEach hops s fun h s => forEach (List.range 16) s fun _ s => measure c e.1 e.2 h s

def execDiscoverCollectEnd (t chain : Nat) (s : State) : Res := occurs t s (collectEnd chain)

/-- OFFSET from the samples of an end in units of 2^-6 ns, rounded (R244, R254). -/
def offsetOf (s : State) (c : ChainRec) (endB : Bool) (hop : Nat) (samples : List Int) : Nat :=
  let k := chainLk s c.chain
  let sp := (portOf s (portOfEnd c endB)).speed
  let n : Int := samples.length
  let lat : Int := if k.gen == 1 then 0
    else (latSum s c endB hop (fun q => q.latR.getD sp 0) : Int) - (latSum s c endB hop (fun q => q.latF.getD sp 0) : Int)
  if n == 0 then 0 else ((samples.sum - n * lat + n) / (2 * n)).toNat

/-- The samples kept of a hop. -/
def samplesOf (k : ChainLink) (endB : Bool) (hop : Nat) : List Int :=
  kgetD (if endB then k.sampB else k.sampA) hop []

/-- An OFFSET message to a hop (R246). -/
def sendOffset (c : ChainRec) (endB : Bool) (p hop v : Nat) (s : State) : State :=
  queueTx p (uniEnd s c endB hop 6 .offset (beN 1 5 ++ zeros 3 ++ beN 4 v)) s

/-- An ECHO: a sample of its tile; in rotation the OFFSET is sent while it moves by less than 0.5 ns (R244). -/
def echoRx (h : TileHdr) (turn rtt : Nat) (s : State) : State :=
  tileFrame h 6 s fun c b r s =>
    let k := chainLk s c.chain
    let l := (samplesOf k b h.hop ++ [(rtt : Int) - (turn : Int)])
    let l := l.drop (l.length - 16)
    let s := modChain c.chain (fun q => if b then { q with sampB := kset q.sampB h.hop l }
      else { q with sampA := kset q.sampA h.hop l }) s
    if k.phase != 0 then s
    else match offOf (tileLk s r.tile) b with
      | none => s
      | some o =>
        let v := offsetOf s c b h.hop l
        if v == o || o + 32 ≤ v || v + 32 ≤ o then s
        else sendOffset c b h.port h.hop v (setOff r.tile b (some v) s)

def execEchoRx (t : Nat) (h : TileHdr) (_seq : U16) (turn rtt : Nat) (s : State) : Res :=
  occurs t s (echoRx h turn rtt)

/-- One MEASURE in rotation on a chain end, every 1 ms (R244). -/
def measureRotate (p : Nat) (s : State) : State :=
  match endOfPort s p with
  | none => s
  | some (c, b) =>
    let k := chainLk s c.chain
    let hops := (if b then k.foundB else k.foundA).map (·.1)
    let i := (portOf s p).measureNext
    if !chainReady s c.chain || !chainUp s p || hops.isEmpty then s
    else measure c b p (hops.getD (i % hops.length) 1) (modPort p (fun q => { q with measureNext := i + 1 }) s)

def execMeasureRotation (t port : Nat) (s : State) : Res := occurs t s (measureRotate port)

/-- Why a tile is excluded: 1 size, 2 format, 3 too far, 4 unreachable, 0 not at all (R242, R255). -/
def excludeCause (s : State) (c : ChainRec) (r : TileRec) : Nat :=
  match (tileLk s r.tile).reply with
  | none => 4
  | some q =>
    if q.width != r.w || q.height != r.h then 1
    else if !bit q.formats c.format then 2
    else match offOf (tileLk s r.tile) (endOfTile s c r) with
      | some o => if 40000 * 64 < o then 3 else 0
      | none => 0

/-- ASSIGN to a tile from an end (R246). -/
def assign (c : ChainRec) (endB : Bool) (p : Nat) (r : TileRec) (s : State) : State :=
  let hop := hopPos c endB r.pos
  let off := (offOf (tileLk s r.tile) endB).getD 0
  let rest := beN 1 2 ++ zeros 1 ++ beN 2 r.tile ++ beN 1 r.pos ++ beN 1 c.tiles ++ beN 1 c.format ++ zeros 1 ++ beN 4 off
    ++ zeros 4
  queueTx p (uniEnd s c endB hop 6 .assign rest) s

/-- A tile's STATE and CAUSE set, with TILE_STATE on a change (R257). -/
def tileSet (tile st cause : Nat) (s : State) : State :=
  let k := tileLk s tile
  let s := modTile tile (fun q => { q with state := st, cause, holds := 0 }) s
  if k.state == st && k.cause == cause then s else emit 0x0902 (leN 2 tile ++ leN 1 st ++ leN 1 cause) s

/-- An enumeration finishes: OFFSETs, exclusions, ASSIGN, and CHAIN_STATE (R242, R254, R257). (DESIGN CHOICE, log 41) -/
def enumDone (chain : Nat) (s : State) : State :=
  match s.wall.active with
  | none => s
  | some w => match chainOf w chain with
    | none => s
    | some c =>
      if (chainLk s chain).phase != 2 then s
      else
        let tiles := chainTiles w chain
        let ends := upEnds s c
        let s := forEach tiles s fun r s => forEach ends s fun e s =>
          let hop := hopPos c e.1 r.pos
          let l := samplesOf (chainLk s chain) e.1 hop
          setOff r.tile e.1 (if l.isEmpty then none else some (offsetOf s c e.1 hop l)) s
        let s := forEach tiles s fun r s =>
          let cause := excludeCause s c r
          tileSet r.tile (if cause == 0 then 1 else 2) cause s
        let good := tiles.filter fun r => (tileLk s r.tile).state == 1
        let s := forEach good s fun r s => forEach ends s fun e s => assign c e.1 e.2 r s
        let k := chainLk s chain
        let st := if good.length == tiles.length then 2 else 3
        let s := chainEvent c (if k.gen1Tile then 5 else k.cause) (modChain chain (fun q => { q with state := st, phase := 0 }) s)
        -- the placement in force had to wait for its chain speeds (R265)
        if modeOn s then
          requestSpeeds { w with chains := [c] } s.place.profile s.mode.mode (boundaryFrom s (s.now + speedLead)) (splitOf s) s
        else s

/-! ## Speeds (R248, R266, R267) -/

/-- A CONFIRM; once every tile has confirmed the change is agreed, and it takes place at AT_TIME (R248). (DESIGN CHOICE, log 43) -/
def confirmRx (h : TileHdr) (speed : Nat) (s : State) : State :=
  tileFrame h 7 s fun _ _ _ s =>
    match (portOf s h.port).req with
    | none => s
    | some r =>
      if r.dest != speed || r.agreed || r.askedAt + 200000 < s.now then s
      else
        let got := if r.got.contains h.hop then r.got else r.got ++ [h.hop]
        speedsDue (modPort h.port (fun q => { q with req := some { r with got, agreed := r.need.all got.contains } }) s)

def execSpeedConfirmRx (t : Nat) (h : TileHdr) (speed : Nat) (s : State) : Res := occurs t s fun s => confirmRx h speed (speedsDue s)

/-- A tile has not confirmed within 200 µs: CANCEL; a raise is asked again at each boundary (R248, R266). (DESIGN CHOICE, log 43) -/
def confirmTimeout (p : Nat) (s : State) : State :=
  match (portOf s p).req, endOfPort s p with
  | some r, some (c, b) =>
    if r.agreed || r.retrain || s.now < r.askedAt + 200000 then s
    else
      let rest := beN 1 2 ++ beN 1 r.dest ++ beN 2 0 ++ beN 8 r.at_
      let s := modPort p (fun q => { q with req := none, again := if r.rises then some r.dest else none
                                            speedCancels := q.speedCancels + 1 }) s
      portEvent p (portUpState s p) 5 (queueTx p (castEnd s c b 7 0 .speed 0 rest) s)
  | _, _ => s

def execSpeedConfirmTimeout (t port : Nat) (s : State) : Res := occurs t s fun s => confirmTimeout port (speedsDue s)

/-- The raises that were cancelled, asked again at a frame boundary (R266). (DESIGN CHOICE, log 43) -/
def raisesAgain (s : State) : State :=
  match s.wall.active with
  | none => s
  | some w => forEach (allEnds s) s fun e s =>
      match (portOf s e.2.2).again with
      | some v =>
        if (portOf s e.2.2).req.isSome || !controls s then s
        else requestSpeed w e.1 e.2.1 (splitOf s e.1) v (nextBoundary s) s
      | none => s

/-- The line is up again at its new speed: a standard port has lock again, and a chain end sends every tile its new OFFSET (R244, R248, R267).
(DESIGN CHOICE, log 43) -/
def retrained (p : Nat) (s : State) : State :=
  match (portOf s p).req with
  | none => s
  | some r =>
    if !r.retrain then s
    else
      let up := (portOf s p).role == 1 && !(portOf s p).lock
      let s := modPort p (fun q => { q with req := none, lock := q.lock || up, signal := q.signal || up
                                            lastChange := if up then s.now else q.lastChange }) s
      let s := if up then portEvent p 1 0 s else s
      match s.wall.active, endOfPort s p with
      | some w, some (c, b) =>
        forEach (chainTiles w c.chain) s fun t s =>
          match offOf (tileLk s t.tile) b with
          | some o => if (tileLk s t.tile).state == 1 then sendOffset c b p (hopPos c b t.pos) o s else s
          | none => s
      | _, _ => s

def execLineRetrained (t port : Nat) (s : State) : Res := occurs t s fun s => retrained port (speedsDue s)

/-! ## LINK commands (R255, R256) -/

/-- The chain of the active wall that a command names. -/
def activeChain (s : State) (n : Nat) : Option ChainRec := s.wall.active.bind fun w => chainOf w n

/-- The largest OFFSET of a chain's tiles from an end. -/
def maxOffset (s : State) (c : ChainRec) (endB : Bool) : Nat :=
  match s.wall.active with
  | none => 0
  | some w => ((chainTiles w c.chain).map fun r => (offOf (tileLk s r.tile) endB).getD 0).foldl max 0

/-- The speed of an end as PLACE_REPORT codes it. -/
def endSpeedCode (s : State) (c : ChainRec) (endB : Bool) : Nat :=
  match s.wall.active with
  | none => 0xFF
  | some w => if (endTiles w c.chain (splitOf s c) endB).isEmpty || (endB && c.portB == 0xFF) then 0xFF
    else (portOf s (portOfEnd c endB)).speed

/-- LINK_STATUS's response. -/
def linkStatusBytes (s : State) (c : ChainRec) : Bytes :=
  let k := chainLk s c.chain
  leN 1 c.chain ++ leN 1 k.state ++ leN 1 k.gen ++ leN 1 (splitOf s c) ++ leN 1 k.foundA.length ++ leN 1 k.foundB.length
    ++ leN 1 k.brk ++ leN 1 (excludedTiles s c).length ++ leN 2 (pps c.format s.place.profile)
    ++ leN 1 (endSpeedCode s c false) ++ leN 1 (endSpeedCode s c true) ++ leN 4 (maxOffset s c false)
    ++ leN 4 (maxOffset s c true) ++ leN 2 s.twin.cgen.toNat ++ zeros 10

def execLinkStatus (t : Nat) (r : CmdRef) (s : State) : Res :=
  verb 0x0901 t r s fun c s =>
    match activeChain s (field c.payload 0 1) with
    | some k => reply c (linkStatusBytes s k) s
    | none => done c stNOTFOUND s

def execLinkEnum (t : Nat) (r : CmdRef) (s : State) : Res :=
  verb 0x0902 t r s fun c s =>
    match activeChain s (field c.payload 0 1) with
    | some k => if (chainLk s k.chain).phase != 0 then done c stSTATE s else startEnum k 3 (done c stACCEPTED s)
    | none => done c stNOTFOUND s

/-- LINK_TILE's response. -/
def linkTileBytes (s : State) (w : WallImg) (r : TileRec) : Bytes :=
  let k := tileLk s r.tile
  let q := k.reply
  let (serve, hopB) := match chainOf w r.chain with
    | some c => (if (servePort s w r).isSome then endNum (endOfTile s c r) else 0xFF,
                 if c.portB == 0xFF then 0 else hopPos c true r.pos)
    | none => (0xFF, 0)
  let n (f : Reply → Nat) : Nat := match q with | some x => f x | none => 0
  leN 2 r.tile ++ leN 1 r.chain ++ leN 1 r.pos ++ leN 1 k.state ++ leN 1 k.cause ++ leN 1 (n (·.maxVer)) ++ leN 1 serve
    ++ leN 4 (n (·.vendor.toNat)) ++ leN 4 (n (·.model.toNat)) ++ leN 8 (n (·.serial.toNat)) ++ leN 1 r.pos ++ leN 1 hopB
    ++ zeros 2 ++ leN 4 (k.offA.getD 0) ++ leN 4 (k.offB.getD 0) ++ leN 4 k.lastEpoch.toNat ++ leN 2 (twos 16 k.temp)
    ++ leN 2 (min 65535 k.holds) ++ leN 8 k.lastReport ++ leN 2 k.genHi ++ zeros 10

def execLinkTile (t : Nat) (r : CmdRef) (s : State) : Res :=
  verb 0x0903 t r s fun c s =>
    match s.wall.active with
    | none => done c stNOTFOUND s
    | some w => match tileOf w (field c.payload 0 2) with
      | some r => reply c (linkTileBytes s w r) s
      | none => done c stNOTFOUND s

/-- LINK_COUNTERS's response (R256). -/
def linkCounterBytes (k : LinkCnt) : Bytes :=
  leN 8 k.skeins.toNat ++ leN 4 k.retries.toNat ++ leN 4 k.nakRx.toNat ++ leN 4 k.polls.toNat ++ leN 4 k.dropped.toNat
    ++ leN 4 k.invalidPly.toNat ++ leN 4 k.poisonPly.toNat ++ leN 4 k.commits.toNat ++ leN 4 k.holds.toNat
    ++ leN 4 k.reports.toNat ++ leN 4 k.linkErr.toNat ++ leN 4 k.safeSent.toNat ++ leN 4 k.abortedTx.toNat
    ++ leN 4 k.unknown.toNat ++ zeros 4

def execLinkCounters (t : Nat) (r : CmdRef) (s : State) : Res :=
  verb 0x0904 t r s fun c s =>
    let p := field c.payload 0 1
    if 63 < p then done c stRANGE s else reply c (linkCounterBytes (portOf s p).lnk) s

def execLinkGenSet (t : Nat) (r : CmdRef) (s : State) : Res :=
  verb 0x0905 t r s fun c s =>
    let p := field c.payload 0 1
    let g := field c.payload 1 1
    if 63 < p || g == 0 || 2 < g then done c stRANGE s
    else done c stOK (modPort p (fun q => { q with linkgen := some g }) s)

end Sys2Proof.Machine
end

