-- ==== Sys2Proof/Machine/Ports.lean ====
section
/-! DEFINITION. The ports (R258 to R276): PORT commands, pause, lock, and received frames that no other step takes. -/

namespace Sys2Proof.Machine

/-! ## PORT commands (R275) -/

/-- The active wall's chain and end of a port, whoever's it is. -/
def chainPort (s : State) (p : Nat) : Option (WallImg × ChainRec × Bool) :=
  match s.wall.active with
  | none => none
  | some w => (chainOfPort w p).map fun q => (w, q.1, !q.2)

/-- A chain port's fixed speed is not common to its end, or its load exceeds 85 %. -/
def fixedBad (s : State) (p speed : Nat) : Bool :=
  match chainPort s p with
  | some (w, c, b) => speed != 0xFF && !fixedStands s w c (splitOf s c) b s.place.profile s.mode.mode speed
  | none => speed == 0xFF

/-- PORT_CONFIG (R267, R275). (DESIGN CHOICE, log 65) -/
def portConfig (c : Cmd) (s : State) : State :=
  let b := c.payload
  let p := field b 0 1
  let en := field b 1 1
  let speed := field b 2 1
  let an := bit (field b 3 1) 0
  let ph := bit (field b 3 1) 1
  let rx := sfield b 4 4
  let tx := sfield b 8 4
  let lim : Int := 6400000
  let chain := (chainPort s p).isSome
  let q := portOf s p
  if 63 < p || 1 < en || (3 < speed && speed != 0xFF) || (an && speed != 3) || (ph && chain) || fixedBad s p speed
      || rx < -lim || lim < rx || tx < -lim || lim < tx then done c stRANGE s
  else if (en == 0 && (chain || portServes s p)) || q.req.isSome || q.off.isSome then done c stSTATE s
  else
    let set (s : State) : State := modPort p (fun q => { q with
      enabled := en == 1, cfg := speed, suspended := false, an, pauseHonour := ph, rxExtra := rx, txExtra := tx
      anDone := q.anDone && an && speed == 3 }) s
    if en == 0 then
      if q.role == 0 then done c stOK (set s)
      else portDrained p (drainStart 1 p (modPort p (fun q => { q with off := some c.ref }) (park c (set s))))
    else
      let s := set s
      if chain then done c stOK s
      else
        let up := q.role == 0
        let s := modPort p (fun q => { q with role := 1 }) s
        let s := if q.speed == speed then (if up then portEvent p (portUpState s p) 2 s else s)
          else
            let s := modPort p (fun q => { q with
              speed, speedChanges := if up then q.speedChanges else q.speedChanges + 1
              req := some { dest := speed, at_ := s.now, askedAt := s.now, agreed := true, retrain := true }
              lock := false, lastChange := if q.lock then s.now else q.lastChange }) s
            portEvent p 0 2 s
        done c stOK s

def execPortConfig (t : Nat) (r : CmdRef) (s : State) : Res := verbF 0x0A01 t r s portConfig

/-- PORT_STATUS's response. -/
def portStatusBytes (s : State) (p : Nat) : Bytes :=
  let q := portOf s p
  leN 1 p ++ leN 1 q.role ++ leN 1 q.speed ++ leN 1 q.cfg ++ leN 4 (pstat s p) ++ leN 4 q.lockLosses.toNat
    ++ leN 4 (kgetD s.link.ts (tsGroupOf p) {}).lost.toNat ++ leN 4 q.speedChanges.toNat ++ leN 4 q.speedCancels.toNat
    ++ leN 8 q.lastChange

def execPortStatus (t : Nat) (r : CmdRef) (s : State) : Res :=
  verb 0x0A02 t r s fun c s =>
    let p := field c.payload 0 1
    if 64 < p then done c stRANGE s else reply c (portStatusBytes s p) s

def execPortCounters (t : Nat) (r : CmdRef) (s : State) : Res :=
  verb 0x0A03 t r s fun c s =>
    let p := field c.payload 0 1
    if 64 < p then done c stRANGE s
    else reply c ((List.range 59).flatMap fun n => leN 8 (kgetD (portOf s p).cnt n 0)) s

/-! ## Pause (R263) -/

/-- A MAC control frame, which the MAC keeps: a pause frame is counted as one, and a standard port with PAUSE_HONOUR defers for
the quanta of opcode 0x0001. A retired port discards it. (DESIGN CHOICE, log 44) -/
def pauseFrame (p opcode quanta : Nat) (s : State) : State :=
  let q := portOf s p
  if !hears s p then s
  else
    let s := countRx p 64 .multi none false (opcode == 0x0001 || opcode == 0x0101) s
    if q.retired then bumpCnt p 32 1 s
    else if q.role == 1 && q.pauseHonour && opcode == 1 then
      modPort p (fun q => { q with pausedUntil := s.now + quanta * 512 * 1000000000 / lineRate q.speed }) s
    else s

def execPauseFrame (t port opcode quanta : Nat) (s : State) : Res :=
  happens t s fun s => if port < 64 then pauseFrame port opcode quanta s else s

def execPauseQuantaExpiry (t port : Nat) (s : State) : Res :=
  happens t s fun s =>
    if (portOf s port).pausedUntil ≤ s.now then modPort port (fun q => { q with pausedUntil := 0 }) s else s

/-! ## Lock (R270, R273, R436) -/

/-- A port's receiver state changes. A loss of lock of 10 ms or less counts in LOCK_LOSSES once it ends; a chain end that
gains lock and has not been in service is enumerated (R242). -/
def lockSet (p : Nat) (lock signal anDone : Bool) (s : State) : State :=
  let q := portOf s p
  if q.role == 0 && p != 64 then s
  else
    let s := modPort p (fun k => { k with lock, signal, anDone := anDone && k.an && k.speed == 3
                                          lastChange := if k.lock == lock then k.lastChange else s.now }) s
    if q.lock == lock then s
    else
      let s := portEvent p (if q.retired then 2 else b2n lock) 0 s
      if !lock then { s with flt := { s.flt with lockLostAt := kset s.flt.lockLostAt p s.now } }
      else
        let lost := kget? s.flt.lockLostAt p
        let short := match lost with | some a => decide (s.now ≤ a + 10000000) | none => false
        let s := { s with flt := { s.flt with lockLostAt := kerase s.flt.lockLostAt p } }
        let s := if short then modPort p (fun k => { k with lockLosses := k.lockLosses + 1 }) s else s
        match endOfPort s p with
        | some (c, _) => if short || q.retired then s else startEnum c 2 s
        | none => s

def execLockChange (t port : Nat) (lock signal anDone : Bool) (s : State) : Res :=
  occurs t s fun s => if port ≤ 64 then lockSet port lock signal anDone s else s

/-- A loss of lock has lasted more than 10 ms (R436). -/
def lockLost (p : Nat) (s : State) : State :=
  match kget? s.flt.lockLostAt p with
  | some a =>
    if 64 ≤ p || s.now < a + 10000000 then s
    else raise (0x1C00 + p) 2 [((s.now - a : Nat) : Int)]
      { s with flt := { s.flt with lockLostAt := kerase s.flt.lockLostAt p } }
  | none => s

def execLockLossTimeout (t port : Nat) (s : State) : Res := occurs t s (lockLost port)

/-- VOUT_3V3 and VOUT_1V8 are on: in Run, Calm or Doze, from W1 of a wake or stage B0, and in a last gasp until its end; they are
off in Sleep, Deep Sleep and during reset (R511). -/
def voutOn (s : State) : Bool :=
  !s.boot.low && (decide (s.power.st ≤ 2) || (decide (s.power.st ≤ 4) && s.power.wake.isSome))

/-- VMOD`g` is on: as VOUT, but only while one of its ports is not Off, for VMOD7 also while twin operation is enabled, and not
from 20 µs after the start of a last gasp (R511). -/
def vmodOn (s : State) (g : Nat) : Bool :=
  voutOn s && (match s.power.gasp with | some t0 => decide (s.now < t0 + 20000) | none => true)
    && (((List.range 8).any fun k => (portOf s (8 * g + k)).role != 0) || (g == 7 && s.twin.enabled))

/-- A board output folds back or recovers: the modules of its ports lose power, and their links with it (R436, R511). -/
def foldBack (g : Nat) (folded : Bool) (s : State) : State :=
  let l := s.power.foldBack.filter (· != g)
  let s := { s with power := { s.power with foldBack := if folded then l ++ [g] else l } }
  if !folded then s
  else
    let ports := ((List.range 8).map (8 * g + ·)) ++ (if g == 7 then [64] else [])
    forEach (ports.filter fun p => (portOf s p).lock) s fun p s => lockSet p false false false s

def execVmodFoldBack (t g : Nat) (folded : Bool) (s : State) : Res :=
  occurs t s fun s => if g < 8 && vmodOn s g then foldBack g folded s else s

/-! ## Received frames (R107, R109, R227, R268, R436) -/

/-- The counter of a receive error (R268). -/
def errCounter (e : RxErr) : Nat :=
  match e with | .symbol => 29 | .align => 30 | .runt => 26 | .jabber => 27 | .fcs => 25 | .length => 28

/-- A frame that no other step takes: counted, and discarded; an error is a link error of a standard port, and of a chain
port where an Ezond frame's FCS failed (R239, R436). (DESIGN CHOICE, log 44) -/
def receivedFrame (f : RxFrame) (s : State) : State :=
  let role := roleAt s f.port
  match f.err with
  | some e =>
    if !hears s f.port then s
    else
      let s := rxError f.port (errCounter e) s
      if role == 2 && e == .fcs && f.ez.isSome then linkError f.port s else s
  | none =>
    if f.pause then (if hears s f.port then (let s := countRx f.port f.len f.cast none false true s
                                             if (portOf s f.port).retired then bumpCnt f.port 32 1 s else s) else s)
    else rxGate role f.port f.len f.cast f.ez f.ptp f.video s fun s =>
      let other := match f.ez with | some ty => ty == 0 || decide (11 < ty) | none => false
      if role == 2 && other then modLnk f.port (fun n => { n with unknown := n.unknown + 1 }) s
      else if role == 1 && f.ez.isNone && !f.ptp then unmatched f.port s
      else s

def execReceivedFrame (t : Nat) (f : RxFrame) (s : State) : Res :=
  occurs t s fun s => if f.port ≤ 64 then receivedFrame f s else s

end Sys2Proof.Machine
end

