-- ==== Sys2Proof/Machine/Time.lean ====
section
/-! DEFINITION. The time unit (R277 to R291, R297, R299): PTP messages, the servo and steps, frame lock, LTC, the RTC and time
triggers. -/

namespace Sys2Proof.Machine

/-- An Announce received (R278, R282). -/
def announceRx (a : Announce) (s : State) : State :=
  rxGate 1 a.port (if s.time.l2 then 82 else 110) .multi none true false s fun s =>
    if !ptpUp s a.port || a.domain != s.time.domain then s
    else
      let q := kgetD s.time.ports a.port {}
      let within := decide (s.now ≤ q.heardAt + 4 * pow2s s.time.logAnn)
      let same := match q.best with | some b => b.srcId == a.srcId | none => false
      let better := match q.best with | some b => keyLt (announceKey a) (announceKey b) | none => true
      if same || better || !within then
        let q' : PtpPort := { q with best := some a, heardAt := s.now, count := if same && within then q.count + 1 else 1 }
        selectMaster (modTime (fun k => { k with ports := kset k.ports a.port q' }) s)
      else s

def execPtpAnnounceRx (t : Nat) (a : Announce) (s : State) : Res := occurs t s (announceRx a)

/-- A PTP port's announceReceiptTimeout (R277, R282). -/
def announceTimeout (p : Nat) (s : State) : State :=
  match kget? s.time.ports p with
  | none => s
  | some q =>
    if q.best.isNone || s.now < q.heardAt + s.time.timeout * pow2s s.time.logAnn then s
    else
      let s := modTime (fun k => { k with ports := kset k.ports p { q with best := none, count := 0 } }) s
      if s.time.slavePort == p then slaveGone s else s

def execAnnounceTimeout (t port : Nat) (s : State) : Res := occurs t s (announceTimeout port)

/-- The bytes of a PTP message on the wire. -/
def ptpLen (s : State) (k : PtpTx) : Nat :=
  let n := match k with | .announce => 64 + (if s.time.profile == 0 then 30 else 0) | _ => 44
  if s.time.l2 then max 64 (18 + n) else udpLen n

/-- An entry of a timestamp bobbin read by the time unit (R272, R279): its GAP discards every exchange with an older identifier; a
Sync's gets its Follow_Up, and a Delay_Req's gives the exchange its timestamp. (DESIGN CHOICE, log 44) -/
def tsEntry (e : TsEntry) (s : State) : State :=
  let i := (s.time.tsWait.takeWhile fun w => w.id != e.id).length
  let old := (s.time.tsWait.take i).filter fun w => w.at_.isNone && tsGroupOf w.port == tsGroupOf e.port
  let s := if e.gap then modTime (fun k => { k with tsWait := k.tsWait.filter (fun w => !old.contains w)
                                                    tsMissing := k.tsMissing + BitVec.ofNat 32 old.length }) s else s
  match s.time.tsWait.find? (fun w => w.id == e.id) with
  | none => s
  | some w =>
    if w.kind == .sync then
      queueTx w.port { kind := .ptp .followUp, len := ptpLen s .followUp }
        (modTime (fun k => { k with tsWait := k.tsWait.filter (· != w) }) s)
    else modTime (fun k => { k with tsWait := modFirst (fun v => v.id == e.id) (fun v => { v with at_ := some e.time }) k.tsWait }) s

/-- The time unit reads the entries of the timestamp bobbins in order, as it next works (R272). (DESIGN CHOICE, log 44) -/
def tsRead (s : State) : State :=
  let l := s.link.ts.flatMap fun e => e.2.entries
  forEach l { s with link := { s.link with ts := kmap s.link.ts fun _ g => { g with entries := [] } } } tsEntry

/-- A PTP message queued on a port (R277, R279): a master port sends Sync and Announce, the slave port Delay_Req. (PRESUMED, log 27) -/
def ptpSend (p : Nat) (k : PtpTx) (s : State) : State :=
  let s := tsRead s
  match kget? s.time.ports p with
  | none => s
  | some q =>
    let slave := s.time.slavePort == p
    let heard := q.best.isSome && 2 ≤ q.count
    let may := match k with
      | .delayReq => slave
      | .followUp => false
      | _ => s.time.role != 0 && !slave && !heard
    if !ptpUp s p || !may then s
    else
      let stamped := k != .announce && !q.oneStep
      let id := s.time.tsNext
      let s := if stamped then modTime (fun t => { t with tsNext := (id + 1) % 65536
                                                          tsWait := t.tsWait ++ [{ id, port := p, kind := k }] }) s else s
      queueTx p { kind := .ptp k, tsId := if stamped then some id else none, len := ptpLen s k } s

def execPtpMessageTx (t port : Nat) (k : PtpTx) (s : State) : Res := happens t s (ptpSend port k)

/-! ## Discipline and steps (R280, R281) -/

/-- TIME stepped (R281, R289): with a mode in force the next boundaries are those of the new time, and settling epochs run
to the first boundary at least a period on. (DESIGN CHOICE, log 3; DEDUCED, log 35) -/
def timeStep (s : State) : State :=
  let d := s.time.stepBy
  let now' := ((s.now : Int) + d).toNat
  let s := { s with now := now' }
  let s := modTime (fun k => { k with stepAt := none, stepBy := 0, steps := k.steps + 1, offset := 0
                                      rtcAt := ((k.rtcAt : Int) + d).toNat }) s
  let s := if modeOn s then
      let n := boundaryIdx s.mode.mode s.mode.phase (now' + 1)
      let on := boundaryOf s.mode.mode s.mode.phase (n - 1) == now'
      let shift (x : Nat) : Nat := ((x : Int) + d).toNat
      -- a pending change keeps its distance, and one due at the step takes effect at the next boundary
      let pend := s.mode.pending.map fun m =>
        { m with bc := boundaryOf s.mode.mode s.mode.phase (max n (boundaryIdx s.mode.mode s.mode.phase (shift m.bc))) }
      let trig (q : Trigger) : Trigger := if q.cause == 7 then
          (match pend with | some m => { q with at_ := m.bc - 8000000 } | none => q)
        else { q with at_ := shift q.at_ }
      { s with mode := { s.mode with n, settle := some (if on then n else n + 1), pending := pend }
               place := { s.place with triggers := s.place.triggers.map trig } }
    else s
  let e : U32 := match s.mode.settle with
    | some a => epochNow s + BitVec.ofNat 32 (a - s.mode.n + 1)
    | none => epochNow s
  mirror (emit 0x0B02 (leN 8 (twos 64 d) ++ leN 4 e.toNat) s)

/-- A frequency correction free within R281's limits. (DESIGN CHOICE, log 28) -/
def servo (s : State) : State :=
  let (d, s) := drawBelow 200001 s
  let recent := s.time.freqHist.filter fun e => decide (s.now < e.1 + 1000000000)
  let ref := match recent.head? with | some e => e.2 | none => s.time.freqPpb
  let f := clampI (ref - 10000) (ref + 10000) ((d : Int) - 100000)
  modTime (fun k => { k with freqPpb := f
                             freqHist := (k.freqHist.filter fun e => decide (s.now < e.1 + 16000000000)) ++ [(s.now, f)] }) s

/-- The third timestamp of an exchange: on a two-step port that of its Delay_Req's entry, none where it is lost or not yet there
(R279). -/
def delayStamp (x : PtpExchange) (s : State) : Option Int :=
  if (kgetD s.time.ports x.port {}).oneStep then some x.t3
  else match s.time.tsWait.find? (fun w => w.id == x.tsId && w.port == x.port && w.kind == .delayReq) with
    | some w => w.at_.map fun a => (a : Int)
    | none => none

/-- A Sync and Delay exchange on the slave port (R279, R280, R281). (DESIGN CHOICE, log 28) -/
def ptpExchange (x : PtpExchange) (s : State) : State :=
  rxGate 1 x.port (if s.time.l2 then 64 else 90) .multi none true false s fun s =>
    let s := tsRead s
    if !ptpUp s x.port || s.time.slavePort != x.port then s
    else match delayStamp x s with
    | none => s
    | some t3 =>
      let q := kgetD s.time.ports x.port {}
      let s := modTime (fun k => { k with tsWait := k.tsWait.filter fun w => !(w.id == x.tsId && w.kind == .delayReq) }) s
      let off := ((x.t2 - x.t1) - (x.t4 - t3)) / 2 - q.asym / 64
      let path := ((x.t2 - x.t1) + (x.t4 - t3)) / 2
      let mag := off.natAbs
      let s := modTime (fun k => { k with offset := off, meanPath := path.toNat }) s
      let s := servo s
      if s.time.step && 1000 * s.time.stepUs ≤ mag && s.time.stepAt.isNone then
        let s := modTime (fun k => { k with stepBy := -off, stepAt := some (boundaryFrom s (s.now + 1000000)) }) s
        if modeOn s then mirror s else timeStep s
      else
        let lr := if mag ≤ 100 then s.time.lockRun + 1 else 0
        let ov := if 1000 < mag then s.time.overRun + 1 else 0
        let s := mirror (modTime (fun k => { k with lockRun := lr, overRun := ov }) s)
        if s.time.state == 1 && 16 ≤ lr then timeState 2 s
        else if s.time.state == 2 && 4 ≤ ov then timeState 1 s
        else s

def execPtpEventRx (t : Nat) (x : PtpExchange) (s : State) : Res := occurs t s (ptpExchange x)

/-! ## Settings (R277, R297) -/

/-- An interval outside a profile's range. (DESIGN CHOICE, log 29) -/
def ptpRange (profile : Nat) (sync ann delay : Int) : Bool :=
  if profile == 0 then decide (-7 ≤ sync ∧ sync ≤ -1 ∧ -3 ≤ ann ∧ ann ≤ 1 ∧ -7 ≤ delay ∧ delay ≤ -1)
  else decide (-1 ≤ sync ∧ sync ≤ 1 ∧ 0 ≤ ann ∧ ann ≤ 4 ∧ -1 ≤ delay ∧ delay ≤ 5)

/-- The most PTP ports a role takes (R278). -/
def roleLimit (role : Nat) : Nat := if role == 2 then 16 else 1

/-- TIME_PTP_SET. (DESIGN CHOICE, log 29; DESIGN CHOICE, log 65) -/
def ptpSet (c : Cmd) (s : State) : State :=
  let p := c.payload
  let profile := field p 0 1
  let role := field p 1 1
  let domain := field p 2 1
  let sync := sfield p 5 1
  let ann := sfield p 6 1
  let delay := sfield p 7 1
  let timeout := field p 8 1
  let l2 := bit (field p 9 1) 1
  let bw := field p 10 2
  let step := field p 12 4
  if 1 < profile || 2 < role || 127 < domain || !ptpRange profile sync ann delay || timeout < 2 || 10 < timeout
      || (l2 && profile == 0) || (bw != 0 && (bw < 10 || 1000 < bw)) || 1000000 < step
      || roleLimit role < s.time.ports.length then done c stRANGE s
  else
    let change := profile != s.time.profile || role != s.time.role || domain != s.time.domain
    let s := modTime (fun k => { k with
      profile, role, domain, prio1 := field p 3 1, prio2 := field p 4 1, logSync := sync, logAnn := ann, logDelay := delay
      timeout, step := bit (field p 9 1) 0, l2, bandwidth := if bw == 0 then 100 else bw
      stepUs := if step == 0 then 1000 else step
      ports := if change then kmap k.ports (fun _ q => { q with best := none, count := 0 }) else k.ports }) s
    done c stOK (if change then masterLost s else s)

def execTimePtpSet (t : Nat) (r : CmdRef) (s : State) : Res := verbF 0x0B01 t r s ptpSet

/-- TIME_PTP_PORT. (DESIGN CHOICE, log 29) -/
def ptpPort (c : Cmd) (s : State) : State :=
  let p := c.payload
  let port := field p 0 1
  let en := field p 1 1
  let tx := field p 2 1
  let asym := sfield p 4 4
  let others := (kerase s.time.ports port).length
  if 63 < port || 1 < en || 1 < tx || asym < -64000000 || 64000000 < asym then done c stRANGE s
  else if en == 1 && ((portOf s port).role != 1 || roleLimit s.time.role ≤ others) then done c stSTATE s
  else if en == 0 then
    let s := modTime (fun k => { k with ports := kerase k.ports port }) s
    done c stOK (if s.time.slavePort == port then slaveGone s else s)
  else
    let q := kgetD s.time.ports port {}
    done c stOK (modTime (fun k => { k with ports := kset k.ports port { q with oneStep := tx == 1, asym } }) s)

def execTimePtpPort (t : Nat) (r : CmdRef) (s : State) : Res := verbF 0x0B02 t r s ptpPort

/-- A signed value held to `n` bits. -/
def satSigned (n : Nat) (v : Int) : Nat := twos n (clampI (-(2 ^ (n - 1) : Nat)) ((2 ^ (n - 1) : Nat) - 1) v)

/-- TIME_STATUS's response. -/
def timeStatusBytes (s : State) : Bytes :=
  let k := s.time
  leN 1 k.state ++ leN 1 k.slavePort ++ zeros 2 ++ leN 4 (satSigned 32 k.offset) ++ leN 8 s.now ++ leN 8 k.gmId.toNat
    ++ leN 4 k.meanPath ++ leN 4 (twos 32 k.freqPpb) ++ leN 4 (holdAge s) ++ leN 2 (twos 16 k.utcOffset) ++ leN 1 k.lockSource
    ++ leN 1 k.lockState ++ leN 1 k.ltcState ++ leN 1 k.ltcRate ++ zeros 2 ++ leN 4 k.ltcTc.toNat
    ++ leN 8 (rtcNs s / 1000000000) ++ leN 4 k.steps.toNat ++ leN 4 k.tsMissing.toNat

def execTimeStatus (t : Nat) (r : CmdRef) (s : State) : Res :=
  verb 0x0B03 t r s fun c s => reply c (timeStatusBytes s) s

/-! ## Frame lock (R284, R285) -/

/-- The phase of audio lock: OFFSET_NS rounded to the nearest sample instant, within the period (R283, R285). -/
def audioPhase (off : Int) (mode : Nat) : Nat :=
  let p : Int := periodNs mode
  let k := (off * 48 + 500000) / 1000000
  (((k * 1000000 + 24) / 48) % p).toNat

/-- TIME_LOCK. -/
def timeLock (c : Cmd) (s : State) : State :=
  let p := c.payload
  let src := field p 0 1
  let id := field p 2 2
  let off := sfield p 4 4
  let tol := field p 8 4
  let per : Int := periodNs s.mode.mode
  if 2 < src || (tol != 0 && (tol < 12000 || 1000000 < tol)) then done c stRANGE s
  else if !modeOn s || s.mode.pending.isSome then done c stSTATE s
  else if off < 1 - per || per - 1 < off || (src == 2 && 10 ≤ s.mode.mode && s.mode.mode ≤ 13) then done c stRANGE s
  else if src == 1 && !khas s.ing.videos id then done c stNOTFOUND s
  else
    let s := modTime (fun k => { k with lockSource := src, lockId := id, lockOffset := off
                                        lockTol := if tol == 0 then 20000 else tol, lockState := 0, lockRunOff := 0
                                        lockFirst := false, lockLastTv := none }) s
    let s := done c stOK s
    match src with
    | 0 => mirror s
    | 1 => mirror (setLock (match kget? s.ing.videos id with | some v => if v.lost then 4 else 2 | none => 4) s)
    | _ =>
      let ph := audioPhase off s.mode.mode
      if ph == s.mode.phase then mirror (setLock 1 s) else mirror (lockWakes s.mode.pending.isSome (relock ph (setLock 2 s)))

def execTimeLock (t : Nat) (r : CmdRef) (s : State) : Res := verbF 0x0B04 t r s timeLock

/-! ## Time triggers (R288 to R291) -/

/-- The instant of a trigger's next firing; none where its series counts boundaries and no mode is in force. (DESIGN CHOICE, log 31) -/
def trigAt (s : State) (q : TTrig) : Option Nat :=
  if q.base == 0 then some q.next
  else if modeOn s then some ((commitTimeI s (BitVec.ofNat 32 q.next) : Int) + q.offset).toNat
  else none

/-- How many instants of a trigger, from its next one, lie at or before this instant. (DESIGN CHOICE, log 31) -/
def trigPast (s : State) (q : TTrig) : Nat :=
  match trigAt s q with
  | none => 0
  | some a =>
    if q.spent || s.now < a then 0
    else if q.period == 0 then 1
    else if q.base == 0 then (s.now - a) / q.period + 1
    else
      let idx (x : Int) : Nat := boundaryIdx s.mode.mode s.mode.phase (x - q.offset).toNat
      (idx (s.now + 1) - 1 - idx a) / q.period + 1

/-- A trigger's action carried out once: a TRIGGER event, a GPIO driven, an integration of a colour sensor
started, or a converter frame started (R290, R299). (DESIGN CHOICE, log 31) -/
def trigFire (n : Nat) (s : State) : State :=
  match kget? s.time.trigs n with
  | none => s
  | some q =>
    let q := { q with inst := q.inst + 1, fired := true }
    let s := modTime (fun k => { k with trigs := kset k.trigs n q }) s
    match q.kind with
    | 0 => emit 0x0B03 (leN 1 n ++ zeros 3 ++ leN 4 q.inst.toNat ++ leN 4 q.missed.toNat) s
    | 3 =>
      let old := kgetD s.time.gpio q.target false
      let new := match q.action with | 0 => false | 1 => true | _ => !old
      put (.pin ("GPIO" ++ toString q.target) new) (modTime (fun k => { k with gpio := kset k.gpio q.target new }) s)
    | 2 => (match kget? s.health.sensors q.target with | some d => put (.i2c d.bus d.addr d.start) s | none => s)
    | _ => put .converter s

/-- A trigger's series moved on by `m` instants; one that fires once is over, but for a GPIO that it goes on driving until it is
cleared (R290). (DESIGN CHOICE, log 31) -/
def trigNext (n m : Nat) (s : State) : State :=
  match kget? s.time.trigs n with
  | none => s
  | some q =>
    let q := { q with next := q.next + m * q.period }
    let l := if q.period != 0 then kset s.time.trigs n q
      else if q.kind == 3 then kset s.time.trigs n { q with spent := true }
      else kerase s.time.trigs n
    modTime (fun k => { k with trigs := l }) s

/-- The instants due of a trigger, with their policy (R288, R289, R291): the state and the status and lateness. The instants
missed count before the late firing reports them. (DESIGN CHOICE, log 31) -/
def trigDue (n : Nat) (s : State) : State × Nat × Nat :=
  match kget? s.time.trigs n with
  | none => (s, stOK, 0)
  | some q =>
    let m := trigPast s q
    if m == 0 then (s, stOK, 0)
    else
      let late := s.now - (trigAt s q).getD s.now
      let (act, st) := latePolicy q.policy q.grace late
      let missed := if late ≤ q.grace then m - 1 else m
      let s := modTime (fun k => { k with trigs := kset k.trigs n { q with missed := q.missed + BitVec.ofNat 32 missed } }) s
      let s := if act then trigFire n s else s
      (trigNext n m s, st, late)

def execTriggerFire (t n : Nat) (s : State) : Res := happens t s fun s => (trigDue n s).1

/-- TIME_TRIGGER. (DESIGN CHOICE, log 31) -/
def timeTrigger (c : Cmd) (s : State) : State :=
  let p := c.payload
  let n := field p 0 1
  let kind := field p 1 1
  let base := field p 4 1
  let policy := if field p 5 1 == 0xFF then 1 else field p 5 1
  let period := field p 20 4
  let clear (s : State) : State :=
    match kget? s.time.trigs n with
    | some q =>
      let s := modTime (fun k => { k with trigs := kerase k.trigs n }) s
      if q.kind == 3 then modTime (fun k => { k with gpio := kerase k.gpio q.target }) s else s
    | none => s
  if 47 < n || (kind != 0 && kind != 3 && kind != 0xFF) then done c stRANGE s
  else if kind == 0xFF then done c stOK (clear s)
  else if 1 < base || 1 < policy || (kind == 3 && (31 < field p 2 1 || 2 < field p 3 1))
      || (base == 0 && period != 0 && (period < 1000 || 4000000000 < period)) || (base == 1 && 65535 < period) then
    done c stRANGE s
  else
    let q : TTrig := { kind, target := field p 2 1, action := field p 3 1, base, policy, at_ := field p 8 8
                       offset := if base == 1 then sfield p 16 4 else 0, period, grace := field p 24 4
                       next := if base == 1 then field p 8 4 else field p 8 8 }
    let s := modTime (fun k => { k with trigs := kset k.trigs n q }) (clear s)
    let s := if kind == 3 then
        put (.pin ("GPIO" ++ toString q.target) false) (modTime (fun k => { k with gpio := kset k.gpio q.target false }) s) else s
    let (s, st, late) := trigDue n s
    complete c st (if st == stOK then 0 else late) [] s

def execTimeTrigger (t : Nat) (r : CmdRef) (s : State) : Res := verb 0x0B05 t r s timeTrigger

/-! ## LTC (R286) -/

/-- The frames per second a timecode counts by, by rate code. -/
def ltcFps (rate : Nat) : Nat := match rate with | 1 => 24 | 2 => 25 | _ => 30

/-- A two-digit BCD field. -/
def bcd (v : Nat) : Nat := v / 16 % 16 * 10 + v % 16

/-- A timecode as frames from 00:00:00:00, drop-frame numbers counted as they are displayed (R286, R295). -/
def tcFrames (rate : Nat) (tc : U32) : Nat :=
  let v := tc.toNat
  let m := bcd (v / 65536 % 256)
  let total := 60 * bcd (v / 2 ^ 24) + m
  let raw := (60 * total + bcd (v / 256 % 256)) * ltcFps rate + bcd (v % 64)
  if rate == 3 then raw - 2 * (total - total / 10) else raw

/-- The frames of a day by rate. -/
def tcDay (rate : Nat) : Nat := if rate == 3 then 2589408 else 86400 * ltcFps rate

/-- The nominal frame period of LTC in ns, by rate code. -/
def ltcPeriod (rate : Nat) : Nat :=
  match rate with | 1 => 41666667 | 2 => 40000000 | 3 => 33366667 | _ => 33333333

/-- LTC_STATE emitted. -/
def ltcEvent (jump : Bool) (s : State) : State :=
  mirror (emit 0x0B04 (leN 1 s.time.ltcState ++ leN 1 s.time.ltcRate ++ leN 1 (b2n jump) ++ zeros 1 ++ leN 4 s.time.ltcTc.toNat
    ++ leN 8 s.time.ltcLatch) s)

/-- TIME_LTC_SET. -/
def ltcSet (c : Cmd) (s : State) : State :=
  let en := field c.payload 0 1
  let rate := field c.payload 1 1
  if 1 < en || 4 < rate then done c stRANGE s
  else
    let st := if en == 0 then 0 else if s.time.ltcOn && rate == s.time.ltcRateSet then s.time.ltcState else 1
    let old := s.time.ltcState
    let s := modTime (fun k => { k with ltcOn := en == 1, ltcRateSet := rate, ltcState := st
                                        ltcRate := if st == 2 then k.ltcRate else rate
                                        ltcRun := if st == old then k.ltcRun else 0
                                        ltcPrev := if st == old then k.ltcPrev else none }) s
    done c stOK (if st == old then s else ltcEvent false s)

def execTimeLtcSet (t : Nat) (r : CmdRef) (s : State) : Res := verb 0x0B06 t r s ltcSet

/-- An LTC word taken (R286): the decoder locks on the second of two consecutive words, and a word that does not follow its
predecessor is a jump. (DESIGN CHOICE, log 30) -/
def ltcTake (w : LtcWord) (s : State) : State :=
  if !s.time.ltcOn || w.rate == 0 || 4 < w.rate || (s.time.ltcRateSet != 0 && w.rate != s.time.ltcRateSet) then s
  else
    let follows := match s.time.ltcPrev with
      | some q => w.rate == s.time.ltcRate && (tcFrames w.rate q + 1) % tcDay w.rate == tcFrames w.rate w.tc
      | none => false
    let run := if follows then s.time.ltcRun + 1 else 1
    let locked := s.time.ltcState == 2
    let s := modTime (fun k => { k with ltcTc := w.tc, ltcRate := w.rate, ltcLatch := s.now, ltcPrev := some w.tc, ltcRun := run }) s
    if locked then (if follows then mirror s else ltcEvent true s)
    else if 2 ≤ run then ltcEvent false (modTime (fun k => { k with ltcState := 2 }) s)
    else mirror s

/-- LTC lost after 4 nominal frame periods with no valid word. -/
def ltcLost (s : State) : State :=
  if s.time.ltcState != 2 || s.now < s.time.ltcLatch + 4 * ltcPeriod s.time.ltcRate then s
  else ltcEvent false (modTime (fun k => { k with ltcState := 3, ltcRun := 0, ltcPrev := none }) s)

def execLtcLossTimeout (t : Nat) (s : State) : Res := happens t s ltcLost

/-! ## RTC (R287) -/

/-- A second of TIME: in LOCKED the RTC and the UTC offset are set from TIME and the master. (DESIGN CHOICE, log 30) -/
def rtcSecond (s : State) : State :=
  if s.time.state == 2 then
    let sec := s.now / 1000000000
    modTime (fun k => { k with rtcSec := sec, rtcAt := sec * 1000000000, rtcValid := true, utcOffset := k.gmUtc }) s
  else s

def execRtcSecond (t : Nat) (s : State) : Res := always t s rtcSecond

/-- TIME_RTC_SET. -/
def rtcSet (c : Cmd) (s : State) : State :=
  let p := c.payload
  let setT := bit (field p 0 1) 0
  let setA := bit (field p 0 1) 1
  let alarm := field p 4 4
  let tai := field p 8 8
  if setT && 2 ^ 48 ≤ tai then done c stRANGE s
  else if setT && s.time.state == 2 then done c stSTATE s
  else
    let s := if setT then modTime (fun k => { k with rtcSec := tai, rtcAt := s.now, rtcValid := true, utcOffset := sfield p 2 2 }) s
      else s
    let s := if setA then
        modTime (fun k => { k with alarm := if alarm == 0 then none else some (rtcNs s + alarm * 1000000000) }) s else s
    done c stOK s

def execTimeRtcSet (t : Nat) (r : CmdRef) (s : State) : Res := verb 0x0B07 t r s rtcSet

end Sys2Proof.Machine
end

