-- ==== Sys2Proof/Machine/Cue.lean ====
section
/-! DEFINITION. Cues (R292 to R294, R298), and the LTC words that fire them (R286, R289). -/

namespace Sys2Proof.Machine

/-- A cue changed. -/
def modCue (q : Nat) (f : Cue → Cue) (s : State) : State :=
  { s with time := { s.time with cues := kmod? s.time.cues q f } }

/-- The commit time of epoch E − 1, by the test of R126 for an epoch that has passed. -/
def cueCommit (s : State) (e : U32) : Nat :=
  let back := (epochNow s - e).toNat
  let d : Int := if back < 2 ^ 31 then -(back : Int) else ((e - epochNow s).toNat : Int)
  boundaryOf s.mode.mode s.mode.phase ((s.mode.n : Int) + d - 1).toNat

/-- The fire instant of a cue (R292); none for a timecode, and for an epoch with no mode in force. -/
def cueAt (s : State) (q : Cue) : Option Nat :=
  match q.when_ with
  | 0 => some q.at_
  | 1 => if modeOn s then some (cueCommit s (BitVec.ofNat 32 q.at_) - 1000 * q.leadUs) else none
  | _ => none

/-- The `i`-th embedded command of a cue starts on a TIMED thread, as if taken at this moment (R293). (DESIGN CHOICE, log 32) -/
def cueRun (n i : Nat) (q : Cue) (s : State) : State :=
  match q.cmds[i]? with
  | none => s
  | some (h, p) =>
    let c : Cmd := { ref := .cue n i, opcode := field h 0 2, ordered := true, payload := p, inband := q.from_
                     order := s.hif.cmdOrder, prio := 12, phase := .thread, takenAt := s.now }
    { s with cmds := s.cmds ++ [c], hif := { s.hif with cmdOrder := s.hif.cmdOrder + 1 } }

/-- CUE_DONE emitted, and the cue number freed (R293, R299). (DESIGN CHOICE, log 32) -/
def cueEnd (n : Nat) (q : Cue) (st : Nat) (s : State) : State :=
  let failed := match q.failed with | some (i, _) => i | none => 0xFF
  emit 0x0C01 (leN 2 n ++ leN 1 st ++ leN 1 failed ++ zeros 4 ++ leN 8 q.lateness)
    { s with time := { s.time with cues := kerase s.time.cues n } }

/-- The fire record of a cue written: its first command starts (R293). (DESIGN CHOICE, log 32) -/
def cueStart (n late : Nat) (isLate : Bool) (s : State) : State :=
  match kget? s.time.cues n with
  | none => s
  | some q =>
    let q := { q with state := 2, idx := 0, lateness := late, late := isLate, held := false }
    let k := s.sched.timed
    let s := { s with time := { s.time with cues := kset s.time.cues n q, fired := kset s.time.fired n s.now }
                      sched := { s.sched with timed := { k with busy := k.busy + 1, peak := max k.peak (k.busy + 1) } } }
    cueRun n 0 q s

/-- The epoch of the current period is one that is not woven: it settles, or the device is in Calm or Doze (R209). -/
def notWoven (s : State) : Bool := s.mode.settle.isSome || s.mode.calm || s.power.st == 2 || s.power.resumeAt.isSome || s.power.sleepEnum

/-- A cue falls due, `late` ns late (R288, R293). In an epoch that is not woven it waits for the first woven one, and in
Calm it wakes the device (R209, R217). (DESIGN CHOICE, log 32) -/
def cueDue (n late : Nat) (s : State) : State :=
  match kget? s.time.cues n with
  | none => s
  | some q =>
    if q.state != 1 || q.held then s
    else
      let (act, st) := latePolicy q.policy q.grace late
      if !act then cueEnd n { q with lateness := late } stPAST s
      else if notWoven s then calmWake 6 (modCue n (fun q => { q with held := true, lateness := late, late := st == stLATE }) s)
      else cueStart n late (st == stLATE) s

/-- The cues that fell due in epochs that were not woven start with the first woven epoch; those that were not late when
they fell due count as on time (R209). -/
def cuesHeld (s : State) : State :=
  forEach (s.time.cues.filter fun e => e.2.held) s fun e s => cueStart e.1 e.2.lateness e.2.late s

/-- A pending cue whose instant has come fires (R292, R293). (DESIGN CHOICE, log 32) -/
def cueFire (n : Nat) (s : State) : State :=
  match kget? s.time.cues n with
  | none => s
  | some q =>
    match cueAt s q with
    | none => s
    | some a => if s.now < a || 3 ≤ s.power.st || !s.hif.ready then s else cueDue n (s.now - a) s

def execCueFire (t cue : Nat) (s : State) : Res := happens t s (cueFire cue)

/-- A running cue's next command starts once the one before has completed; after the last, CUE_DONE (R293). -/
def cueCommandDone (n : Nat) (s : State) : State :=
  match kget? s.time.cues n with
  | none => s
  | some q =>
    if q.state != 2 || (findCmd (.cue n q.idx) s).isSome then s
    else if q.idx + 1 < q.cmds.length then
      cueRun n (q.idx + 1) q (modCue n (fun q => { q with idx := q.idx + 1 }) s)
    else
      let k := s.sched.timed
      let st := match q.failed with | some (_, st) => st | none => stOK
      cueEnd n q (if q.late then stLATE else st) { s with sched := { s.sched with timed := { k with busy := k.busy - 1 } } }

def execCueCommandDone (t cue : Nat) (s : State) : Res := happens t s (cueCommandDone cue)

/-! ## The CUE commands (R292, R298) -/

/-- The embedded commands of a payload, `n` of them from offset `o`, each with its offset (R298). -/
def cueCmds (p : Bytes) : Nat → Nat → List (Nat × Bytes × Bytes)
  | 0, _ => []
  | n + 1, o =>
    let len := field p (o + 4) 2
    (o, bytesAt p o 16, bytesAt p (o + 16) len) :: cueCmds p n (o + 16 + (len + 7) / 8 * 8)

/-- The first embedded command that fails R79: its KIND and FLT_ADDR, the latter counted in the payload of CUE_SCHEDULE.
(DESIGN CHOICE, log 32) -/
def cueViolation (l : List (Nat × Bytes × Bytes)) : Option (Nat × Nat) :=
  l.findSome? fun (o, h, b) =>
    match headerCheck h with
    | some (k, a) => some (k, 64 + o + a)
    | none => (payloadCheck layoutOf (field h 0 2) (field h 4 2) b).map fun (k, a) => (k, if k == 1 then 64 + o + 16 + (a - 64) else a)

/-- An embedded command that no cue may hold: one of the CUE or MBX group, or one with a DEADLINE. (DESIGN CHOICE, log 32) -/
def cueForbids (h : Bytes) : Bool :=
  field h 0 2 / 256 == 0x0C || field h 0 2 / 256 == 0x01 || (deadlineOf h 0).isSome

/-- The bytes of embedded commands that pending and running cues hold. -/
def cueBytes (s : State) : Nat := (s.time.cues.map fun e => e.2.bytes).sum

/-- CUE_SCHEDULE. -/
def cueSchedule (c : Cmd) (s : State) : State :=
  let p := c.payload
  let n := field p 0 2
  let policy := if field p 2 1 == 0xFF then 1 else field p 2 1
  let when_ := field p 3 1
  let lead := field p 16 4
  let cnt := field p 20 1
  let l := cueCmds p (min cnt 16) 24
  let bytes := p.length - 24
  match cueViolation l with
  | some (kind, addr) =>
    let (m, tag) := match c.ref with | .mbx m tag => (m, tag) | .cue _ _ => (0, 0)
    done c stVIOLATION (violate kind (BitVec.ofNat 32 addr) c.inband.isSome m tag s)
  | none =>
    if 511 < n || 1 < policy || 2 < when_ || cnt == 0 || 16 < cnt
        || (when_ == 1 && lead != 0 && (lead < 500 || 100000 < lead)) then done c stRANGE s
    else match l.find? (fun e => cueForbids e.2.1) with
    | some e => complete c stRANGE e.1 [] s
    | none =>
      if khas s.time.cues n then done c stSTATE s
      else if 512 ≤ s.time.cues.length || 524288 < cueBytes s + bytes then done c stBUSY s
      else
        let q : Cue := { policy, when_, grace := field p 4 4, at_ := field p 8 (if when_ == 0 then 8 else 4)
                         leadUs := if lead == 0 then 2000 else lead
                         cmds := l.map (fun e => e.2), bytes, from_ := c.inband }
        let s' := { s with time := { s.time with cues := kset s.time.cues n q, fired := kerase s.time.fired n } }
        match cueAt s q with
        | none => done c stACCEPTED s'
        | some a =>
          if s.now ≤ a then done c stACCEPTED s'
          else
            let late := s.now - a
            let (act, st) := latePolicy policy q.grace late
            if !act then complete c stPAST late [] s
            else if st == stLATE then cueDue n late (complete c stLATE late [] s')
            else cueDue n late (done c stACCEPTED s')

def execCueSchedule (t : Nat) (r : CmdRef) (s : State) : Res := verb 0x0C01 t r s cueSchedule

/-- CUE_CANCEL (R294). -/
def cueCancel (c : Cmd) (s : State) : State :=
  let n := field c.payload 0 2
  if n == 0xFFFF then
    done c stOK { s with time := { s.time with cues := kfilter s.time.cues fun _ q => q.state != 1 } }
  else match kget? s.time.cues n with
  | none => done c stNOTFOUND s
  | some q =>
    if q.state != 1 then done c stALREADY s
    else done c stOK { s with time := { s.time with cues := kerase s.time.cues n } }

def execCueCancel (t : Nat) (r : CmdRef) (s : State) : Res := verb 0x0C02 t r s cueCancel

/-- CUE_STATUS's response. -/
def cueStatusBytes (s : State) (n : Nat) : Bytes :=
  match kget? s.time.cues n with
  | none => zeros 16
  | some q => leN 1 q.state ++ leN 1 q.when_ ++ zeros 6 ++ leN 8 ((cueAt s q).getD 0)

def execCueStatus (t : Nat) (r : CmdRef) (s : State) : Res :=
  verb 0x0C03 t r s fun c s =>
    let n := field c.payload 0 2
    if 511 < n then done c stRANGE s else reply c (cueStatusBytes s n) s

/-! ## LTC words (R286, R289) -/

/-- The frames from a timecode forward to another, within a day. (DESIGN CHOICE, log 30) -/
def tcAhead (rate : Nat) (a b : U32) : Nat := (tcFrames rate b + tcDay rate - tcFrames rate a) % tcDay rate

/-- The cues that an LTC word makes due: those at its timecode, and where it jumped forward past their timecode, those it
skipped, late by the frames skipped. A jump of more than half a day is one backward, which fires nothing again. (DESIGN CHOICE, log 30) -/
def ltcCues (old : Option U32) (w : LtcWord) (s : State) : State :=
  forEach (s.time.cues.filter fun e => e.2.state == 1 && e.2.when_ == 2) s fun e s =>
    let at_ : U32 := BitVec.ofNat 32 e.2.at_
    if at_ == w.tc then cueDue e.1 0 s
    else match old with
    | none => s
    | some o =>
      let step := tcAhead w.rate o w.tc
      let back := tcAhead w.rate at_ w.tc
      if step ≤ tcDay w.rate / 2 && back < step then cueDue e.1 (back * ltcPeriod w.rate) s else s

/-- An LTC word: the decoder takes it, and in LOCKED the cues of its timecode fire (R286, R292). (DESIGN CHOICE, log 30) -/
def ltcWord (w : LtcWord) (s : State) : State :=
  let old := if s.time.ltcState == 2 then s.time.ltcPrev else none
  let s := ltcTake w s
  if s.time.ltcOn && s.time.ltcPrev == some w.tc && s.time.ltcLatch == s.now && !(3 ≤ s.power.st || !s.hif.ready) then
    ltcCues old w s
  else s

def execLtcWord (t : Nat) (w : LtcWord) (s : State) : Res := happens t s (ltcWord w)

end Sys2Proof.Machine
end

