-- ==== Sys2Proof/Machine/Health.lean ====
section
/-! DEFINITION. Drive health (R300 to R315): probes and their results, the defect map, thermal derating, colour sensors and
zones, and the HEALTH commands. -/

namespace Sys2Proof.Machine

/-- Drive health changed. -/
def modHealth (f : Health → Health) (s : State) : State := { s with health := f s.health }

/-! ## DETECT probes (R300 to R302) -/

/-- The chain ends in service that serve tiles, in chain order. -/
def probeEnds (s : State) : List Nat := (allEnds s).map (·.2.2)

/-- A DETECT falls due on a chain end every PERIOD_S, the chains spread evenly across the period (R302). -/
def detectDue (p : Nat) (s : State) : State :=
  let l := probeEnds s
  if !s.health.probeOn || !l.contains p then s
  else
    let per := s.health.periodS * 1000000000
    match kget? s.health.nextDetect p with
    | none => modHealth (fun h => { h with nextDetect := kset h.nextDetect p (s.now + l.idxOf p * per / l.length) }) s
    | some at_ =>
      if s.now < at_ then s
      else modHealth (fun h => { h with due := if h.due.contains p then h.due else h.due ++ [p]
                                        nextDetect := kset h.nextDetect p (at_ + per) }) s

def execDetectProbeDue (t port : Nat) (s : State) : Res := happens t s (detectDue port)

/-- The next PSEQ of an end: one more, skipping 0 (R302). (DESIGN CHOICE, log 45) -/
def nextPseq (s : State) (p : Nat) : Nat :=
  let n := (kgetD s.health.pseq p 0 + 1) % 65536
  if n == 0 then 1 else n

/-- The instant of the boundary that ends the epoch being sent, less the mode's blanking (R300). -/
def blankStart (s : State) : Nat := s.link.commitAt - blankingNs s.mode.mode

/-- A PROBE may leave a chain end in this epoch (R300, R301). -/
def probeAllowed (s : State) (c : ChainRec) (p : Nat) : Bool :=
  !s.flt.safe && chainReady s c.chain && (chainLk s c.chain).gen == 2 && s.link.sending && s.fab.svcLevel == 2
    && !s.flt.hushed && !shedOn s 1 && !s.health.probed.contains p && maySend p .probe s
    && decide (s.link.commitAt ≤ s.now + 200000)

/-- A PROBE queued (R253). (DESIGN CHOICE, log 45) -/
def sendProbe (c : ChainRec) (b : Bool) (p op at_ dur : Nat) (px : List Nat) (codes : Nat × Nat × Nat) (s : State) : State :=
  let n := nextPseq s p
  let rest := beN 1 op ++ zeros 1 ++ beN 2 n ++ beN 8 at_ ++ beN 4 dur ++ beN 2 px.length ++ zeros 2
    ++ px.flatMap fun i => beN 2 i ++ zeros 2 ++ beN 4 codes.1 ++ beN 4 codes.2.1 ++ beN 4 codes.2.2
  let s := queueTx p (castEnd s c b 11 0 .probe s.link.epoch rest) s
  modHealth (fun h => { h with pseq := kset h.pseq p n, probed := h.probed ++ [p] }) s

/-- A DETECT sent: its tiles owe a result until 1 ms after it ends (R302). (DESIGN CHOICE, log 45) -/
def sendDetect (c : ChainRec) (b : Bool) (p : Nat) (s : State) : State :=
  let at_ := blankStart s + 4000
  let s := sendProbe c b p 0 at_ 2000 [] (0, 0, 0) s
  let w : ProbeWait := { pseq := kgetD s.health.pseq p 0, deadline := at_ + 2000 + 1000000 }
  let tiles := match s.wall.active with | some i => servedTiles s i c (splitOf s c) b | none => []
  modHealth (fun h => { h with due := h.due.filter (· != p), waits := tiles.foldl (fun m r => kset m r.tile w) h.waits }) s

/-! ## Colour sensors in an epoch (R300, R309, R310) -/

/-- A sensor is blocked while its tile is out of the active wall, on a generation 1 chain, or excluded (R314). -/
def sensorBlocked (s : State) (q : Sensor) : Bool :=
  match s.wall.active.bind (fun w => tileOf w q.tile) with
  | none => true
  | some r => (chainLk s r.chain).gen == 1 || (tileLk s r.tile).state == 2

/-- A sensor's STATE (R314). -/
def sensorState (q : Sensor) : Nat :=
  if q.failed then 3 else if q.blocked then 4 else if q.ref.isSome then 2 else 1

/-- A sensor changed. -/
def modSensor (n : Nat) (f : Sensor → Sensor) (s : State) : State :=
  modHealth (fun h => { h with sensors := kmod? h.sensors n f }) s

/-- SENSOR_STATE emitted (R315). -/
def sensorEvent (n cause : Nat) (s : State) : State :=
  let st := match kget? s.health.sensors n with | some q => sensorState q | none => 0
  emit 0x0D03 (leN 1 n ++ leN 1 st ++ leN 1 cause) s

/-- Sensors become blocked, or cease to be. -/
def sensorsCheck (s : State) : State :=
  forEach s.health.sensors s fun e s =>
    let b := sensorBlocked s e.2
    if b == e.2.blocked then s
    else sensorEvent e.1 (if b then 4 else 3) (modSensor e.1 (fun q => { q with blocked := b, sampling := q.sampling && !b, due := none }) s)

/-- The chain and serving end of a sensor's tile. -/
def sensorEnd (s : State) (q : Sensor) : Option (ChainRec × Nat) :=
  match s.wall.active with
  | none => none
  | some w => match tileOf w q.tile with
    | none => none
    | some r => (chainOf w r.chain).map fun c => (c, portOfEnd c (endOfTile s c r))

/-- Another sensor's transaction in this epoch keeps a sensor from measuring: one per bus, and no DARK beside a sentinel on
its chain (R310). -/
def sensorConflict (s : State) (n : Nat) (q : Sensor) (chain : Nat) : Bool :=
  s.health.sensors.any fun e => e.1 != n && e.2.due.isSome && (e.2.bus == q.bus
    || ((e.2.sub == 0 || q.sub == 0) && (match sensorEnd s e.2 with | some (c, _) => c.chain == chain | none => false)))

/-- A sensor may measure on an end in this epoch. -/
def sensorReady (s : State) (p n : Nat) (q : Sensor) : Bool :=
  match sensorEnd s q with
  | none => false
  | some (c, sp) => sp == p && q.sampling && !q.failed && !q.blocked && q.due.isNone
      && decide (q.intNs + 8000 ≤ blankingNs s.mode.mode) && !sensorConflict s n q c.chain

/-- A sensor's sub-frame: the sentinel pixels driven except in DARK, and its SENSOR trigger armed (R290, R300, R309, R310).
The device's triggers 62 and 63 serve the two buses. -/
def sensorSub (c : ChainRec) (b : Bool) (p n : Nat) (q : Sensor) (s : State) : State :=
  let at_ := blankStart s + 2000
  let k (i : Nat) : Nat := if q.sub == i then q.code else 0
  let s := if q.sub == 0 then s else sendProbe c b p 1 at_ (q.intNs + 4000) q.pixels (k 1, k 2, k 3) s
  let tr : TTrig := { kind := 2, target := n, action := 0, base := 0, policy := 0, at_ := at_ + 2000, offset := 0, period := 0
                      grace := 0, next := at_ + 2000 }
  let per := periodNs s.mode.mode
  let s := modSensor n (fun q => { q with due := some (s.link.commitAt + per) }) s
  { s with time := { s.time with trigs := kset s.time.trigs (62 + q.bus) tr } }

/-- PROBE_QUEUE: a chain end's PROBE of the epoch, a DETECT before a SENTINEL (R300, R301). (DESIGN CHOICE, log 45) -/
def probeQueue (p : Nat) (s : State) : State :=
  match endOfPort s p with
  | none => s
  | some (c, b) =>
    if !probeAllowed s c p then s
    else if s.health.due.contains p then sendDetect c b p s
    else match s.health.sensors.find? (fun e => sensorReady s p e.1 e.2) with
    | some e => sensorSub c b p e.1 e.2 s
    | none => s

def execProbeQueue (t port : Nat) (s : State) : Res := occurs t s (probeQueue port)

/-! ## Results (R302 to R304) -/

/-- A tile's result is not complete in time: it has no result for that probe (R302, R303). -/
def resultTimeout (tile : Nat) (s : State) : State :=
  match kget? s.health.waits tile with
  | some w => if w.deadline ≤ s.now then modHealth (fun h => { h with waits := kerase h.waits tile }) s else s
  | none => s

def execProbeResultTimeout (t tile : Nat) (s : State) : Res := happens t s (resultTimeout tile)

/-- The most entries the defect map holds (R304). -/
def mapRoom : Nat := 65536

/-- A channel reported in a result: its run of results with that state, and an entry at the third (R303, R304). (DESIGN CHOICE, log 45) -/
def chanReported (tile : Nat) (e : ReportEntry) (s : State) : State :=
  let key := chanKey tile e.pixel e.channel
  let (st, n) := kgetD s.health.runs key (0, 0)
  let n := if st == e.st then n + 1 else 1
  let s := modHealth (fun h => { h with runs := kset h.runs key (e.st, n) }) s
  let old := kget? s.health.defects key
  if n < 3 || old.isSome && (n != 3 || old == some e.st) then s
  else if old.isNone && decide (mapRoom ≤ s.health.defects.length) then
    if n != 3 then s else defectEvent tile e.pixel e.channel 3 0 (modHealth (fun h => { h with mapFull := h.mapFull + 1 }) s)
  else if old == some 2 then s
  else defectEvent tile e.pixel e.channel e.st 0 (defectSet tile e.pixel e.channel e.st s)

/-- A channel with a run reported clean: a run of 1 or 2 without an entry was transient (R303). (DESIGN CHOICE, log 45) -/
def chanClean (tile key : Nat) (s : State) : State :=
  let n := (kgetD s.health.runs key (0, 0)).2
  let s := modHealth (fun h => { h with runs := kerase h.runs key }) s
  if n < 3 && !khas s.health.defects key then modTileH tile (fun h => { h with transient := h.transient + 1 }) s else s

/-- A tile's result complete: every channel is classified (R303). (DESIGN CHOICE, log 45) -/
def classify (tile px : Nat) (w : ProbeWait) (s : State) : State :=
  let l := uniq (w.entries.filter fun e => decide (e.pixel < px) && decide (e.channel < 3) && (e.st == 1 || e.st == 2))
  let keys := l.map fun e => chanKey tile e.pixel e.channel
  let clean := (s.health.runs.map (·.1)).filter fun k => k / 4 / 65536 == tile && !keys.contains k
  let s := modTileH tile (fun h => { h with results := h.results + 1, lastPseq := w.pseq }) s
  let s := forEach clean s (chanClean tile)
  forEach l s (chanReported tile)

/-- A REPORT with PROBE set: its entries join the result of the probe it names, up to the first with MORE clear (R302). -/
def probeReport (r : TileRec) (q : Report) (s : State) : State :=
  match kget? s.health.waits r.tile with
  | none => s
  | some w =>
    if w.pseq != q.pseq.toNat || w.deadline < s.now then s
    else
      let w := { w with entries := w.entries ++ q.entries }
      if q.status.getLsbD 6 then modHealth (fun h => { h with waits := kset h.waits r.tile w }) s
      else classify r.tile (tilePx r) w (modHealth (fun h => { h with waits := kerase h.waits r.tile }) s)

/-! ## Thermal derating (R306 to R308) -/

/-- The derating curve, temperatures in 0.1 °C (R306). -/
def derate (h : Health) (x : Int) : Int :=
  if h.tCut ≤ x then -65536
  else if h.tFull ≤ x then h.depth
  else if x ≤ h.tStart then 0
  else
    let d := h.tFull - h.tStart
    (2 * h.depth * (x - h.tStart) + d) / (2 * d)

/-- TILE_HEAT emitted where a tile's state changes (R308). -/
def heatChange (tile st : Nat) (s : State) : State :=
  let h := tileH s tile
  if h.heat == st then s
  else
    let target := kgetD s.weave.thermT tile 0 / 65536
    emit 0x0D02 (leN 2 tile ++ leN 1 st ++ zeros 1 ++ leN 2 (twos 16 h.temp) ++ zeros 2 ++ leN 4 (twos 32 target))
      (modTileH tile (fun h => { h with heat := st }) s)

/-- A valid temperature of a tile: its THERMAL target with hysteresis, and its state (R306, R308). A target 256 tw or more
below the frozen applied value wakes the device from Calm (R217). -/
def tileTemp (tile : Nat) (x : Int) (s : State) : State :=
  let s := modTileH tile (fun h => { h with temp := x, tempAt := some s.now }) s
  let old := kgetD s.weave.thermT tile 0 / 65536
  let down := derate s.health x
  let up := derate s.health (x + s.health.hyst)
  let new := if down < old then down else if old < up then up else old
  let s := if new == old && khas s.weave.thermT tile then s
    else { s with weave := { s.weave with thermT := kset s.weave.thermT tile (new * 65536) } }
  let s := heatChange tile (if s.health.tCut ≤ x then 2 else if new == 0 then 0 else 1) s
  if s.mode.calm && decide (new * 65536 ≤ kgetD s.weave.thermA tile 0 - 256 * 65536) then calmWake 5 s else s

/-- A tile with no valid temperature for STALE_S keeps its target (R308). -/
def tempStale (tile : Nat) (s : State) : State :=
  match s.wall.active.bind (fun w => tileOf w tile) with
  | none => s
  | some _ =>
    let last := (tileH s tile).tempAt.getD s.bootAt
    if s.now < last + s.health.staleS * 1000000000 then s else heatChange tile 3 s

def execTempStaleTimeout (t tile : Nat) (s : State) : Res := happens t s (tempStale tile)

/-! ## REPORT (R240, R241, R250) -/

/-- A BREAK flag of a REPORT newly set or cleared against the tile's last: the break's position and CHAIN_STATE, or a new
enumeration (R241, R242, R250). -/
def reportBreak (c : ChainRec) (r : TileRec) (old new : U16) (s : State) : State :=
  let set_ (i : Nat) : Bool := new.getLsbD i && !old.getLsbD i
  let clr (i : Nat) : Bool := old.getLsbD i && !new.getLsbD i
  let s := if set_ 4 then chainEvent c 4 (modChain c.chain (fun k => { k with brk := r.pos - 1 }) s) else s
  let s := if set_ 5 then chainEvent c 4 (modChain c.chain (fun k => { k with brk := r.pos }) s) else s
  if (clr 4 || clr 5) && (chainLk s c.chain).phase == 0 then startEnum c 0 s else s

/-- A REPORT taken by its tile's records (R240, R241); with WANT it wakes the device from Calm, or from Doze where LINK is
enabled (R217, R377). -/
def reportTake (p : Nat) (c : ChainRec) (r : TileRec) (q : Report) (s : State) : State :=
  let old := (tileLk s r.tile).status
  let s := modLnk p (fun n => { n with reports := n.reports + 1, holds := n.holds + BitVec.ofNat 32 q.held }) s
  let s := modTile r.tile (fun k => { k with status := q.status, lastEpoch := q.epoch, temp := q.temp, holds := k.holds + q.held
                                             lastReport := s.now }) s
  let s := if q.held == 0 && !q.status.getLsbD 0 then s else { s with mode := { s.mode with moved := true } }
  let s := if q.status.getLsbD 8 then tileTemp r.tile q.temp s else s
  let s := if q.status.getLsbD 7 then probeReport r q s else s
  let s := if q.status.getLsbD 1 then wakeTrigger 8 (calmWake 7 s) else s
  reportBreak c r old q.status s

/-! ## Sensor samples (R310 to R313) -/

/-- A sensor's sample falls due PERIOD_S after its last began (R310). -/
def sampleDue (n : Nat) (s : State) : State :=
  match kget? s.health.sensors n with
  | none => s
  | some q =>
    let early := match q.began with | some b => decide (s.now < b + q.periodS * 1000000000) | none => false
    if early || q.sampling || q.failed || q.blocked then s
    else modSensor n (fun q => { q with sampling := true, began := some s.now, cycle := 0, sub := 0, lit := [0, 0, 0]
                                        dark := [0, 0, 0], cycleLit := [0, 0, 0], cycleDark := [0, 0, 0]
                                        fullScale := false, cycleFull := false }) s

def execSensorSampleDue (t sensor : Nat) (s : State) : Res := happens t s (sampleDue sensor)

/-- A failed transaction loses its sub-frame and restarts the cycle; after three in a row the sensor is FAILED (R311).
(DESIGN CHOICE, log 46) -/
def sensorFail (n : Nat) (s : State) : State :=
  match kget? s.health.sensors n with
  | none => s
  | some q =>
    let fails := q.fails + 1
    let s := modSensor n (fun q => { q with due := none, i2cFail := q.i2cFail + 1, fails, sub := 0, cycleLit := [0, 0, 0]
                                            cycleDark := [0, 0, 0], cycleFull := false }) s
    if q.failed then s
    else if fails < 3 then s
    else sensorEvent n 2 (modSensor n (fun q => { q with failed := true, failedAt := s.now, sampling := false }) s)

/-- The transactions that have not completed by their boundary have failed (R311). (DESIGN CHOICE, log 46) -/
def sensorsLate (s : State) : State :=
  forEach (s.health.sensors.filter fun e => match e.2.due with | some d => decide (d ≤ s.now) | none => false) s
    fun e s => sensorFail e.1 s

/-- The results of the sub-frame before the boundary are read: READ_REG is written before the read (R309). -/
def sensorsRead (s : State) : State :=
  forEach (s.health.sensors.filter fun e => e.2.due.isSome && e.2.sampling) s
    fun e s => put (.i2c e.2.bus e.2.addr [BitVec.ofNat 8 e.2.readReg]) s

/-- The zone targets recomputed: for each strand the mean of the last accepted e of the zone's RUNNING sensors (R313).
(DESIGN CHOICE, log 46) -/
def zoneTarget (zone : Nat) (s : State) : State :=
  let es := s.health.sensors.filterMap fun e => if e.2.zone == zone && sensorState e.2 == 2 then e.2.e else none
  let n : Int := es.length
  if es.isEmpty then s
  else
    let m := (List.range 3).foldl (fun (m : KMap Int) i =>
      let sum := (es.map fun e => e.getD i 0).sum
      kset m (4 * zone + i) (clampI (-8192) 2048 ((2 * sum + n) / (2 * n)) * 65536)) s.weave.colourT
    { s with weave := { s.weave with colourT := m } }

/-- A correction accepted (R312, R313). (DESIGN CHOICE, log 46) -/
def sampleAccept (n : Nat) (e : List Int) (s : State) : State :=
  let s := modSensor n (fun q => { q with e := some e, cand := none, firstAfter := false, accepted := q.accepted + 1 }) s
  match kget? s.health.sensors n with | some q => zoneTarget q.zone s | none => s

/-- e_c := floor(8192 × log2(ref_c / m_c) + 0.5), both given as sums over a number of samples (R312). (DESIGN CHOICE, log 46) -/
def colourE (refSum : Int) (refN : Nat) (sum : Int) (n : Nat) : Int :=
  (2 * 8192 * log2Fix (refSum.toNat * n) (sum.toNat * refN) + (2 ^ logBits : Nat)) / (2 * (2 ^ logBits : Nat))

/-- Two corrections differ on some strand by more than `d`. (DESIGN CHOICE, log 46) -/
def eFar (d : Nat) (a b : List Int) : Bool := (a.zip b).any fun p => decide (d < (p.1 - p.2).natAbs)

/-- A sample of SAMPLES cycles complete (R311, R312). (DESIGN CHOICE, log 46) -/
def sampleDone (n : Nat) (s : State) : State :=
  match kget? s.health.sensors n with
  | none => s
  | some q =>
    let s := modSensor n (fun q => { q with sampling := false }) s
    let m := (List.range 3).map fun i => (q.lit.getD i 0 : Int) - (q.dark.getD i 0 : Int)
    if q.fullScale || m.any (fun x => decide (x < 64 * (q.samples : Int))) then
      modSensor n (fun q => { q with discarded := q.discarded + 1 }) s
    else if q.wantRef then
      sensorEvent n 1 (modSensor n (fun q => { q with ref := some (m, q.samples), wantRef := false, firstAfter := true, cand := none }) s)
    else match q.ref with
    | none => s
    | some (r, rn) =>
      let e := (r.zip m).map fun p => colourE p.1 rn p.2 q.samples
      match q.e with
      | none => sampleAccept n e s
      | some last =>
        if q.firstAfter || !eFar 2048 e last then sampleAccept n e s
        else match q.cand with
        | some k => if eFar 128 e k then modSensor n (fun q => { q with cand := some e }) s else sampleAccept n k s
        | none => modSensor n (fun q => { q with cand := some e }) s

/-- Adds at an index. -/
def addAt (l : List Nat) (i v : Nat) : List Nat := l.set i (l.getD i 0 + v)

/-- A transaction's results: the readings of its sub-frame, the cycle, and the sample (R310, R311). (DESIGN CHOICE, log 46) -/
def sensorGood (n : Nat) (ch : List Nat) (s : State) : State :=
  match kget? s.health.sensors n with
  | none => s
  | some q =>
    if q.failed then
      sensorEvent n 3 (modSensor n (fun q => { q with due := none, failed := false, fails := 0 }) s)
    else
      let sel (c : Nat) : Nat := q.sel / 4 ^ c % 4
      let rd (c : Nat) : Nat := ch.getD (sel c) 0
      let full := if bit q.fmt 0 then 2 ^ 24 - 1 else 2 ^ 16 - 1
      let cs := if q.sub == 0 then [0, 1, 2] else [q.sub - 1]
      let fs := q.cycleFull || cs.any fun c => decide (full ≤ rd c)
      let q := { q with due := none, fails := 0, cycleFull := fs }
      let q := if q.sub == 0 then { q with cycleDark := [rd 0, rd 1, rd 2] } else { q with cycleLit := q.cycleLit.set (q.sub - 1) (rd (q.sub - 1)) }
      if q.sub < 3 then modSensor n (fun _ => { q with sub := q.sub + 1 }) s
      else
        let add (a b : List Nat) : List Nat := (a.zip b).map fun p => p.1 + p.2
        let q := { q with sub := 0, cycle := q.cycle + 1, fullScale := q.fullScale || fs, cycleFull := false, lit := add q.lit q.cycleLit, dark := add q.dark q.cycleDark }
        let s := modSensor n (fun _ => q) s
        if q.cycle < q.samples then s else sampleDone n s

/-- An I²C transaction of a sensor done (R311). -/
def i2cDone (n : Nat) (res : I2cResult) (s : State) : State :=
  match kget? s.health.sensors n with
  | none => s
  | some q =>
    if q.due.isNone then s
    else match res with
    | .failed => sensorFail n s
    | .ok a b c => if q.sampling || q.failed then sensorGood n [a, b, c] s else modSensor n (fun q => { q with due := none }) s

def execI2cTransactionDone (t sensor : Nat) (res : I2cResult) (s : State) : Res := happens t s (i2cDone sensor res)

/-- A FAILED sensor is tried again every 10 s (R311). -/
def sensorRetry (n : Nat) (s : State) : State :=
  match kget? s.health.sensors n with
  | none => s
  | some q =>
    if !q.failed || s.now < q.failedAt + 10000000000 then s
    else
      let per := if modeOn s then periodNs s.mode.mode else 1000000000
      put (.i2c q.bus q.addr q.start) (modSensor n (fun q => { q with failedAt := s.now, due := some (s.now + per) }) s)

def execSensorRetry (t sensor : Nat) (s : State) : Res := happens t s (sensorRetry sensor)

/-! ## The HEALTH commands (R314) -/

def execHealthProbeSet (t : Nat) (r : CmdRef) (s : State) : Res :=
  verb 0x0D01 t r s fun c s =>
    let en := field c.payload 0 1
    let per := let v := field c.payload 2 2; if v == 0 then 10 else v
    if 1 < en || 3600 < per then done c stRANGE s
    else done c stOK (modHealth (fun h => { h with probeOn := en == 1, periodS := per, due := [], nextDetect := [] }) s)

/-- An entry of the defect map as HEALTH_DEFECT_READ gives it. -/
def defectBytes (e : Nat × Nat) : Bytes :=
  leN 2 (e.1 / 4 / 65536) ++ leN 2 (e.1 / 4 % 65536) ++ leN 1 (e.1 % 4) ++ leN 1 e.2 ++ zeros 2

/-- A tile number that a HEALTH command may name. -/
def healthTileOk (s : State) (tile : Nat) : Bool := (s.wall.active.bind fun w => tileOf w tile).isSome

def execHealthDefectRead (t : Nat) (r : CmdRef) (s : State) : Res :=
  verb 0x0D02 t r s fun c s =>
    let tile := field c.payload 0 2
    let l := s.health.defects.filter fun e => tile == 0xFFFF || e.1 / 4 / 65536 == tile
    let part := (l.drop (field c.payload 2 2)).take 511
    if tile != 0xFFFF && !healthTileOk s tile then done c stNOTFOUND s
    else reply c (leN 2 part.length ++ leN 2 (min l.length 65535) ++ leN 4 s.health.mapFull.toNat ++ part.flatMap defectBytes) s

/-- HEALTH_DEFECT_CLEAR (R303). -/
def defectClear (c : Cmd) (s : State) : State :=
  let tile := field c.payload 0 2
  let px := field c.payload 2 2
  let ch := field c.payload 4 1
  let keys := (s.health.defects.map (·.1)).filter fun k => (tile == 0xFFFF || k / 4 / 65536 == tile)
    && (px == 0xFFFF || k / 4 % 65536 == px) && (ch == 0xFF || k % 4 == ch)
  if keys.isEmpty || (tile != 0xFFFF && !healthTileOk s tile) then done c stNOTFOUND s
  else
    let s := forEach keys s defectDrop
    let s := modHealth (fun h => { h with runs := kfilter h.runs fun k _ => !keys.contains k }) s
    done c stOK (defectEvent tile px ch 0 1 s)

def execHealthDefectClear (t : Nat) (r : CmdRef) (s : State) : Res := verb 0x0D03 t r s defectClear

def execHealthThermalSet (t : Nat) (r : CmdRef) (s : State) : Res :=
  verb 0x0D04 t r s fun c s =>
    let p := c.payload
    let a := sfield p 0 2
    let b := sfield p 2 2
    let d := sfield p 4 2
    let hy := sfield p 6 2
    let depth := sfield p 8 4
    let st := field p 12 2
    if a < 0 || 1498 < a || b ≤ a || d ≤ b || 1500 < d || hy < 1 || 100 < hy || depth < -65536 || 0 < depth || st < 2 || 600 < st then
      done c stRANGE s
    else done c stOK (modHealth (fun h => { h with tStart := a, tFull := b, tCut := d, hyst := hy, depth, staleS := st }) s)

/-- HEALTH_TILE's response. -/
def healthTileBytes (s : State) (tile : Nat) : Bytes :=
  let h := tileH s tile
  let age := match h.tempAt with | some a => min ((s.now - a) / 1000000000) 65535 | none => 65535
  leN 2 tile ++ leN 1 (kgetD s.health.zones tile 0) ++ leN 1 h.heat ++ leN 2 (twos 16 h.temp) ++ leN 2 age
    ++ leN 4 (twos 32 (kgetD s.weave.thermT tile 0 / 65536)) ++ leN 4 (twos 32 (round16 (kgetD s.weave.thermA tile 0)))
    ++ leN 2 (tileDefects s tile).length ++ leN 2 (min h.transient 65535) ++ leN 4 h.results.toNat ++ leN 2 h.lastPseq ++ zeros 6

def execHealthTile (t : Nat) (r : CmdRef) (s : State) : Res :=
  verb 0x0D05 t r s fun c s =>
    let tile := field c.payload 0 2
    if healthTileOk s tile then reply c (healthTileBytes s tile) s else done c stNOTFOUND s

/-- HEALTH_ZONE_SET: zone 0, the default, is not listed (R313). -/
def execHealthZoneSet (t : Nat) (r : CmdRef) (s : State) : Res :=
  verb 0x0D06 t r s fun c s =>
    let a := field c.payload 0 2
    let b := field c.payload 2 2
    let z := field c.payload 4 1
    if b < a || 8191 < b || 63 < z then done c stRANGE s
    else
      let rest := kfilter s.health.zones fun k _ => decide (k < a) || decide (b < k)
      let new := if z == 0 then [] else (List.range (b + 1 - a)).map fun i => (a + i, z)
      let zones := rest.filter (fun e => decide (e.1 < a)) ++ new ++ rest.filter (fun e => decide (b < e.1))
      done c stOK (modHealth (fun h => { h with zones }) s)

/-- The sentinel pixels of two sensors overlap on one chain. -/
def sentinelOverlap (s : State) (n tile : Nat) (px : List Nat) : Bool :=
  let chain (t : Nat) : Option Nat := (s.wall.active.bind fun w => tileOf w t).map (·.chain)
  s.health.sensors.any fun e => e.1 != n && chain e.2.tile == chain tile && (chain tile).isSome
    && e.2.pixels.any fun i => px.contains i

/-- HEALTH_SENSOR_DEFINE (R309, R312, R314). -/
def sensorDefine (c : Cmd) (s : State) : State :=
  let p := c.payload
  let n := field p 0 1
  let tile := field p 4 2
  let npix := field p 6 1
  let px := (List.range (min npix 16)).map fun i => field p (32 + 2 * i) 2
  let code := let v := field p 12 4; if v == 0 then 196608 else v
  let samples := let v := field p 19 1; if v == 0 then 16 else v
  let per := let v := field p 28 2; if v == 0 then 60 else v
  let sel := field p 18 1
  if 15 < n then done c stRANGE s
  else if npix == 0 then
    let had := khas s.health.sensors n
    let s := done c stOK (modHealth (fun h => { h with sensors := kerase h.sensors n }) s)
    if had then sensorEvent n 0 s else s
  else if 16 < npix || 1 < field p 1 1 || field p 2 1 < 0x08 || 0x77 < field p 2 1 || 63 < field p 3 1 || field p 8 4 < 2000
      || 32000 < field p 8 4 || 262143 < code || field p 16 1 == 0 || 8 < field p 16 1 || samples < 4 || 64 < samples
      || 3600 < per || [0, 1, 2].any (fun i => sel / 4 ^ i % 4 == 3) then done c stRANGE s
  else match s.wall.active.bind (fun w => tileOf w tile) with
  | none => done c stNOTFOUND s
  | some r =>
    if px.any (fun i => decide (tilePx r ≤ i)) || sentinelOverlap s n tile px then done c stRANGE s
    else
      let q : Sensor := { bus := field p 1 1, addr := field p 2 1, zone := field p 3 1, tile, pixels := px, fmt := field p 7 1
                          intNs := field p 8 4, code, start := bytesAt p 20 (field p 16 1), readReg := field p 17 1, sel
                          samples, periodS := per }
      let q := match kget? s.health.sensors n with
        | none => q
        | some o =>
          let same := { o with zone := q.zone, samples := q.samples, periodS := q.periodS } ==
            { q with ref := o.ref, wantRef := o.wantRef, firstAfter := o.firstAfter, e := o.e, cand := o.cand, sampling := o.sampling
                     began := o.began, cycle := o.cycle, sub := o.sub, lit := o.lit, dark := o.dark, cycleLit := o.cycleLit
                     cycleDark := o.cycleDark, fullScale := o.fullScale, cycleFull := o.cycleFull, due := o.due, fails := o.fails, failed := o.failed
                     blocked := o.blocked, failedAt := o.failedAt, accepted := o.accepted, discarded := o.discarded
                     i2cFail := o.i2cFail }
          let q := { q with accepted := o.accepted, discarded := o.discarded, i2cFail := o.i2cFail }
          if same then { q with ref := o.ref, wantRef := o.wantRef, firstAfter := o.firstAfter, e := o.e } else q
      let q := { q with blocked := sensorBlocked s q }
      sensorEvent n 0 (done c stOK (modHealth (fun h => { h with sensors := kset h.sensors n q }) s))

def execHealthSensorDefine (t : Nat) (r : CmdRef) (s : State) : Res := verb 0x0D07 t r s sensorDefine

def execHealthSensorReference (t : Nat) (r : CmdRef) (s : State) : Res :=
  verb 0x0D08 t r s fun c s =>
    let n := field c.payload 0 1
    match kget? s.health.sensors n with
    | none => done c stNOTFOUND s
    | some q =>
      if q.failed || sensorBlocked s q then done c stSTATE s
      else done c stACCEPTED (modSensor n (fun q => { q with wantRef := true }) s)

def execHealthZoneRead (t : Nat) (r : CmdRef) (s : State) : Res :=
  verb 0x0D09 t r s fun c s =>
    let z := field c.payload 0 1
    let t3 := (List.range 3).flatMap fun i => leN 4 (twos 32 (kgetD s.weave.colourT (4 * z + i) 0 / 65536))
    let a3 := (List.range 3).flatMap fun i => leN 4 (twos 32 (round16 (kgetD s.weave.colourA (4 * z + i) 0)))
    let m := bitsOf ((List.range 16).map fun n => match kget? s.health.sensors n with | some q => q.zone == z | none => false)
    if 63 < z then done c stRANGE s else reply c (t3 ++ a3 ++ leN 2 m ++ zeros 6) s

/-- HEALTH_SENSOR_READ's response. -/
def sensorBytes (s : State) (n : Nat) : Bytes :=
  match kget? s.health.sensors n with
  | none => zeros 32
  | some q =>
    let e := q.e.getD [0, 0, 0]
    leN 1 (sensorState q) ++ zeros 3 ++ ((List.range 3).flatMap fun i => leN 4 (twos 32 (e.getD i 0))) ++ leN 4 q.accepted.toNat
      ++ leN 4 q.discarded.toNat ++ leN 4 q.i2cFail.toNat ++ zeros 4

def execHealthSensorRead (t : Nat) (r : CmdRef) (s : State) : Res :=
  verb 0x0D0A t r s fun c s =>
    let n := field c.payload 0 1
    if 15 < n then done c stRANGE s else reply c (sensorBytes s n) s

end Sys2Proof.Machine
end

