-- ==== Sys2Proof/Machine/Reel.lean ====
section
/-! DEFINITION. The reel (R461 to R477): records written, sectors retired, the squall table, the window, and the REEL
commands. -/

namespace Sys2Proof.Machine

/-- The reel changed. -/
def modReel (f : Reel → Reel) (s : State) : State := { s with reel := f s.reel }

/-! ## Readable records (R464, R465, R473) -/

/-- A SEQ lies in REEL_FIRST to REEL_NEXT − 1, reckoned mod 2^32 (R473). -/
def readable (r : Reel) (q : U32) : Bool := decide ((q - r.first).toNat < (r.next - r.first).toNat)

/-- A record as it reads: from MRAM, or failing that from the always-on ring (R473). -/
def findRec (r : Reel) (q : U32) : Option Bytes :=
  if !readable r q then none
  else match r.recs.find? (fun e => e.seq == q) with
  | some e => some e.bytes
  | none => (r.aon.find? fun e => e.seq == q).map (·.bytes)

/-- The ring positions that hold readable records. -/
def usedPos (r : Reel) : List Nat := uniq ((r.recs.filter fun e => readable r e.seq).map (·.sector))

/-- The sector at a ring position: its own, or the spare in its place (R468). -/
def sectorAt (r : Reel) (p : Nat) : Nat := kgetD r.ring p p

/-- REEL_STATE emitted (R477). -/
def reelEvent (st sector : Nat) (s : State) : State :=
  emit 0x1501 (leN 1 st ++ leN 1 s.reel.spares ++ leN 2 sector ++ leN 4 s.reel.next.toNat) s

/-! ## Writing (R463 to R465, R470) -/

/-- A record's bytes with VOLATILE set, as the always-on ring holds it (R470). -/
def volatileRec (r : RRec) (seq : U32) : RStored :=
  { seq, sector := 0xFFFF, bytes := recBytes { r with flags := r.flags ||| 2 } seq }

/-- The writer moves to the next ring position: the sector there is reused, and REEL_FIRST passes its records (R465).
(DESIGN CHOICE, log 60) -/
def nextSector (s : State) : State :=
  let r := s.reel
  let p := (r.pos + 1) % 252
  let old := r.recs.filter fun e => e.sector == p
  let live := old.filter fun e => readable r e.seq
  let first := match live.getLast? with | some e => e.seq + 1 | none => r.first
  modReel (fun r => { r with
    pos := p, offset := 64, first, recs := r.recs.filter (fun e => e.sector != p)
    overwritten := r.overwritten + BitVec.ofNat 32 live.length, warnArmed := r.warnArmed || p == 0 }) s

/-- The 90 % warning: armed while fewer than 227 positions hold readable records, and given once when they reach 227
(R465). -/
def reelWarn (s : State) : State :=
  if (usedPos s.reel).length < 227 then modReel (fun r => { r with warnArmed := true }) s
  else if s.reel.warnArmed then reelEvent 3 0xFFFF (modReel (fun r => { r with warnArmed := false }) s)
  else s

/-- A record of these bytes placed in the ring sector where the writer stands, or in the next where it does not fit.
(DESIGN CHOICE, log 60) -/
def placeRec (seq : U32) (bytes : Bytes) (s : State) : State :=
  let s := if 16384 < s.reel.offset + bytes.length then nextSector s else s
  reelWarn (modReel (fun r => { r with recs := r.recs ++ [{ seq, sector := r.pos, bytes }], offset := r.offset + bytes.length }) s)

/-- A record written and verified under the next SEQ, with its copy in the always-on ring (R463, R464, R470). A write to a
good sector is what LOGMEDIA's quiet rests on (R429). (DESIGN CHOICE, log 60) -/
def writeRec (r : RRec) (s : State) : State :=
  let seq := s.reel.next
  let s := modReel (fun k => { k with next := seq + 1, aon := (volatileRec r seq :: k.aon).take 16 }) s
  let s := { s with flt := { s.flt with srcs := kmod? s.flt.srcs 0x5000 fun q => { q with ok := true } } }
  placeRec seq (recBytes r seq) s

/-- A record in tally mode: into the always-on ring under the next SEQ, and counted for its class (R469). -/
def tallyRec (r : RRec) (s : State) : State :=
  let t := s.reel.tallies
  let v := t.getD r.cls 0
  aonWrite r (modReel (fun k => { k with tallies := if v == 0xFFFFFFFF#32 then t else t.set r.cls (v + 1) }) s)

/-- A write that failed to verify: the sector is retired, and the lowest spare takes its place; with none left the reel
goes into tally mode (R468, R469). -/
def writeFailed (r : RRec) (s : State) : State :=
  let k := s.reel
  let s := raise 0x5000 0 [sectorAt k k.pos] s
  if k.spares == 0 then reelEvent 2 0xFFFF (tallyRec r (modReel (fun k => { k with tally := true }) s))
  else
    let s := modReel (fun k => { k with ring := kset k.ring k.pos (256 - k.spares), spares := k.spares - 1, offset := 64
                                        retiring := sectorAt k k.pos, switching := true, failedRec := some r, retiredCount := k.retiredCount + 1 }) s
    reelEvent 1 (sectorAt k k.pos) s

/-- The SQUALL record of the table as it stands (R466). -/
def squallRec (s : State) : RRec :=
  let q := s.reel.squall
  { cls := 6, flags := recFlags s ||| 4, source := 20 * 1024, code := 0x1581, time := recTime s
    data := leN 8 s.reel.squallFirst ++ leN 8 s.reel.squallLast ++ leN 1 q.length ++ zeros 7
      ++ q.flatMap fun e => leN 2 e.source ++ leN 2 e.code ++ leN 4 e.count.toNat ++ leN 1 e.cls ++ zeros 3 }

/-- The table is due: the bobbin holds 32 entries or fewer, or 100 ms have passed since its first entry (R466). -/
def squallDue (s : State) : Bool :=
  !s.reel.squall.isEmpty && (decide (s.reel.staging.length ≤ 32) || decide (s.reel.squallAt + 100000000 ≤ s.now))

/-- The table taken for its record, and emptied. -/
def squallTaken (s : State) : State :=
  let n := (s.reel.squall.map fun e => e.count).foldl (· + ·) 0
  modReel (fun k => { k with squall := [], squalls := k.squalls + 1, squallCounted := k.squallCounted + n }) s

/-- What goes next: the record whose write failed, the squall table where it is due, or the oldest staged record (R466, R468). -/
def nextRec (s : State) : Option (RRec × State) :=
  match s.reel.failedRec, s.reel.staging with
  | some r, _ => some (r, modReel (fun k => { k with failedRec := none }) s)
  | none, l =>
    if squallDue s then some (squallRec s, squallTaken s)
    else match l with
    | r :: l => some (r, modReel (fun k => { k with staging := l }) s)
    | [] => none

/-- The reel writes: not while a sector is switched, not in the last gasp, not while the skeleton-service units are incomplete,
and not before boot has copied the always-on ring (R468, R470, R471). (DESIGN CHOICE, log 60) -/
def reelWrites (s : State) : Bool :=
  !s.reel.switching && !s.reel.refusing && !s.flt.noService && decide (3 ≤ s.boot.stage)

/-- One record written; `verified` says that both steps of R463 verified. (DESIGN CHOICE, log 60) -/
def recordWrite (verified : Bool) (s : State) : State :=
  if !reelWrites s then s
  else match nextRec s with
  | none => s
  | some (r, s) => if s.reel.tally then tallyRec r s else if verified then writeRec r s else writeFailed r s

def execReelRecordWrite (t : Nat) (verified : Bool) (s : State) : Res := occurs t s (recordWrite verified)

/-- The table written as one SQUALL record, ahead of the staged records, once it is due (R466). -/
def squallWrite (s : State) : State :=
  if squallDue s && s.reel.failedRec.isNone then recordWrite true s else s

def execSquallWrite (t : Nat) (s : State) : Res := occurs t s squallWrite

/-- The spare is in place: a LOGMEDIA record opens the new sector (R468). (DESIGN CHOICE, log 60) -/
def switchDone (s : State) : State :=
  if !s.reel.switching then s
  else
    let k := s.reel
    let r : RRec := { cls := 6, flags := recFlags s, source := 20 * 1024, code := 0x1580, time := recTime s
                      data := leN 2 k.retiring ++ leN 2 (sectorAt k k.pos) ++ leN 1 k.spares ++ zeros 3 }
    writeRec r (modReel (fun k => { k with switching := false }) s)

def execSectorSwitchDone (t : Nat) (s : State) : Res := occurs t s switchDone

/-! ## The last gasp and boot (R463, R470, R471) -/

/-- What the reel does in the last gasp: LAST_GASP written to MRAM and to the always-on ring, everything staged discarded,
and every other record refused (R471). `t0` is the instant, `carry` as PWR_STAT gives it. (DESIGN CHOICE, log 50) -/
def reelGasp (t0 carry : Nat) (s : State) : State :=
  let lost := s.reel.staging.length + (s.reel.squall.map fun e => e.count.toNat).sum
    + (match s.reel.failedRec with | some _ => 1 | none => 0)
  let r : RRec := { cls := 3, flags := recFlags s, source := 2 * 1024, code := 0x1083, time := recTime s
                    data := leN 8 t0 ++ leN 1 carry ++ zeros 1 ++ leN 2 (min lost 65535) ++ zeros 4 }
  let s := modReel (fun k => { k with staging := [], squall := [], failedRec := none, switching := false, refusing := true }) s
  if s.reel.tally then tallyRec r s else writeRec r s

/-- The flags of a stored record with VOLATILE cleared, and its CHECK recomputed (R470). -/
def settledBytes (b : Bytes) : Bytes :=
  let n := b.length
  let body := (b.drop 1).take (n - 5)
  let body := body.set 2 (body.getD 2 0 &&& 0xFD#8)
  b.take 1 ++ body ++ leN 4 (crc32 body).toNat

/-- The always-on ring copied into MRAM at boot and after a wake: the records whose SEQ follows the last in MRAM, in SEQ
order; `ok` says that retention bank 7 passed its check (R470, R504). (DESIGN CHOICE, log 60) -/
def aonCopy (ok : Bool) (s : State) : State :=
  if !ok then modReel (fun k => { k with aon := [] }) s
  else if s.reel.tally then s
  else
    let last := s.reel.recs.getLast?.map (·.seq)
    let l := s.reel.aon.reverse.filter fun e => match last with
      | some q => decide (1 ≤ (e.seq - q).toNat) && decide ((e.seq - q).toNat < 2 ^ 31)
      | none => true
    forEach l s fun e s => placeRec e.seq (settledBytes e.bytes) s

/-- The reel as boot leaves it: what MRAM holds, the writer at the start of a fresh sector, and tally mode where no spare is
left (R463, R469). `aonKept` says that retention bank 7 kept the always-on ring, `tallyKept` that the always-on domain kept
the tallies. (DESIGN CHOICE, log 60) -/
def reelBoot (aonKept tallyKept : Bool) (r : Reel) : Reel :=
  { recs := r.recs, first := r.first, next := r.next, ring := r.ring, spares := r.spares, retiredCount := r.retiredCount
    lastClear := r.lastClear, aon := if aonKept then r.aon else []
    tallies := if tallyKept then r.tallies else [0, 0, 0, 0, 0, 0, 0, 0]
    pos := r.pos, offset := if r.offset == 64 then 64 else 16384, tally := r.spares == 0 }

/-! ## The window (R472, R473) -/

/-- Slot `j` of a window at a SEQ: its record's bytes, 0 past their end. -/
def windowSlot (r : Reel) (seq : U32) (j : Nat) : Bytes :=
  match findRec r (seq + BitVec.ofNat 32 j) with | some b => padTo 256 b | none => zeros 256

/-- REEL_CURSOR written: the load of the 16 slots starts, or starts again (R473). -/
def cursorWrite (v : U32) (s : State) : State :=
  modReel (fun r => { r with cursor := v, loading := true, loaded := (List.range 16).map (windowSlot r v) }) s

def execReelCursorWrite (t : Nat) (v : U32) (s : State) : Res := happens t s (cursorWrite v)

/-- The load ends: the window holds the snapshot. -/
def windowLoaded (s : State) : State :=
  if s.reel.loading then modReel (fun r => { r with loading := false, window := r.loaded, loaded := [] }) s else s

def execReelWindowLoadDone (t : Nat) (s : State) : Res := happens t s windowLoaded

/-! ## The REEL commands (R474, R476) -/

/-- REEL_STATUS's response. -/
def reelStatusBytes (s : State) : Bytes :=
  let r := s.reel
  leN 4 r.first.toNat ++ leN 4 r.next.toNat ++ leN 4 r.overwritten.toNat ++ leN 4 r.squalls.toNat
    ++ leN 4 r.squallCounted.toNat ++ leN 1 r.spares ++ leN 1 (b2n r.tally) ++ leN 2 r.retiredCount
    ++ leN 2 (usedPos r).length ++ zeros 2 ++ leN 4 r.clears.toNat ++ leN 8 r.lastClear.toNat ++ zeros 8

def execReelStatus (t : Nat) (r : CmdRef) (s : State) : Res :=
  verb 0x1501 t r s fun c s => reply c (reelStatusBytes s) s

/-- Records from a SEQ on that match the classes, at most `max` and in `room` bytes; with the SEQ to read next. -/
def readRecs (r : Reel) (classes : Nat) : Nat → U32 → Nat → Nat → List Bytes × U32
  | 0, q, _, _ => ([], q)
  | fuel + 1, q, max, room =>
    if max == 0 || !readable r q then ([], q)
    else match findRec r q with
    | none => readRecs r classes fuel (q + 1) max room
    | some b =>
      if classes != 0 && !bit classes (byteAt b 2).toNat then readRecs r classes fuel (q + 1) max room
      else if room < b.length then ([], q)
      else
        let (l, n) := readRecs r classes fuel (q + 1) (max - 1) (room - b.length)
        (b :: l, n)

/-- REEL_READ. -/
def reelRead (c : Cmd) (s : State) : State :=
  let q : U32 := BitVec.ofNat 32 (field c.payload 0 4)
  let max := field c.payload 4 2
  if !readable s.reel q || max == 0 || 255 < max then done c stRANGE s
  else
    let fuel := (s.reel.next - q).toNat
    let (l, n) := readRecs s.reel (field c.payload 6 1) fuel q max (c.respLen - 8)
    reply c (leN 2 l.length ++ zeros 2 ++ leN 4 n.toNat ++ l.flatten) s

def execReelRead (t : Nat) (r : CmdRef) (s : State) : Res := verb 0x1502 t r s reelRead

/-- Who sent a command: its mailbox, 1 for in-band, and its key slot. -/
def sender (c : Cmd) : Nat × Nat × Nat :=
  let m := match c.ref with | .mbx n _ => n | .cue _ _ => 0
  match c.inband with | some i => (m, 1, i.key) | none => (m, 0, 0)

/-- REEL_CLEAR (R474). -/
def reelClear (c : Cmd) (s : State) : State :=
  let upto : U32 := BitVec.ofNat 32 (field c.payload 0 4)
  let flags := field c.payload 4 1
  let r := s.reel
  let d := (upto - r.first).toNat
  let n := (r.next - r.first).toNat
  let (m, inb, key) := sender c
  if !keyAuthority c then done c stDENIED s
  else if n ≤ d && (upto - r.next).toNat < 2 ^ 31 then done c stRANGE s
  else
    let s := modReel (fun k => { k with
      first := if d < n then upto + 1 else k.first, clears := k.clears + 1, lastClear := BitVec.ofNat 64 (calNow s)
      tallies := if bit flags 0 then [0, 0, 0, 0, 0, 0, 0, 0] else k.tallies }) s
    let s := if (usedPos s.reel).length < 227 then modReel (fun k => { k with warnArmed := true }) s else s
    done c stOK (record 6 (20 * 1024) 0x1582 (leN 4 r.first.toNat ++ leN 4 upto.toNat ++ leN 1 m ++ leN 1 inb ++ leN 1 key
      ++ leN 1 flags ++ zeros 4) s)

def execReelClear (t : Nat) (r : CmdRef) (s : State) : Res := verb 0x1503 t r s reelClear

/-- REEL_NOTE: a full staging bobbin ends it with BUSY (R466, R476). -/
def reelNote (c : Cmd) (s : State) : State :=
  let n := field c.payload 0 1
  if n == 0 || 200 < n || c.payload.length != 8 + n then done c stRANGE s
  else if 64 ≤ s.reel.staging.length then done c stBUSY s
  else done c stOK (record 2 (6 * 1024 + (sender c).1) 0x0082 (leN 1 n ++ zeros 7 ++ bytesAt c.payload 8 n) s)

def execReelNote (t : Nat) (r : CmdRef) (s : State) : Res := verb 0x1504 t r s reelNote

end Sys2Proof.Machine
end

