-- ==== Sys2Proof/Machine/Meter.lean ====
section
/-! DEFINITION. Energy metering and the power cap (R385 to R404). -/

namespace Sys2Proof.Machine

/-- Metering changed. -/
def modMeter (f : Meter → Meter) (s : State) : State := { s with meter := f s.meter }
/-- A circuit. -/
def circuitOf (s : State) (n : Nat) : Circuit := kgetD s.meter.circuits n {}
/-- A circuit changed. -/
def modCircuit (n : Nat) (f : Circuit → Circuit) (s : State) : State :=
  modMeter (fun m => { m with circuits := kmod m.circuits n {} f }) s
/-- A circuit is metered: the feeds always, the others where enabled (R386). -/
def metered (s : State) (n : Nat) : Bool := n == 8 || n == 9 || (decide (n < 8) && (circuitOf s n).enable)
/-- Metering runs: in Run, Calm and Doze, and not in a last gasp (R394, R396). -/
def metering (s : State) : Bool := s.hif.readyEver && decide (s.power.st ≤ 2) && s.power.gasp.isNone
/-- METER_STATE emitted (R404). -/
def meterEvent (kind idx : Nat) (s : State) : State :=
  emit 0x1101 (leN 1 kind ++ leN 1 idx ++ zeros 6 ++ leN 8 s.now) s

/-! ## Ranges (R388) -/

/-- One decimated sample of a current input, in thousandths of full scale (R388). (DESIGN CHOICE, log 55) -/
def rangeSample (n : Nat) (coarse fine : Nat) (s : State) : State :=
  let k := circuitOf s n
  let loud := if k.gain == 16 then decide (600 < fine) else decide (150 < fine)
  let clip := decide (990 ≤ coarse)
  let s := modCircuit n (fun k => { k with gain := if k.gain == 16 && 950 ≤ fine then 4 else k.gain, loud := k.loud || loud
                                           clipped := k.clipped || clip, clippedSec := k.clippedSec || clip }) s
  let said := match k.clipAt with | some a => decide (s.now < a + 1000000000) | none => false
  if clip && !said then meterEvent 4 n (modCircuit n (fun k => { k with clipAt := some s.now }) s) else s

/-- METER_SAMPLE: one decimated sample of every current input. (DESIGN CHOICE, log 55) -/
def meterSample (m : MeterSample) (s : State) : State :=
  if !metering s then s
  else forEach ((List.range 8).filter (metered s)) s fun n s =>
    rangeSample n (m.coarse.getD n 0).natAbs (m.fine.getD n 0).natAbs s

def execMeterSample (t : Nat) (m : MeterSample) (s : State) : Res := happens t s (meterSample m)

/-- A cycle ends: after 16 in which no sample exceeded 60 % of the gain-16 full scale, the gain returns to 16 (R388).
(DESIGN CHOICE, log 55) -/
def rangeCycle (n : Nat) (s : State) : State :=
  modCircuit n (fun k =>
    let q := if k.loud then 0 else k.quiet + 1
    { k with loud := false, quiet := q, gain := if 16 ≤ q then 16 else k.gain }) s

/-! ## Accumulation and pulses (R391, R392, R398) -/

/-- The energy of a power over a time, in units of 2^-32 µWh (or µvarh, µVAh), from mW and ns. (DESIGN CHOICE, log 24) -/
def energyOf (mw ns : Nat) : Nat := mw * ns * 2 ^ 32 / 3600000000

/-- What a power sample adds to the five accumulators of its circuit, IMPORT_P first (R391, R392). (DESIGN CHOICE, log 55) -/
def energies (p : PowerSample) : List Nat :=
  let e := energyOf p.p.natAbs p.ns
  let r := if p.circuit < 8 then energyOf p.q.natAbs p.ns else 0
  [if 0 ≤ p.p then e else 0, if 0 ≤ p.p then 0 else e, if 0 ≤ p.q then r else 0, if 0 ≤ p.q then 0 else r, energyOf p.s p.ns]

/-- A pulse output takes its quantity of a power sample (R398). -/
def pulseAdd (n : Nat) (e : Nat) (s : State) : State :=
  match kget? s.meter.pulses n with
  | none => s
  | some q =>
    let rem := q.rem + e
    let w := q.uwh * 2 ^ 32
    let k := if w == 0 then 0 else rem / w
    let beyond := decide (65535 < q.owed + k)
    let said := match q.overAt with | some a => decide (s.now < a + 1000000000) | none => false
    let q := { q with rem := rem - k * w, owed := min 65535 (q.owed + k), overAt := if beyond && !said then some s.now else q.overAt }
    let s := modMeter (fun m => { m with pulses := kset m.pulses n q }) s
    if beyond && !said then meterEvent 3 n s else s

/-- METER_POWER_SAMPLE: the power of one cycle of an AC circuit, or of 1 ms of a DC circuit.
(DESIGN CHOICE, log 24; DESIGN CHOICE, log 55) -/
def powerSample (p : PowerSample) (s : State) : State :=
  if !metering s || !metered s p.circuit then s
  else
    let l := energies p
    let s := modMeter (fun m => { m with acc := (List.range 5).foldl (fun a i =>
      kset a (5 * p.circuit + i) ((kgetD a (5 * p.circuit + i) 0 + l.getD i 0) % 2 ^ 96)) m.acc }) s
    let s := modCircuit p.circuit (fun k => { k with secEnergy := k.secEnergy + p.p * p.ns }) s
    let s := if p.circuit < 8 then rangeCycle p.circuit s else s
    forEach (s.meter.pulses.filter fun e => e.2.qty != 0 && bit e.2.circuits p.circuit) s fun e s =>
      pulseAdd e.1 (l.getD (e.2.qty - 1) 0) s

def execMeterPowerSample (t : Nat) (p : PowerSample) (s : State) : Res := happens t s (powerSample p)

/-- The level of a pulse output driven. -/
def pulsePin (n : Nat) (active low : Bool) (s : State) : State := put (.pin ("PULSE" ++ toString n) (active != low)) s

/-- An owed pulse starts. -/
def pulseStart (n : Nat) (s : State) : State :=
  match kget? s.meter.pulses n with
  | none => s
  | some q =>
    if !metering s || q.owed == 0 || q.until_.isSome || s.now < q.rest then s
    else
      let q' := { q with owed := q.owed - 1, until_ := some (s.now + q.widthMs * 1000000) }
      pulsePin n true q.low (modMeter (fun m => { m with pulses := kset m.pulses n q' }) s)

/-- A pulse ends, and the output is inactive for as long again. -/
def pulseEnd (n : Nat) (s : State) : State :=
  match kget? s.meter.pulses n with
  | none => s
  | some q =>
    match q.until_ with
    | none => s
    | some u =>
      if s.now < u then s
      else
        let q' := { q with until_ := none, rest := s.now + q.widthMs * 1000000 }
        pulsePin n false q.low (modMeter (fun m => { m with pulses := kset m.pulses n q' }) s)

def execPulseStart (t n : Nat) (s : State) : Res := happens t s (pulseStart n)

def execPulseEnd (t n : Nat) (s : State) : Res := happens t s (pulseEnd n)

/-- The outputs held inactive, in Sleep, Deep Sleep and reset (R398). -/
def pulsesHeld (s : State) : State :=
  forEach (s.meter.pulses.filter fun e => e.2.until_.isSome) s fun e s =>
    let q' := { e.2 with until_ := none }
    pulsePin e.1 false e.2.low (modMeter (fun m => { m with pulses := kset m.pulses e.1 q' }) s)

/-! ## Windows (R389) -/

/-- A voltage input's circuits. -/
def vinOf (s : State) (v : Nat) : VIn := kgetD s.meter.vin v {}

/-- METER_WINDOW_END: a circuit's window is complete; a voltage input below 10 V is without voltage. (DESIGN CHOICE, log 55) -/
def windowEnd (w : WindowQty) (s : State) : State :=
  if !metering s || !metered s w.circuit then s
  else
    let n := w.circuit
    let s := modCircuit n (fun k => { k with window := some w, windowEnd := s.now, windowGain := k.gain, windowClip := k.clipped
                                             clipped := false }) s
    if 8 ≤ n then s
    else
      let v := (circuitOf s n).vsel
      let low := decide (w.vrms < 10000)
      if low == (vinOf s v).lost then s
      else meterEvent (if low then 0 else 1) v
        (modMeter (fun m => { m with vin := kmod m.vin v {} fun q => { q with lost := low } }) s)

def execMeterWindowEnd (t : Nat) (w : WindowQty) (s : State) : Res := happens t s (windowEnd w)

/-! ## Saves (R395 to R397) -/

/-- What a save holds now: pulses owed are added to their remainder. -/
def saveOf (s : State) (good : Bool) : SaveSlot :=
  let seq := match s.meter.newest.bind (kget? s.meter.slots) with | some q => q.seq + 1 | none => 1
  { seq := seq % 2 ^ 32, time := s.now, cal := calNow s, acc := s.meter.acc, g := s.meter.g, good
    rems := kmap s.meter.pulses fun _ q => q.rem + q.owed * q.uwh * 2 ^ 32 }

/-- The slot that does not hold the newest good save. -/
def otherSlot (s : State) : Nat := match s.meter.newest with | some 0 => 1 | _ => 0

/-- METER_SAVE_DUE: a periodic, repeated or forced save starts. (DESIGN CHOICE, log 55) -/
def saveDue (s : State) : State :=
  if !metering s || s.meter.saving.isSome || !(s.meter.saveNow || s.meter.lastSave + s.meter.saveS * 1000000000 ≤ s.now) then s
  else
    let k := otherSlot s
    modMeter (fun m => { m with slots := kset m.slots k (saveOf s false), saving := some k, lastSave := s.now, saveNow := false
                                saveRefs := m.clearRefs, clearRefs := [] }) s

def execMeterSaveDue (t : Nat) (s : State) : Res := happens t s saveDue

/-- METER_SAVE_VERIFY: a save read back. (DESIGN CHOICE, log 55) -/
def saveVerify (ok : Bool) (s : State) : State :=
  match s.meter.saving with
  | none => s
  | some k =>
    if ok then
      let refs := s.meter.saveRefs
      let s := modMeter (fun m => { m with slots := kmod? m.slots k (fun q => { q with good := true }), newest := some k
                                           saving := none, saveRefs := []
                                           cleared := m.cleared.filter fun e => !refs.contains e.1 }) s
      forEach refs s fun r s => finish r stOK 0 [] s
    else meterEvent 2 k (modMeter (fun m => { m with saving := none, saveNow := true, clearRefs := m.saveRefs ++ m.clearRefs
                                                     saveRefs := [] }) s)

def execMeterSaveVerify (t : Nat) (ok : Bool) (s : State) : Res := happens t s (saveVerify ok)

/-- The final save of a last gasp, with the values as at t0; it rewrites a slot being written (R396). (DESIGN CHOICE, log 50) -/
def finalSave (s : State) : State :=
  let k := s.meter.saving.getD (otherSlot s)
  modMeter (fun m => { m with slots := kset m.slots k (saveOf s true), newest := some k, saving := none, finalDone := true }) s

/-- The save on entry to Sleep or Deep Sleep (R371, R394). -/
def entrySave (s : State) : State :=
  let k := s.meter.saving.getD (otherSlot s)
  let slot := saveOf s true
  modMeter (fun m => { m with slots := kset m.slots k slot, newest := some k, saving := none, lastSave := s.now, finalDone := true }) s

/-- The UNSAVED_INTERVAL record (R397): `gap` in ns, 0 where no slot gives a bound, and where it comes from. -/
def unsavedRecord (circuits : KMap Circuit) (gap src : Nat) (s : State) : State :=
  let bound (n : Nat) : Nat :=
    match (kgetD circuits n {}).window with
    | some w => (w.p.natAbs * gap + 3599999999) / 3600000000
    | none => 0
  record 3 (2 * 1024) 0x1180 (leN 8 gap ++ leN 1 src ++ zeros 7 ++ (List.range 10).flatMap fun n => leN 8 (bound n)) s

/-- What MRAM holds of metering, loaded at boot: the settings, the slots, and the newest good save (R395, R397, R401). -/
def meterBoot (m : Meter) : Meter :=
  let good := m.slots.filter fun e => e.2.good
  let best := good.foldl (fun (a : Option (Nat × SaveSlot)) e => match a with
    | some b => if b.2.seq < e.2.seq then some e else a
    | none => some e) none
  let circuits := kmap m.circuits fun _ k =>
    ({ enable := k.enable, vsel := k.vsel, invert := k.invert, iscale := k.iscale } : Circuit)
  let pulses := kmap m.pulses fun n q =>
    let r := match best with | some b => kgetD b.2.rems n 0 | none => 0
    ({ q with rem := 0, owed := 0, until_ := none, rest := 0, overAt := none } : Pulse) |> fun q =>
      let w := q.uwh * 2 ^ 32
      if w == 0 then { q with rem := r } else { q with owed := min 65535 (r / w), rem := r - min 65535 (r / w) * w }
  { vin := kmap m.vin fun _ v => { v with lost := false }, circuits, pulses, slots := m.slots, saveS := m.saveS
    coefs := m.coefs, cap := m.cap, acc := (match best with | some b => b.2.acc | none => [])
    g := (match best with | some b => b.2.g | none => 2 ^ 32), newest := best.map (·.1) }

/-! ## The power cap (R399 to R402) -/

/-- The weave in force holds a POWER_CAP node, the cap is enabled and the device is in pixel service (R400). -/
def capRuns (s : State) : Bool :=
  s.meter.cap.enable && s.fab.svcLevel == 2
    && (match s.weave.active with | some w => w.nodes.any fun n => n.kind == 0x17 | none => false)

/-- The fixed and variable power of the epoch whose drive sums are complete, and the tiles whose set is undefined, in units
of 2^-32 µW (R399). -/
def capPower (s : State) : Nat × Nat × Nat :=
  (wallTiles s).foldl (fun acc r =>
    match kget? s.meter.coefs r.coef with
    | none => (acc.1, acc.2.1, acc.2.2 + 1)
    | some k =>
      let d (i : Nat) : Nat := kgetD s.weave.sums (4 * r.tile + i) 0
      (acc.1 + k.idle * 1000 * 2 ^ 32, acc.2.1 + (k.k0 * d 0 + k.k1 * d 1 + k.k2 * d 2), acc.2.2)) (0, 0, 0)

/-- CAP_W / g in units of 2^-32 µW. -/
def capRoom (s : State) : Nat := s.meter.cap.capW * 1000000 * 2 ^ 64 / max 1 s.meter.g

/-- The target of R400, in tw. (DESIGN CHOICE, log 24) -/
def capTarget (room fixed var : Nat) : Int :=
  if fixed + var ≤ room then 0
  else if room ≤ fixed then -65536
  else max (-65536) (8192 * log2Fix (room - fixed) var / (2 ^ logBits : Nat))

/-- The power of an epoch under an applied value in 16 fractional bits: fixed + 2^(a/8192) × variable. (DESIGN CHOICE, log 24) -/
def capAt (fixed var : Nat) (a : Int) : Nat :=
  let q := exp2Fix (a * (2 ^ (logBits - 29) : Nat))
  fixed + (q.num.toNat * var) / q.den

/-- A target set for an epoch, with CAP_STATE where the cut begins or ends (R400). -/
def setTarget (t : Int) (e : U32) (s : State) : State :=
  let pred := s.meter.g * capAt s.meter.pFixed s.meter.pVar (t * 65536) / 2 ^ 32
  let cut := t != 0
  let was := s.meter.cutting
  let s := modMeter (fun m => { m with pPred := pred, capEpoch := e, cutting := cut }) s
  let s := { s with weave := { s.weave with capT := t * 65536 } }
  if cut == was then s
  else emit 0x1102 (leN 1 (b2n cut) ++ zeros 3 ++ leN 4 e.toNat ++ leN 4 (twos 32 t) ++ leN 4 (pred / 2 ^ 32 / 1000000)) s

/-- CAP_TARGET_COMPUTE: the drive sums of the epoch being woven are complete. -/
def capCompute (s : State) : State :=
  if !modeOn s || !s.mode.weaving || s.meter.capDone || remainingOps s != 0 then s
  else
    let (f, v, u) := capPower s
    let s := modMeter (fun m => { m with pFixed := f, pVar := v, undef := u, capDone := true }) s
    setTarget (if capRuns s then capTarget (capRoom s) f v else 0) (s.link.epoch + 1) s

def execCapTargetCompute (t : Nat) (s : State) : Res := happens t s capCompute

/-- An epoch committed: its predicted power joins the second's mean, with the value applied in it (R401). -/
def capCommit (s : State) : State :=
  let (f, v, _) := capPower s
  modMeter (fun m => { m with puSum := m.puSum + capAt f v s.weave.capA, puN := m.puN + 1 }) s

/-- A change of the cap or of coefficients shows in the target of the first epoch whose weave begins after it: where that is
computed already, it is computed again (R402). (DEDUCED, log 73) -/
def capRedo (s : State) : State :=
  if s.mode.weaving && s.meter.capDone then capCompute (modMeter (fun m => { m with capDone := false }) s) else s

/-- Without POWER_CAP in the weave, with the cap disabled, and outside pixel service, the target is 0 (R400): from epoch `e`. -/
def capOff (e : U32) (s : State) : State :=
  if !capRuns s && (s.weave.capT != 0 || s.meter.cutting) then setTarget 0 e s else s

/-- The weave of an epoch begins: a target that is not ready counts as late, and the sums start again (R400). `e` is the epoch, and `woven` says that the one before was woven. -/
def capBegin (e : U32) (woven : Bool) (s : State) : State :=
  let s := if woven && capRuns s && !s.meter.capDone then modMeter (fun m => { m with lateTargets := m.lateTargets + 1 }) s else s
  let s := capOff e s
  modMeter (fun m => { m with capDone := false }) { s with weave := { s.weave with sums := [] } }

/-- CAP_CORRECTION_UPDATE: at a whole PTP second, g follows the metered power of the second just ended (R401). -/
def capCorrect (s : State) : State :=
  let m := s.meter
  let l := setBits 10 m.cap.circuits
  let pm := (l.map fun n => (circuitOf s n).secEnergy).sum / 1000000000
  let pu := if m.puN == 0 then 0 else m.puSum / m.puN
  let bad := l.any fun n => (circuitOf s n).clippedSec || (decide (n < 8) && (vinOf s (circuitOf s n).vsel).lost)
  let frozen := !m.cap.enable || m.puN == 0 || bad || decide (pu * 100 < m.cap.capW * 1000000 * 2 ^ 32)
  let ratio := pm * (1000 * 2 ^ 64 : Nat) / (max 1 pu : Nat)
  let g := if frozen then m.g
    else (clampI (2 ^ 31 : Nat) (2 ^ 33 : Nat) ((m.g : Int) + (ratio - (m.g : Int)) / (m.cap.tauS : Int))).toNat
  modMeter (fun m => { m with g, frozen, pMeter := pm, puSum := 0, puN := 0
                              circuits := kmap m.circuits fun _ k => { k with secEnergy := 0, clippedSec := false } }) s

def execCapCorrectionUpdate (t : Nat) (s : State) : Res := happens t s fun s => if metering s then capCorrect s else s

/-! ## The METER commands (R403) -/

def execMeterInputSet (t : Nat) (r : CmdRef) (s : State) : Res :=
  verb 0x1101 t r s fun c s =>
    let v := field c.payload 0 1
    let nom := field c.payload 1 1
    let sc := field c.payload 4 4
    if 3 < v || 1 < nom || sc == 0 || 4000000000 < sc then done c stRANGE s
    else done c stOK (modMeter (fun m => { m with vin := kmod m.vin v {} fun q => { q with nominal := nom, vscale := sc } }) s)

def execMeterCircuitSet (t : Nat) (r : CmdRef) (s : State) : Res :=
  verb 0x1102 t r s fun c s =>
    let n := field c.payload 0 1
    let en := field c.payload 1 1
    let vs := field c.payload 2 1
    let sc := field c.payload 4 4
    if 7 < n || 1 < en || 3 < vs || sc == 0 || 4000000000 < sc then done c stRANGE s
    else done c stOK (modCircuit n (fun k => { k with enable := en == 1, vsel := vs, invert := bit (field c.payload 3 1) 0
                                                      iscale := sc }) s)

/-- A circuit's record of METER_READ: the integer parts of its accumulators. -/
def accBytes (s : State) (n : Nat) : Bytes := (List.range 5).flatMap fun i => leN 8 (kgetD s.meter.acc (5 * n + i) 0 / 2 ^ 32)

/-- The circuits a command names, 0xFF all. -/
def namedCircuits (n : Nat) : List Nat := if n == 0xFF then List.range 10 else if n < 10 then [n] else []

def execMeterRead (t : Nat) (r : CmdRef) (s : State) : Res :=
  verb 0x1103 t r s fun c s =>
    let l := namedCircuits (field c.payload 0 1)
    let seq := match s.meter.newest.bind (kget? s.meter.slots) with | some q => q.seq | none => 0
    if l.isEmpty then done c stRANGE s
    else reply c (leN 8 s.now ++ leN 4 seq ++ leN 1 l.length ++ zeros 3 ++ l.flatMap (accBytes s)) s

/-- METER_MEASURE's response. -/
def measureBytes (s : State) (n : Nat) : Bytes :=
  let k := circuitOf s n
  let lost := decide (n < 8) && (vinOf s k.vsel).lost
  let tail := leN 1 (if 8 ≤ n then 1 else k.windowGain) ++ leN 1 (b2n lost + 2 * b2n k.windowClip) ++ zeros 14
  match k.window with
  | none => zeros 48 ++ tail
  | some w =>
    leN 8 k.windowEnd ++ leN 4 w.vrms ++ leN 4 w.irms ++ leN 8 (twos 64 w.p) ++ leN 8 (twos 64 w.q) ++ leN 8 w.s
      ++ leN 2 (twos 16 w.pf) ++ leN 2 w.freq ++ leN 2 w.thdV ++ leN 2 w.thdI ++ tail

def execMeterMeasure (t : Nat) (r : CmdRef) (s : State) : Res :=
  verb 0x1104 t r s fun c s =>
    let n := field c.payload 0 1
    if 9 < n then done c stRANGE s else reply c (measureBytes s n) s

/-- METER_HARMONICS's response. -/
def harmonicBytes (s : State) (n : Nat) (cur : Bool) : Bytes :=
  let k := circuitOf s n
  match k.window with
  | none => zeros 136
  | some w =>
    let h := if cur then w.harmI else w.harmV
    leN 8 k.windowEnd ++ leN 4 (if cur then w.h1I else w.h1V) ++ (List.range 62).flatMap fun i => leN 2 (min (h.getD i 0) 65535)

def execMeterHarmonics (t : Nat) (r : CmdRef) (s : State) : Res :=
  verb 0x1105 t r s fun c s =>
    let n := field c.payload 0 1
    let w := field c.payload 1 1
    if 7 < n || 1 < w then done c stRANGE s else reply c (harmonicBytes s n (w == 1)) s

/-- METER_PULSE_SET: a reassignment restarts the output with an empty remainder. -/
def pulseSet (c : Cmd) (s : State) : State :=
  let p := c.payload
  let n := field p 0 1
  let qty := field p 1 1
  let uwh := field p 4 4
  let w := let v := field p 8 2; if v == 0 then 30 else v
  let pol := field p 10 1
  if 7 < n || 5 < qty || (qty != 0 && uwh < 1000) || w < 10 || 1000 < w || 1 < pol then done c stRANGE s
  else
    let q : Pulse := { qty, circuits := field p 2 2, uwh, widthMs := w, low := pol == 1 }
    done c stOK (pulsePin n false q.low (modMeter (fun m => { m with pulses := kset m.pulses n q }) s))

def execMeterPulseSet (t : Nat) (r : CmdRef) (s : State) : Res := verb 0x1106 t r s pulseSet

def execMeterSaveSet (t : Nat) (r : CmdRef) (s : State) : Res :=
  verb 0x1107 t r s fun c s =>
    let v := let v := field c.payload 0 2; if v == 0 then 60 else v
    if 3600 < v then done c stRANGE s else done c stOK (modMeter (fun m => { m with saveS := v }) s)

/-- METER_CLEAR: it completes once the save it forces is done (R393). (DESIGN CHOICE, log 55) -/
def meterClear (c : Cmd) (s : State) : State :=
  let l := namedCircuits (field c.payload 0 1)
  if !keyAuthority c then done c stDENIED s
  else if l.isEmpty then done c stRANGE s
  else park c (modMeter (fun m => { m with acc := kfilter m.acc (fun k _ => !l.contains (k / 5)), saveNow := true
                                           clearRefs := m.clearRefs ++ [c.ref]
                                           cleared := m.cleared ++ [(c.ref, kfilter m.acc fun k _ => l.contains (k / 5))] }) s)

/-- A METER_CLEAR stopped: what it cleared is put back, and saved again (R73). (DEDUCED, log 14) -/
def clearUndo (r : CmdRef) (s : State) : State :=
  modMeter (fun m =>
    let old := (m.cleared.filter fun e => e.1 == r).flatMap (·.2)
    { m with acc := old.foldl (fun a e => kset a e.1 ((kgetD a e.1 0 + e.2) % 2 ^ 96)) m.acc
             saveNow := m.saveNow || !old.isEmpty, cleared := m.cleared.filter (fun e => e.1 != r)
             clearRefs := m.clearRefs.filter (fun q => q != r), saveRefs := m.saveRefs.filter (fun q => q != r) }) s

def execMeterClear (t : Nat) (r : CmdRef) (s : State) : Res := verb 0x1108 t r s meterClear

/-- METER_COEF_SET. -/
def coefSet (c : Cmd) (s : State) : State :=
  let p := c.payload
  let n := field p 0 2
  let l : List (Nat × CoefSet) := (List.range (min n 204)).map fun i =>
    let o := 8 + 20 * i
    (field p o 2, { idle := field p (o + 4) 4, k0 := field p (o + 8) 4, k1 := field p (o + 12) 4, k2 := field p (o + 16) 4 })
  if n == 0 || 204 < n || l.any (fun e => decide (1023 < e.1)) then done c stRANGE s
  else
    capRedo (done c stOK (modMeter (fun m => { m with coefs := l.foldl (fun a e => kset a e.1 e.2) m.coefs }) s))

def execMeterCoefSet (t : Nat) (r : CmdRef) (s : State) : Res := verb 0x1109 t r s coefSet

/-- METER_CAP_SET. -/
def capSet (c : Cmd) (s : State) : State :=
  let p := c.payload
  let en := field p 0 1
  let cs := field p 2 2
  let w := field p 4 4
  let tau := let v := field p 8 2; if v == 0 then 60 else v
  if 1 < en || w == 0 || 4000000 < w || tau < 10 || 600 < tau || (en == 1 && cs == 0) then done c stRANGE s
  else
    let q : CapSet := { enable := en == 1, circuits := cs, capW := w, tauS := tau }
    capRedo (done c stOK (modMeter (fun m => { m with cap := q, g := if bit (field p 10 1) 0 then 2 ^ 32 else m.g }) s))

def execMeterCapSet (t : Nat) (r : CmdRef) (s : State) : Res := verb 0x110A t r s capSet

/-- METER_CAP_STATUS's response. -/
def capBytes (s : State) : Bytes :=
  let m := s.meter
  let w (v : Nat) : Nat := v / 2 ^ 32 / 1000000
  leN 4 (twos 32 (s.weave.capT / 65536)) ++ leN 4 (twos 32 (round16 s.weave.capA)) ++ leN 4 (w m.pPred)
    ++ leN 4 (twos 32 (m.pMeter / 1000)) ++ leN 4 (m.g / 65536) ++ leN 4 (w m.pFixed) ++ leN 4 (w m.pVar)
    ++ leN 4 m.capEpoch.toNat ++ leN 2 (min m.undef 65535) ++ leN 1 (b2n (m.frozen || !m.cap.enable) + 2 * b2n m.cutting) ++ zeros 1
    ++ leN 4 m.lateTargets.toNat ++ zeros 8

def execMeterCapStatus (t : Nat) (r : CmdRef) (s : State) : Res :=
  verb 0x110B t r s fun c s => reply c (capBytes s) s

end Sys2Proof.Machine
end

