-- ==== Sys2Proof/Machine/Cal.lean ====
section
/-! DEFINITION. Calibration: its measurements and plausibility (R450, R456), its application (R457), and the CAL commands
(R459). -/

namespace Sys2Proof.Machine

/-- The die has moved by more than DELTA from the TEMP of the record in use; an instance whose result was discarded waits its
60 s (R454). -/
def dueByTemp (s : State) (i n : Nat) : Bool :=
  (calInst s i n).discardAt.isNone
    && (match recInUse s i n with | some r => decide (s.cal.delta < (dieOf s i - r.temp).natAbs) | none => false)

/-- DIE_TEMP_READ (R454). -/
def dieTempRead (ctl pwr : Int) (s : State) : State :=
  let s := modCal (fun c => { c with ctl, pwr }) s
  forEach (List.range 5) s fun i s =>
    let s := if !bit s.cal.enable i || (calItem s i).phase != 0 then s
      else forEach ((List.range (instCount i)).filter (dueByTemp s i)) s fun n s => calDue i n s
    calStart i s

def execDieTempRead (t : Nat) (controller power : Int) (s : State) : Res := happens t s (dieTempRead controller power)

/-- A discarded instance falls due again after 60 s (R454). -/
def discardRetry (i n : Nat) (s : State) : State :=
  match (calInst s i n).discardAt with
  | none => s
  | some a =>
    if s.now < a + 60000000000 then s else calStart i (modInst i n (fun q => { q with due := true, discardAt := none }) s)

def execCalDiscardRetry (t item inst : Nat) (s : State) : Res := happens t s (discardRetry item inst)

/-! ## Plausibility (R450, R456) -/

/-- The median of four numbers: the mean of the middle two, doubled. -/
def median2 (l : List Int) : Int :=
  let m := sortBy (fun x => (x + 2 ^ 40).toNat) l
  m.getD 1 0 + m.getD 2 0

/-- The cells within 150 ppm of the median. -/
def goodCells (l : List Int) : List Nat :=
  (List.range 4).filter fun i => decide ((2 * l.getD i 0 - median2 l).natAbs ≤ 300)

/-- The METER reference's DATA: the good cell nearest the median, and the excluded cells (R450, R452). -/
def cellData (l : List Int) : Bytes :=
  let d (i : Nat) : Nat := (2 * l.getD i 0 - median2 l).natAbs
  let good := goodCells l
  let best := good.foldl (fun b i => if d i < d b then i else b) (good.headD 0)
  padTo 48 (leN 1 best ++ leN 1 (bitsOf ((List.range 4).map fun i => !good.contains i)))

/-- A gain lies within a part per thousand of another. -/
def gainNear (g ref perMille : Nat) : Bool := decide (((g : Int) - (ref : Int)).natAbs * 1000 ≤ ref * perMille)

/-- A result lies in its window (R456). (DESIGN CHOICE, log 59) -/
def plausible (s : State) (i : Nat) (r : CalResult) : Bool :=
  let last := match recInUse s i r.inst with | some q => q.data | none => designValue i r.inst
  let fac := factoryData s i r.inst
  match i with
  | 0 =>
    if r.inst == 0 then decide (3 ≤ (goodCells r.cellPpm).length)
    else !r.clipped && (if 5 ≤ r.inst && r.inst ≤ 12 then [0, 8, 16] else [0]).all fun o =>
      gainNear (field r.data o 4) (field last o 4) 3 && gainNear (field r.data o 4) (field fac o 4) 10
  | 1 =>
    r.cellPpm.all (fun x => decide (x.natAbs ≤ 30000)) && [0, 1].all fun o =>
      let v : Int := field r.data o 1
      decide (48 ≤ v) && decide (v ≤ 72) && decide ((v - (field last o 1 : Int)).natAbs ≤ 3)
  | 2 => decide ((sfield r.data 0 2 - sfield fac 0 2).natAbs ≤ 120) && decide (r.inl ≤ 500)
  | 3 => decide ((sfield r.data 0 4 - sfield last 0 4).natAbs ≤ 5000) && decide ((sfield r.data 0 4 - sfield fac 0 4).natAbs ≤ 20000)
  | _ => decide (((field r.data 0 1 : Int) - (field fac 0 1 : Int)).natAbs ≤ 4)

/-- A result discarded, with its record; it falls due again 60 s on. (DESIGN CHOICE, log 59) -/
def calDiscard (i : Nat) (r : CalResult) (s : State) : State :=
  let s := modItem i (fun k => { k with discarded := k.discarded + 1, lost := k.lost + 1 }) s
  record 5 (19 * 1024) 0x1480 (leN 1 i ++ zeros 1 ++ leN 2 r.inst ++ zeros 4 ++ padTo 48 r.data)
    (modInst i r.inst (fun q => { q with discardAt := some s.now }) s)

/-- The end of a run: its values are in force and written, and the 60 s of what it discarded start (R453, R454, R457).
(DESIGN CHOICE, log 59) -/
def calEnd (i : Nat) (s : State) : State :=
  let k := calItem s i
  let s := forEach k.targets s fun e s => writeTrim i e.1 k.temp e.2 s
  let s := forEach k.insts s fun n s => modInst i n (fun q => { q with discardAt := q.discardAt.map fun _ => s.now }) s
  let s := modItem i (fun q => { q with phase := 0, insts := [], targets := [], runs := q.runs + 1, lastRun := s.now
                                        accepted := q.accepted + BitVec.ofNat 32 k.targets.length }) s
  calStart i (calEvent i 0 k.targets.length k.lost 0xFFFF k.temp s)

/-- The application of a run's values starts (R457). -/
def calApply (i : Nat) (s : State) : State :=
  modItem i (fun k => { k with phase := 3, startAt := s.now, stepAt := s.now
                               was := kmap k.targets fun n _ => calValue s i n }) s

/-- CAL_MEASUREMENT_DONE: the results of a run, each accepted or discarded (R456, R458). (DESIGN CHOICE, log 59) -/
def measured (i : Nat) (l : List CalResult) (s : State) : State :=
  let k := calItem s i
  if k.phase != 2 then s
  else
    let l := l.filter fun r => k.insts.contains r.inst
    let gone := k.insts.filter (instRetired s i)
    let s := forEach gone s fun n s => calDue i n (modItem i (fun q => { q with abandoned := q.abandoned + 1 }) s)
    let l := l.filter fun r => !gone.contains r.inst
    let refBad := i == 0 && l.any fun r => r.inst == 0 && !plausible s 0 r
    let s := forEach l s fun r s =>
      if refBad || !plausible s i r then calDiscard i r s
      else
        let d := if i == 0 && r.inst == 0 then cellData r.cellPpm else padTo 48 r.data
        modItem i (fun q => { q with targets := kset q.targets r.inst d }) s
    let s := calApply i s
    if k.insts.all gone.contains then
      calEvent i 1 0 0 0xFFFF k.temp (modItem i (fun q => { q with phase := 0, insts := [] }) s)
    else if (calItem s i).targets.isEmpty then calEnd i s
    else s

def execCalMeasurementDone (t item : Nat) (results : List CalResult) (s : State) : Res := happens t s (measured item results)

/-! ## Application (R457) -/

/-- A number moved towards another by at most `d`. -/
def toward (d : Nat) (a b : Int) : Int := clampI (a - d) (a + d) b

/-- The least time between two steps of an item in ns (R457). -/
def stepGap (i : Nat) : Nat := match i with | 1 => 1000000 | 3 => 20000000 | 4 => 10000 | _ => 0

/-- A METER instance's value `e` ns into its application: each gain lies on the line from the old to the new over 1 s, and the
cell and the offsets are the new ones (R457). (DESIGN CHOICE, log 59) -/
def meterRamp (n e : Nat) (a b : Bytes) : Bytes :=
  if n == 0 || 1000000000 ≤ e then b
  else
    let paths := if 5 ≤ n && n ≤ 12 then [0, 8, 16] else [0]
    let gain (o : Nat) : Nat :=
      ((field a o 4 : Int) + ((field b o 4 : Int) - (field a o 4 : Int)) * (e : Int) / 1000000000).toNat
    (paths.flatMap fun o => leN 4 (gain o) ++ (b.drop (o + 4)).take 4) ++ b.drop (8 * paths.length)

/-- A value one step nearer its target: a LANE or DELAY moves one leg or tap, OSC by what 50 ppb/s allows, CMP at once.
(DESIGN CHOICE, log 59) -/
def stepValue (i ns : Nat) (a b : Bytes) : Bytes :=
  match i with
  | 1 => if field a 0 1 != field b 0 1 then leN 1 (toward 1 (field a 0 1) (field b 0 1)).toNat ++ a.drop 1
    else a.take 1 ++ leN 1 (toward 1 (field a 1 1) (field b 1 1)).toNat ++ b.drop 2
  | 3 => leN 4 (twos 32 (toward (50 * ns / 1000000000) (sfield a 0 4) (sfield b 0 4))) ++ b.drop 4
  | 4 => leN 1 (toward 1 (field a 0 1) (field b 0 1)).toNat ++ b.drop 1
  | _ => b

/-- CAL_APPLY_STEP: each value of a run moves one step, no sooner than its item allows, or along METER's line; once all have
arrived the run ends. (DESIGN CHOICE, log 59) -/
def applyStep (i : Nat) (s : State) : State :=
  let k := calItem s i
  if k.phase != 3 || s.now < k.stepAt + stepGap i then s
  else
    let s := forEach k.targets s fun e s =>
      let v := if i == 0 then meterRamp e.1 (s.now - k.startAt) (kgetD k.was e.1 e.2) e.2
        else stepValue i (s.now - k.stepAt) (calValue s i e.1) e.2
      modInst i e.1 (fun q => { q with value := some v }) s
    let s := modItem i (fun q => { q with stepAt := s.now }) s
    if (i != 0 || decide (k.startAt + 1000000000 ≤ s.now)) && k.targets.all fun e => calValue s i e.1 == e.2 then calEnd i s else s

def execCalApplyStep (t item : Nat) (s : State) : Res := occurs t s (applyStep item)

/-- Every run abandoned, by the last gasp (R458). -/
def calAbandonAll (s : State) : State :=
  forEach ((List.range 5).filter fun i => (calItem s i).phase != 0) s fun i s =>
    let k := calItem s i
    let s := forEach k.insts s fun n s => calDue i n s
    modItem i (fun q => { q with phase := 0, insts := [], targets := []
                                 abandoned := q.abandoned + BitVec.ofNat 32 k.insts.length }) s

/-- A run is in progress (R375). -/
def calBusy (s : State) : Bool := (List.range 5).any fun i => (calItem s i).phase != 0

/-- What MRAM holds of calibration, at boot (R453, R459, R504): an instance whose live record is unusable is due. -/
def calBoot (c : Cal) : Cal :=
  { enable := c.enable, delta := c.delta, bad := c.bad
    insts := kmap c.insts fun _ q => { factory := q.factory, live := q.live, due := q.live.isNone } }

/-! ## The CAL commands (R459) -/

/-- CAL_STATUS's entry of an item. -/
def calEntry (s : State) (i : Nat) : Bytes :=
  let k := calItem s i
  let st := if k.phase != 0 then k.phase else if !bit s.cal.enable i then 4 else if (dueInsts s i).isEmpty then 0 else 1
  leN 1 st ++ zeros 1 ++ leN 2 (twos 16 (dieOf s i)) ++ leN 2 (twos 16 (match recInUse s i 0 with | some r => r.temp | none => 0))
    ++ zeros 2 ++ leN 8 k.lastRun

def execCalStatus (t : Nat) (r : CmdRef) (s : State) : Res :=
  verb 0x1401 t r s fun c s =>
    reply c (leN 2 s.cal.delta ++ leN 1 s.cal.enable ++ zeros 5 ++ (List.range 5).flatMap (calEntry s)) s

def execCalSet (t : Nat) (r : CmdRef) (s : State) : Res :=
  verb 0x1402 t r s fun c s =>
    let d := let v := field c.payload 2 2; if v == 0 then 150 else v
    if d < 20 || 500 < d then done c stRANGE s
    else done c stOK (modCal (fun k => { k with enable := field c.payload 0 1, delta := d }) s)

/-- CAL_RUN. -/
def calRun (c : Cmd) (s : State) : State :=
  let l := setBits 5 (field c.payload 0 1)
  if l.isEmpty then done c stRANGE s
  else if l.any fun i => (calItem s i).phase != 0 then done c stSTATE s
  else forEach l (done c stACCEPTED s) fun i s =>
    calStart i (forEach (List.range (instCount i)) s fun n s => calDue i n s)

def execCalRun (t : Nat) (r : CmdRef) (s : State) : Res := verb 0x1403 t r s calRun

def execCalTrimRead (t : Nat) (r : CmdRef) (s : State) : Res :=
  verb 0x1404 t r s fun c s =>
    let i := field c.payload 0 1
    let n := field c.payload 2 2
    let q := calInst s i n
    let reb := match q.factory with | .rebuilt _ => true | _ => false
    let f := factoryRec s i n
    if !instExists i n then done c stNOTFOUND s
    else reply c (leN 1 (b2n f.isSome + 2 * b2n q.live.isSome + 4 * b2n reb) ++ zeros 7
      ++ (match f with | some r => trimBytes i n (if reb then 2 else 0) r | none => zeros 64)
      ++ (match q.live with | some r => trimBytes i n 1 r | none => zeros 64)) s

def execCalCounters (t : Nat) (r : CmdRef) (s : State) : Res :=
  verb 0x1405 t r s fun c s =>
    let i := field c.payload 0 1
    let k := calItem s i
    if 4 < i then done c stRANGE s
    else reply c (leN 4 k.runs.toNat ++ leN 4 k.accepted.toNat ++ leN 4 k.discarded.toNat ++ leN 4 k.abandoned.toNat
      ++ leN 4 k.repairs.toNat ++ zeros 12) s

/-- CAL_RESTORE_FACTORY: the factory values are applied and written as a run's results are. (DESIGN CHOICE, log 59) -/
def calRestore (c : Cmd) (s : State) : State :=
  let i := field c.payload 0 1
  let n := field c.payload 2 2
  let l := if n == 0xFFFF then List.range (instCount i) else if instExists i n then [n] else []
  if !keyAuthority c then done c stDENIED s
  else if l.isEmpty then done c stNOTFOUND s
  else if (calItem s i).phase != 0 then done c stSTATE s
  else
    let s := done c stACCEPTED s
    let targets := l.foldl (fun m n => kset m n (factoryData s i n)) []
    let s := forEach l s fun n s => modInst i n (fun q => { q with due := false, discardAt := none }) s
    calApply i (modItem i (fun k => { k with insts := l, temp := dieOf s i, targets, lost := 0 }) s)

def execCalRestoreFactory (t : Nat) (r : CmdRef) (s : State) : Res := verb 0x1406 t r s calRestore

end Sys2Proof.Machine
end

