-- ==== Sys2Proof/Machine/Update.lean ====
section
/-! DEFINITION. Firmware update without interruption (R478 to R493): slots and images, the owner lock, staging, activation
and handover, the health window, and fallback. -/

namespace Sys2Proof.Machine

/-! ## Images (R479, R480) -/

/-- An image's VERSION. -/
def imgVersion (img : Bytes) : Nat := field img 8 4
/-- An image's SVN. -/
def imgSvn (img : Bytes) : Nat := field img 12 4
/-- An image's body as far as the slot holds it. -/
def imgBody (img : Bytes) : Bytes := (img.drop 256).take (field img 16 4)
/-- An image's BODY_HASH. -/
def imgHash (img : Bytes) : Bytes := bytesAt img 32 32

/-- The SHA-256 that key fuse `k` holds: fuse 0 is programmed. (DESIGN CHOICE, log 7) -/
def keyFuse (k : Nat) : Option Bytes := if k == 0 then some ((List.finRange 32).map Config.keyFuse) else none

/-- The check of R480 as FAIL: 0 none, 1 header, 2 key, 3 signature, 4 body hash, 5 SVN. `minSvn` is absent for Golden. A
BODY_LEN out of range is a header failure, a body that the slot does not hold whole a hash failure (notes/assumptions/70.md).
(PRESUMED, log 66) -/
def verifyFail (img : Bytes) (minSvn : Option Nat) : Nat :=
  let len := field img 16 4
  if img.length < 256 || bytesAt img 0 4 != [0x54#8, 0x52#8, 0x4C#8, 0x58#8] || field img 4 2 != 1 || len == 0
      || 2096896 < len then 1
  else if keyFuse (field img 6 1) != some (sha256 (bytesAt img 64 64)) then 2
  else if !ecdsaVerify (beNat (sha256 (img.take 128))) (beNat (bytesAt img 64 32)) (beNat (bytesAt img 96 32))
      (beNat (bytesAt img 128 32)) (beNat (bytesAt img 160 32)) then 3
  else if (imgBody img).length != len || sha256 (imgBody img) != imgHash img then 4
  else match minSvn with
    | some m => if imgSvn img < m then 5 else 0
    | none => 0

/-- The image a slot holds: 0 A, 1 B, 2 Golden. (DESIGN CHOICE, log 7) -/
def slotImage (u : Update) (n : Nat) : Bytes :=
  if n == 2 then Config.goldenImage
  else let q := kgetD u.slots n {}; if 2 ≤ q.st then q.image else []

/-- A slot's check. -/
def slotFail (u : Update) (n : Nat) : Nat := verifyFail (slotImage u n) (if n == 2 then none else some u.minSvn)

/-- The image that runs. -/
def runImage (s : State) : Bytes := kgetD s.upd.runs s.upd.part []

/-! ## Staging (R483) -/

/-- UPDATE_BEGIN. -/
def updBegin (c : Cmd) (s : State) : State :=
  let n := field c.payload 0 1
  let len := field c.payload 4 4
  let i := interlock false s
  if 1 < n || len < 257 || 2097152 < len then done c stRANGE s
  else if i != 0 then complete c stSTATE i [] s
  else if n == s.upd.running then done c stSTATE s
  else done c stOK (modUpd (fun u => { u with staging := some n }) (modSlot n (fun _ => { st := 1, length := len }) s))

def execUpdateBegin (t : Nat) (r : CmdRef) (s : State) : Res := verbF 0x1601 t r s updBegin

/-- UPDATE_WRITE fills the slot that the last UPDATE_BEGIN named. (DESIGN CHOICE, log 70) -/
def updWrite (c : Cmd) (s : State) : State :=
  let o := field c.payload 0 4
  let n := field c.payload 4 2
  let i := interlock false s
  if n == 0 || 4080 < n then done c stRANGE s
  else if i != 0 then complete c stSTATE i [] s
  else match s.upd.staging with
  | none => done c stSTATE s
  | some k =>
    let q := slotOf s k
    if o != q.image.length || q.length < o + n then done c stRANGE s
    else
      let full := o + n == q.length
      let s := modSlot k (fun q => { q with image := q.image ++ bytesAt c.payload 8 n, st := if full then 2 else 1 }) s
      done c stOK (if full then modUpd (fun u => { u with staging := none }) s else s)

def execUpdateWrite (t : Nat) (r : CmdRef) (s : State) : Res := verbF 0x1602 t r s updWrite

/-- UPDATE_VERIFY. (DESIGN CHOICE, log 70) -/
def updVerify (c : Cmd) (s : State) : State :=
  let n := field c.payload 0 1
  let q := slotOf s n
  if 2 < n || (n < 2 && q.st == 0) then done c stNOTFOUND s
  else if n < 2 && q.st == 1 then done c stSTATE s
  else
    let img := slotImage s.upd n
    let f := slotFail s.upd n
    let s := if n < 2 then modSlot n (fun q => { q with st := if f == 0 then 3 else 4 }) s else s
    complete c (if f == 0 then stOK else stDENIED) 0
      (leN 4 (imgVersion img) ++ leN 4 (imgSvn img) ++ leN 1 (field img 6 1) ++ leN 1 f ++ zeros 6) s

def execUpdateVerify (t : Nat) (r : CmdRef) (s : State) : Res := verbF 0x1603 t r s updVerify

/-! ## Activation and handover (R484 to R486) -/

/-- The running image can write a STATE version that the new one reads (R481). -/
def statesMeet (run new : Bytes) : Bool :=
  decide (max (field run 20 2) (field new 20 2) ≤ min (field run 22 2) (field new 22 2))

/-- UPDATE_ACTIVATE: the running image's threads are gathered onto the lower half of the cores, rounded up. -/
def updActivate (c : Cmd) (s : State) : State :=
  let n := field c.payload 0 1
  let w := field c.payload 2 2
  let img := slotImage s.upd n
  let i := interlock false s
  if 1 < n || (w != 0 && (w < 20 || 3600 < w)) then done c stRANGE s
  else if (slotOf s n).st != 3 then done c stNOTFOUND s
  else if i != 0 then complete c stSTATE i [] s
  else if !statesMeet (runImage s) img then complete c stSTATE 9 [] s
  else
    let cores := coresNow s
    let a : Activation := { ref := some c.ref, slot := n, version := imgVersion img, svn := imgSvn img,
                            windowS := if w == 0 then 60 else w, host := bit (field c.payload 1 1) 0,
                            part := 1 - s.upd.part, oldSlot := s.upd.running, oldPart := s.upd.part }
    park c (modUpd (fun u => { u with act := some a, loadSet := cores.drop ((cores.length + 1) / 2) }) s)

def execUpdateActivate (t : Nat) (r : CmdRef) (s : State) : Res := verbF 0x1604 t r s updActivate

/-- The load is complete: the image, verified again, is in the free run partition. One that no longer verifies ends the
activation (notes/assumptions/70.md). (DESIGN CHOICE, log 70) -/
def updLoaded (s : State) : State :=
  match s.upd.act with
  | some a =>
    if a.loadedAt.isSome then s
    else if slotFail s.upd a.slot != 0 then
      updCancel stNOTFOUND 0 0 (modSlot a.slot (fun q => { q with st := 4 }) s)
    else
      let s := modUpd (fun u => { u with runs := kset u.runs a.part (slotImage u a.slot) }) s
      updEvent 0 a.slot 0 (epochNow s) a.version (modAct (fun a => { a with loadedAt := some s.now }) s)
  | none => s

def execUpdateLoadDone (t : Nat) (s : State) : Res := occurs t s updLoaded

/-- The FUNCTION under which the model lists the drain of an image's commands: R192 gives it none. (DESIGN CHOICE, log 70) -/
def imageDrain : Nat := 0xFE

/-- The drain of 50 ms of the commands that the other image has taken (R485). (DESIGN CHOICE, log 70) -/
def imageDrainStart (s : State) : State :=
  let rest := s.sched.drains.filter fun d => d.function != imageDrain
  { s with sched := { s.sched with drains := rest ++ [{ function := imageDrain, inst := 0, expires := s.now + 50000000 }] } }

/-- READY emitted with the slot that runs (R76). -/
def readyEvent (s : State) : State := emit 0x0002 (leN 1 s.upd.running) s

/-- The handover at b_h, this instant; `e` is the epoch whose weave begins here (R485). -/
def handover (e : U32) (s : State) : State :=
  match s.upd.act with
  | some a =>
    match a.loadedAt, a.openAt with
    | some l, none =>
      if s.now < l + 10000000 then s
      else
        let s := match a.ref with | some r => finish r stOK e.toNat [] s | none => s
        let s := modUpd (fun u => { u with running := a.slot, part := a.part, pendingFlag := true, handovers := u.handovers + 1 }) s
        let lvl := s.fab.svcLevel
        let s := modAct (fun a => { a with ref := none, openAt := some s.now, level := lvl }) s
        updEvent 1 a.slot 0 e a.version (readyEvent (imageDrainStart s))
    | _, _ => s
  | none => s

/-- The new image has read the handover block, and takes commands (R485). With no mode in force b_h is 10 ms after the
load. -/
def blockRead (s : State) : State :=
  let s := if modeOn s then s else handover (epochNow s) s
  modAct (fun a => if a.openAt.isSome then { a with blockRead := true } else a) s

def execHandoverBlockRead (t : Nat) (s : State) : Res := occurs t s blockRead

/-! ## The health window (R487, R488) -/

/-- Every unit whose absence lowers the service level has been retired by the fault collector (R487). -/
def lackRetired (s : State) : Bool :=
  (skelMissing s).isNone
    && (s.store.up != 0 || s.store.retired == 2 ^ 32 - 1)
    && ((List.range 16).any (sbankUp s) || (List.range 256).all fun i => (spOf s i).svc == .retired)

/-- The conditions under which the new image confirms itself, 10 s after b_h or later (R487). -/
def mayConfirm (s : State) (a : Activation) : Bool :=
  match a.openAt with
  | none => false
  | some b =>
    a.fellAt.isNone && decide (b + 10000000000 ≤ s.now) && (decide (a.level ≤ s.fab.svcLevel) || lackRetired s)
      && (!a.host || a.confirmed)

/-- The instant a window ends. -/
def windowEndsAt (a : Activation) : Nat := a.openAt.getD 0 + a.windowS * 1000000000

/-- The new image confirmed (R488). -/
def updConfirmed (a : Activation) (s : State) : State :=
  let s := modUpd (fun u => { u with act := none, loadSet := [], preferred := a.slot, minSvn := max u.minSvn a.svn
                                     pendingFlag := false, runs := kerase u.runs a.oldPart }) s
  updEvent 2 a.slot 0 (epochNow s) a.version s

/-- The confirmation of the new image; at the instant the window ends, an arbiter grants it or the expiry first (R488).
(DESIGN CHOICE, log 9) -/
def updConfirmation (s : State) : State :=
  match s.upd.act with
  | some a =>
    if !mayConfirm s a || windowEndsAt a < s.now then s
    else if s.now < windowEndsAt a then updConfirmed a s
    else
      let (first, s) := drawArbiter s
      if first then updConfirmed a s else updFall 1 s
  | none => s

def execUpdateConfirmation (t : Nat) (s : State) : Res := occurs t s updConfirmation

/-- UPDATE_CONFIRM (R487). -/
def updConfirm (c : Cmd) (s : State) : State :=
  match s.upd.act with
  | some a =>
    if a.openAt.isNone || !a.host then done c stSTATE s
    else done c stOK (modAct (fun a => { a with confirmed := true }) s)
  | none => done c stSTATE s

def execUpdateConfirm (t : Nat) (r : CmdRef) (s : State) : Res := verb 0x1605 t r s updConfirm

/-- The window expires (R489). (DESIGN CHOICE, log 9) -/
def windowExpiry (s : State) : State :=
  match s.upd.act with
  | some a => if a.openAt.isSome && windowEndsAt a ≤ s.now then updFall 1 s else s
  | none => s

def execHealthWindowExpiry (t : Nat) (s : State) : Res := occurs t s windowExpiry

/-! ## Fallback (R489, R490) -/

/-- A warm start from MRAM: pins and cues are cleared, the profile is Trade with no step shed, and the loops are at their
reset values (R93, R373, R489). -/
def warmStart (s : State) : State :=
  { s with
    place := { s.place with pins := [], profile := 1, pendProfile := none, shed := 0 }
    time := { s.time with cues := [] }
    cmds := s.cmds.filter fun c => match c.ref with | .cue _ _ => false | .mbx _ _ => true
    weave := { s.weave with colourA := [], colourT := [], thermA := [], thermT := [], capA := 0, capT := 0 } }

/-- The UPDATE_FALLBACK record (R493). -/
def fallbackRecord (a : Activation) (cause dest : Nat) (warm : Bool) (fell : Nat) (s : State) : State :=
  record 7 (4 * 1024) 0x1680 (leN 1 cause ++ leN 1 a.slot ++ leN 1 dest ++ leN 1 (b2n warm) ++ leN 4 a.version
    ++ leN 4 ((fell - a.openAt.getD fell) / 1000000)) s

/-- The old image takes the state, or with no block starts warm (R489). -/
def updBack (warm : Bool) (s : State) : State :=
  match s.upd.act with
  | some a =>
    let s := if warm then warmStart s else s
    let s := modUpd (fun u => { u with act := none, loadSet := [], running := a.oldSlot, part := a.oldPart, pendingFlag := false
                                       fallbacks := u.fallbacks + 1 }) s
    let s := fallbackRecord a a.cause a.oldSlot warm (a.fellAt.getD s.now) (imageDrainStart s)
    updEvent 3 a.slot a.cause (epochNow s) a.version (readyEvent s)
  | none => s

/-- The old image takes the state at a boundary after the block is written (R489). -/
def updBackDue (s : State) : State :=
  match s.upd.act with
  | some a => if a.fellAt.isSome && a.written then updBack false s else s
  | none => s

/-- The new image's block written within 100 ms of the decision, or not (R489). -/
def fallbackBlock (written : Bool) (s : State) : State :=
  match s.upd.act with
  | some a =>
    match a.fellAt with
    | some f =>
      if a.written then s
      else if written && decide (s.now ≤ f + 100000000) then
        let s := modAct (fun a => { a with written := true }) s
        if modeOn s then s else updBack false s
      else if f + 100000000 ≤ s.now then updBack true s
      else s
    | none => s
  | none => s

def execFallbackBlockWritten (t : Nat) (written : Bool) (s : State) : Res := occurs t s (fallbackBlock written)

/-! ## The owner lock and the pins (R481, R482) -/

/-- UPDATE_LOCK_CHANGE or UPDATE_KEY_FAIL (R493). -/
def lockRecord (code v mbx inb : Nat) (s : State) : State :=
  record 7 (4 * 1024) code (leN 1 v ++ leN 1 mbx ++ leN 1 inb ++ zeros 5) s

/-- UPDATE_LOCK carried out by its ACTION. -/
def lockDo (c : Cmd) (s : State) : State :=
  let act := field c.payload 0 1
  let (m, i, _) := sender c
  let set (f : Update → Update) (s : State) : State :=
    done c stOK (lockRecord 0x1681 act m i (modUpd (fun u => { f u with wrong := 0 }) s))
  match act with
  | 0 => set (fun u => { u with lock := true }) s
  | 1 => set (fun u => { u with lock := false }) s
  | 2 => set (fun u => { u with keyHash := some (sha256 (bytesAt c.payload 40 32)) }) s
  | 3 => set (fun u => { u with keyHash := none, lock := false }) s
  | _ => done c stSTATE s

/-- UPDATE_LOCK (R482). (DESIGN CHOICE, log 70) -/
def updLock (c : Cmd) (s : State) : State :=
  let locked := match s.upd.lockout with | some u => decide (s.now < u) | none => false
  if !keyAuthority c || locked then done c stDENIED s
  else match s.upd.keyHash with
  | none => if field c.payload 0 1 == 2 then lockDo c s else done c stSTATE s
  | some h =>
    if sha256 (bytesAt c.payload 8 32) == h then lockDo c s
    else
      let n := s.upd.wrong + 1
      let (m, i, _) := sender c
      done c stDENIED (lockRecord 0x1682 n m i (modUpd (fun u => { u with
        wrong := if 4 ≤ n then 0 else n, lockout := if 4 ≤ n then some (s.now + 60000000000) else u.lockout }) s))

def execUpdateLock (t : Nat) (r : CmdRef) (s : State) : Res := verbF 0x1607 t r s updLock

/-- The lockout after four wrong keys ends. -/
def lockoutEnd (s : State) : State :=
  match s.upd.lockout with
  | some u => if u ≤ s.now then modUpd (fun q => { q with lockout := none }) s else s
  | none => s

def execOwnerKeyLockoutExpiry (t : Nat) (s : State) : Res := always t s lockoutEnd

/-- An interlock pin changes, after its debounce: 0 MOTION, 1 BATT_LOW, 2 OWNER_LOCK. -/
def pinChange (pin : Nat) (high : Bool) (s : State) : State :=
  match pin with
  | 0 => modUpd (fun u => { u with motion := high }) s
  | 1 => modUpd (fun u => { u with battLow := high }) s
  | 2 =>
    if s.upd.ownerPin == high then s
    else lockRecord 0x1681 (if high then 4 else 5) 0 0 (modUpd (fun u => { u with ownerPin := high }) s)
  | _ => s

def execInterlockPinChange (t pin : Nat) (high : Bool) (s : State) : Res := alwaysF t s (pinChange pin high)

/-! ## UPDATE_STATUS (R492) -/

/-- UPDATE_STATUS's response. (DESIGN CHOICE, log 70) -/
def updStatusBytes (s : State) : Bytes :=
  let u := s.upd
  let left := match u.act with
    | some a => if a.openAt.isSome then (windowEndsAt a - s.now + 999999999) / 1000000000 else 0
    | none => 0
  leN 1 u.running ++ leN 1 u.preferred ++ leN 1 (slotOf s 0).st ++ leN 1 (slotOf s 1).st
    ++ leN 1 (if updWindow s then 2 else b2n (updLoading s))
    ++ leN 1 (b2n u.lock + 2 * b2n u.ownerPin + 4 * b2n u.keyHash.isSome) ++ leN 1 (interlock false s) ++ zeros 1
    ++ leN 4 u.minSvn ++ leN 4 left ++ leN 4 u.handovers.toNat ++ leN 4 u.fallbacks.toNat ++ zeros 8

def execUpdateStatus (t : Nat) (r : CmdRef) (s : State) : Res :=
  verb 0x1606 t r s fun c s => reply c (updStatusBytes s) s

/-! ## Boot (R490, R491, R501) -/

/-- The slots in the order the boot ROM tries them. -/
def bootOrder (u : Update) : List Nat := if u.preferred == 1 then [1, 0, 2] else [0, 1, 2]

/-- The slot the ROM chooses: the first that verifies. -/
def bootSlot (u : Update) : Option Nat := (bootOrder u).find? fun n => slotFail u n == 0

/-- The run partition that holds a verified copy of an image. -/
def partOf (u : Update) (img : Bytes) (minSvn : Option Nat) : Option Nat :=
  (List.range 2).find? fun p =>
    let r := kgetD u.runs p []
    imgHash r == imgHash img && verifyFail r minSvn == 0

/-- The chosen image in its run partition, and whether it was copied there (R501): a copy goes into the partition that the
preferred image does not occupy. -/
def bootLoad (n : Nat) (u : Update) : Update × Bool :=
  let img := slotImage u n
  match partOf u img (if n == 2 then none else some u.minSvn) with
  | some p => ({ u with running := n, part := p }, false)
  | none =>
    let p := if imgHash (kgetD u.runs 0 []) == imgHash (slotImage u u.preferred) then 1 else 0
    ({ u with running := n, part := p, runs := kset u.runs p img }, true)

/-- What survives a reset in MRAM and flash: the slots (one being staged is left EMPTY), the run partitions, the preference,
PENDING, MIN_SVN, the owner key and the lock (R482, R483, R490). The pins are as they stand. -/
def updKept (u : Update) : Update :=
  { slots := kmap u.slots fun _ q => if q.st ≤ 1 then {} else q
    preferred := u.preferred, runs := u.runs, part := u.part, pendingFlag := u.pendingFlag, minSvn := u.minSvn
    lock := u.lock, keyHash := u.keyHash, motion := u.motion, battLow := u.battLow, ownerPin := u.ownerPin }

end Sys2Proof.Machine
end

