-- ==== Sys2Proof/Machine/Retain.lean ====
section
/-! DEFINITION. What a reset, or the loss of a retention bank, leaves of each subsystem: the settings and definitions held in
MRAM (R372 to R374, R504), every other field at its reset value. -/

namespace Sys2Proof.Machine

/-- A colour sensor as MRAM holds it: its definition and its reference (R312, R314). -/
def sensorKept (q : Sensor) : Sensor :=
  { bus := q.bus, addr := q.addr, zone := q.zone, tile := q.tile, pixels := q.pixels, fmt := q.fmt, intNs := q.intNs
    code := q.code, start := q.start, readReg := q.readReg, sel := q.sel, samples := q.samples, periodS := q.periodS
    ref := q.ref }

/-- Drive health as MRAM holds it: the defect map, zones, sensors and the thermal curve (R304, R312 to R314). (DESIGN CHOICE, log 52) -/
def healthKept (h : Health) : Health :=
  { defects := h.defects
    tiles := kmap (kfilter h.tiles fun t _ => h.defects.any fun e => e.1 / 4 / 65536 == t) fun _ q => { serial := q.serial }
    zones := h.zones, sensors := kmap h.sensors fun _ q => sensorKept q
    tStart := h.tStart, tFull := h.tFull, tCut := h.tCut, depth := h.depth, hyst := h.hyst, staleS := h.staleS }

/-- The fixture engine as MRAM holds it: the CID, the outputs' definitions, the fixtures' and their safe settings (R332). An
output sends in skeleton service where R331 keeps it: every DMX port, and those with KEEP, 512 in all.
(DESIGN CHOICE, log 47; DESIGN CHOICE, log 52) -/
def fixKept (f : Fix) : Fix :=
  let outs := f.outs.filter fun e => e.2.redef != some none
  let defOf (q : Output) : OutDef := match q.redef with | some (some d) => d | _ => q.d
  let kept := ((outs.filter fun e => isDmx e.1) ++ outs.filter fun e => !isDmx e.1 && (defOf e.2).keep).map (·.1) |>.take 512
  let m := f.pendFix.foldl (fun m e => match e.2 with
    | none => kerase m e.1
    | some d => kset m e.1 { kgetD m e.1 { d := d } with d := d }) f.fixtures
  { cid := f.cid
    outs := kmap outs fun o q => { d := defOf q, st := if kept.contains o then 3 else 0 }
    fixtures := kmap m fun _ q =>
      let z := List.replicate (fixChannels q.d) 0
      { d := q.d, vals := z, shown := z, safeMode := q.safeMode, safeVals := q.safeVals } }

/-- Ezond Air as MRAM holds it: the network, the radios, bands, blocks and nodes as defined (R358). (DESIGN CHOICE, log 52) -/
def airKept (a : Air) : Air :=
  { net := a.net
    radios := kmap a.radios fun _ r =>
      { cfg := r.cfg, bands := kmap r.bands fun _ b => { cfg := b.cfg }, band := field r.cfg 34 1 }
    blocks := a.pendBlocks.foldl (fun m e => match e.2 with | some b => kset m e.1 b | none => kerase m e.1) a.blocks
    nodes := kmap a.nodes fun _ q => { cfg := q.cfg } }

/-- The fault collector as MRAM holds it: reactions, lulls and limits, and the safe states of the ports (R447, R504).
(DESIGN CHOICE, log 52) -/
def fltKept (f : FaultSt) : FaultSt :=
  { srcs := kmap f.srcs fun _ q => { react := q.react, lullMs := q.lullMs, limit := q.limit }, black := f.black }

/-- Twin operation as MRAM holds it: its settings and CGEN (R408, R426). (DESIGN CHOICE, log 52) -/
def twinKept (t : Twin) : Twin := { enabled := t.enabled, side := t.side, hbUs := t.hbUs, cgen := t.cgen, roleIn := t.roleIn }

/-- The time unit after its registers are lost: the RTC runs on in the always-on domain (R287), and what is stamped or has
fired is as before. (DESIGN CHOICE, log 52) -/
def timeKept (k : TimeSt) : TimeSt :=
  { rtcSec := k.rtcSec, rtcAt := k.rtcAt, rtcValid := k.rtcValid, utcOffset := k.utcOffset, alarm := k.alarm }

/-- The timing generator with no mode in force, its frame counter kept (R374). (DESIGN CHOICE, log 52) -/
def modeKept (m : ModeSt) : ModeSt := { counter := m.counter, lastFlip := m.lastFlip, lastFlipEpoch := m.lastFlipEpoch }

end Sys2Proof.Machine
end

