-- ==== Sys2Proof/Machine/Power.lean ====
section
/-! DEFINITION. Feeds (R361 to R363), the last gasp (R364, R396, R471), the power states, entries and wakes (R370 to R381), the
retention banks (R372, R374), and the POWER commands (R382, R383). -/

namespace Sys2Proof.Machine

/-! ## Feeds (R361 to R363) -/

/-- Feed A (0) or B (1). -/
def feedOf (s : State) (f : Nat) : Feed := if f == 0 then s.power.feedA else s.power.feedB

/-- A feed changed. -/
def modFeed (f : Nat) (g : Feed → Feed) (s : State) : State :=
  modPower (fun p => if f == 0 then { p with feedA := g p.feedA } else { p with feedB := g p.feedB }) s

/-- A feed's state: 0 lost, 1 live, 2 low, 3 overvoltage (R384). (DESIGN CHOICE, log 49) -/
def feedState (q : Feed) : Nat := if q.ov then 3 else if !q.live then 0 else if q.low then 2 else 1

/-- A feed is live and not low. -/
def feedGood (q : Feed) : Bool := q.live && !q.low

/-- A feed at a voltage, as R361 and R362 state it: disconnected above 61.5 V until below 60.5 V, lost below FEED_LOSS, low
below FEED_LOW until above FEED_LOW + 0.3 V. (DESIGN CHOICE, log 49) -/
def feedAt (now : Nat) (mV : Int) (q : Feed) : Feed :=
  let ov := if q.ov then decide (60500 ≤ mV) else decide (61500 < mV)
  let live := q.live && !ov && decide ((q.lossMv : Int) ≤ mV)
  let low := live && (if q.low then decide (mV ≤ q.lowMv + 300) else decide (mV < q.lowMv))
  let above := !ov && decide ((q.lossMv : Int) + 500 ≤ mV)
  { q with mV, ov, live, low, aboveAt := if above then q.aboveAt.or (some now) else none
           goodAt := if live && !low then q.goodAt.or (some now) else none }

/-- The feed that carries: 1 A, 2 B, 3 both (R363). With A or B preferred, carriage returns once the preferred feed has been
live and not low for RETURN_MS. (DESIGN CHOICE, log 49) -/
def carryNext (s : State) : Nat :=
  let a := s.power.feedA
  let b := s.power.feedB
  let higher := if b.mV ≤ a.mV then 1 else 2
  if !a.live && !b.live then s.power.carry
  else if !b.live then 1
  else if !a.live then 2
  else if s.power.prio == 2 then (if (a.mV - b.mV).natAbs ≤ 200 then 3 else higher)
  else
    let (pref, p, o) := if s.power.prio == 0 then (1, a, b) else (2, b, a)
    let back := match p.goodAt with | some g => decide (g + s.power.returnMs * 1000000 ≤ s.now) | none => false
    if feedGood p && (back || s.power.carry == pref || s.power.carry == 3 || !feedGood o) then pref
    else if feedGood o then 3 - pref
    else higher

/-- The carriage follows the feeds; a change from one feed to the other counts in SWITCHOVERS. (DESIGN CHOICE, log 49) -/
def carryUpdate (s : State) : State :=
  let c := carryNext s
  if s.power.gasp.isSome || c == s.power.carry then s
  else
    let n : U32 := if c + s.power.carry == 3 && c != 0 && s.power.carry != 0 then 1 else 0
    modPower (fun p => { p with carry := c, switchovers := p.switchovers + n }) s

/-- FEED_STATE emitted (R384). (DESIGN CHOICE, log 49) -/
def feedEvent (f : Nat) (s : State) : State :=
  let q := feedOf s f
  emit 0x1002 (leN 1 f ++ leN 1 (feedState q) ++ leN 1 s.power.carry ++ zeros 1 ++ leN 2 (q.mV.toNat / 10)) s

/-- The last gasp starts (R364, R396, R471): spindles, egress and transmitters stop, the final save and LAST_GASP are made,
and FEED_LOSS is raised. In a state whose rails are off only the always-on ring takes the record. (DESIGN CHOICE, log 50) -/
def lastGasp (s : State) : State :=
  let t0 := s.now
  let s := if awake s && s.hif.readyEver then reelGasp t0 s.power.carry (finalSave (calAbandonAll s))
    else
      let r : RRec := { cls := 3, flags := recFlags s, source := 2 * 1024, code := 0x1083, time := recTime s
                        data := leN 8 t0 ++ leN 1 s.power.carry ++ zeros 7 }
      modReel (fun k => { k with refusing := true }) (aonWrite r s)
  let s := forEach (s.link.ports.map (·.1)) s fun p s => modPort p (fun q => { q with queue := [] }) (cutFrame p s)
  let s := { s with cmds := [], hif := { s.hif with ready := false }, mode := { s.mode with weaving := false }
                    boot := { s.boot with gaspAt := some t0 }
                    link := { s.link with sending := false } }
  let s := modPower (fun p => { p with gasp := some t0, st := 5, carry := 0, entry := none, wake := none, failing := false }) s
  raise 0x0400 0 [] s

/-- The feeds after a change: `f` emits FEED_STATE where its state is no longer `old`, a feed lost while the other carries is
noted (R429), and with no feed live the last gasp starts (R364). (DESIGN CHOICE, log 49) -/
def feedChanged (f : Nat) (old : Feed) (s : State) : State :=
  let s := carryUpdate s
  let q := feedOf s f
  let s := if feedState q == feedState old then s else feedEvent f s
  let other := feedOf s (1 - f)
  let s := if old.live && !q.live && other.live then raise (0x0401 + f) 0 [q.mV] s else s
  if old.live && !q.live && !other.live && s.power.gasp.isNone then lastGasp s else s

/-- FEED_LEVEL_CHANGE. -/
def feedLevel (f : Nat) (mV : Int) (s : State) : State :=
  let old := feedOf s f
  feedChanged f old (modFeed f (feedAt s.now mV) s)

/-- Beyond −62 V or +72 V the absolute maximum is passed, beyond which the manual gives no behaviour (R508). (DESIGN CHOICE, log 6) -/
def execFeedLevelChange (t feed : Nat) (mV : Int) (s : State) : Res :=
  if mV < -62000 || 72000 < mV then .fault .absoluteMaximum
  else alwaysF t s fun s => if feed < 2 then feedLevel feed mV s else s

/-- A feed has been at or above FEED_LOSS + 0.5 V for 10 ms: it is live (R362). -/
def feedQualified (f : Nat) (s : State) : State :=
  let q := feedOf s f
  match q.aboveAt with
  | some a =>
    if q.live || s.now < a + 10000000 then s
    else feedChanged f q (modFeed f (fun q => feedAt s.now q.mV { q with live := true }) s)
  | none => s

def execFeedLiveQualified (t feed : Nat) (s : State) : Res :=
  alwaysF t s fun s => if feed < 2 then feedQualified feed s else s

/-- The preferred feed has been live and not low for RETURN_MS (R363). -/
def execCarryReturnTimeout (t : Nat) (s : State) : Res := always t s carryUpdate

/-! ## Rails (R369, R524) -/

/-- A rail has stayed outside ±5 % for 10 µs in a state where it is on: 0 VAON, 1 VIO, 2 VCORE, 3 VSRAM, 4 VLANE, 5 VDRAM
(R367). -/
def railOn (s : State) (r : Nat) : Bool :=
  let st := s.power.st
  match r with
  | 0 => st != 7
  | 5 => st == 0 || st == 3
  | _ => decide (r < 5) && decide (st ≤ 2)

def execRailOutOfRange (t rail : Nat) (s : State) : Res :=
  alwaysF t s fun s => if railOn s rail then raise 0x0403 0 [(rail : Int)] s else s

/-- The trip at +122 °C: every rail but VAON is off, and the device stays as stranded (R524). -/
def junctionTrip (s : State) : State :=
  if s.power.st == 7 then s
  else
    let r : RRec := { cls := 0, flags := recFlags s, source := 0x0404, code := 0x1380, time := recTime s
                      data := leN 1 1 ++ zeros 3 ++ leN 4 (twos 32 s.fab.tj) ++ zeros 12 }
    let s := aonWrite r s
    let s := forEach (s.link.ports.map (·.1)) s fun p s => modPort p (fun q => { q with queue := [], lock := false }) (cutFrame p s)
    { s with
      cmds := [], hif := { s.hif with ready := false }, flt := { s.flt with stranded := true }
      power := { s.power with st := 6, gasp := none, entry := none, wake := none, failing := false } }

def execJunctionTrip (t : Nat) (s : State) : Res := alwaysF t s junctionTrip

/-! ## Wake sources (R377, R378) -/

/-- The limit of a wake step in ns. -/
def wakeLimit (k : Nat) : Nat := match k with | 2 => 5000000 | 7 => 5000000 | 8 => 1000000 | _ => 2000000

/-- A comparator's condition has held for DEBOUNCE_MS, or holds no longer (R378). (DESIGN CHOICE, log 54) -/
def comparator (n : Nat) (holds : Bool) (s : State) : State :=
  let k := s.power.cmps.getD n {}
  if !k.enable then s
  else
    let s := modPower (fun p => { p with cmps := p.cmps.set n { k with output := holds } }) s
    if holds then wakeTrigger (2 + n) s else s

def execComparatorDebounced (t n : Nat) (holds : Bool) (s : State) : Res :=
  alwaysF t s fun s => if n < 3 then comparator n holds s else s

/-- The RTC alarm is due (R287). -/
def rtcAlarm (s : State) : State :=
  match s.time.alarm with
  | some a => if a ≤ rtcNs s then wakeTrigger 5 { s with time := { s.time with alarm := none } } else s
  | none => s

def execRtcAlarm (t : Nat) (s : State) : Res := alwaysF t s rtcAlarm

def execGpioWakeEdge (t pin : Nat) (rising : Bool) (s : State) : Res :=
  alwaysF t s fun s =>
    if pin < 32 && s.power.gpioMask.getLsbD pin && s.power.gpioEdge.getLsbD pin == rising then wakeTrigger 7 s else s

/-- PCIE_PERST_N released, or a link request from L2 (R377). -/
def execPcieWake (t : Nat) (s : State) : Res := alwaysF t s (wakeTrigger 6)

/-- Signal on an enabled standard port in LINK_PORTS (R377). -/
def execLinkActivityWake (t port : Nat) (s : State) : Res :=
  alwaysF t s fun s =>
    if port < 64 && s.power.linkPorts.getLsbD port && (portOf s port).role == 1 then wakeTrigger 8 s else s

/-! ## Entries (R370 to R376) -/

/-- What R375 asks of the units, for an entry into `to`. -/
def entryRefuser (dest : Nat) (own : Option CmdRef) (s : State) : Option Nat :=
  let rdm := s.fix.dmx.any fun e => e.2.cur.isSome || e.2.disc.isSome || !e.2.queue.isEmpty
  refuser dest own s.upd.act.isSome (s.time.cues.any fun e => e.2.state == 2) rdm (calBusy s) s

/-- The fixture outputs drain for Sleep: an sACN output ends with Stream_Terminated, a DMX port with its frame (R325, R371). -/
def outsToSleep (s : State) : State :=
  forEach (s.fix.outs.filter fun e => outSends e.2 && e.2.redef.isNone) s fun e s => modOut e.1 (fun q =>
    if isDmx e.1 then { q with asleep := q.st } else { q with asleep := q.st, terms := 3, termAt := s.now, due := false }) s

/-- Step 3 of R371: at a frame boundary with the last epoch committed, or at once with no mode, CALM or SAFE BLACK is sent and
the chain ports are lowered in speed; no epoch is woven from here on. -/
def entryBoundary (e : PowerEntry) (s : State) : State :=
  let quiet := s.mode.calm || s.power.st == 2
  let s := { s with mode := { s.mode with weaving := false }, link := { s.link with sending := false } }
  let s := if e.dark && 3 ≤ e.dest then
      forEach (allEnds s) s fun q s =>
        let f := castEnd s q.1 q.2.1 10 0 (.safe 2) 0 (beN 1 2 ++ zeros 3)
        queueTx q.2.2 f (queueTx q.2.2 f s)
    else if quiet then s
    else sendCalm (epochNow s - 1) s
  let s := if quiet then s else calmSpeeds true s
  let s := if 3 ≤ e.dest then outsToSleep s else s
  modPower (fun p => { p with entry := some { e with passed := true } }) s

/-- POWER_ENTER (R370, R371, R375, R425, R383). -/
def powerEnter (c : Cmd) (s : State) : State :=
  let p := c.payload
  let dest := field p 0 1
  if dest == 0 || 4 < dest || 1000 < field p 2 2 then done c stRANGE s
  else if s.power.entry.isSome || s.power.wake.isSome || (s.twin.enabled && 2 ≤ dest)
      || (dest == 1 && (isDistaff s || s.mode.calm || s.power.st != 0 || s.place.profile == 3 || 1 < modeN s.mode.mode || !modeOn s))
      then done c stSTATE s
  else match entryRefuser dest (some c.ref) s with
  | some sub => complete c stSTATE sub [] (refused sub dest s)
  | none =>
    let e : PowerEntry := { ref := if dest == 1 then some c.ref else none, dest := dest, dark := bit (field p 1 1) 0 }
    let s := modPower (fun p => { p with entry := some e, latched := none }) s
    if dest == 1 then park c s
    else
      let s := done c (if dest == 2 then stOK else stACCEPTED) s
      if modeOn s then s else entryBoundary e s

def execPowerEnter (t : Nat) (r : CmdRef) (s : State) : Res := verbF 0x1001 t r s powerEnter

/-- POWER_ENTER to Calm at the next boundary: a unit that refuses by then ends it with STATE (R375). (DESIGN CHOICE, log 38) -/
def calmByPower (e : PowerEntry) (s : State) : State :=
  let s := modPower (fun p => { p with entry := none }) s
  match entryRefuser 1 e.ref s with
  | some sub =>
    let s := refused sub 1 { s with mode := { s.mode with wakeLatch := none } }
    (match e.ref with | some r => finish r stSTATE sub [] s | none => s)
  | none =>
    let s := calmEnter s
    calmLatched (match e.ref with | some r => finish r stOK 0 [] s | none => s)

/-- The frame store loses power (R143): every buffer and all correction data are lost. -/
def dramOff (s : State) : State :=
  let had := (s.store.corr.filter fun e => e.2.present || e.2.ready.isSome).map (·.1)
  let s := { s with store := { s.store with words := [], corr := kmap s.store.corr fun _ k => { persisting := k.persisting } } }
  let s := forEach had s fun tile s => corrEvent tile 0 s
  { s with ing := { s.ing with
      videos := kmap s.ing.videos fun _ v => { v with hasFront := false }
      planes := kmap s.ing.planes fun _ v => { v with hasFront := false }
      maps := kmap s.ing.maps fun _ v => { v with hasFront := false } } }

/-- The spindles lose power: no token, hank or blocked TAKE is left (R370). -/
def spindlesOff (s : State) : State :=
  { s with sched := { s.sched with
      spindles := kmap s.sched.spindles fun _ q => { svc := q.svc, poisons := q.poisons }
      banks := kmap s.sched.banks fun _ k =>
        { k with ready := [], seed := [], takes := [], remaining := 0, gated := true, idleSince := none } } }

/-- POWER_STATE emitted (R384). -/
def powerEvent (frm dest cause : Nat) (s : State) : State :=
  let p := s.power
  emit 0x1001 (leN 1 frm ++ leN 1 dest ++ leN 1 cause ++ leN 1 p.wakeRetries ++ leN 1 p.retFail ++ zeros 3
    ++ leN 4 p.dramFail.toNat) s

/-- The outputs and radios of a device that goes to Sleep or Deep Sleep: DMX frames end, radios drain and sleep, metering saves
and stops, and the pulse outputs are held inactive (R325, R357, R394, R398). -/
def ioSleep (s : State) : State :=
  let s := forEach ((s.fix.outs.filter fun e => isDmx e.1).map (·.1)) s fun o s => outState o 0 (dmxCut (o - 4096) s)
  let s := forEach (s.air.radios.filter fun e => e.2.st != 0) s fun e s =>
    modRadio e.1 (fun r => { r with asleep := e.2.st == 1 }) (radioOff e.1 true s)
  pulsesHeld (entrySave s)

/-- The outputs and radios of a device that has woken take up what they did before its sleep (R372). (DESIGN CHOICE, log 51) -/
def ioWake (s : State) : State :=
  let s := forEach (s.fix.outs.filter fun e => e.2.asleep != 0) s fun e s =>
    let s := modOut e.1 (fun q => { q with asleep := 0, terms := 0 }) s
    outState e.1 (startState s e.1 e.2.d) s
  forEach (s.air.radios.filter fun e => e.2.asleep) s fun e s =>
    radioStart e.1 (modRadio e.1 (fun r => { r with asleep := false }) s)

/-- Steps 4 to 8 of R371 done, the last Stream_Terminated packet being sent: the state is entered, and a source seen during the entry, or a comparator whose condition
holds, wakes the device at once (R378). -/
def entryDone (s : State) : State :=
  match s.power.entry with
  | none => s
  | some e =>
    let deep := decide (3 ≤ e.dest)
    if !e.passed || deep && s.fix.outs.any (fun o => o.2.terms != 0) then s
    else
      let s := spindlesOff (if deep then ioSleep s else s)
      let rec_ : EntryRec := { dest := e.dest, time := s.now, counter := s.mode.counter, mode := s.mode.mode, phase := s.mode.phase
                               n := s.mode.n }
      let s := { s with
        store := { s.store with selfRefresh := e.dest == 3 }
        mode := { s.mode with calm := false, wakeAt := none, calmWanted := false }
        hif := { s.hif with ready := !deep, pcieL := if deep then 2 else s.hif.pcieL } }
      let s := if e.dest == 3 then canariesWrite s else dramOff s
      let frm := s.power.st
      let s := modPower (fun p => { p with st := e.dest, entry := none, record := some rec_, entered := calNow s
                                           wakeRetries := 0, retFail := 0, dramFail := 0 }) s
      let s := if e.dest == 2 then powerEvent frm 2 0 s else s
      let held := (List.range 3).find? fun n =>
        let k := s.power.cmps.getD n {}
        k.enable && k.output && sourceOn s (2 + n)
      let cause := s.power.latched.or (held.map (2 + ·))
      let s := modPower (fun p => { p with latched := none }) s
      match cause with | some c => wakeTrigger c s | none => s

def execPowerEntryDone (t : Nat) (s : State) : Res := alwaysF t s entryDone

/-- POWER_EXIT (R383): in Calm as MODE_CALM_EXIT, in Doze a wake. -/
def execPowerExit (t : Nat) (r : CmdRef) (s : State) : Res :=
  verbF 0x1002 t r s fun c s =>
    if s.power.entry.isSome then done c stSTATE s
    else if s.mode.calm && s.mode.wakeAt.isNone && !isDistaff s then calmWakeFrom c.takenAt 0 (done c stOK s)
    else if s.power.st == 2 && s.power.wake.isNone && !s.power.failing then wakeTrigger 1 (done c stOK s)
    else done c stSTATE s

/-! ## Retention (R372, R374) -/

/-- A port whose settings and counters are lost; it keeps its line and whether it is retired. (DESIGN CHOICE, log 52) -/
def portLost (q : Port) : Port := { lock := q.lock, signal := q.signal, anDone := q.anDone, retired := q.retired, speed := q.speed
                                    role := if q.role == 2 then 2 else 0 }

/-- Retention bank `n` failed its check: what it held takes its reset value, and the subsystems that depend on it start
cold. (DESIGN CHOICE, log 52) -/
def bankLost (n : Nat) (s : State) : State :=
  match n with
  | 0 =>
    let d (q : Feed) : Feed := feedAt s.now q.mV { q with lowMv := 10000, lossMv := 8500 }
    let (lo, hi) := vWindow s.place.profile
    { s with
      power := { s.power with prio := 2, returnMs := 1000, feedA := d s.power.feedA, feedB := d s.power.feedB, sources := 0
                              gpioMask := 0, gpioEdge := 0, linkPorts := 0, cmps := [{}, {}, {}] }
      fab := { s.fab with vcore := min hi (max lo 700), raiseTh := 120, lowerTh := 300, shedTh := 40, pendTh := none, slack := 0
                          missRun := 0, lowerRun := 0, restoreRun := 0, shedPending := false, restoreFrom := none } }
  | 1 =>
    { s with time := timeKept s.time, mode := modeKept s.mode
             cmds := s.cmds.filter fun c => match c.ref with | .cue _ _ => false | .mbx _ _ => true }
  | 2 =>
    let h := s.hif
    { s with
      mbx := [], cmds := []
      hif := { compat := h.compat, ready := h.ready, readyEver := h.readyEver, keys := h.keys, keySeq := h.keySeq, pcieUp := h.pcieUp
               pcieL := h.pcieL, pcieSpeed := h.pcieSpeed, pcieWidth := h.pcieWidth, msix := h.msix, viol := h.viol, violAddr := h.violAddr, violCnt := h.violCnt, intStat := h.intStat }
      sched := { spindles := kmap s.sched.spindles fun _ q => { svc := q.svc }, banks := kmap s.sched.banks fun _ k => { gated := k.gated }
                 coresUp := s.sched.coresUp } }
  | 3 => applyRoles { s with link := { s.link with ports := kmap s.link.ports fun _ q => portLost q } }
  | 4 =>
    let s := dramOff { s with store := { s.store with scrubS := 60 } }
    { s with health := { healthKept s.health with pseq := s.health.pseq } }
  | 5 => { s with fix := fixKept s.fix, air := airKept s.air }
  | 6 => { s with meter := meterBoot s.meter }
  | _ => modReel (reelBoot false true) s

/-- The retention banks checked on an exit: those that failed are lost, and RETENTION is raised (R374). (DESIGN CHOICE, log 52) -/
def retentionCheck (bad : Nat) (s : State) : State :=
  let l := setBits 8 bad
  let s := modPower (fun p => { p with retFail := bad }) (forEach l s bankLost)
  if l.isEmpty then s else raise 0x0C00 0 [(bad : Int)] s

/-! ## Waking (R379 to R381) -/

/-- The frame counter after Sleep or Deep Sleep: it advances by the boundaries of the mode at entry that have passed (R374,
R381). `kept` says that bank 1 holds the mode still. -/
def counterCatchUp (e : EntryRec) (kept : Bool) (s : State) : State :=
  if e.mode == 0 then s
  else
    let n := max e.n (boundaryIdx e.mode e.phase s.now)
    let counter := e.counter + BitVec.ofNat 48 (n - e.n)
    { s with mode := { s.mode with counter, n := if kept then n else s.mode.n } }

/-- A warm boot (R93, R373): what neither MRAM nor a retention bank holds is gone. (DESIGN CHOICE, log 51; DESIGN CHOICE, log 52) -/
def warmBoot (s : State) : State :=
  let s := warmStart s
  { s with
    ing := {}, cmds := []
    fix := { s.fix with setq := [], fixtures := kmap s.fix.fixtures fun _ f =>
      if f.d.layout == 4 then { f with vals := f.vals.map fun _ => 0, shown := f.vals.map fun _ => 0 } else f } }

/-- The link's working state, gone with the control cluster: every chain is enumerated afresh (R381). (DESIGN CHOICE, log 51) -/
def linkAfresh (s : State) : State :=
  let s := { s with link := { s.link with
    chains := [], skeins := [], sending := false
    ports := kmap s.link.ports fun _ q => { q with queue := [], current := none, busyUntil := s.now, req := none, again := none } } }
  let s := applyRoles s
  let s := match s.wall.active with
    | some w => forEach w.chains s fun c s => startEnum c 0 s
    | none => s
  if s.flt.safe then s else sendSafe false s

/-- The end of a wake from Sleep or Deep Sleep (R373, R381, R394, R470). (DESIGN CHOICE, log 51) -/
def sleepResume (bad : Nat) (badDram : U32) (csaOk : Bool) (s : State) : State :=
  let deep := s.power.st == 4
  let warm := deep || !csaOk || bit bad 7
  let (lo, hi) := vWindow (if warm then 1 else s.place.profile)
  let s := if deep then dramOff s else s
  let s := if warm then warmBoot s else s
  let s := match s.power.record with | some e => counterCatchUp e (!bit bad 1) s | none => s
  let s := { s with
    store := { s.store with selfRefresh := false }
    hif := { s.hif with ready := true }
    fab := { s.fab with vcore := min hi (max lo s.fab.vcore), frozen := true }
    time := { s.time with state := 0 }, meter := { s.meter with finalDone := false } }
  let s := modPower (fun p => { p with st := 0, sleepEnum := true }) s
  let s := if deep then s else canariesCheck badDram s
  let s := aonCopy (!bit bad 7) s
  let s := record 3 (2 * 1024) 0x1082 (leN 8 s.power.entered ++ leN 8 (calNow s)) s
  let s := linkAfresh s
  let s := ioWake s
  let s := if deep || bit bad 4 then restoreAll s else s
  if warm then placeTrigger 4 0 0 s else s

/-- W8 has ended, and the wake is complete (R381). (DESIGN CHOICE, log 51) -/
def wakeDone (bad : Nat) (badDram : U32) (csaOk : Bool) (s : State) : State :=
  let st := s.power.st
  let s := modPower (fun p => { p with wake := none, failing := false, woke := calNow s }) s
  let s := retentionCheck bad s
  let p := s.power
  if st == 3 || st == 4 then
    powerEvent p.wakeFrom 0 p.wakeCause (sleepResume bad badDram csaOk s)
  else if st == 2 then
    let s := modPower (fun p => { p with st := 0 }) s
    let s := restoreAll s
    powerEvent p.wakeFrom 0 p.wakeCause (calmSpeeds false (aonCopy (!bit bad 7) s))
  else
    let s := aonCopy (!bit bad 7) (canariesCheck badDram s)
    if bit bad 4 then restoreAll s else s

/-- A wake step done: the next starts. B1 of a wake from Doze is the first boundary at or after the end of W7 plus 1 ms.
(DESIGN CHOICE, log 51) -/
def wakeStep (badBanks : U8) (badDram : U32) (csaOk : Bool) (s : State) : State :=
  match (if s.hif.readyEver then s.power.wake else none) with
  | none => s
  | some k =>
    match (wakeSteps s.power.st).find? (fun j => decide (k < j)) with
    | some j =>
      let b1 := if s.power.st == 2 && k == 7 && modeOn s then some (boundaryFrom s (s.now + 1000000)) else s.power.resumeAt
      modPower (fun p => { p with wake := some j, wakeRetried := false, wakeAt := s.now, resumeAt := b1 }) s
    | none => wakeDone badBanks.toNat badDram csaOk s

def execWakeStepDone (t : Nat) (badBanks : U8) (badDram : U32) (csaOk : Bool) (s : State) : Res :=
  alwaysF t s (wakeStep badBanks badDram csaOk)

/-- A wake that failed (R380): WAKE_FAIL goes to the always-on ring, every rail but VAON is off, so that the repetition runs
every step and ends in a warm boot, and after the eighth repetition the device is stranded. (DESIGN CHOICE, log 51) -/
def wakeFail (k : Nat) (s : State) : State :=
  let p := s.power
  let r : RRec := { cls := 3, flags := recFlags s, source := 3 * 1024, code := 0x1081, time := recTime s
                    data := leN 1 k ++ leN 1 p.attempts ++ leN 1 p.wakeFrom ++ zeros 5 }
  let s := aonWrite r s
  let last := decide (8 ≤ p.attempts)
  let rec_ : EntryRec := { dest := p.wakeFrom, time := s.now, counter := s.mode.counter, mode := s.mode.mode, phase := s.mode.phase
                           n := s.mode.n }
  -- while the device was in Calm or Doze its boundaries went on; they are caught up from here
  let record := if p.st ≤ 2 then some rec_ else p.record
  { s with
    hif := { s.hif with ready := false }, flt := { s.flt with stranded := s.flt.stranded || last }
    mode := { s.mode with calm := false, wakeAt := none }
    power := { p with wake := none, failing := !last, failedStep := k, wakeAt := s.now, st := if last then 6 else 4, record
                      resumeAt := none } }

/-- A wake step has missed its limit: it is retried once, but for W8 (R379, R380). (DESIGN CHOICE, log 51) -/
def wakeTimeout (s : State) : State :=
  match (if s.hif.readyEver then s.power.wake else none) with
  | none => s
  | some k =>
    if s.now < s.power.wakeAt + wakeLimit k then s
    else if k == 8 || s.power.wakeRetried then wakeFail k s
    else raise 0x0C01 0 [(k : Int)]
      (modPower (fun p => { p with wakeRetried := true, wakeAt := s.now, wakeRetries := min 15 (p.wakeRetries + 1) }) s)

def execWakeStepTimeout (t : Nat) (s : State) : Res := alwaysF t s wakeTimeout

/-- The whole wake, or stage B0, is repeated 1 s after it failed (R380, R500). (DESIGN CHOICE, log 51) -/
def wakeRepeat (s : State) : State :=
  if s.power.failing && s.power.wake.isNone && s.power.wakeAt + 1000000000 ≤ s.now then
    let first := if s.hif.readyEver then (wakeSteps s.power.st).head? else some 1
    modPower (fun p => { p with wake := first, attempts := p.attempts + 1, wakeRetried := false, wakeAt := s.now }) s
  else s

def execWakeRepeat (t : Nat) (s : State) : Res := alwaysF t s wakeRepeat

/-! ## The other POWER commands (R383) -/

/-- POWER_FEED_SET: the feeds are judged by the new thresholds at once. -/
def powerFeedSet (c : Cmd) (s : State) : State :=
  let p := c.payload
  let def_ (v d : Nat) : Nat := if v == 0 then d else v
  let (lowA, lowB) := (def_ (field p 2 2) 1000, def_ (field p 4 2) 1000)
  let (lossA, lossB) := (def_ (field p 6 2) 850, def_ (field p 8 2) 850)
  let ret := def_ (field p 10 2) 1000
  let ok (low loss : Nat) : Bool :=
    decide (950 ≤ low) && decide (low ≤ 5800) && decide (850 ≤ loss) && decide (loss ≤ 5700) && decide (loss + 100 ≤ low)
  if 2 < field p 0 1 || !ok lowA lossA || !ok lowB lossB || ret < 10 || 10000 < ret then done c stRANGE s
  else
    let s := done c stOK (modPower (fun q => { q with prio := field p 0 1, returnMs := ret }) s)
    let set (f low loss : Nat) (s : State) : State :=
      let old := feedOf s f
      feedChanged f old (modFeed f (fun q => feedAt s.now q.mV { q with lowMv := 10 * low, lossMv := 10 * loss }) s)
    set 1 lowB lossB (set 0 lowA lossA s)

def execPowerFeedSet (t : Nat) (r : CmdRef) (s : State) : Res := verbF 0x1003 t r s powerFeedSet

/-- POWER_PACE_SET (R22, R368): it takes effect at the next frame boundary, or at once with no mode in force (R528). -/
def powerPaceSet (c : Cmd) (s : State) : State :=
  let p := c.payload
  let def_ (v d : Nat) : Nat := if v == 0 then d else v
  let raise_ := def_ (field p 0 2) 120
  let lower := def_ (field p 2 2) 300
  let shed := def_ (field p 4 2) 40
  if shed < 10 || 200 < shed || raise_ < 30 || 400 < raise_ || lower < 130 || 800 < lower || raise_ < shed + 20
      || lower < raise_ + 100 then done c stRANGE s
  else
    let s := done c stOK s
    if modeOn s then { s with fab := { s.fab with pendTh := some (raise_, lower, shed) } }
    else { s with fab := { s.fab with raiseTh := raise_, lowerTh := lower, shedTh := shed, pendTh := none } }

def execPowerPaceSet (t : Nat) (r : CmdRef) (s : State) : Res := verb 0x1004 t r s powerPaceSet

/-- POWER_WAKE_SET: a GPIO that a time trigger drives returns RANGE. -/
def powerWakeSet (c : Cmd) (s : State) : State :=
  let p := c.payload
  let mask := field p 4 4
  if s.time.trigs.any fun e => e.2.kind == 3 && bit mask e.2.target then done c stRANGE s
  else done c stOK (modPower (fun q => { q with
    sources := field p 0 2 % 128, gpioMask := BitVec.ofNat 32 mask, gpioEdge := BitVec.ofNat 32 (field p 8 4)
    linkPorts := BitVec.ofNat 64 (field p 12 8) }) s)

def execPowerWakeSet (t : Nat) (r : CmdRef) (s : State) : Res := verb 0x1005 t r s powerWakeSet

/-- POWER_CMP_SET: under its new settings a comparator's condition has not held yet. (DESIGN CHOICE, log 54; DESIGN CHOICE, log 65) -/
def powerCmpSet (c : Cmd) (s : State) : State :=
  let p := c.payload
  let n := field p 0 1
  if 2 < n || 1 < field p 1 1 || 1 < field p 3 1 || 3 < field p 4 1 then done c stRANGE s
  else
    let k : Cmp := { enable := field p 1 1 == 1, code := field p 2 1, falling := field p 3 1 == 1, hyst := field p 4 1
                     debounce := field p 5 1 }
    done c stOK (modPower (fun q => { q with cmps := q.cmps.set n k }) s)

def execPowerCmpSet (t : Nat) (r : CmdRef) (s : State) : Res := verb 0x1006 t r s powerCmpSet

/-- PWR_STAT.STATE: 0 Run, 1 Calm, 2 Doze, 3 entering, 4 waking (R382). -/
def powerState (s : State) : Nat :=
  if s.power.entry.isSome then 3
  else if s.power.wake.isSome || s.power.failing || (s.mode.calm && s.mode.wakeAt.isSome) then 4
  else if s.power.st == 2 then 2
  else if s.mode.calm then 1
  else 0

/-- The comparators' outputs, bit by bit. (DESIGN CHOICE, log 54) -/
def cmpBits (s : State) : Nat := bitsOf (s.power.cmps.map (·.output))

/-- A feed's voltage in units of 10 mV. -/
def feedVolts (q : Feed) : Nat := q.mV.toNat / 10

def execPowerStatus (t : Nat) (r : CmdRef) (s : State) : Res :=
  verb 0x1007 t r s fun c s =>
    let p := s.power
    reply c (leN 1 (powerState s) ++ leN 1 p.prio ++ leN 1 p.carry ++ leN 1 (cmpBits s) ++ leN 2 (feedVolts p.feedA)
      ++ leN 2 (feedVolts p.feedB) ++ leN 2 s.fab.vcore ++ zeros 2 ++ leN 4 p.switchovers.toNat
      ++ (List.range 20).flatMap (fun i => leN 4 (kgetD p.refusals (i + 1) 0)) ++ leN 1 p.refuser ++ zeros 7) s

def execPowerWakeReport (t : Nat) (r : CmdRef) (s : State) : Res :=
  verb 0x1008 t r s fun c s =>
    let p := s.power
    reply c (leN 1 p.wakeFrom ++ leN 1 p.wakeCause ++ leN 1 p.wakeRetries ++ leN 1 p.attempts ++ leN 1 p.retFail
      ++ leN 1 p.failedStep ++ zeros 2 ++ leN 4 p.dramFail.toNat ++ zeros 4 ++ leN 8 p.entered ++ leN 8 p.woke) s

end Sys2Proof.Machine
end

