-- ==== Sys2Proof/Machine/Twin.lean ====
section
/-! DEFINITION. Twin operation (R405 to R427): HELLO, ROLE_IN and the heartbeat, the frame state digest, drills, the TWIN
commands, and the tile frames whose generation can demote an active device (R240, R246, R257, R421). -/

namespace Sys2Proof.Machine

/-! ## In step (R419) -/

/-- The condition under which a distaff is in step. -/
def inStepNow (s : State) : Bool :=
  s.twin.enabled && s.twin.role == 0 && s.twin.linkUp && s.twin.whole.length == 4 && s.twin.whole.all id
    && s.fab.svcLevel == 2
    && (match s.twin.partner with | some h => h.fingerprint == fingerprint s | none => false)

/-- TWIN_STATE on each change of being in step. -/
def stepCheck (s : State) : State :=
  let now := inStepNow s
  if now == s.twin.inStep then s
  else twinEvent (if now then 7 else 8) (epochNow s) (modTwin (fun t => { t with inStep := now }) s)

/-- The distaff is in step as this device knows it: its own state, or for the active the partner's HB_CODE (R411). -/
def pairInStep (s : State) : Bool :=
  if s.twin.role == 1 then s.twin.linkUp && (match s.twin.partner with | some h => h.hbCode == 1 || h.hbCode == 2 | none => false)
  else s.twin.inStep

/-! ## HELLO and the link (R415) -/

/-- HELLO, every 1 ms. -/
def helloSend (s : State) : State := if s.twin.enabled then sendHello (faultN s) s else s

def execHelloSend (t : Nat) (s : State) : Res := happens t s helloSend

/-- The distaff follows the active into Calm at the next boundary, and out of it at once (R425). -/
def followCalm (h : Hello) (s : State) : State :=
  if !isDistaff s || h.role != 1 then s
  else if h.calm then { s with mode := { s.mode with calmWanted := !s.mode.calm } }
  else calmWakeNow 0 { s with mode := { s.mode with calmWanted := false } }

/-- A HELLO received (R408, R409, R415, R421). (DESIGN CHOICE, log 57) -/
def helloRx (h : Hello) (s : State) : State :=
  if !s.twin.enabled then s
  else
    let was := s.twin.linkUp
    let s := modTwin (fun t => { t with partner := some h, lastHello := some s.now, helloSince := true, force := []
                                        linkUp := true, linkLost := false }) s
    let s := if was then s else twinEvent 6 (epochNow s) s
    let s := if !was && s.twin.role == 1 && h.role == 1 then
        twinEvent 4 (epochNow s) (modTwin (fun t => { t with conflicts := t.conflicts + 1 }) s)
      else s
    let s := if s.twin.role == 1 && newerGen h.cgen.toNat s.twin.cgen.toNat then
        giveUp 3 (modTwin (fun t => { t with selfDemote := t.selfDemote + 1 }) s)
      else s
    let s := if s.twin.role == 0 && h.role == 1 then modTwin (fun t => { t with cgen := h.cgen }) s else s
    stepCheck (followCalm h s)

def execHelloRx (t : Nat) (h : Hello) (s : State) : Res :=
  occurs t s fun s => rxGate 3 64 64 .multi none false false s (helloRx h)

/-- No HELLO for 10 ms: the link is lost, and its source is detected (R415, R429). -/
def linkTimeout (s : State) : State :=
  let last := max s.twin.linkFrom (s.twin.lastHello.getD 0)
  if !s.twin.enabled || s.twin.linkLost || s.now < last + 10000000 then s
  else
    let s := modTwin (fun t => { t with linkUp := false, linkLost := true, linkLosses := t.linkLosses + 1 }) s
    stepCheck (twinEvent 5 (epochNow s) (raise 0x1C40 0 [] s))

def execTwinLinkTimeout (t : Nat) (s : State) : Res := occurs t s linkTimeout

/-! ## Roles (R409, R410, R420, R421) -/

/-- The boundary from which a device that takes the active role now transmits. -/
def takeoverAt (s : State) : Nat := if modeOn s then nextBoundary s else s.now

/-- Twin operation starts: the level of ROLE_IN sets the role, and the first enumerations may set FORCE (R409, R410). -/
def twinStart (s : State) : State :=
  let s := modTwin (fun t => { t with enabled := true, linkFrom := s.now, force := if t.helloSince then [] else List.range 64 }) s
  if s.twin.roleIn then takeActive 0 (takeoverAt s) (faultN s) s
  else twinEvent 0 (epochNow s) (modTwin (fun t => { t with role := 0 }) s)

/-- A registered level of ROLE_IN (R410, R420, R421, R423). -/
def roleIn (high : Bool) (s : State) : State :=
  if s.twin.roleIn == high then s
  else
    let s := modTwin (fun t => { t with roleIn := high }) s
    if !s.twin.enabled then s
    else
      let s := drillAbort s
      if high && s.twin.role == 0 then
        takeActive 1 (takeoverAt s) (faultN s) (modTwin (fun t => { t with switchovers := t.switchovers + 1 }) s)
      else if !high && s.twin.role == 1 then giveUp 1 s
      else s

/-- ROLE_IN registered; asleep or in reset the device only notes the level. -/
def execRoleInRegistered (t : Nat) (high : Bool) (s : State) : Res :=
  alwaysF t s fun s => if awake s && s.hif.ready then roleIn high s else modTwin (fun t => { t with roleIn := high }) s

/-- One period of HEARTBEAT_OUT: a pulse whose high time gives the code, or none (R411). -/
def heartbeat (s : State) : State :=
  let c := hbCode (faultN s) s
  if c == 0 then s else put (.heartbeat c) s

def execHeartbeatPulse (t : Nat) (s : State) : Res := happens t s heartbeat

/-! ## The frame state digest (R416, R417) -/

/-- An 8-byte signed field of the digest. -/
def i8 (v : Int) : Bytes := beN 8 (twos 64 v)

/-- The cue section. -/
def digestCues (s : State) : Bytes :=
  (List.range 512).flatMap fun n =>
    let fired := kgetD s.time.fired n 0
    match kget? s.time.cues n with
    | some q => beN 1 q.state ++ beN 1 (if q.state == 2 then q.idx else 0) ++ zeros 6 ++ beN 8 (if q.state == 2 then fired else 0)
    | none => beN 1 (if khas s.time.fired n then 3 else 0) ++ zeros 7 ++ beN 8 fired

/-- The animation section. -/
def digestNodes (s : State) : Bytes :=
  let nodes := match s.weave.active with | some w => w.nodes | none => []
  (List.range 32).flatMap fun n =>
    padTo 28 (match nodes[n]? with | some nd => nd.params | none => []) ++ zeros 4 ++ i8 (kgetD s.weave.nodes n {}).ramp

/-- One applied value and target. -/
def digestPair (a t : Int) : Bytes := i8 a ++ beN 4 (twos 32 (t / 65536)) ++ zeros 4

/-- The chain section: the speed of the device's end of each chain, and a pending change. -/
def digestChains (s : State) : Bytes :=
  (List.range 64).flatMap fun c =>
    match (s.wall.active.bind fun w => chainOf w c).bind fun r => (ownEnds s r).head? with
    | some (_, p) =>
      let q := portOf s p
      match q.req with
      | some r => beN 1 q.speed ++ beN 1 r.dest ++ zeros 6 ++ beN 8 r.at_
      | none => beN 1 q.speed ++ beN 1 0xFF ++ zeros 6 ++ beN 8 0
    | none => beN 1 0 ++ beN 1 0xFF ++ zeros 14

/-- The reel records of the tail: those the device has made, from a SEQ on, within `room` bytes; and the SEQ after the last.
(DESIGN CHOICE, log 57) -/
def reelTail (r : Reel) : Nat → U32 → Nat → List Bytes × U32
  | 0, q, _ => ([], q)
  | n + 1, q, room =>
    if q == r.next then ([], q)
    else match findRec r q with
    | none => reelTail r n (q + 1) room
    | some b =>
      if bit (field b 3 1) 0 then reelTail r n (q + 1) room
      else if room < b.length then ([], q)
      else let (l, e) := reelTail r n (q + 1) (room - b.length); (b :: l, e)

/-- The digest of the epoch `e` whose weave begins, with the sequences after its last defect entry and reel record.
(DESIGN CHOICE, log 57) -/
def digestOf (e : U32) (s : State) : Bytes × Nat × U32 :=
  let d := s.twin.defJ.take 1024
  let from_ := if readable s.reel s.twin.reelFrom then s.twin.reelFrom else s.reel.first
  let (recs, rend) := reelTail s.reel (s.reel.next - from_).toNat from_ 65536
  let tail := recs.flatMap id
  let w := s.weave
  let body := digestCues s ++ digestNodes s ++ i8 w.capA ++ beN 4 (twos 32 (w.capT / 65536)) ++ zeros 4 ++ beN 8 s.meter.g ++ zeros 8
    ++ ((List.range 64).flatMap fun z => (List.range 3).flatMap fun i =>
        digestPair (kgetD w.colourA (4 * z + i) 0) (kgetD w.colourT (4 * z + i) 0))
    ++ ((List.range 8192).flatMap fun t => digestPair (kgetD w.thermA t 0) (kgetD w.thermT t 0))
    ++ digestChains s ++ (d.flatMap fun j => beN 2 j.tile ++ beN 2 j.pixel ++ beN 1 j.chan ++ beN 1 j.st ++ zeros 2) ++ tail
  let dseq := match d with | j :: _ => j.seq | [] => s.twin.defSeq
  let head (crc : Nat) : Bytes := beN 4 e.toNat ++ beN 2 (s.mode.counter.toNat / 2 ^ 32) ++ beN 2 s.twin.cgen.toNat
    ++ beN 8 s.now ++ beN 4 (fingerprint s).toNat ++ beN 4 (64 + body.length) ++ beN 4 crc ++ beN 2 d.length ++ zeros 2
    ++ beN 4 tail.length ++ beN 4 dseq ++ beN 4 from_.toNat ++ zeros 20
  (head (crc32 (head 0 ++ body)).toNat ++ body, dseq + d.length, rend)

/-- An active device captures the digest and sends its segments (R416). -/
def digestCapture (e : U32) (s : State) : State :=
  if !s.twin.enabled || s.twin.role != 1 then s
  else
    let (b, dend, rend) := digestOf e s
    let parts := chunks 8960 b.length b
    let n := parts.length
    let s := forEach (List.range n) s fun i s =>
      let p := parts.getD i []
      twinSend .digest 2 (beN 4 e.toNat ++ beN 1 i ++ beN 1 n ++ beN 2 p.length ++ beN 4 (8960 * i) ++ zeros 4 ++ p) s
    modTwin (fun t => { t with digestsTx := t.digestsTx + 1, lastDigest := e, sent := t.sent ++ [(e, dend, rend)] }) s

/-- A DACK: what its digest carried is dropped (R417). -/
def dackRx (e : U32) (s : State) : State :=
  match s.twin.sent.find? (fun q => q.1 == e) with
  | some (_, dend, rend) => modTwin (fun t => { t with
      defJ := t.defJ.filter fun j => decide (dend ≤ j.seq)
      reelFrom := rend
      sent := (t.sent.dropWhile fun q => q.1 != e).drop 1 }) s
  | none => s

def execDackRx (t : Nat) (epoch : U32) (s : State) : Res :=
  happens t s fun s => rxGate 3 64 64 .multi none false false s (dackRx epoch)

/-- The big-endian field of a digest. -/
def bfield (b : Bytes) (o n : Nat) : Nat := beNat (bytesAt b o n)

/-- The defect entries of a digest not yet applied (R417). -/
def digestDefects (b : Bytes) (s : State) : State :=
  let base := bfield b 36 4
  let s := forEach (List.range (bfield b 28 2)) s fun i s =>
    let o := 144736 + 8 * i
    if base + i < s.twin.gotDef then s
    else
      let tile := bfield b o 2
      let px := bfield b (o + 2) 2
      let ch := bfield b (o + 4) 1
      let st := bfield b (o + 5) 1
      if st == 0 then defectDrop (chanKey tile px ch) s else defectSet tile px ch st s
  modTwin (fun t => { t with gotDef := max t.gotDef (base + bfield b 28 2) }) s

/-- A partner's record offered to the reel's own staging with PARTNER set (R475). -/
def partnerRec (b : Bytes) (s : State) : State :=
  let len := 8 * field b 1 1
  offerRec { cls := field b 2 1, flags := field b 3 1 ||| 1, source := field b 4 2, code := field b 6 2
             orig := BitVec.ofNat 32 (field b 8 4), time := field b 16 8, data := bytesAt b 24 (len - 28) } s

/-- The reel records of a digest not yet taken, `n` bytes of them (R417, R475). -/
def digestReel : Nat → Bytes → State → State
  | 0, _, s => s
  | n + 1, b, s =>
    let len := 8 * field b 1 1
    if b.length < 28 || len < 28 || b.length < len then s
    else
      let q := field b 8 4
      let s := if q < s.twin.gotReel then s
        else partnerRec b (modTwin (fun t => { t with gotReel := q + 1 }) s)
      digestReel n (b.drop len) s

/-- The speeds of a digest's chain section: the device's own ends retrain with them (R413). -/
def digestSpeeds (b : Bytes) (s : State) : State :=
  match s.wall.active with
  | none => s
  | some w => forEach w.chains s fun c s =>
      match (ownEnds s c).head? with
      | none => s
      | some (_, p) =>
        let o := 143712 + 16 * c.chain
        let next := bfield b (o + 1) 1
        let (dest, at_) := if next == 0xFF then (bfield b o 1, s.now) else (next, bfield b (o + 8) 8)
        if dest == (portOf s p).speed || 3 < dest then s
        else modPort p (fun q => { q with req := some { dest, at_, askedAt := s.now, agreed := true
                                                        rises := decide (dest < q.speed) } }) s

/-- A digest segment (R415, R417, R418): the last one makes the digest whole, where its length, CRC and FINGERPRINT are good. -/
def digestSegment (d : DigestSeg) (s : State) : State :=
  if !isDistaff s then s
  else
    let s := if d.epoch == s.twin.rxEpoch then s
      else modTwin (fun t => { t with rxEpoch := d.epoch, segs := [], nsegs := [] }) s
    let s := modTwin (fun t => { t with segs := kset t.segs d.offset d.data
                                        nsegs := if t.nsegs.contains d.seg then t.nsegs else t.nsegs ++ [d.seg] }) s
    if s.twin.nsegs.length != d.nseg then s
    else
      let b := s.twin.segs.flatMap fun e => e.2
      let ok := 144736 ≤ b.length && bfield b 20 4 == b.length && bfield b 16 4 == (fingerprint s).toNat
        && bfield b 24 4 == (crc32 (b.take 24 ++ zeros 4 ++ b.drop 28)).toNat && bfield b 0 4 == d.epoch.toNat
      if !ok then s
      else
        let s := modTwin (fun t => { t with digest := some b, lastDigest := d.epoch, digestsOk := t.digestsOk + 1 }) s
        let s := twinSend .dack 3 (beN 4 d.epoch.toNat ++ zeros 4) s
        let tail := b.drop (144736 + 8 * bfield b 28 2)
        digestSpeeds b (digestReel tail.length tail (digestDefects b s))

def execDigestSegmentRx (t : Nat) (d : DigestSeg) (s : State) : Res :=
  occurs t s fun s => rxGate 3 64 (max 64 (42 + d.data.length)) .multi none false false s (digestSegment d)

/-- A cue that the digest shows running or done and that still waits here fires at once, whatever its policy (R418). -/
def digestForce (b : Bytes) (s : State) : State :=
  forEach s.time.cues s fun e s =>
    let st := bfield b (64 + 16 * e.1) 1
    if e.2.state == 1 && (st == 2 || st == 3) then
      let late := match cueAt s e.2 with | some a => s.now - a | none => 0
      cueStart e.1 late false (record 4 (16 * 1024) 0x0C80 (leN 2 e.1 ++ zeros 2) s)
    else s

/-- What a distaff takes from a digest: PARAMS, D, A, T and G, the cue states, and its counter where it differs (R418).
(DESIGN CHOICE, log 56) -/
def digestUse (b : Bytes) (s : State) : State :=
  let i (o n : Nat) : Int := signedN (8 * n) (bfield b o n)
  let node (w : Weave) (n : Nat) : Option Node :=
    w.nodes[n]?.map fun nd => { nd with params := bytesAt b (8256 + 40 * n) nd.params.length }
  let nodes (w : Weave) : Weave := { w with nodes := (List.range w.nodes.length).filterMap (node w) }
  let nst := (List.range (match s.weave.active with | some w => w.nodes.length | none => 0)).foldl
    (fun m n => kmod m n {} fun q => { q with ramp := i (8256 + 40 * n + 32) 8 }) s.weave.nodes
  let pairs (o k : Nat) (key : Nat → Nat) (tgt : Bool) : KMap Int := (List.range k).filterMap fun j =>
    let v := if tgt then i (o + 16 * j + 8) 4 * 65536 else i (o + 16 * j) 8
    if v == 0 then none else some (key j, v)
  let zone (j : Nat) : Nat := 4 * (j / 3) + j % 3
  let s := { s with
    weave := { s.weave with
      active := s.weave.active.map nodes, nodes := nst
      capA := i 9536 8, capT := i 9544 4 * 65536
      colourA := pairs 9568 192 zone false, colourT := pairs 9568 192 zone true
      thermA := pairs 12640 8192 id false, thermT := pairs 12640 8192 id true }
    meter := { s.meter with g := bfield b 9552 8 }
    mode := { s.mode with counter := BitVec.ofNat 48 (bfield b 4 2 * 2 ^ 32 + bfield b 0 4 + 1) } }
  digestForce b s

/-- The boundary at which a distaff begins a weave: it takes the digest captured at the boundary before, where that is whole
(R418). (DESIGN CHOICE, log 57) -/
def digestTake (s : State) : State :=
  if !isDistaff s || s.twin.partner.isNone then s
  else
    let note (ok : Bool) (s : State) : State := modTwin (fun t => { t with
      whole := (ok :: t.whole).take 4, digest := none, digestsMissed := if ok then t.digestsMissed else t.digestsMissed + 1 }) s
    match s.twin.digest with
    | some b => if boundaryIdx s.mode.mode s.mode.phase (bfield b 8 8 + 1) + 1 == s.mode.n then note true (digestUse b s) else note false s
    | none => note false s

/-! ## Drills (R423, R424) -/

/-- The counters a drill compares: by port the locks lost and skeins dropped, by tile the holds. (DESIGN CHOICE, log 56) -/
def drillCounts (s : State) : KMap Nat × KMap Nat :=
  (kmap (s.link.ports.filter fun e => e.2.role == 2) fun _ q => q.lockLosses.toNat + q.lnk.dropped.toNat,
   kmap s.link.tiles fun _ k => k.holds)

/-- How many counters have changed. -/
def changed (old new : KMap Nat) : Nat := (new.filter fun e => kgetD old e.1 0 != e.2).length

/-- The swap of a drill at the boundary that commits `e`: the active gives up, the distaff takes over (R423). CHECK and REVERT
do not travel in any message, so a new active's are free. (DESIGN CHOICE, log 56) -/
def drillSwap (e : U32) (s : State) : State :=
  match s.twin.drill with
  | some d =>
    if d.swapped || 2 ^ 31 ≤ (e - d.epoch).toNat then s
    else
      let s := modTwin (fun t => { t with drill := some { d with swapAt := s.now, swapped := true, left := d.check, first := e + 1 } }) s
      giveUp 2 s
  | none =>
    match s.twin.partner with
    | some h =>
      if isDistaff s && s.twin.linkUp && h.role == 1 && h.drillEpoch != 0 && h.drillEpoch == e then
        let (n, s) := drawBelow 255 s
        let (rv, s) := drawBelow 2 s
        let (drops, holds) := drillCounts s
        let d : Drill := { epoch := e, swapAt := s.now, check := n + 1, revert := rv == 1, swapped := true, mine := true
                           left := n + 1, drops, holds, first := e + 1 }
        let s := modTwin (fun t => { t with drill := some d, switchovers := t.switchovers + 1 }) s
        takeActive 2 s.now (faultN s) s
      else s
    | none => s

/-- DRILL_DONE (R424, R427). (DESIGN CHOICE, log 56) -/
def drillDone (d : Drill) (ends tiles : Nat) (s : State) : State :=
  emit 0x1202 (leN 1 d.status ++ leN 1 (b2n d.revert) ++ leN 2 ends ++ leN 2 tiles ++ zeros 2 ++ leN 4 d.first.toNat)
    (modTwin (fun t => { t with drills := t.drills + 1, drill := none }) s)

/-- One checked epoch of a drill ends; after the last, DRILL_DONE, and the return swap where asked for (R424). The old active
does not see what the new one counts: its figures are free. (DESIGN CHOICE, log 56) -/
def drillCheck (s : State) : State :=
  match s.twin.drill with
  | some d =>
    if !d.swapped || s.now ≤ d.swapAt then s
    else if 1 < d.left then modTwin (fun t => { t with drill := some { d with left := d.left - 1 } }) s
    else if d.mine then
      let (drops, holds) := drillCounts s
      let s := drillDone d (changed d.drops drops) (changed d.holds holds) s
      if d.revert then
        let b := boundaryFrom s (s.now + 8000000)
        modTwin (fun t => { t with drill := some { epoch := epochEnding s b, swapAt := b, check := d.check, revert := false } }) s
      else s
    else
      let (ends, s) := drawBelow 65536 s
      let (tiles, s) := drawBelow 65536 s
      drillDone d ends tiles s
  | none => s

/-- TWIN_DRILL (R423, R426). (DESIGN CHOICE, log 56) -/
def twinDrill (c : Cmd) (s : State) : State :=
  let p := c.payload
  let policy := if field p 0 1 == 0xFF then 0 else field p 0 1
  let when_ := field p 1 1
  let check := if field p 3 1 == 0 then 16 else field p 3 1
  let e : U32 := BitVec.ofNat 32 (field p 4 4)
  let calm := s.mode.calm || (match s.twin.partner with | some h => h.calm | none => false)
  if 1 < policy || 1 < when_ then done c stRANGE s
  else if !s.twin.enabled || s.twin.role != 1 || !modeOn s || !pairInStep s || calm || s.twin.drill.isSome then done c stSTATE s
  else
    let target := commitTimeI s e
    let soon := boundaryFrom s (max s.now (c.takenAt + 8000000))
    let at_ := if when_ == 0 || target < s.now then soon else target
    let late := if when_ == 1 then at_ - target else 0
    let (act, st) := latePolicy policy (field p 8 4) late
    if !act then complete c stPAST late [] s
    else
      let st' := if st == stLATE then stLATE else stACCEPTED
      let d : Drill := { epoch := epochEnding s at_, swapAt := at_, check, revert := bit (field p 2 1) 0
                         status := if st == stLATE then stLATE else stOK }
      complete c st' late [] (modTwin (fun t => { t with drill := some d }) s)

def execTwinDrill (t : Nat) (r : CmdRef) (s : State) : Res := verbF 0x1203 t r s twinDrill

/-! ## The other TWIN commands (R426) -/

/-- TWIN_CONFIG. (DESIGN CHOICE, log 57) -/
def twinConfig (c : Cmd) (s : State) : State :=
  let p := c.payload
  let en := field p 0 1
  let side := field p 1 1
  let hb := if field p 2 2 == 0 then 1000 else field p 2 2
  let t := s.twin
  let heard := match t.lastHello with | some a => decide (s.now < a + 10000000) | none => false
  if 1 < en || 1 < side || hb < 100 || 10000 < hb then done c stRANGE s
  else if (t.enabled && side != t.side) || (en == 0 && isDistaff s && heard) || t.drill.isSome then done c stSTATE s
  else
    let s := done c stOK (modTwin (fun t => { t with side, hbUs := hb }) s)
    if en == 1 && !t.enabled then applyRoles (twinStart s)
    else if en == 0 && t.enabled then
      applyRoles (modTwin (fun t => { t with enabled := false, role := 0, pending := none, announce := none, inStep := false
                                             linkUp := false, linkLost := false, partner := none, lastHello := none }) s)
    else s

def execTwinConfig (t : Nat) (r : CmdRef) (s : State) : Res := verbF 0x1201 t r s twinConfig

/-- TWIN_STATUS's response. -/
def twinStatusBytes (s : State) : Bytes :=
  let t := s.twin
  let chains := match s.wall.active with | some w => w.chains | none => []
  let h : Hello := t.partner.getD { cgen := 0, side := 0, role := 0, hbCode := 0, calm := false, serial := 0, counter := 0
                                    fingerprint := 0, drillEpoch := 0 }
  leN 1 (b2n t.enabled) ++ leN 1 t.side ++ leN 1 t.role ++ leN 1 (hbCode (faultN s) s) ++ leN 2 t.cgen.toNat
    ++ leN 2 h.cgen.toNat ++ leN 4 h.serial.toNat ++ leN 1 (b2n t.linkUp) ++ leN 1 (b2n (pairInStep s))
    ++ leN 1 (chains.filter fun c => (chainLk s c.chain).gen == 1).length
    ++ leN 1 (chains.filter fun c => c.portB == 0xFF).length ++ leN 4 t.lastDigest.toNat ++ leN 4 (fingerprint s).toNat
    ++ leN 4 h.fingerprint.toNat ++ leN 4 (drillEpoch s).toNat ++ leN 8 t.lastSwitch ++ zeros 8

def execTwinStatus (t : Nat) (r : CmdRef) (s : State) : Res :=
  verb 0x1202 t r s fun c s => reply c (twinStatusBytes s) s

def execTwinCounters (t : Nat) (r : CmdRef) (s : State) : Res :=
  verb 0x1204 t r s fun c s =>
    let w := s.twin
    reply c (([w.digestsTx, w.digestsOk, w.digestsMissed, w.switchovers, w.drills, w.selfDemote, w.conflicts, w.linkLosses].flatMap
      fun v => leN 4 v.toNat)) s

/-! ## REPORT and REPLY (R240, R242, R257) -/

/-- A REPORT received. -/
def reportRx (h : TileHdr) (q : Report) (s : State) : State :=
  tileFrame h 5 s fun c _ r s => genNewer c h.gen r.tile (reportTake h.port c r q s)

def execReportRx (t : Nat) (h : TileHdr) (r : Report) (s : State) : Res := occurs t s (reportRx h r)

/-- A REPLY received. -/
def replyRx (h : TileHdr) (q : Reply) (s : State) : State :=
  tileFrame h 6 s fun c b r s => genNewer c h.gen r.tile (replyNote c b q s)

def execReplyRx (t : Nat) (h : TileHdr) (r : Reply) (s : State) : Res := occurs t s (replyRx h r)

end Sys2Proof.Machine
end

