-- ==== Sys2Proof/Machine/Weave.lean ====
section
/-! DEFINITION. Loading and changing a weave: the checks of a weave (R147, R153, R154, R162, R167, R168), its taking
effect (R161, R169), tables (R171), parameter changes (R172) and the WEAVE commands (R173 to R175). -/

namespace Sys2Proof.Machine

/-- The inputs a kind takes (R153). -/
def kindInputs (k : Nat) : Nat := if k ≤ 4 then 0 else if k ≤ 8 then 2 else 1

/-- An L18 code parameter out of its range (R154). -/
def badCode (nd : Node) (o : Nat) : Option Nat := if 262143 < parN nd o 4 then some o else none

/-- The first of several checks that fails. -/
def firstBad : List (Option Nat) → Option Nat
  | [] => none
  | some o :: _ => some o
  | none :: r => firstBad r

/-- A check that fails at offset `o`. -/
def bad (o : Nat) (c : Bool) : Option Nat := if c then some o else none

/-- The offset of a node's first parameter out of its range (R154). -/
def paramBad (nd : Node) : Option Nat :=
  match nd.kind with
  | 0x01 => bad 0 (decide (15 < parN nd 0 1))
  | 0x02 => firstBad [badCode nd 0, badCode nd 4, badCode nd 8]
  | 0x03 => firstBad [bad 0 (decide (15 < parN nd 0 1)), bad 1 (decide (2 < parN nd 1 1)),
      bad 4 (decide (parN nd 4 4 < 0x1000) || decide (0x100000 < parN nd 4 4)),
      bad 8 (decide (parN nd 8 4 < 0x1000) || decide (0x100000 < parN nd 8 4))]
  | 0x04 => firstBad [bad 0 (decide (4 < parN nd 0 1)), bad 2 (decide (parN nd 2 2 < 2) || decide (4096 < parN nd 2 2)),
      badCode nd 4, badCode nd 8, badCode nd 12]
  | 0x0A => firstBad [bad 0 (parN nd 0 4 / 2 ^ 23 % 256 == 255), bad 4 (parN nd 4 4 / 2 ^ 23 % 256 == 255),
      bad 8 (parN nd 8 4 / 2 ^ 23 % 256 == 255)]
  | 0x0B => bad 0 (decide (15 < parN nd 0 1))
  | 0x0D => firstBad [bad 0 (decide (parI nd 0 4 < -196608) || decide (65536 < parI nd 0 4)),
      bad 4 (decide (1048576 < parN nd 4 4))]
  | 0x0E => firstBad [badCode nd 0, badCode nd 4, badCode nd 8, badCode nd 12]
  | 0x10 => bad 0 (decide (0x4000 < parN nd 0 2))
  | 0x11 => firstBad [badCode nd 0, bad 4 (decide (262143 < parN nd 4 4) || decide (parN nd 4 4 ≤ parN nd 0 4)),
      bad 8 (decide (1 < parN nd 8 1))]
  | 0x13 => bad 0 (decide (2 < parN nd 0 1))
  | 0x14 => firstBad [bad 0 (decide (31 < parN nd 0 1)),
      bad 8 (decide (parI nd 8 4 < -196608) || decide (65536 < parI nd 8 4)),
      bad 12 (decide (parI nd 12 4 < -196608) || decide (65536 < parI nd 12 4) || decide (parI nd 12 4 < parI nd 8 4))]
  | _ => none

/-- The loop nodes of a weave in the order COLOUR_LOOP, THERMAL, POWER_CAP, by node number (R162). -/
def loopNodes (nodes : List Node) : List (Nat × Node) :=
  let z := (List.range nodes.length).zip nodes
  sortBy (fun p => p.2.kind) (z.filter fun p => p.2.kind == 0x15 || p.2.kind == 0x16 || p.2.kind == 0x17)

/-- How many inputs of the weave name node `k`. -/
def feeds (nodes : List Node) (k : Nat) : Nat :=
  (nodes.map fun nd => (if kindInputs nd.kind ≥ 1 && nd.a == k then 1 else 0)
    + (if kindInputs nd.kind == 2 && nd.b == k then 1 else 0)).sum

/-- The loop-chain rule broken, at the KIND of a loop node that stands twice or at the IN_A that breaks the chain: each loop
node feeds the next only, and the last feeds PACK (R162). -/
def loopBad (nodes : List Node) : Option Nat :=
  let l := loopNodes nodes
  let last := nodes.length - 1
  let nexts := (l.map (·.1)).drop 1 ++ [last]
  let dup := l.find? fun p => l.any fun q => decide (q.1 < p.1) && q.2.kind == p.2.kind
  let badPair := (l.zip nexts).find? fun q =>
    !(kindInputs ((nodes.getD q.2 { kind := 1, shed := false, a := 0, b := 0, params := [] }).kind) == 1
      && (nodes.getD q.2 { kind := 1, shed := false, a := 0, b := 0, params := [] }).a == q.1.1
      && feeds nodes q.1.1 == 1)
  if l.isEmpty then none
  else match dup with
  | some p => some (16 + 32 * p.1)
  | none => badPair.map fun q => 18 + 32 * q.2

/-- The offset of the first field of node `n` that breaks R147, R153, R154 or R167. -/
def nodeBad (nodes : List Node) (n : Nat) (nd : Node) (inA inB : Nat) : Option Nat :=
  let o := 16 + 32 * n
  let last := n + 1 == nodes.length
  let k := kindInputs nd.kind
  let mark := nd.shed && (k == 0 || nd.kind == 0x16 || nd.kind == 0x17 || nd.kind == 0x18)
  firstBad [
    bad o (nd.kind == 0 || decide (0x18 < nd.kind) || (nd.kind == 0x18) != last || (!last && feeds nodes n == 0)),
    bad (o + 1) mark,
    bad (o + 2) (if k == 0 then inA != 0xFF else decide (n ≤ inA)),
    bad (o + 3) (if k == 2 then decide (n ≤ inB) else inB != 0xFF),
    (paramBad nd).map fun q => o + 4 + q]

/-- A table is complete: all 1,025 entries written since it was emptied (R171). -/
def tableFull (s : State) (t : Nat) : Bool := (kgetD s.weave.tables t []).length == 1025

/-- The nodes of a WEAVE_LOAD payload. -/
def parseNodes (p : Bytes) (n : Nat) : List Node :=
  (List.range n).map fun i =>
    { kind := field p (16 + 32 * i) 1, shed := bit (field p (17 + 32 * i) 1) 0, a := field p (18 + 32 * i) 1,
      b := field p (19 + 32 * i) 1, params := bytesAt p (20 + 32 * i) 28 }

/-- The check of a weave payload: a status and DETAIL where it fails (R147, R154, R162, R168, R171, R173). -/
def weaveBad (p : Bytes) (s : State) : Option (Nat × Nat) :=
  let n := field p 2 1
  let nodes := parseNodes p n
  let z := (List.range n).zip nodes
  if field p 0 2 == 0 then some (stRANGE, 0)
  else if n == 0 || decide (32 < n) then some (stRANGE, 2)
  else match firstBad (z.map fun q => nodeBad nodes q.1 q.2 q.2.a q.2.b) with
    | some o => some (stRANGE, o)
    | none => match loopBad nodes with
      | some o => some (stRANGE, o)
      | none => match z.find? (fun q => q.2.kind == 0x0B && !tableFull s (parN q.2 0 1)) with
        | some q => some (stNOTFOUND, 20 + 32 * q.1)
        | none =>
          if 2 < (nodes.filter fun nd => nd.kind == 0x0B).length
             || !admits s.wall.active (some { id := field p 0 2, nodes }) s.mode.mode s.place.profile s then
            some (stRANGE, 0xFFFFFFFF)
          else none

/-- WEAVE_LOAD starts its build (R169, R170). (DESIGN CHOICE, log 39; DESIGN CHOICE, log 61) -/
def weaveLoad (c : Cmd) (s : State) : State :=
  let p := c.payload
  if s.weave.pend.isSome || s.weave.building.isSome || s.place.pendProfile.isSome || s.wall.pending.isSome then
    done c stSTATE s
  else match weaveBad p s with
  | some (st, d) => complete c st d [] s
  | none =>
    let w : Weave := { id := field p 0 2, nodes := parseNodes p (field p 2 1) }
    calmWake 4 (park c { s with weave := { s.weave with building := some (c.ref, w) } })

def execWeaveLoad (t : Nat) (r : CmdRef) (s : State) : Res := verb 0x0401 t r s weaveLoad

/-- The starting ramp of a node of a new weave: the old node's value under CONTINUE, else its TARGET (R161). -/
def startRamp (old : Option Weave) (s : State) (n : Nat) (nd : Node) : Int :=
  let target := if nd.kind == 0x0D then parI nd 0 4 * 65536 else if nd.kind == 0x07 then (parN nd 0 2 : Int) * 65536 else 0
  match old with
  | some w =>
    match w.nodes[n]? with
    | some o => if bit (parN nd 8 1) 0 && o.kind == nd.kind then (kgetD s.weave.nodes n {}).ramp else target
    | none => target
  | none => target

/-- WEAVE_ACTIVE emitted (R175). -/
def weaveEvent (w : Weave) (e : U32) (s : State) : State :=
  emit 0x0401 (leN 4 e.toNat ++ leN 2 w.id ++ leN 1 (plyOps w)) s

/-- A weave put in force: the node counters clear and the ramps start (R161, R169, R174). WEAVE_ACTIVE waits for the first
epoch woven under it. (DEDUCED, log 73) -/
def weaveInForce (w : Weave) (s : State) : State :=
  let ns : KMap NodeSt := ((List.range w.nodes.length).zip w.nodes).map fun q =>
    (q.1, { ramp := startRamp s.weave.active s q.1 q.2 })
  { s with
    weave := { s.weave with active := some w, pend := none, nodes := ns, eventDue := true, activeEpoch := epochNow s }
    mode := { s.mode with moved := true } }

/-- The spindle programs of a WEAVE_LOAD are built: its completion record, and the weave in force at the next frame
boundary, or at once with no wall active or no mode in force (R169, R528). -/
def weaveBuilt (s : State) : State :=
  match s.weave.building with
  | none => s
  | some (r, w) =>
    if (findCmd r s).isNone then { s with weave := { s.weave with building := none } }
    else
      let s := finish r stOK 0 [] { s with weave := { s.weave with building := none } }
      if s.wall.active.isNone || !modeOn s then weaveInForce w s
      else { s with weave := { s.weave with pend := some w, pendAt := nextBoundary s } }

def execWeaveLoadDone (t : Nat) (s : State) : Res := occurs t s weaveBuilt

/-- A table slot that a weave names. -/
def namesTable (w : Weave) (t : Nat) : Bool := w.nodes.any fun nd => nd.kind == 0x0B && parN nd 0 1 == t

/-- A table slot that the weave in force, a pending weave or a waiting WEAVE_PARAM names (R171). (DESIGN CHOICE, log 39) -/
def tableInUse (s : State) (t : Nat) : Bool :=
  (match s.weave.active with | some w => namesTable w t | none => false)
    || (match s.weave.pend with | some w => namesTable w t | none => false)
    || (match s.weave.building with | some (_, w) => namesTable w t | none => false)
    || s.weave.params.any fun q =>
        let w := match s.weave.active with
          | some w => if w.id == q.weaveId then some w else s.weave.pend
          | none => s.weave.pend
        match w with
        | some w => q.entries.any fun e =>
            (match w.nodes[e.1]? with | some nd => nd.kind == 0x0B | none => false) && field e.2 0 1 == t
        | none => false

/-- WEAVE_TABLE (R171, R173). (DESIGN CHOICE, log 39) -/
def weaveTable (c : Cmd) (s : State) : State :=
  let p := c.payload
  let t := field p 0 1
  let first := field p 2 2
  let n := field p 4 2
  if 15 < t then complete c stRANGE 0 [] s
  else if 1024 < first then complete c stRANGE 2 [] s
  else if n == 0 || 340 < n || 1025 < first + n then complete c stRANGE 4 [] s
  else if tableInUse s t then done c stSTATE s
  else
    let tb := if first == 0 then [] else kgetD s.weave.tables t []
    let tb := (List.range n).foldl (fun tb i =>
      kset tb (first + i) (field p (8 + 12 * i) 4, field p (12 + 12 * i) 4, field p (16 + 12 * i) 4)) tb
    done c stOK { s with weave := { s.weave with tables := kset s.weave.tables t tb } }

def execWeaveTable (t : Nat) (r : CmdRef) (s : State) : Res := verb 0x0402 t r s weaveTable

/-- A kind that has parameters (R154). -/
def hasParams (k : Nat) : Bool := !(paramReservedAll k) where
  /-- Every parameter byte of the kind is reserved. -/
  paramReservedAll (k : Nat) : Bool := k == 0x05 || k == 0x06 || k == 0x08 || k == 0x12 || decide (0x15 ≤ k)

/-- The first entry of a WEAVE_PARAM that fails against the weave it names: a status and the payload offset (R172). -/
def paramEntriesBad (w : Weave) (p : Bytes) (n : Nat) (s : State) : Option (Nat × Nat) :=
  ((List.range n).filterMap fun i =>
    let o := 16 + 32 * i
    let k := field p o 1
    match w.nodes[k]? with
    | none => some (stRANGE, o)
    | some nd =>
      let nd' := { nd with params := bytesAt p (o + 4) 28 }
      if (List.range i).any (fun j => field p (16 + 32 * j) 1 == k) || !hasParams nd.kind then some (stRANGE, o)
      else match (paramReserved nd.kind).find? (fun q => (byteAt nd'.params q.1).toNat &&& q.2 != 0) with
        | some q => some (stVIOLATION, o + 4 + q.1)
        | none => match paramBad nd' with
          | some q => some (stRANGE, o + 4 + q)
          | none =>
            if nd.kind == 0x03 && nodeW nd' != nodeW nd then some (stRANGE, o + 5)
            else if nd.kind == 0x03 && s.place.profile == 3
                && !(match s.wall.active with | some i => scaleFits i { w with nodes := [nd'] } 0 | none => true) then
              some (stRANGE, 0xFFFFFFFF)
            else if nd.kind == 0x0B && !tableFull s (parN nd' 0 1) then some (stNOTFOUND, o + 4)
            else none).head?

/-- A waiting parameter change applied (R172): with another weave in force it ends with STATE. -/
def paramApply (q : ParamWait) (s : State) : State :=
  match s.weave.active with
  | some w =>
    if w.id == q.weaveId then
      let nodes := ((List.range w.nodes.length).zip w.nodes).map fun z =>
        match q.entries.find? (fun e => e.1 == z.1) with
        | some e => { z.2 with params := e.2 }
        | none => z.2
      let s := { s with weave := { s.weave with active := some { w with nodes } }, mode := { s.mode with moved := true } }
      finish q.ref (if q.late ≤ q.grace then stOK else stLATE) (if q.late ≤ q.grace then 0 else q.late) [] s
    else finish q.ref stSTATE 0 [] s
  | none => finish q.ref stSTATE 0 [] s

/-- A parameter change is due at the start of the weave of the current epoch. -/
def paramDue (s : State) (q : ParamWait) : Bool := if q.timed then epochPassed s q.epoch else decide (q.at_ ≤ s.now)

/-- The parameter changes due at this boundary applied in the order in which they were taken, where their commands are still in
flight (R172). (DESIGN CHOICE, log 38) -/
def paramsDue (s : State) : State :=
  let due := sortBy (fun (q : ParamWait) => q.order) (s.weave.params.filter (paramDue s))
  let s := { s with weave := { s.weave with params := s.weave.params.filter fun q => !paramDue s q } }
  forEach due s fun q s => if (findCmd q.ref s).isSome then paramApply q s else s

/-- WEAVE_PARAM (R172). (DESIGN CHOICE, log 39; DESIGN CHOICE, log 61) -/
def weaveParam (c : Cmd) (s : State) : State :=
  let p := c.payload
  let id := field p 0 2
  let e : U32 := BitVec.ofNat 32 (field p 4 4)
  let n := field p 12 1
  let policy := if field p 2 1 == 0xFF then 0 else field p 2 1
  let named := match s.weave.active, s.weave.pend with
    | some w, some v => if w.id == id then some w else if v.id == id then some v else none
    | some w, none => if w.id == id then some w else none
    | none, some v => if v.id == id then some v else none
    | none, none => none
  if 1 < policy then complete c stRANGE 2 [] s
  else if 1 < field p 3 1 then complete c stRANGE 3 [] s
  else if n == 0 || 16 < n then complete c stRANGE 12 [] s
  else match named with
  | none => done c stSTATE s
  | some w =>
    match paramEntriesBad w p n s with
    | some (0x30, o) =>
      match c.ref with
      | .mbx m tag => done c stVIOLATION (violate 1 (BitVec.ofNat 32 (64 + o)) c.inband.isSome m tag s)
      | .cue _ _ => done c stVIOLATION s
    | some (st, o) => complete c st o [] s
    | none =>
      let entries := (List.range n).map fun i => (field p (16 + 32 * i) 1, bytesAt p (20 + 32 * i) 28)
      let q : ParamWait := { ref := c.ref, order := c.order, weaveId := id, timed := false, epoch := e, at_ := s.now, late := 0
                             grace := field p 8 4, entries }
      let wait (q : ParamWait) (s : State) : State :=
        calmWake 4 (park c { s with weave := { s.weave with params := s.weave.params ++ [q] } })
      if !modeOn s then
        if field p 3 1 == 1 then done c stSTATE s else calmWake 4 (paramApply q s)
      else if 16 ≤ s.weave.params.length then done c stBUSY s
      else if field p 3 1 == 0 then wait { q with at_ := c.takenAt + 500000 } s
      else if !epochPassed s e then wait { q with timed := true } s
      else
        let late := nextBoundary s - weaveTimeI s e
        if policy == 1 && field p 8 4 < late then done c stPAST s else wait { q with late } s

def execWeaveParam (t : Nat) (r : CmdRef) (s : State) : Res := verb 0x0403 t r s weaveParam

/-- WEAVE_STATUS's response (R173). -/
def weaveStatusBytes (s : State) : Bytes :=
  let act := s.weave.active
  leN 2 (match act with | some w => w.id | none => 0)
    ++ leN 2 (match s.weave.pend with | some w => w.id | none => 0)
    ++ leN 4 s.weave.activeEpoch.toNat
    ++ leN 1 (match act with | some w => w.nodes.length | none => 0)
    ++ leN 1 (match act with | some w => plyOps w | none => 0)
    ++ leN 1 (match act with | some w => if shedOn s 2 then (w.nodes.filter (·.shed)).length else 0 | none => 0)
    ++ leN 1 0
    ++ leN 4 (twos 32 (round16 s.weave.capA)) ++ leN 4 (twos 32 (round16 s.weave.capT))
    ++ leN 2 (bitsOf ((List.range 16).map (tableFull s))) ++ leN 2 (bitsOf ((List.range 16).map (tableInUse s)))
    ++ zeros 8

def execWeaveStatus (t : Nat) (r : CmdRef) (s : State) : Res :=
  verb 0x0404 t r s fun c s => reply c (weaveStatusBytes s) s

/-- WEAVE_COUNTERS (R174): NOT_FOUND for a node the weave in force does not hold. (DESIGN CHOICE, log 23) -/
def weaveCounters (c : Cmd) (s : State) : State :=
  let n := field c.payload 0 1
  match s.weave.active with
  | some w =>
    if n < w.nodes.length then
      let k := kgetD s.weave.nodes n {}
      reply c (leN 8 k.sat.toNat ++ leN 4 k.nan.toNat ++ leN 4 k.paramPoison.toNat ++ leN 4 k.invalidIn.toNat
        ++ leN 4 k.poisonIn.toNat ++ leN 4 k.excluded.toNat ++ zeros 4) s
    else complete c stNOTFOUND 0 [] s
  | none => complete c stNOTFOUND 0 [] s

def execWeaveCounters (t : Nat) (r : CmdRef) (s : State) : Res := verb 0x0405 t r s weaveCounters

/-! ## What begins with a weave: ramps, loops and taps (R120, R161, R163) -/

/-- A value moved toward its target by at most `down` or `up` units per second over Δt, in units of 2^-16; none is unlimited
(R161, R163). Δt is a fraction of seconds, so the bound is exact before it is truncated. (DESIGN CHOICE, log 24) -/
def slew (a t : Int) (up down : Option Nat) (dt : Nat × Nat) : Int :=
  let most (r : Option Nat) (d : Int) : Int := match r with
    | none => d
    | some q => min d ((q * 65536 * dt.1 / dt.2 : Nat) : Int)
  if a < t then a + most up (t - a) else a - most down (a - t)

/-- DIM's and MIX's values move toward their targets over Δt (R161). (DESIGN CHOICE, log 24) -/
def rampStep (dt : Nat × Nat) (s : State) : State :=
  match s.weave.active with
  | none => s
  | some w =>
    forEach ((List.range w.nodes.length).zip w.nodes) s fun q s =>
      let nd := q.2
      if nd.kind == 0x0D || nd.kind == 0x07 then
        let t : Int := if nd.kind == 0x0D then parI nd 0 4 * 65536 else (parN nd 0 2 : Int) * 65536
        let rate := parN nd 4 4
        let d := (kgetD s.weave.nodes q.1 {}).ramp
        let d' := if rate == 0 then t else slew d t (some rate) (some rate) dt
        let s := modNode q.1 (fun k => { k with ramp := d' }) s
        if d' == d then s else { s with mode := { s.mode with moved := true } }
      else s

/-- The taps as a weave has taken them: what poison they had is spent. (DESIGN CHOICE, log 23) -/
def tapsTaken (s : State) : State :=
  { s with ing := { s.ing with taps := kmap s.ing.taps fun _ t => { t with poison := false } } }

/-- The applied values of the three loops move toward their targets over Δt (R163). -/
def loopStep (dt : Nat × Nat) (s : State) : State :=
  let c := kmap s.weave.colourT fun k t =>
    slew (kgetD s.weave.colourA k 0) (clampI (-8192 * 65536) (2048 * 65536) t) (some 16) (some 16) dt
  let th := kmap s.weave.thermT fun k t =>
    slew (kgetD s.weave.thermA k 0) (clampI (-65536 * 65536) 0 t) (some 256) (some 256) dt
  let cap := slew s.weave.capA (clampI (-65536 * 65536) 0 s.weave.capT) (some 512) none dt
  let changed := c != kfilter s.weave.colourA (fun k _ => khas s.weave.colourT k)
    || th != kfilter s.weave.thermA (fun k _ => khas s.weave.thermT k) || cap != s.weave.capA
  { s with weave := { s.weave with colourA := c, thermA := th, capA := cap }
           mode := { s.mode with moved := s.mode.moved || changed } }

/-- Each AUDIO_MOD node takes its tap's value at the instant the weave begins (R120); where a poisoned sample has come into it, the
node keeps the value of the previous epoch, 0 tw in the first, and counts (R152). (DESIGN CHOICE, log 23) -/
def tapStep (s : State) : State :=
  match s.weave.active with
  | none => s
  | some w =>
    forEach ((List.range w.nodes.length).zip w.nodes) s fun q s =>
      if q.2.kind == 0x14 then
        let tap := kget? s.ing.taps (parN q.2 0 1)
        let bad := match tap with | some t => t.poison | none => false
        let old := (kgetD s.weave.nodes q.1 {}).lastVal
        let v := if bad then old.getD 0 else match tap with | some t => t.value | none => 0
        let s := modNode q.1 (fun k => { k with lastVal := some v
                                                paramPoison := if bad then k.paramPoison + 1 else k.paramPoison }) s
        if old == some v || old.isNone then s else { s with mode := { s.mode with moved := true } }
      else s

end Sys2Proof.Machine
end

