-- ==== Sys2Proof/Machine/Boot.lean ====
section
/-! DEFINITION. Resets (R494 to R496), the last gasp's end (R364), the boot stages (R499 to R506), the PCI Express link, and the
junction temperature (R21, R524). -/

namespace Sys2Proof.Machine

/-! ## Resets (R494, R495) -/

/-- A reset: every register field takes its reset value (R11), what MRAM holds stays (R504), and the boot starts at B0. `code`
is the source's; `aon` says that the always-on domain and retention bank 7 are kept, `rtc` that the RTC is. The feeds, the pins
and the temperature are what they are. -/
def resetTo (code : Nat) (aon rtc : Bool) (s0 : State) : State :=
  let s := pulsesHeld s0
  let feed (q : Feed) : Feed := feedAt s.now q.mV { mV := q.mV, live := q.live, ov := q.ov, aboveAt := q.aboveAt }
  let hot := decide (1000 ≤ s.fab.tj)
  let h := s.hif
  let inb := portOf s h.inbPort
  let r : State :=
    { pending := s.pending, now := s.now, bootAt := s.now, freeCtr := s.freeCtr, out := s.out, faultLow := s.faultLow
      hif := { keys := h.keys, keySeq := h.keySeq, inbEnabled := h.inbEnabled, inbPort := h.inbPort, inbUdp := h.inbUdp
               inbIp := h.inbIp, inbKeys := h.inbKeys, compat := h.compat, pcieUp := h.pcieUp, pcieL := h.pcieL
               pcieSpeed := h.pcieSpeed, pcieWidth := h.pcieWidth }
      fab := { tj := s.fab.tj, hotcap := hot }
      wall := { staged := s.wall.kept, stagedTotal := s.wall.kept.length, kept := s.wall.kept }
      time := if rtc then timeKept s.time else {}
      flt := fltKept s.flt
      reel := reelBoot aon (aon || rtc) s.reel
      store := { flash := s.store.flash, temp0 := s.store.temp0, temp1 := s.store.temp1 }
      weave := { active := s.weave.active
                 tables := s.weave.tables.filter fun e => match s.weave.active with | some w => namesTable w e.1 | none => false }
      health := healthKept s.health
      link := { ports := if h.inbEnabled then kset [] h.inbPort { cfg := inb.cfg, rxExtra := inb.rxExtra, txExtra := inb.txExtra }
                         else [] }
      twin := twinKept s.twin
      power := { feedA := feed s.power.feedA, feedB := feed s.power.feedB }
      fix := fixKept s.fix
      air := airKept s.air
      meter := s.meter
      cal := { s.cal with items := [] }
      upd := { updKept s.upd with act := if s.upd.pendingFlag then s.upd.act else none }
      boot := { code, low := s.boot.low, perst := s.boot.perst, gaspAt := if aon then s.boot.gaspAt else none } }
  carryUpdate r

/-- POWER_ON: VAON rises; the retention banks are lost, and COMPAT_N is sampled (R494, R496). -/
def execPowerOn (t : Nat) (vbatHeld compatLow : Bool) (s : State) : Res :=
  always t s fun s =>
    let s := resetTo 0 false vbatHeld s
    { s with hif := { s.hif with compat := compatLow }, boot := { s.boot with low := false } }

/-- RESET_N from where the device stands: source 3 from the stranded state, else source 1. (DESIGN CHOICE, log 8) -/
def resetN (s : State) : State := resetTo (if s.power.st == 6 then 3 else 1) true true s

/-- RESET_N held low: below 1 µs it is filtered, and below 10 µs it may or may not be a reset (R495). In a last gasp it takes
effect at the gasp's end; after a trip, once the junction is below +100 °C (R524); a device without supply ignores it.
(DESIGN CHOICE, log 50; DESIGN CHOICE, log 53) -/
def resetAssert (lowNs : Nat) (s : State) : State :=
  let takes := decide (10000 ≤ lowNs) || (decide (1000 ≤ lowNs) && Config.shortResetTakes lowNs)
  if !takes || s.power.st == 7 then s
  else
    let s := { s with boot := { s.boot with low := true } }
    if s.power.gasp.isSome || (s.power.st == 6 && decide (1000 ≤ s.fab.tj)) then { s with boot := { s.boot with resetWaits := true } }
    else resetN s

def execResetNAssert (t lowNs : Nat) (s : State) : Res := always t s (resetAssert lowNs)

/-- RESET_N rises: COMPAT_N is sampled (R81, R496), and the stage limits run from here (R499). -/
def execResetNRelease (t : Nat) (compatLow : Bool) (s : State) : Res :=
  always t s fun s =>
    if s.boot.low then
      { s with boot := { s.boot with low := false }, hif := { s.hif with compat := compatLow }, bootAt := s.now }
    else s

/-- The junction temperature read, in tenths of a degree (R21); a RESET_N that waited for the junction to cool takes effect
(R524). (DESIGN CHOICE, log 53) -/
def junctionChange (tenths : Int) (s : State) : State :=
  let s := junctionTemp tenths s
  if s.boot.resetWaits && s.power.st == 6 && decide (tenths < 1000) then resetN s else s

/-- Above +125 °C the absolute maximum is passed, beyond which the manual gives no behaviour (R508). (DESIGN CHOICE, log 6) -/
def execJunctionTempChange (t : Nat) (tenths : Int) (s : State) : Res :=
  if 1250 < tenths then .fault .absoluteMaximum else alwaysF t s (junctionChange tenths)

/-- The end of a last gasp: a cold start, or the RESET_N that waited (R364, R495). (DESIGN CHOICE, log 50) -/
def gaspEnd (s : State) : State :=
  match s.power.gasp with
  | some t0 => if s.now < t0 + 4000000 then s else resetTo (if s.boot.resetWaits then 1 else 2) true true s
  | none => s

def execLastGaspEnd (t : Nat) (s : State) : Res := always t s gaspEnd

/-- The feed bus falls below 7.0 V: the always-on domain runs from VBAT, or with none the device is off and the always-on ring
and the RTC are lost (R364, R366, R494). -/
def busBelow (below vbat : Bool) (s : State) : State :=
  if !below || s.power.feedA.live || s.power.feedB.live || vbat then s
  else
    { s with
      reel := { s.reel with aon := [] }, time := { s.time with rtcValid := false }, cmds := [], hif := { s.hif with ready := false }
      power := { s.power with st := 7, gasp := none, entry := none, wake := none, failing := false }
      boot := { s.boot with gaspAt := none } }

def execFeedBusBelow7v (t : Nat) (below vbat : Bool) (s : State) : Res := always t s (busBelow below vbat)

/-! ## The PCI Express link (R429, R495) -/

/-- PCIE_PERST_N resets the endpoint only; its release is a wake source of Sleep and Deep Sleep (R377, R495). -/
def execPciePerst (t : Nat) (asserted : Bool) (s : State) : Res :=
  always t s fun s =>
    let s := { s with boot := { s.boot with perst := asserted } }
    if asserted then endpointReset s else wakeTrigger 6 s

/-- The link changes state: leaving L0 other than into L1, L2 or D3, and an uncorrectable AER error, detect HOST (R429). -/
def pcieChange (c : PcieChange) (s : State) : State :=
  let set (up : Bool) (l : Nat) (s : State) : State := { s with hif := { s.hif with pcieUp := up, pcieL := l } }
  match c with
  | .toL0 speed width =>
    if trains speed width then set true 0 { s with hif := { s.hif with pcieSpeed := speed, pcieWidth := width } } else s
  | .toL1 => set true 1 s
  | .toL2 => set true 2 s
  | .toD3 => set true 3 s
  | .lost => let s := set false s.hif.pcieL s; if awake s then raise 0x1800 0 [] s else s
  | .aerUncorrectable => if awake s then raise 0x1800 0 [] s else s

def execPcieLinkStateChange (t : Nat) (c : PcieChange) (s : State) : Res := alwaysF t s (pcieChange c)

/-! ## Boot stages (R499 to R506) -/

/-- A miss in W1 to W5 of stage B0 (R380, R500): WAKE_FAIL, and the rails are off until the repetition 1 s later; after the
eighth the device is stranded. -/
def bootMiss (k : Nat) (s : State) : State :=
  let p := s.power
  let r : RRec := { cls := 3, flags := recFlags s, source := 3 * 1024, code := 0x1081, time := recTime s
                    data := leN 1 k ++ leN 1 p.attempts ++ zeros 6 }
  let last := decide (8 ≤ p.attempts)
  let s := aonWrite r s
  { s with
    flt := { s.flt with stranded := last }
    power := { p with wake := none, failing := !last, failedStep := k, wakeAt := s.now, st := if last then 6 else p.st } }

/-- Stage B0 (R499, R500): a stack that did not train, or both after a miss of W6, is out of service, and each of its banks is
detected with CAUSE 3. (DESIGN CHOICE, log 53) -/
def bootB0 (r : BootReport) (s : State) : State :=
  let again := s.power.failing && s.power.wake.isNone
  if !(s.power.feedA.live || s.power.feedB.live) || again then s
  else match r.missed with
  | some k =>
    if k ≤ 5 then bootMiss k s else stacksDone k s
  | none => stacksDone 0 s
where
  /-- B0 done, but for the stacks. -/
  stacksDone (k : Nat) (s : State) : State :=
    let bad := (List.range 32).filter fun b => k == 6 || (if b < 16 then !r.stack0 else !r.stack1)
    let s := { s with
      store := { s.store with up := 2 ^ 32 - 1 }, boot := { s.boot with stage := 1 }
      power := { s.power with wake := none, failing := false } }
    forEach bad s fun b s => raise (0x2C00 + b) 3 [] (fenceBank b 3 s)

/-- The BOOT_IMAGE record (R503). `slot` is the slot chosen, none where no slot verifies. -/
def bootImage (slot : Option Nat) (copied : Bool) (s : State) : RRec :=
  let u := s.upd
  let tried := match slot with | some n => (bootOrder u).takeWhile (· != n) | none => bootOrder u
  let fail (n : Nat) : Nat := if tried.contains n then slotFail u n else 0
  let version := match slot with | some n => imgVersion (slotImage u n) | none => 0
  { cls := 7, flags := recFlags s, source := 4 * 1024, code := 0x1683, time := recTime s
    data := leN 1 (slot.getD 0xFF) ++ leN 1 (bitsOf ((List.range 3).map tried.contains)) ++ leN 1 (fail 0) ++ leN 1 (fail 1)
      ++ leN 1 (fail 2) ++ leN 1 s.boot.code ++ leN 1 (b2n copied) ++ zeros 1 ++ leN 4 version ++ zeros 8 }

/-- Stage B1 (R499, R501 to R503): the cores that pass, the trim store, where a record not yet written again still fails in both
copies, and the image. An activation that was pending counts as
a fallback with CAUSE 3 (R490). (DESIGN CHOICE, log 53) -/
def bootB1 (r : BootReport) (s : State) : State :=
  let s := { s with sched := { s.sched with coresUp := r.coresOk.toNat } }
  if r.coresOk == 0 then { s with flt := { s.flt with noService := true } }
  else
    let s := forEach (uniq (s.cal.bad ++ r.trimNone)) (forEach r.trimOne s trimRepair) trimFailed
    match bootSlot s.upd with
    | none => aonWrite (bootImage none false s) { s with boot := { s.boot with halted := true } }
    | some n =>
      let (u, copied) := bootLoad n s.upd
      let s := offerRec (bootImage (some n) copied s) { s with upd := u, boot := { s.boot with stage := 2 } }
      match s.upd.act with
      | some a =>
        let s := fallbackRecord a 3 n true s.bootAt s
        updEvent 3 a.slot 3 (epochNow s) a.version
          (modUpd (fun u => { u with act := none, pendingFlag := false, fallbacks := u.fallbacks + 1 }) s)
      | none => s

/-- The port of in-band service enabled at boot as a standard port (R506). -/
def bootInband (s : State) : State :=
  if !s.hif.inbEnabled then s
  else
    let s := modPort s.hif.inbPort (fun q => { q with enabled := true, speed := if q.cfg == 0xFF then 0 else q.cfg }) s
    applyRoles { s with hif := { s.hif with inband := true } }

/-- UNSAVED_INTERVAL where no final save stands (R397). `old` is metering as the reset found it. (DESIGN CHOICE, log 53) -/
def bootUnsaved (old : Meter) (bank7 : Bool) (s : State) : State :=
  if old.finalDone then s
  else match s.meter.newest.bind (kget? s.meter.slots) with
  | none => unsavedRecord old.circuits 0 1 s
  | some q => match s.boot.gaspAt with
    | some t0 => if bank7 then unsavedRecord old.circuits (t0 - q.time) 0 s
        else unsavedRecord old.circuits (s.meter.saveS * 1000000000) 1 s
    | none => unsavedRecord old.circuits (s.meter.saveS * 1000000000) 1 s

/-- Stage B2 (R499, R504, R506): Trelxa runs; READY. (DESIGN CHOICE, log 53) -/
def bootB2 (r : BootReport) (s : State) : State :=
  let meter := s.meter
  let tr : TTrig := { kind := 1, target := 0, action := 0, base := 0, policy := 1, at_ := 0, offset := 0, period := 1000000000
                      grace := 0, next := (s.now / 1000000000 + 1) * 1000000000 }
  let s := { s with
    meter := { meterBoot s.meter with lastSave := s.now }, cal := calBoot s.cal
    time := { s.time with rtcValid := s.time.rtcValid && r.rtcHeld, trigs := kset s.time.trigs 48 tr } }
  let s := aonCopy r.bank7Ok (bootUnsaved meter r.bank7Ok s)
  -- the weave kept in MRAM is put in force (R169, R504)
  let s := match s.weave.active with
    | some w => weaveInForce w { s with weave := { s.weave with active := none } }
    | none => s
  let s := bootInband s
  let lvl := if (skelMissing s).isSome then 0 else 1
  let (lo, hi) := vWindow s.place.profile
  let s := if lvl == s.fab.svcLevel then s else setInt 20 s
  let s := { s with
    fab := { s.fab with svcLevel := lvl, vcore := clampN lo hi s.fab.vcore }, flt := { s.flt with noService := lvl == 0 }
    hif := { s.hif with ready := true, readyEver := true }, boot := { s.boot with stage := 3, gaspAt := none } }
  -- what has no usable live record is calibrated (R454)
  let s := forEach (List.range 5) (readyEvent s) calStart
  if s.twin.enabled then twinStart s else s

/-- Stage B3 (R499, R500, R503): the frame store holds zero slots, the spindles that pass are in service, and the service level
is final. (DEDUCED, log 16; DESIGN CHOICE, log 53) -/
def bootB3 (r : BootReport) (s : State) : State :=
  let sp := (List.range 256).map fun i =>
    (i, ({ svc := if r.spindlesOk.getLsbD i then .up else .retired } : Spindle))
  let s := { s with
    sched := { s.sched with spindles := sp }, store := { s.store with words := [] }
    fab := { s.fab with svcFinal := true }, boot := { s.boot with stage := 4 } }
  setService (serviceOf s) (canariesWrite s)

/-- BOOT_STAGE_DONE: the stage that runs ends with what it found. -/
def bootStage (r : BootReport) (s : State) : State :=
  if s.boot.low || s.boot.halted || s.power.gasp.isSome || 3 ≤ s.power.st then s
  else match s.boot.stage with
  | 0 => bootB0 r s
  | 1 => bootB1 r s
  | 2 => bootB2 r s
  | 3 => bootB3 r s
  | _ => s

def execBootStageDone (t : Nat) (r : BootReport) (s : State) : Res := alwaysF t s (bootStage r)

end Sys2Proof.Machine
end

