-- ==== Sys2Proof/Machine/Faults.lean ====
section
/-! DEFINITION. The sticky registers (R430, R431), the FAULT commands (R447), and the collector's events: detections from
outside, quiet, lulls and return steps (R432, R438, R439). -/

namespace Sys2Proof.Machine

/-! ## Sticky bits (R430, R431) -/

/-- The sources of FLT_STICKY0, bit 0 first. -/
def sticky0 : List Nat :=
  [0x0400, 0x0401, 0x0402, 0x0403, 0x0404, 0x0C00, 0x0C01, 0x1408, 0x1800, 0x1C40, 0x3000, 0x4C00, 0x5000, 0x4000]

/-- The source of bit `j` of FLT_STICKY`k`. -/
def stickySource (k j : Nat) : Option Nat :=
  if 31 < j then none
  else if k == 0 then sticky0[j]?
  else if k ≤ 2 then some (0x1C00 + 32 * (k - 1) + j)
  else if k ≤ 10 then some (0x2800 + 32 * (k - 3) + j)
  else if k == 11 then some (0x2C00 + j)
  else if k == 12 then (if j < 8 then some (0x1400 + j) else if j < 12 then some (0x3C00 + j - 8) else none)
  else none

/-- FLT_STICKY`k` as it reads. -/
def stickyReg (s : State) (k : Nat) : U32 :=
  BitVec.ofNat 32 (bitsOf ((List.range 32).map fun j =>
    match stickySource k j with | some id => (srcOf s id).sticky | none => false))

/-- FLT_STICKY`k` written: each 1 clears its sticky bit and nothing else. -/
def stickyClear (k : Nat) (v : U32) (s : State) : State :=
  forEach (setBits 32 v.toNat) s fun j s =>
    match stickySource k j with
    | some id => { s with flt := { s.flt with srcs := kmod? s.flt.srcs id fun q => { q with sticky := false } } }
    | none => s

def execFltStickyClear (t k : Nat) (v : U32) (s : State) : Res := happens t s (stickyClear k v)

/-- The units held retired. -/
def heldCount (s : State) : Nat := (s.flt.srcs.filter fun e => e.2.held).length

/-- FLT_SUM. -/
def fltSum (s : State) : U32 :=
  BitVec.ofNat 32 ((inFault s).length * 65536 + 4 * b2n (decide (0 < heldCount s)) + 2 * b2n s.flt.safe + b2n (faultN s))

/-! ## The FAULT commands (R447) -/

/-- FAULT_STATUS. (DEDUCED, log 73) -/
def faultStatusBytes (s : State) : Bytes :=
  let l := s.flt.srcs.filter fun e => e.2.inFault || e.2.held
  leN 2 (inFault s).length ++ leN 1 (b2n s.flt.safe) ++ leN 1 (b2n (faultN s)) ++ leN 2 (heldCount s) ++ zeros 2
    ++ l.flatMap fun e => leN 2 e.1 ++ leN 1 (if e.2.inFault then 1 else 2) ++ leN 1 e.2.cause
      ++ leN 4 (match e.2.quietAt with | some a => min ((s.now - a) / 1000000) (2 ^ 32 - 1) | none => 0)

def execFaultStatus (t : Nat) (r : CmdRef) (s : State) : Res :=
  verb 0x1301 t r s fun c s => reply c (faultStatusBytes s) s

/-- The sources a FAULT_REACT_SET names: one, or with instance 0x3FF every unit of a kind. -/
def namedSources (id : Nat) : List Nat :=
  if srcExists id then [id]
  else if id % 1024 == 0x3FF then (List.range (unitCount (id / 1024))).map fun n => id / 1024 * 1024 + n
  else []

/-- FAULT_REACT_SET. -/
def faultReactSet (c : Cmd) (s : State) : State :=
  let p := c.payload
  let l := namedSources (field p 0 2)
  let react := field p 2 1
  let limit := if field p 3 1 == 0xFF then 8 else field p 3 1
  let lull := if field p 4 4 == 0 then 500 else field p 4 4
  if l.isEmpty then done c stNOTFOUND s
  else if 60000 < lull || (bit react 0 && !l.all isUnit) then done c stRANGE s
  else done c stOK (forEach l s fun id s => modSrc id (fun q => { q with react := some react, limit, lullMs := lull }) s)

def execFaultReactSet (t : Nat) (r : CmdRef) (s : State) : Res := verb 0x1302 t r s faultReactSet

def execFaultSafeSet (t : Nat) (r : CmdRef) (s : State) : Res :=
  verb 0x1303 t r s fun c s =>
    done c stOK { s with flt := { s.flt with black := BitVec.ofNat 64 (field c.payload 0 8) } }

/-- FAULT_COUNTERS. -/
def faultCounterBytes (s : State) (id : Nat) : Bytes :=
  let q := srcOf s id
  leN 4 q.detections.toNat ++ leN 4 q.entryCount.toNat ++ leN 4 q.recoveries.toNat ++ leN 8 q.lastEntry.toNat
    ++ leN 4 q.lullMs ++ leN 1 (reactOf s id) ++ leN 1 q.limit ++ zeros 6

def execFaultCounters (t : Nat) (r : CmdRef) (s : State) : Res :=
  verb 0x1304 t r s fun c s =>
    let id := field c.payload 0 2
    if srcExists id then reply c (faultCounterBytes s id) s else done c stNOTFOUND s

/-- FAULT_RETURN (R440): the hold is released; the return step runs at once where the source has left the fault state,
and otherwise at the end of its lull. -/
def faultReturn (c : Cmd) (s : State) : State :=
  let id := field c.payload 0 2
  if !srcExists id then done c stNOTFOUND s
  else if !(srcOf s id).held then done c stSTATE s
  else
    let s := done c stACCEPTED (modSrc id (fun q => { q with held := false, released := true, entries := 0 }) s)
    if (srcOf s id).inFault then s else returnStart id s

def execFaultReturn (t : Nat) (r : CmdRef) (s : State) : Res := verbF 0x1305 t r s faultReturn

/-- FAULT_INJECT: one detection with CAUSE 0xFF. -/
def faultInject (c : Cmd) (s : State) : State :=
  let id := field c.payload 0 2
  if !srcExists id then done c stNOTFOUND s
  else if !keyAuthority c then done c stDENIED s
  else raise id 0xFF [] (done c stOK s)

def execFaultInject (t : Nat) (r : CmdRef) (s : State) : Res := verbF 0x1306 t r s faultInject

/-! ## Events -/

/-- A detection of a source by the unit that can fail, with its measured values (R429). A stack interface's error is one of all
16 banks of its stack (R131, R138). (DESIGN CHOICE, log 58) -/
def execFaultDetection (t source cause : Nat) (values : List Int) (s : State) : Res :=
  occurs t s fun s =>
    if !srcExists source then s
    else if source / 1024 == 11 && cause == 3 then
      forEach (List.range 16) s fun i s => raise (0x2C00 + source % 32 / 16 * 16 + i) 3 values s
    else raise source cause values s

/-- Trelxa has not refreshed its health word for 5 ms (R429). -/
def execHealthWordTimeout (t : Nat) (s : State) : Res := occurs t s fun s => raise 0x1408 0 [5] s

/-- The quiet condition of a source outside the state holds from this instant (R429, R438). -/
def execFaultSourceQuiet (t source : Nat) (s : State) : Res :=
  occurs t s fun s => { s with flt := { s.flt with srcs := kmod? s.flt.srcs source fun q => { q with ok := true } } }

def execLullExpiry (t source : Nat) (s : State) : Res := occurs t s (lullEnd source)

def execReturnStepDone (t source : Nat) (ok : Bool) (s : State) : Res := occurs t s (returnDone source ok)

end Sys2Proof.Machine
end

