-- ==== Sys2Proof/Machine/Fixtures.lean ====
section
/-! DEFINITION. The FIX commands (R332), keepalive packets (R323), DMX frames (R327), RDM (R328, R329) and Stream_Terminated
packets (R325). -/

namespace Sys2Proof.Machine

/-! ## Outputs (R316, R325, R332) -/

/-- `v`, or the default where it is 0. (DESIGN CHOICE, log 47) -/
def orDefault (v d : Nat) : Nat := if v == 0 then d else v

/-- The definition a FIX_OUTPUT_DEFINE carries, with its defaults. (DESIGN CHOICE, log 47) -/
def outDefOf (p : Bytes) : OutDef :=
  let fl := field p 3 1
  let dmx := isDmx (field p 0 2)
  { port := field p 2 1, keep := bit fl 0, align := bit fl 2, rdm := bit fl 3, univ := field p 4 2, slots := field p 6 2
    dest := BitVec.ofNat 32 (beNat (bytesAt p 8 4)), prio := orDefault (field p 12 1) 100, rate := orDefault (field p 13 1) 44
    sync := field p 14 2, base := field p 16 2
    breakUs := if dmx then orDefault (field p 18 2) 176 else 0, mabUs := if dmx then orDefault (field p 20 2) 16 else 0
    gapUs := field p 22 1 }

/-- A definition breaks a range of R316, R323 or R326, or a field that does not apply is not 0. -/
def outDefBad (s : State) (p : Bytes) : Bool :=
  let o := field p 0 2
  let d := outDefOf p
  let univs := (s.fix.outs.filter fun e => e.1 != o && !isDmx e.1).map fun e => e.2.d.univ
  let bases := ((s.fix.outs.filter fun e => e.1 != o).map fun e => e.2.d.base) ++ [d.base]
  decide (63999 < d.base) || decide (4096 < inputUnivs s.ing.maps bases) ||
  (if isDmx o then
    decide (4103 < o) || d.port != 0 || d.univ != 0 || decide (d.slots < 24) || decide (512 < d.slots) || d.dest != 0
      || field p 12 1 != 0 || field p 13 1 != 0 || d.sync != 0 || decide (d.breakUs < 92) || decide (1000 < d.breakUs)
      || decide (d.mabUs < 12) || decide (1000 < d.mabUs) || decide (100 < d.gapUs)
  else
    decide (63 < d.port) || d.univ == 0 || decide (63999 < d.univ) || d.slots == 0 || decide (512 < d.slots)
      || decide (200 < d.prio) || decide (44 < d.rate) || decide (63999 < d.sync) || field p 18 2 != 0 || field p 20 2 != 0
      || d.gapUs != 0 || d.align || d.rdm || univs.contains d.univ)

/-- The drain of an output that is disabled or redefined starts (R192, R325). -/
def outDrainStart (o : Nat) (s : State) : State :=
  let s := if isDmx o then drainStart 2 (o - 4096) s else drainStart 3 o s
  if outIdle s o then outDrained o s else s

/-- FIX_OUTPUT_DEFINE. -/
def outputDefine (c : Cmd) (s : State) : State :=
  let p := c.payload
  let o := field p 0 2
  if 4103 < o then done c stRANGE s
  else if bit (field p 3 1) 1 then
    match outOf s o with
    | none => done c stOK s
    | some q =>
      if q.redef.isSome then done c stSTATE s
      else outDrainStart o (park c (modOut o (fun q => { q with redef := some none, ref := some c.ref }) s))
  else if outDefBad s p then done c stRANGE s
  else if !isDmx o && (portOf s (field p 2 1)).role != 1 then done c stSTATE s
  else
    let d := outDefOf p
    match outOf s o with
    | some q =>
      if q.redef.isSome then done c stSTATE s
      else outDrainStart o (park c (modOut o (fun q => { q with redef := some (some d), ref := some c.ref }) s))
    | none =>
      let s := { s with fix := { s.fix with outs := kset s.fix.outs o { d := d, st := 0 } } }
      let s := if isDmx o then modDmx (o - 4096) (fun _ => {}) s else s
      done c stOK (outsFill (outState o (startState s o d) s))

def execFixOutputDefine (t : Nat) (r : CmdRef) (s : State) : Res := verb 0x0E01 t r s outputDefine

/-- A redefined output starts under its new definition at a frame boundary (R325). -/
def outsRedefine (s : State) : State :=
  forEach (s.fix.outs.filter fun e => outSettled s e.1 e.2) s fun e s => outRedefine e.1 s

/-- One Stream_Terminated packet, of three 10 ms apart; then the output stops, or waits for the boundary (R325). -/
def streamTerminated (o : Nat) (s : State) : State :=
  match outOf s o with
  | none => s
  | some q =>
    if q.terms == 0 || s.now < q.termAt then s
    else
      let s := sacnPacket o true s
      let s := modOut o (fun q => { q with terms := q.terms - 1, termAt := q.termAt + 10000000 }) s
      if q.terms != 1 then s
      else
        let s := outState o 0 s
        if q.redef == some none || !modeOn s then outRedefine o s else s

def execStreamTerminatedSend (t out : Nat) (s : State) : Res := happens t s (streamTerminated out)

/-- A keepalive packet: 800 ms after an output's last packet. With no mode in force it also carries a change, and the
packets that follow one, at the output's rate (R323). -/
def sacnKeepalive (o : Nat) (s : State) : State :=
  match outOf s o with
  | none => s
  | some q =>
    if isDmx o || !outSends q then s
    else if !modeOn s && outWants q then (if rateOk s q then sacnSyncs (sacnEpoch o s) else s)
    else match q.lastAt with
      | some a => if a + 800000000 ≤ s.now then
          (if modeOn s then sacnPacket o false s else sacnSyncs (sacnPacket o false s)) else s
      | none => s

def execSacnKeepalive (t out : Nat) (s : State) : Res := happens t s (sacnKeepalive out)

/-! ## Fixtures (R317, R319, R322, R330) -/

/-- The definition of the `i`-th record of a FIX_FIXTURE_DEFINE. -/
def fixDefOf (p : Bytes) (o : Nat) : FixDef :=
  { out := field p (o + 4) 2, first := field p (o + 6) 2, layout := field p (o + 8) 1, bits := field p (o + 9) 1
    nch := field p (o + 10) 1, layer := field p (o + 11) 1, x := field p (o + 12) 4, y := field p (o + 16) 4
    w := field p (o + 20) 2, h := field p (o + 22) 2, dim := sfield p (o + 24) 4, transfer := field p (o + 28) 1
    gamma := field p (o + 30) 2 }

/-- The first field of a definition that breaks a range, as its offset in the record. -/
def fixDefBad (s : State) (d : FixDef) : Option Nat :=
  let region := d.layout != 4
  let q := outOf s d.out
  let slots := match q with | some q => q.d.slots | none => 512
  let l : List (Nat × Bool) :=
    [(4, decide (4103 < d.out)), (6, d.first == 0), (8, decide (4 < d.layout)), (9, d.bits != 8 && d.bits != 16),
     (10, !region && (d.nch == 0 || decide (32 < d.nch))),
     (6, decide (slots < d.first + fixSlots d - 1)), (11, region && decide (15 < d.layer)),
     (20, region && (d.w * d.h == 0 || decide (256 < d.w * d.h))), (28, decide (1 < d.transfer)),
     (30, d.transfer == 1 && (decide (d.gamma < 1000) || decide (4000 < d.gamma)))]
  (l.find? (·.2)).map (·.1)

/-- The definitions with those that wait taken in. -/
def fixDefs (s : State) (pend : List (Nat × Option FixDef)) : KMap FixDef :=
  pend.foldl (fun m e => match e.2 with | some d => kset m e.1 d | none => kerase m e.1)
    (kmap s.fix.fixtures fun _ f => f.d)

/-- Two footprints of one output overlap. -/
def footOverlap (a b : FixDef) : Bool :=
  a.out == b.out && decide (a.first < b.first + fixSlots b) && decide (b.first < a.first + fixSlots a)

/-- The pixels a definition reads. -/
def fixPixels (d : FixDef) : Nat := if d.layout == 4 then 0 else d.w * d.h

/-- The records checked in order: the definitions that result, or a status with DETAIL. -/
def fixRecords (s : State) (p : Bytes) (n : Nat) : Except (Nat × Nat) (List (Nat × Option FixDef)) :=
  (List.range n).foldl (fun acc i => match acc with
    | .error e => .error e
    | .ok l =>
      let o := 8 + 32 * i
      let id := field p o 4
      if 131071 < id then .error (stRANGE, o)
      else if field p (o + 8) 1 == 0 then .ok (l ++ [(id, none)])
      else
        let d := fixDefOf p o
        match fixDefBad s d with
        | some k => .error (stRANGE, o + k)
        | none =>
          if (outOf s d.out).isNone then .error (stNOTFOUND, o + 4)
          else
            let others := (fixDefs s (s.fix.pendFix ++ l)).filter fun e => e.1 != id
            if others.any fun e => footOverlap e.2 d then .error (stRANGE, o + 6)
            else if 4194304 < (others.map fun e => fixPixels e.2).sum + fixPixels d then .error (stRANGE, o + 20)
            else .ok (l ++ [(id, some d)])) (.ok [])

/-- FIX_FIXTURE_DEFINE. -/
def fixtureDefine (c : Cmd) (s : State) : State :=
  let p := c.payload
  let n := field p 0 2
  if n == 0 || 127 < n then done c stRANGE s
  else match fixRecords s p n with
  | .error e => complete c e.1 e.2 [] s
  | .ok l =>
    let s := { s with fix := { s.fix with pendFix := s.fix.pendFix ++ l } }
    done c stOK (if modeOn s then s else fixNow s)

def execFixFixtureDefine (t : Nat) (r : CmdRef) (s : State) : Res := verb 0x0E02 t r s fixtureDefine

/-- The status of one entry of a FIX_SET: OK, RANGE, NOT_FOUND or STATE. -/
def fixEntry (s : State) (fixture ch v : Nat) : Nat :=
  if 131071 < fixture then stRANGE
  else match kget? (fixDefs s s.fix.pendFix) fixture with
  | none => stNOTFOUND
  | some d =>
    if d.layout != 4 then stSTATE
    else if d.nch ≤ ch || 2 ^ d.bits ≤ v then stRANGE else stOK

/-- FIX_SET. -/
def fixSet (c : Cmd) (s : State) : State :=
  let p := c.payload
  let n := field p 0 2
  let l := (List.range n).map fun i => (field p (8 + 8 * i) 4, field p (12 + 8 * i) 1, field p (14 + 8 * i) 2)
  if n == 0 || 511 < n then done c stRANGE s
  else match (l.map fun e => fixEntry s e.1 e.2.1 e.2.2).find? (· != stOK) with
  | some st => done c st s
  | none =>
    if modeOn s then
      if fixBobbin < s.fix.setq.length + n then done c stBUSY s
      else done c stOK { s with fix := { s.fix with setq := s.fix.setq ++ l } }
    else done c stOK (fixNow { s with fix := { s.fix with setq := l } })

def execFixSet (t : Nat) (r : CmdRef) (s : State) : Res := verb 0x0E03 t r s fixSet

/-- The status of one entry of a FIX_SAFE_SET, with its setting. -/
def safeEntry (s : State) (p : Bytes) (o : Nat) : Nat × Nat × Nat × List Nat :=
  let id := field p o 4
  let mode := field p (o + 4) 1
  let vals := (List.range 32).map fun i => field p (o + 8 + 2 * i) 2
  if 131071 < id || 2 < mode then (stRANGE, id, mode, vals)
  else match kget? s.fix.fixtures id with
  | none => (stNOTFOUND, id, mode, vals)
  | some f =>
    if mode == 2 && (vals.take (fixChannels f.d)).any (fun v => decide (2 ^ f.d.bits ≤ v)) then (stRANGE, id, mode, vals)
    else (stOK, id, mode, vals)

/-- FIX_SAFE_SET. -/
def fixSafeSet (c : Cmd) (s : State) : State :=
  let p := c.payload
  let n := field p 0 2
  let l := (List.range n).map fun i => safeEntry s p (8 + 72 * i)
  if n == 0 || 56 < n then done c stRANGE s
  else match l.find? (fun e => e.1 != stOK) with
  | some e => done c e.1 s
  | none => done c stOK { s with fix := { s.fix with fixtures := l.foldl (fun m e =>
      kmod? m e.2.1 fun f => { f with safeMode := e.2.2.1, safeVals := e.2.2.2 }) s.fix.fixtures } }

def execFixSafeSet (t : Nat) (r : CmdRef) (s : State) : Res := verb 0x0E04 t r s fixSafeSet

def execFixConfig (t : Nat) (r : CmdRef) (s : State) : Res :=
  verb 0x0E05 t r s fun c s =>
    let cid := bytesAt c.payload 0 16
    done c stOK { s with fix := { s.fix with cid := if cid.all (· == 0#8) then none else some cid } }

/-- The counters of an output (R332). -/
def fixCounterBytes (q : Output) : Bytes :=
  leN 8 q.packets.toNat ++ leN 4 q.skipped.toNat ++ leN 4 q.held.toNat ++ leN 4 q.rdmTx.toNat ++ leN 4 q.rdmTimeout.toNat
    ++ leN 4 q.rdmChecksum.toNat ++ leN 4 q.collisions.toNat

def execFixCounters (t : Nat) (r : CmdRef) (s : State) : Res :=
  verb 0x0E09 t r s fun c s =>
    let o := field c.payload 0 2
    if 4103 < o then done c stRANGE s
    else match outOf s o with
      | some q => reply c (fixCounterBytes q) s
      | none => reply c (zeros 32) s

/-! ## DMX frames (R327) -/

/-- A frame boundary falls at this instant. -/
def atBoundary (s : State) : Bool := modeOn s && boundaryOf s.mode.mode s.mode.phase (s.mode.n - 1) == s.now

/-- A DMX port starts a frame: back to back, or with ALIGN at a frame boundary (R327). The end of a draining port's frame
ends its drain (R325). A distaff keeps the line's driver off (R413). -/
def dmxFrameStart (p : Nat) (s : State) : State :=
  match outOf s (4096 + p) with
  | none => s
  | some q =>
    let d := dmxOf s p
    if q.redef.isSome then (if draining s 2 p && outIdle s (4096 + p) then outDrained (4096 + p) (dmxLatch p s) else s)
    else if !outsLive s || !outSends q || decide (s.now < d.endAt + 20000) || d.cur.isSome then s
    else if q.d.align && modeOn s && boundaryOf s.mode.mode s.mode.phase (s.mode.n - 1) != s.now then s
    else dmxStart p s

def execDmxFrameStart (t port : Nat) (s : State) : Res :=
  happens t s fun s => if port < 8 then dmxFrameStart port s else s

/-! ## RDM (R328, R329) -/

/-- The device's UID: its manufacturer identifier and its serial (R328). (DESIGN CHOICE, log 7) -/
def rdmUid : Nat := Config.rdmManufacturer.toNat * 2 ^ 32 + Config.serial.toNat

/-- An E1.20 packet. (PRESUMED, log 26) -/
def rdmPacket (uid : Nat) (tn : U8) (sub cc pid : Nat) (data : Bytes) : Bytes :=
  let b := beN 1 0xCC ++ beN 1 0x01 ++ beN 1 (24 + data.length) ++ beN 6 uid ++ beN 6 rdmUid ++ [tn] ++ beN 1 1 ++ beN 1 0
    ++ beN 2 sub ++ beN 1 cc ++ beN 2 pid ++ beN 1 data.length ++ data
  b ++ beN 2 ((b.map (·.toNat)).sum % 65536)

/-- The broadcast UID of every responder. -/
def rdmAll : Nat := 2 ^ 48 - 1

/-- A UID that names more than one responder: all, or all of one manufacturer. -/
def rdmBroadcast (uid : BitVec 48) : Bool := uid.toNat % 2 ^ 32 == 2 ^ 32 - 1

/-- The request of a transaction (R328, R329): DISC_UNIQUE_BRANCH is PID 1, DISC_MUTE 2, DISC_UN_MUTE 3. (PRESUMED, log 26) -/
def rdmRequest (tn : U8) (j : RdmJob) : Bytes :=
  match j with
  | .host _ uid cc pid sub data => rdmPacket uid.toNat tn sub cc pid data
  | .unmute => rdmPacket rdmAll tn 0 0x10 3 []
  | .muteKnown uid => rdmPacket uid.toNat tn 0 0x10 2 []
  | .branch lo hi => rdmPacket rdmAll tn 0 0x10 1 (beN 6 lo ++ beN 6 hi)
  | .muteNew uid _ _ => rdmPacket uid.toNat tn 0 0x10 2 []

/-- A transaction that expects no response. -/
def rdmSilent (j : RdmJob) : Bool :=
  match j with | .unmute => true | .host _ uid _ _ _ _ => rdmBroadcast uid | _ => false

/-- The time a request and the longest answer to it can take, in ns. -/
def rdmSpan (j : RdmJob) (len : Nat) : Nat :=
  188000 + 44000 * len + (if rdmSilent j then 0 else 2800000 + 188000 + 44000 * 257)

/-- The transaction a port would send next: a host's request first, then discovery. (DESIGN CHOICE, log 47) -/
def rdmNext (q : DmxPort) : Option (RdmJob × DmxPort) :=
  match q.queue with
  | j :: r => some (j, { q with queue := r })
  | [] => match q.disc with
    | some d => match d.todo with
      | j :: r => some (j, { q with disc := some { d with todo := r } })
      | [] => none
    | none => none

/-- RDM_DISCOVERY emitted at the end of a discovery (R329, R333). -/
def discEnd (p : Nat) (s : State) : State :=
  let q := dmxOf s p
  match q.disc with
  | some d =>
    if d.todo.isEmpty && q.cur.isNone then
      emit 0x0E02 (leN 1 p ++ zeros 1 ++ leN 2 q.uids.length ++ leN 2 d.added ++ leN 2 d.removed ++ leN 4 d.collisions)
        (modDmx p (fun q => { q with disc := none }) s)
    else s
  | none => s

/-- Steps put at the front of a discovery, with its counts changed. -/
def discPush (p : Nat) (l : List RdmJob) (f : Disc → Disc) (s : State) : State :=
  modDmx p (fun q => { q with disc := q.disc.map fun d => f { d with todo := l ++ d.todo } }) s

/-- A branch split in two (R329). (DESIGN CHOICE, log 47) -/
def splitBranch (lo hi : Nat) : List RdmJob :=
  if hi ≤ lo then [] else [.branch lo ((lo + hi) / 2), .branch ((lo + hi) / 2 + 1) hi]

/-- A transaction that has failed for good. -/
def rdmFailed (p : Nat) (j : RdmJob) (s : State) : State :=
  let s := modDmx p (fun q => { q with cur := none, tries := 0 }) s
  let s := match j with
    | .host r _ _ _ _ _ => finish r stTIMEOUT 0 [] s
    | .muteKnown uid => discPush p [] (fun d => { d with removed := d.removed + 1 })
        (modDmx p (fun q => { q with uids := q.uids.filter (· != uid) }) s)
    | .muteNew _ lo hi => discPush p (splitBranch lo hi) id s
    | .branch _ _ => s
    | .unmute => s
  discEnd p s

/-- One failure of the transaction in progress: it is sent again, up to 2 times (R328). (DESIGN CHOICE, log 47) -/
def rdmRetry (p : Nat) (j : RdmJob) (s : State) : State :=
  let q := dmxOf s p
  if q.tries < 3 then
    modDmx p (fun q => match j with
      | .host .. => { q with cur := none, queue := j :: q.queue }
      | _ => { q with cur := none, disc := q.disc.map fun d => { d with todo := j :: d.todo } }) s
  else rdmFailed p j s

/-- An RDM request placed between two DMX frames, never so that an aligned frame is late (R328). -/
def rdmSend (p : Nat) (s : State) : State :=
  match outOf s (4096 + p) with
  | none => s
  | some o =>
    let q := dmxOf s p
    match rdmNext q with
    | none => s
    | some (j, q') =>
      let pkt := rdmRequest q.tn j
      let late := o.d.align && modeOn s && decide (nextBoundary s < s.now + rdmSpan j pkt.length)
      if !outsLive s || !o.d.rdm || q.cur.isSome || q.rdmDone || s.now < q.endAt || late then s
      else
        let s := dmxLatch p s
        let s := modDmx p (fun q => { q' with
          open_ := q.open_, codeAt := q.codeAt, endAt := q.endAt, cur := some j, tries := q'.tries + 1, tn := q'.tn + 1
          reqEnd := s.now + 188000 + 44000 * pkt.length, rdmDone := true }) s
        let s := put (.rdm p pkt) (modOut (4096 + p) (fun o => { o with rdmTx := o.rdmTx + 1 }) s)
        if rdmSilent j then
          let s := modDmx p (fun q => { q with cur := none, tries := 0 }) s
          discEnd p (match j with | .host r _ _ _ _ _ => finish r stOK 0 [] s | _ => s)
        else s

def execRdmRequestSend (t port : Nat) (s : State) : Res :=
  happens t s fun s => if port < 8 then rdmSend port s else s

/-- A port has room for another UID: 256, and 2,048 in all. -/
def uidRoom (s : State) (p : Nat) : Bool :=
  decide ((dmxOf s p).uids.length < 256) && decide (((s.fix.dmx.map fun e => e.2.uids.length).sum) < 2048)

/-- A response (R328, R329). -/
def rdmResponse (p : Nat) (a : RdmAnswer) (s : State) : State :=
  let q := dmxOf s p
  match q.cur with
  | none => s
  | some j =>
    if q.reqEnd + 2800000 < s.now then s
    else
      let beyond (s : State) : State := modDmx p (fun q => { q with cur := none, tries := 0 }) s
      match j, a with
      | .host r _ _ _ _ _, .good ty data =>
        let d := data.take 231
        finish r stOK 0 (leN 1 ty ++ leN 1 d.length ++ zeros 2 ++ d) (beyond s)
      | .branch lo hi, .discovered uid =>
        if lo ≤ uid.toNat && uid.toNat ≤ hi then discPush p [.muteNew uid lo hi] id (beyond s)
        else discPush p (splitBranch lo hi) id (beyond s)
      | .branch lo hi, .badChecksum =>
        let s := modOut (4096 + p) (fun o => { o with collisions := o.collisions + 1 }) (beyond s)
        discEnd p (discPush p (splitBranch lo hi) (fun d => { d with collisions := d.collisions + 1 }) s)
      | .muteNew uid lo hi, .muted _ =>
        let known := q.uids.contains uid
        let s := beyond s
        let s := if !known && uidRoom s p then
            discPush p [] (fun d => { d with added := d.added + 1 }) (modDmx p (fun q => { q with uids := q.uids ++ [uid] }) s)
          else s
        discPush p [.branch lo hi] id s
      | .muteKnown _, .muted _ => discEnd p (beyond s)
      | _, _ => rdmRetry p j (modOut (4096 + p) (fun o => { o with rdmChecksum := o.rdmChecksum + 1 }) s)

def execRdmResponse (t port : Nat) (a : RdmAnswer) (s : State) : Res :=
  happens t s fun s => if port < 8 then rdmResponse port a s else s

/-- No response has begun within 2.8 ms: a branch holds no responder; any other request has failed (R328, R329). -/
def rdmTimeout (p : Nat) (s : State) : State :=
  let q := dmxOf s p
  match q.cur with
  | none => s
  | some j =>
    if s.now < q.reqEnd + 2800000 then s
    else match j with
      | .branch _ _ => discEnd p (modDmx p (fun q => { q with cur := none, tries := 0 }) s)
      | _ => rdmRetry p j (modOut (4096 + p) (fun o => { o with rdmTimeout := o.rdmTimeout + 1 }) s)

def execRdmResponseTimeout (t port : Nat) (s : State) : Res :=
  happens t s fun s => if port < 8 then rdmTimeout port s else s

/-- A DMX port runs RDM: it is defined with RDM, and no drain of it is in progress. -/
def rdmOn (s : State) (p : Nat) : Bool :=
  match outOf s (4096 + p) with | some o => o.d.rdm && o.redef.isNone | none => false

/-- FIX_RDM. -/
def fixRdm (c : Cmd) (s : State) : State :=
  let p := c.payload
  let port := field p 0 1
  let cc := field p 1 1
  let pdl := field p 12 1
  if 7 < port || (cc != 0x20 && cc != 0x30) || 231 < pdl then done c stRANGE s
  else if !rdmOn s port then done c stSTATE s
  else if 16 ≤ ((dmxOf s port).queue.length + (match (dmxOf s port).cur with | some (.host ..) => 1 | _ => 0)) then
    done c stBUSY s
  else
    let j : RdmJob := .host c.ref (BitVec.ofNat 48 (field p 4 6)) cc (field p 2 2) (field p 10 2) (bytesAt p 16 pdl)
    modDmx port (fun q => { q with queue := q.queue ++ [j] }) (park c s)

def execFixRdm (t : Nat) (r : CmdRef) (s : State) : Res := verb 0x0E06 t r s fixRdm

/-- FIX_RDM_DISCOVER: the known UIDs are muted again, and then the whole range is searched; a full discovery un-mutes
every responder first. -/
def fixDiscover (c : Cmd) (s : State) : State :=
  let port := field c.payload 0 1
  let full := field c.payload 1 1
  if 7 < port || 1 < full then done c stRANGE s
  else if !rdmOn s port || (dmxOf s port).disc.isSome then done c stSTATE s
  else
    let q := dmxOf s port
    let todo := (if full == 1 then [RdmJob.unmute] else []) ++ q.uids.map RdmJob.muteKnown ++ [.branch 0 (rdmAll - 1)]
    done c stACCEPTED (modDmx port (fun q => { q with disc := some { todo := todo } }) s)

def execFixRdmDiscover (t : Nat) (r : CmdRef) (s : State) : Res := verb 0x0E07 t r s fixDiscover

def execFixRdmUids (t : Nat) (r : CmdRef) (s : State) : Res :=
  verb 0x0E08 t r s fun c s =>
    let port := field c.payload 0 1
    let l := (dmxOf s port).uids
    if 7 < port then done c stRANGE s
    else
      let out := (l.drop (field c.payload 2 2)).take 256
      reply c (leN 2 out.length ++ leN 2 l.length ++ out.flatMap fun u => leN 6 u.toNat) s

end Sys2Proof.Machine
end

