-- ==== Sys2Proof/Machine/Frames.lean ====
section
/-! DEFINITION. The frame boundary (R202 to R216): the commit, the mode change, placements, Calm, and the start of a weave with
its hank tokens (R176 to R181); the completion of a pixel and a hank; drains that expire (R191, R192); and the end of an
enumeration. -/

namespace Sys2Proof.Machine

/-! ## Hank tokens (R176 to R178, R180) -/

/-- A tile that a shed step skips in an epoch (R92). -/
def shedSkips (s : State) (r : TileRec) (e : U32) : Bool :=
  if r.low && shedOn s 3 then e.toNat % 2 == 1
  else shedOn s 4 && r.pos % 2 == e.toNat % 2

/-- A tile that the weave of an epoch serves: a weave is in force, no shed step skips it, its correction is not missing, and its spindle
bank and the bank of its woven copy are in service (R102, R178). (DESIGN CHOICE, log 39) -/
def tileWoven (s : State) (r : TileRec) (e : U32) : Bool :=
  s.weave.active.isSome && !shedSkips s r e && !corrMissing s r.tile
    && (match bankOfKey s (wordKey 0 r.chain (e.toNat % 2) 0) with | some b => bankUp s b | none => false)
    && (match bankOfTile s r with | some b => sbankUp s b | none => false)

/-- The pixels of a hank (R176). (DESIGN CHOICE, log 63) -/
def hankPx (profile : Nat) : Nat := if profile == 3 then 16 else 64

/-- The tokens of a tile in index order. (DESIGN CHOICE, log 63) -/
def tileTokens (profile : Nat) (e : U32) (r : TileRec) : List Hank :=
  let n := hankPx profile
  (List.range ((tilePx r + n - 1) / n)).map fun i =>
    { tile := r.tile, epoch := e, first := n * i, count := min n (tilePx r - n * i) }

/-- The tokens of a run: its tiles in the order their skeins leave the port (R177). (DESIGN CHOICE, log 63) -/
def runTokens (s : State) (w : WallImg) (e : U32) (q : RunP) : List Hank :=
  let tiles := (chainTiles w q.chain).filter fun r => decide (q.first ≤ r.pos) && decide (r.pos ≤ q.last) && tileWoven s r e
  let k := match chainOf w q.chain with | some c => splitOf s c | none => 0
  let a := tiles.filter fun r => decide (r.pos ≤ k)
  let b := (tiles.filter fun r => decide (k < r.pos)).reverse
  (a ++ b).flatMap (tileTokens s.place.profile e)

/-- Lists taken in turn, one element from each, until none is left. (DESIGN CHOICE, log 63) -/
def inTurn {α : Type} : Nat → List (List α) → List α
  | 0, _ => []
  | n + 1, ls => ls.filterMap List.head? ++ inTurn n (ls.map List.tail)

/-- The tokens a bank receives for an epoch, in the seeder's order (R177). (DESIGN CHOICE, log 63) -/
def bankTokens (s : State) (w : WallImg) (e : U32) (b : Nat) : List Hank :=
  let ls := (s.place.inForce.runs.filter fun q => q.bank == b).map (runTokens s w e)
  inTurn (ls.foldl (fun m l => max m l.length) 0) ls

/-- The seeder takes the tokens of an epoch, with each bank's remaining ply-operations, and releases what has room
(R177, R180). -/
def seedEpoch (w : WallImg) (v : Weave) (e : U32) (s : State) : State :=
  let ops := plyOpsNow s v
  let banks := s.place.inForce.powered.filter (sbankUp s)
  let plan := banks.map fun b => (b, bankTokens s w e b)
  let s := { s with sched := { s.sched with banks := kmap s.sched.banks fun _ k => { k with seed := [], remaining := 0 } } }
  let s := forEach plan s fun p s =>
    modSb p.1 (fun k => { k with seed := p.2, remaining := ops * (p.2.map (·.count)).sum }) s
  forEach banks s seedFill

/-- The tokens of the epoch committed that are still queued are discarded and counted in STALE_HANKS; a spindle part-way
through a hank of it leaves it after its current pixel (R181). -/
def staleDiscard (s : State) : State :=
  let s := forEach (List.range 16) s fun b s =>
    let k := sbOf s b
    let pre := ((bankSpindles b).map fun i => (spOf s i).prefetch.length).sum
    if k.ready.isEmpty && k.seed.isEmpty && pre == 0 && k.remaining == 0 then s
    else modSb b (fun k => { k with ready := [], seed := [], remaining := 0
                                    stale := k.stale + BitVec.ofNat 32 (k.ready.length + pre) }) s
  { s with sched := { s.sched with spindles := kmap s.sched.spindles fun _ q =>
      { q with prefetch := [], hank := q.hank.filter fun h => decide (h.count ≤ q.done) } } }

/-! ## The commit (R204, R206) -/

/-- The COMMIT of the epoch being sent leaves this device: pixel service, no R443 silence, and the device controls its
chains. -/
def commitSent (s : State) : Bool := s.link.sending && s.fab.svcLevel == 2 && !s.flt.hushed && controls s

/-- MODE_CHANGED for the first epoch committed in a new mode (R206, R220). (DESIGN CHOICE, log 36) -/
def modeChanged (e : U32) (b : Nat) (s : State) : State :=
  if !s.mode.modeChangedDue then s
  else emit 0x0801 (leN 4 e.toNat ++ leN 1 s.mode.mode ++ zeros 3 ++ leN 8 b)
    { s with mode := { s.mode with modeChangedDue := false } }

/-- A pixel in progress as its epoch is committed is woven with that epoch's values; PIXEL_COMPLETE then ends it (R181).
(DEDUCED, log 34) -/
def lastPixels (s : State) : State :=
  match s.wall.active, s.weave.active with
  | some w, some v =>
    let slot := byteAt (leN 4 s.mode.slots.toNat) (s.mode.n % modeN s.mode.mode)
    forEach s.sched.spindles s fun e s =>
      match lastPx e.2 with
      | none => s
      | some l =>
        if l.woven.isSome then s
        else match tileOf w l.px.tile with
        | some r =>
          let px := l.px.first
          let (z, s) := weavePixel v { wall := w, tile := r, idx := px, base := slot.toNat % 16, black := bit slot.toNat 7 } s
          let key := wovenKey w r l.px.epoch px
          modSp e.1 (fun q => { q with last := some { l with woven := some (plyOpsNow s v, key) } })
            (storeWrite key (slotWord z.ply z.valid (z.poison || l.px.poison)) s)
        | none => modSp e.1 (fun q => { q with last := none }) s
  | _, _ => { s with sched := { s.sched with spindles := kmap s.sched.spindles fun _ q => { q with last := none } } }

/-- The epoch woven in the period that ends at `b` is committed (R204): its flip time where its COMMIT was sent, its predicted
power (R401), what is left of its weave (R181), and the pace loop's work (R19, R22, R24). (DESIGN CHOICE, log 36) -/
def commitEpoch (b : Nat) (s : State) : State :=
  let e := s.link.epoch
  let s := if commitSent s then
      { s with mode := { s.mode with lastFlip := BitVec.ofNat 64 b, lastFlipEpoch := e } } else s
  let s := capCommit (modeChanged e b s)
  let s := paceBoundary b s
  staleDiscard (lastPixels s)

/-! ## The mode change (R206, R207) -/

/-- The pending mode change whose boundary `b` has come: the generator switches, and epochs settle to a1, the first boundary
at least a period on; a change of slots alone settles none. (DEDUCED, log 35; DESIGN CHOICE, log 36) -/
def modeSwitch (b : Nat) (s : State) : State :=
  match s.mode.pending with
  | none => s
  | some m =>
    let s := { s with mode := { s.mode with pending := none, slots := m.slots, moved := true
                                            calmAuto := s.mode.calmAuto && modeN m.mode == 1 } }
    let s := match m.ref with | some r => finish r m.status m.detail [] s | none => s
    if m.mode == s.mode.mode && m.phase == s.mode.phase then s
    else
      let n := boundaryIdx m.mode m.phase (b + 1)
      let on := boundaryOf m.mode m.phase (n - 1) == b
      { s with
        mode := { s.mode with mode := m.mode, phase := m.phase, n, settle := some (if on then n else n + 1), modeChangedDue := true }
        time := { s.time with lockState := if s.time.lockState == 2 then 1 else s.time.lockState } }

/-- The first epoch that can be woven from this boundary on. (DEDUCED, log 35) -/
def firstWoven (s : State) : U32 :=
  match s.mode.settle with
  | some a => epochNow s + BitVec.ofNat 32 (a - s.mode.n + 1)
  | none => epochNow s

/-! ## Placement and changes timed to the boundary -/

/-- The placement that takes effect at this boundary, with the shed step of the same boundary (R23, R100, R103). A mode change's
takes effect with it; a time step puts off one that carries a mode, wall or profile change (R281), and Calm one that falls due
in it (R217). (DEDUCED, log 35) -/
def placeBoundary (switched stepped : Bool) (s : State) : State :=
  let e := firstWoven s
  let group := dueTriggers s.now switched s.place.triggers
  let waits := stepped && group.any fun q => q.cause == 0 || q.cause == 1 || q.cause == 7
  let due := !waits && !calmHolds s s.now && !group.isEmpty
  let s := shedBoundary e due s
  if due then placementInForce group e s else s

/-- What takes effect at every boundary of the mode in force: pace thresholds (R368), the ceiling (R21), TAKE's timeout and the
gate delay (R198), correction data (R139, R142), the tables of host planes (R49), speeds (R248, R266), and the sensors'
sub-frames (R311). (DESIGN CHOICE, log 33) -/
def boundarySettings (s : State) : State :=
  let s := match s.fab.pendTh with
    | some (a, b, c) => { s with fab := { s.fab with raiseTh := a, lowerTh := b, shedTh := c, pendTh := none } }
    | none => s
  let s := if s.fab.hotcap && !s.mode.calm && s.power.st == 0 then clampCeiling s else s
  let s := match s.sched.pendTake with
    | some (a, b) => { s with sched := { s.sched with takeUs := a, gateUs := b, pendTake := none } }
    | none => s
  let s := raisesAgain (speedsDue (planeTables (corrSwitchAll s)))
  let s := sensorsRead (sensorsLate s)
  { s with health := { s.health with probed := [] } }

/-! ## Calm, Doze and entries (R216, R218, R371, R381) -/

/-- B1 of a wake has come: the device leaves Calm, or weaves again after Doze, and WAKE carries the epoch to be committed at
B2. (DESIGN CHOICE, log 38) -/
def wakeBoundary (s : State) : State :=
  let s := match s.mode.wakeAt with
    | some b => if b ≤ s.now && s.power.wake.isNone then
        sendWake (epochNow s) { s with mode := { s.mode with calm := false, wakeAt := none } } else s
    | none => s
  let s := match s.power.resumeAt with
    | some b => if b ≤ s.now && s.power.wake.isNone && s.power.st == 0 then
        sendWake (epochNow s) { s with power := { s.power with resumeAt := none } } else s
    | none => s
  if s.power.sleepEnum && s.link.chains.all (fun e => e.2.phase == 0) then { s with power := { s.power with sleepEnum := false } }
  else s

/-- Step 3 of an entry, or the entry into Calm, at this boundary. -/
def entryAtBoundary (s : State) : State :=
  match s.power.entry with
  | some e => if e.passed then s else if e.dest == 1 then calmByPower e s else entryBoundary e s
  | none => s

/-! ## The start of a weave (R134, R161, R163, R177, R215) -/

/-- An epoch can be woven from this boundary: pixel service, and neither settling nor in Calm, Doze or an entry (R204). With no
wall it is an epoch of no pixels (R94), and with no weave in force one in which no tile is woven. (DESIGN CHOICE, log 33) -/
def canWeave (s : State) : Bool :=
  modeOn s && !notWoven s && s.power.st == 0 && s.fab.svcLevel == 2
    && (match s.power.entry with | some e => !e.passed | none => true)

/-- Δt of R161 in seconds, as a fraction: the time since the last weave began, and no more than a period. (DESIGN CHOICE, log 24) -/
def weaveDt (s : State) : Nat × Nat :=
  let m := s.mode.mode
  match s.mode.lastWeaveStart with
  | some a => (min ((s.now - a) * rateNum m) (rateDen m * 1000000000), 1000000000 * rateNum m)
  | none => (rateDen m, rateNum m)

/-- What was to take effect at the start of a weave does so, unless this epoch is one that is not woven because the device
settles or is in Calm or Doze (R209). -/
def dueActions (s : State) : State :=
  if notWoven s || s.power.st != 0 then planesDue false s
  else
    let s := match s.weave.pend with
      | some w => if s.weave.pendAt ≤ s.now then weaveInForce w s else s
      | none => s
    cuesHeld (planesDue true (paramsDue s))

/-- The front copies in force as a weave begins: REPEATED counts those woven before (R112). -/
def countVideos (w : WallImg) (s : State) : State :=
  if s.place.profile == 3 || s.weave.active.isNone then s
  else
    let ids := uniq ((w.srcs.filter fun q => q.kind == 0).map (·.source))
    forEach ids s fun id s => modVideo id (fun v =>
      if !v.hasFront then v
      else if v.woven then { v with cnt := { v.cnt with repeated := v.cnt.repeated + 1 } }
      else { v with woven := true }) s

/-- The wall whose pixels an epoch has: with none active, one of no pixels (R94). -/
def wallNow (s : State) : WallImg :=
  s.wall.active.getD { canvasW := 0, canvasH := 0, chains := [], tiles := [], srcs := [], crc := 0 }

/-- The first epoch woven under a weave is named by WEAVE_ACTIVE (R169). (DEDUCED, log 73) -/
def weaveNamed (e : U32) (s : State) : State :=
  match s.weave.active with
  | some v =>
    if s.weave.eventDue then
      weaveEvent v e { s with weave := { s.weave with eventDue := false, activeEpoch := e } }
    else s
  | none => s

/-- The weave of epoch `e` begins: its skeins, its tokens, and the pace loop (R18, R134, R177, R230). (DESIGN CHOICE, log 33) -/
def beginWeave (e : U32) (s : State) : State :=
  let w := wallNow s
  let s := weaveNamed e s
  let tiles := (wallTiles s).filter fun r => tileWoven s r e
  let skeins := tiles.flatMap fun r => match chainOf w r.chain with
    | some c => cutSkeins c.format s.place.profile r
    | none => []
  let s := { s with
    link := { s.link with
      skeins, epoch := e, commitAt := nextBoundary s, sending := true
      tiles := kmap s.link.tiles fun _ k => { k with acked := false, waitFrom := none, polled := false } }
    mode := { s.mode with weaving := true, lastWeaveStart := some s.now }
    health := { s.health with woven := s.health.defects } }
  let s := seedEpoch w (s.weave.active.getD { id := 0, nodes := [] }) e (countVideos w s)
  let s := if s.fab.hotcap then clampCeiling s else s
  weaveFinished { s with fab := { s.fab with frozen := false, lastEvalAt := s.now, weaveFinish := none } }

/-- The period that starts at this boundary weaves no epoch (R23, R204, R215). (DEDUCED, log 73) -/
def idlePeriod (s : State) : State :=
  { s with
    mode := { s.mode with weaving := false, lastWeaveStart := none, still := 0 }
    link := { s.link with sending := false, skeins := [] }
    fab := { s.fab with frozen := true, weaveFinish := none } }

/-- Automatic Calm, or that of the active a distaff follows, is due at this boundary (R216, R425). -/
def calmDue (s : State) : Bool :=
  if isDistaff s then s.mode.calmWanted
  else s.mode.calmAuto && decide (s.mode.stillFrames ≤ s.mode.still)

/-- Calm entered in place of the weave of this epoch, where no unit refuses (R216, R375). (DESIGN CHOICE, log 38) -/
def calmAttempt (s : State) : State :=
  match (if isDistaff s then none else entryRefuser 1 none s) with
  | some sub => refused sub 1 s
  | none => idlePeriod (calmEnter s)

/-- An action that falls due at the start of this weave, in Calm, wakes the device: a WEAVE_PARAM or an INGEST_PLANE_SUBMIT for
an epoch, or a load (R209, R217). (DESIGN CHOICE, log 38) -/
def actionWakes (s : State) : State :=
  let param := s.weave.params.any fun q => q.timed && paramDue s q
  let plane := s.ing.planes.any fun e => match e.2.sub with
    | some q => q.copied && q.timed && epochPassed s q.epoch
    | none => false
  if param || plane || (s.weave.pend.isSome && decide (s.weave.pendAt ≤ s.now)) then calmWake 6 s else s

/-- The start of a period: the ramps, loops and taps step, stillness is judged, and the epoch's weave begins, or Calm is entered
in its place (R120, R161, R163, R215, R216). `woven` says that the epoch before was woven. -/
def weaveStart (woven : Bool) (s : State) : State :=
  let s := basesApply (dueActions s)
  if !canWeave s then idlePeriod (capOff (epochNow s) (actionWakes s))
  else
    let s := univsApply (digestTake s)
    let e := epochNow s
    let dt := weaveDt s
    let s := tapsTaken <| tapStep (loopStep dt (rampStep dt (capBegin e woven s)))
    let still := if s.mode.moved then 0 else if woven then s.mode.still + 1 else 1
    let s := { s with mode := { s.mode with still, moved := false } }
    let s := if calmDue s then calmAttempt s else s
    if s.mode.calm then s else digestCapture e (beginWeave e s)

/-! ## FRAME_BOUNDARY (R203) -/

/-- TWIN_STATE of a switchover, with the first epoch this device commits (R420). (DESIGN CHOICE, log 57) -/
def announceDue (s : State) : State :=
  match s.twin.announce with
  | some cause =>
    if s.twin.pending.isSome || s.mode.calm || (s.mode.weaving && !commitSent s && !s.flt.hushed) then s
    else twinEvent cause (epochNow s) (modTwin (fun t => { t with announce := none }) s)
  | none => s

/-- What a boundary does once the counter has advanced. `switched` says that the mode changed here, `stepped` that TIME
stepped, `woven` that the epoch committed here was woven. (DESIGN CHOICE, log 33) -/
def boundaryWork (switched stepped woven : Bool) (s : State) : State :=
  let s := boundarySettings (placeBoundary switched stepped s)
  let s := sensorsCheck (serviceCheck true s)
  let s := if s.flt.releasePending then safeRelease (firstWoven s) s else s
  let s := outsRedefine (outsDrained s)
  let s := takeoverBoundary (drillCheck s)
  let s := entryAtBoundary (wakeBoundary s)
  let s := fixStart (weaveStart woven s)
  updBackDue (handover (epochNow s) (stepCheck s))

/-- The period that ends at a boundary is closed: its epoch is committed where one was woven (R204), and the frame counter and
the boundary's index advance (R203). (DESIGN CHOICE, log 33) -/
def periodEnd (s : State) : State :=
  let e := epochNow s
  let s := if s.mode.weaving then commitEpoch (nextBoundary s) s else s
  let s := fixCommit (drillSwap e (announceDue s))
  { s with mode := { s.mode with counter := s.mode.counter + 1, n := s.mode.n + 1 } }

/-- A boundary of the mode in force. (DESIGN CHOICE, log 33) -/
def boundary (s : State) : State :=
  let s := timedWork s
  let b := nextBoundary s
  let woven := s.mode.weaving
  let s := periodEnd s
  let stepped := match s.time.stepAt with | some a => decide (a ≤ b) | none => false
  let switches := !stepped && (match s.mode.pending with | some m => decide (m.bc ≤ b) | none => false)
  let s := if stepped then timeStep s
    else
      let s := if switches then modeSwitch b s else s
      -- the settling epochs end with the boundary a1
      let s := { s with mode := { s.mode with settle := s.mode.settle.filter fun a => decide (s.mode.n ≤ a) } }
      mirror s
  boundaryWork switches stepped woven s

/-- The generator starts at the first boundary of the first mode (R205, R206). -/
def generatorStart (m : ModePend) (s : State) : State :=
  let s := { s with mode := { s.mode with counter := s.mode.counter + 1 } }
  boundaryWork true false false (mirror (modeSwitch m.bc s))

/-- The instant of the boundary that is due by `t`, or `t` where none is. (DESIGN CHOICE, log 33) -/
def boundaryInstant (t : Nat) (s : State) : Nat :=
  if modeOn s then min t (nextBoundary s)
  else match s.mode.pending with | some m => min t m.bc | none => t

/-- FRAME_BOUNDARY: the next boundary, where it has come. (DESIGN CHOICE, log 33) -/
def frameBoundary (s : State) : State :=
  if modeOn s then (if s.now < nextBoundary s then s else boundary s)
  else match s.mode.pending with
    | some m => if s.now < m.bc then s else generatorStart m s
    | none => s

def execFrameBoundary (t : Nat) (s : State) : Res := occurs (boundaryInstant t s) s frameBoundary

/-! ## Pixels and hanks (R176, R180, R181, R437) -/

/-- A pixel of a tile whose PACK write is acknowledged for the epoch. -/
def pixelDone (s : State) (tile px : Nat) : Bool :=
  s.link.skeins.any fun k => k.tile == tile && k.acks.contains px

/-- One poisoned result that arose inside a spindle; the 16th within 1 s detects it (R437). (DEDUCED, log 34) -/
def spindlePoison (i : Nat) (s : State) : State :=
  let l := ((spOf s i).poisons.filter fun a => decide (s.now < a + 1000000000)) ++ [s.now]
  if 16 ≤ l.length then raise (0x2800 + i) 1 [l.length] (modSp i (fun q => { q with poisons := [] }) s)
  else modSp i (fun q => { q with poisons := l }) s

/-- A pixel woven: its slot written and acknowledged, the drive sums, the count of remaining ply-operations and the pace monitor
(R17, R166, R176, R180). A pixel woven a second time, after a hank was handed back, adds to no sum. (DEDUCED, log 34) -/
def weaveOne (w : WallImg) (v : Weave) (r : TileRec) (b px : Nat) (poison : Bool) (e : U32) (s : State) : State :=
  let again := pixelDone s r.tile px
  let slot := byteAt (leN 4 s.mode.slots.toNat) (s.mode.n % modeN s.mode.mode)
  let sums := s.weave.sums
  let (z, s) := weavePixel v { wall := w, tile := r, idx := px, base := slot.toNat % 16, black := bit slot.toNat 7 } s
  let s := if again then { s with weave := { s.weave with sums := sums } } else s
  let s := storeWrite (wovenKey w r e px) (slotWord z.ply z.valid (z.poison || poison)) s
  let s := if corrMissing s r.tile then withdrawTile r.tile s else pixelAcked r.tile px s
  let ops := plyOpsNow s v
  paceCount b ops (modSb b (fun k => { k with remaining := k.remaining - ops }) s)

/-- A spindle that has ended a hank, or the last pixel of one it had to leave, goes on to the next (R176, R181). (DEDUCED, log 34) -/
def hankEnded (i : Nat) (s : State) : State :=
  let s := modSp i (fun q => { q with hank := none, done := 0, last := none }) s
  if (spOf s i).draining then spindleOff i s else noteIdle (spBank i) (startHank i s)

/-- Pixel `px` of a hank is woven by spindle `i`, where the wall still has its tile. -/
def weaveHankPx (i px : Nat) (h : Hank) (internal : Bool) (s : State) : State :=
  match s.wall.active, s.weave.active with
  | some w, some v => match tileOf w h.tile with
    | some r => weaveOne w v r (spBank i) px (internal || h.poison) h.epoch s
    | none => s
  | _, _ => s

/-- The last pixel of a hank that the spindle had to leave completes (R181, R185): one whose epoch is committed has been woven
with that epoch's values, and counts in the pace monitor (R180). (DEDUCED, log 34) -/
def lastComplete (i : Nat) (l : LastPx) (internal : Bool) (s : State) : State :=
  let s := match l.woven with
    | some (ops, key) =>
      let s := paceCount (spBank i) ops s
      if internal then storeWrite key ((wordAt s key).data ||| BitVec.twoPow 64 55).toNat s else s
    | none => weaveHankPx i l.px.first l.px internal s
  hankEnded i (if internal then spindlePoison i s else s)

/-- PIXEL_COMPLETE. A pixel of the direct path that has not arrived is waited for (R179). (DEDUCED, log 34) -/
def pixelComplete (i : Nat) (internal : Bool) (s : State) : State :=
  let q := spOf s i
  match q.last, q.hank with
  | some l, _ => lastComplete i l internal s
  | none, none => s
  | none, some h =>
    let px := h.first + q.done
    if h.count ≤ q.done || !pixelArrived s h px then s
    else
      let s := weaveHankPx i px h internal s
      let s := modSp i (fun q => { q with done := q.done + 1, pxStart := s.now }) s
      if internal then spindlePoison i s else s

def execPixelComplete (t spindle : Nat) (internalPoison : Bool) (s : State) : Res :=
  occurs t s (pixelComplete spindle internalPoison)

/-- HANK_COMPLETE: the PACK write of the hank's last pixel is acknowledged. -/
def hankComplete (i : Nat) (s : State) : State :=
  let q := spOf s i
  match q.hank with
  | none => s
  | some h =>
    if q.done < h.count then s
    else hankEnded i (modSb (spBank i) (fun k => { k with hanks := k.hanks + 1 }) s)

def execHankComplete (t spindle : Nat) (s : State) : Res := occurs t s (hankComplete spindle)

/-- SPINDLE_STALL: the pixel a spindle computes has not completed within 10 µs, the time it waits for its input left out
(R437). (DEDUCED, log 34) -/
def spindleStall (i : Nat) (s : State) : State :=
  let q := spOf s i
  let late := decide (q.pxStart + 10000 ≤ s.now) && spUp s i
  let computes := match q.last, q.hank with
    | some _, _ => true
    | none, some h => decide (q.done < h.count) && pixelArrived s h (h.first + q.done)
    | none, none => false
  if late && computes then raise (0x2800 + i) 0 [] s else s

def execSpindleStall (t spindle : Nat) (s : State) : Res := occurs t s (spindleStall spindle)

/-! ## Drains that expire (R191, R192) -/

/-- The commands of every mailbox that were taken before a handover's drain began end ABORTED (R485). -/
def imageDrainEnd (d : Drain) (s : State) : State :=
  let left := s.cmds.filter fun c => match c.ref with
    | .mbx _ _ => decide (c.takenAt + 50000000 < d.expires) && s.upd.act.all (fun a => a.ref != some c.ref)
    | .cue _ _ => false
  let s := forEach left s fun c s => done c stABORTED s
  { s with sched := { s.sched with drains := s.sched.drains.filter fun q => q.function != imageDrain } }

/-- DRAIN_TIMEOUT: a drain that has expired. -/
def drainTimeout (function inst : Nat) (s : State) : State :=
  match s.sched.drains.find? (fun d => d.function == function && d.inst == inst) with
  | none => s
  | some d =>
    if s.now < d.expires then s
    else match function with
    | 0 => spindleOff inst s
    | 1 => portExpired inst s
    | 2 => outExpired (4096 + inst) s
    | 3 => outExpired inst s
    | 4 => radioExpired inst s
    | _ => imageDrainEnd d s
where
  /-- A port's drain expires: its queued frames are discarded, each counted, and it leaves service. -/
  portExpired (p : Nat) (s : State) : State :=
    let n := (portOf s p).queue.length
    let s := { s with sched := { s.sched with drains := s.sched.drains.map fun d =>
      if d.function == 1 && d.inst == p then { d with aborted := d.aborted + n } else d } }
    portOff p (modPort p (fun q => { q with queue := [] }) s)

def execDrainTimeout (t function inst : Nat) (s : State) : Res := occurs t s (drainTimeout function inst)

/-! ## The end of an enumeration (R242, R381) -/

/-- ENUMERATION_DONE. After a wake from Sleep the first epoch is woven once the last chain has been enumerated. -/
def enumerationDone (chain : Nat) (s : State) : State :=
  let s := sensorsCheck (enumDone chain s)
  if s.link.chains.all (fun e => e.2.phase == 0) then { s with power := { s.power with sleepEnum := false } } else s

def execEnumerationDone (t chain : Nat) (s : State) : Res := occurs t s (enumerationDone chain)

end Sys2Proof.Machine
end

