-- ==== Sys2Proof/Machine/Registers.lean ====
section
/-! DEFINITION. BAR0 (R55, R56): which offsets name a register, what each reads, a write of any register, and an access
that R79 calls a violation. -/

namespace Sys2Proof.Machine

/-! ## The map -/

/-- A register of mailbox `n`'s block exists at `o` within it (R60). -/
def mbxRegExists (s : State) (n o : Nat) : Bool := decide (o ≤ 0x24) && !mbxUnassigned n o s

/-- An offset names a register (R56, R57, R58, R60, R80, R270, R295, R382, R472). (DEDUCED, log 18) -/
def regExists (s : State) (off : Nat) : Bool :=
  off % 4 == 0 &&
  (decide (off ≤ 0x10)
   || (decide (0x100 ≤ off) && decide (off ≤ 0x11C))
   || (decide (0x400 ≤ off) && decide (off ≤ 0x7FF) && mbxRegExists s ((off - 0x400) / 64) ((off - 0x400) % 64))
   || (decide (0x800 ≤ off) && decide (off ≤ 0x834))
   || (decide (0x840 ≤ off) && decide (off ≤ 0x848))
   || (decide (0x1000 ≤ off) && decide (off ≤ 0x100C))
   || (decide (0x2000 ≤ off) && decide (off ≤ 0x201C) && off != 0x200C)
   || (decide (0x3000 ≤ off) && decide (off ≤ 0x3024))
   || (decide (0x4000 ≤ off) && decide (off ≤ 0x7FFF))
   || (decide (0x8000 ≤ off) && decide (off ≤ 0x802C))
   || (decide (0x9000 ≤ off) && decide (off ≤ 0x9FFF)))

/-! ## Reads -/

/-- The IDENT registers (R57). (DESIGN CHOICE, log 7) -/
def identReg (off : Nat) : Nat :=
  match off with
  | 0x00 => (Config.lot 0).toNat + 2 ^ 8 * (Config.lot 1).toNat + 2 ^ 16 * (Config.lot 2).toNat + 2 ^ 24 * (Config.lot 3).toNat
  | 0x04 => (Config.lot 4).toNat + 2 ^ 8 * (Config.lot 5).toNat
  | 0x08 => 2 ^ 24 * Config.stepping.toNat + 2 ^ 16 * Config.dieY.toNat + 2 ^ 8 * Config.dieX.toNat + Config.wafer.toNat
  | 0x0C => Config.serial.toNat
  | _ => 2 ^ 16 * 0x6430 + b2n Config.grade

/-- The HIF registers (R58). -/
def hifReg (s : State) (off : Nat) : Nat :=
  match off with
  | 0x100 => 4 * b2n s.hif.inband + 2 * b2n s.hif.compat + b2n s.hif.ready
  | 0x104 => s.hif.intStat.toNat
  | 0x108 => s.hif.intMask.toNat
  | 0x10C => s.hif.evtLost.toNat
  | 0x110 => s.hif.inbRx.toNat
  | 0x114 => s.hif.inbAuthFail.toNat
  | 0x118 => s.hif.inbReplay.toNat
  | _ => s.hif.inbDrop.toNat

/-- The registers of a mailbox's block (R60). -/
def mbxRegRead (s : State) (n o : Nat) : Nat :=
  let m := mbxOf s n
  match o with
  | 0x00 => m.cq.toNat % 2 ^ 32
  | 0x04 => m.cq.toNat / 2 ^ 32
  | 0x08 => m.rq.toNat % 2 ^ 32
  | 0x0C => m.rq.toNat / 2 ^ 32
  | 0x10 => 2 ^ 31 * b2n m.enable + m.size
  | 0x14 => m.tail.toNat
  | 0x18 => m.head.toNat
  | 0x1C => m.rtail.toNat
  | 0x20 => m.rhead.toNat
  | _ => 256 * b2n m.draining + (inFlight s n).length

/-- The PWR registers (R382). -/
def pwrReg (s : State) (off : Nat) : Nat :=
  let p := s.power
  match off with
  | 0x1000 => 2 ^ 26 * powerState s + 2 ^ 24 * p.carry + 2 ^ 22 * p.prio + 2 ^ 21 * b2n p.feedA.live + 2 ^ 20 * b2n p.feedA.low
      + 2 ^ 19 * b2n p.feedA.ov + 2 ^ 18 * b2n p.feedB.live + 2 ^ 17 * b2n p.feedB.low + 2 ^ 16 * b2n p.feedB.ov
      + 2 ^ 8 * p.refuser + cmpBits s
  | 0x1004 => 2 ^ 16 * feedVolts p.feedB + feedVolts p.feedA
  | 0x1008 => 2 ^ 16 * p.retFail + 2 ^ 8 * p.wakeCause + 16 * p.wakeFrom + p.wakeRetries
  | _ => p.dramFail.toNat

/-- FAB_PACE.SHED: 1 while a step waits for a boundary, 2 while one is applied (R32). -/
def shedField (s : State) : Nat := if s.fab.shedPending then 1 else if 0 < s.place.shed then 2 else 0

/-- FAB_SVC: the units in service and the level (R32). Scan-out and the time unit are never retired: the time unit and the
ports are in service from the end of stage B2, scan-out from the end of B3 (R499). (DEDUCED, log 16) -/
def fabSvc (s : State) : Nat :=
  let half (b : Nat) : Bool := (List.range 16).any fun i => bankUp s (16 * b + i)
  2 ^ 22 * b2n (timeUnitUp s && anyPort s) + 2 ^ 6 * bitsOf ((List.range 16).map (sbankUp s)) + 2 ^ 5 * b2n (scanOutUp s)
    + 2 ^ 4 * b2n (timeUnitUp s) + 8 * b2n (half 1) + 4 * b2n (half 0) + s.fab.svcLevel

/-- The FAB registers (R32, R33). -/
def fabReg (s : State) (off : Nat) : Nat :=
  match off with
  | 0x2000 => 2 ^ 30 * shedField s + 2 ^ 29 * b2n s.fab.hotcap + 2 ^ 16 * twos 12 s.fab.slack + s.fab.vcore
  | 0x2004 => s.fab.paceMiss.toNat
  | 0x2008 => fabSvc s
  | 0x2010 => s.fab.bobSel.toNat
  | 0x2014 => bobStat s
  | 0x2018 => bobCounter s (·.swallowed)
  | _ => bobCounter s (·.poisoned)

/-- The TIME registers (R295). -/
def timeReg (s : State) (off : Nat) : Nat :=
  let k := s.time
  match off with
  | 0x3000 => 2 ^ 16 * k.slavePort + 2 ^ 8 * k.ltcState + 16 * k.lockState + 8 * b2n k.rtcValid + 4 * b2n k.stepAt.isSome + k.state
  | 0x3004 => k.seq.toNat
  | 0x3008 => (epochNow s).toNat
  | 0x300C => s.mode.counter.toNat / 2 ^ 32
  | 0x3010 => s.mode.lastFlip.toNat % 2 ^ 32
  | 0x3014 => s.mode.lastFlip.toNat / 2 ^ 32
  | 0x3018 => s.mode.lastFlipEpoch.toNat
  | 0x301C => if k.slavePort == 0xFF then 0 else satSigned 32 k.offset
  | 0x3020 => min (holdAge s) (2 ^ 32 - 1)
  | _ => k.ltcTc.toNat

/-- MAC_SUM: bit `p` is 1 while port `p` has a HALF bit set (R270). -/
def macSum (s : State) : Nat := bitsOf ((List.range 64).map fun p => decide (0 < (portOf s p).half))

/-- The MAC registers of a port's block (R270). -/
def macReg (s : State) (p o : Nat) : Nat :=
  let q := portOf s p
  if o < 0xEC then kgetD q.cnt (o / 4) 0 % 2 ^ 32
  else match o with
  | 0xEC => q.half % 2 ^ 32
  | 0xF0 => q.half / 2 ^ 32
  | 0xF4 => pstat s p
  | 0xF8 => macSum s % 2 ^ 32
  | _ => macSum s / 2 ^ 32

/-- The REEL registers and the window (R472). -/
def reelReg (s : State) (off : Nat) : Nat :=
  let r := s.reel
  if 0x9000 ≤ off then field (r.window.getD ((off - 0x9000) / 256) []) ((off - 0x9000) % 256) 4
  else if 0x8010 ≤ off then (r.tallies.getD ((off - 0x8010) / 4) 0).toNat
  else match off with
  | 0x8000 => 2 ^ 31 * b2n r.loading + 2 ^ 30 * b2n r.tally + 2 ^ 24 * r.spares + r.squall.length
  | 0x8004 => r.cursor.toNat
  | 0x8008 => r.first.toNat
  | _ => r.next.toNat

/-- The state as the registers show it: in stage B0, before the units behind them are live, their Reset columns (R11, R505). -/
def shown (s : State) : State :=
  if s.boot.stage == 0 then
    { s with
      power := { s.power with feedA := {}, feedB := {}, carry := 3 }, fab := { s.fab with hotcap := false }
      reel := { s.reel with spares := 4, first := 0, next := 0, tally := false } }
  else s

/-- What a BAR0 register reads: `none` for an offset that names none. The table has no command for a read; a write's
effect on what is read is seen here. (DEDUCED, log 18) -/
def regRead (s : State) (off : Nat) : Option Nat :=
  if !regExists s off then none
  else if off < 0x100 then some (identReg off)
  else if off < 0x400 then some (hifReg s off)
  else if off < 0x800 then some (mbxRegRead s ((off - 0x400) / 64) ((off - 0x400) % 64))
  else if off < 0x834 then some (stickyReg s ((off - 0x800) / 4)).toNat
  else if off < 0x840 then some (fltSum s).toNat
  else if off < 0x1000 then
    some (if off == 0x840 then s.hif.violAddr.toNat else if off == 0x844 then s.hif.viol.toNat else s.hif.violCnt.toNat)
  else if off < 0x2000 then some (pwrReg (shown s) off)
  else if off < 0x3000 then some (fabReg (shown s) off)
  else if off < 0x4000 then some (timeReg s off)
  else if off < 0x8000 then some (macReg s ((off - 0x4000) / 256) ((off - 0x4000) % 256))
  else some (reelReg (shown s) off)

/-! ## Writes -/

/-- A ring address register of mailbox `n` written (R60, R61): bits 5:0 of a low half are reserved. -/
def ringAddrWrite (n o : Nat) (v : U32) (s : State) : State :=
  let m := mbxOf s n
  if m.enable || m.draining then barViolate (mbxReg n o) true s
  else
    let lo (a : U64) : U64 := (a &&& 0xFFFFFFFF00000000#64) ||| ((v &&& 0xFFFFFFC0#32).setWidth 64)
    let hi (a : U64) : U64 := (a &&& 0xFFFFFFFF#64) ||| ((v.setWidth 64) <<< 32)
    modMbx n (fun m => match o with
      | 0x00 => { m with cq := lo m.cq }
      | 0x04 => { m with cq := hi m.cq }
      | 0x08 => { m with rq := lo m.rq }
      | _ => { m with rq := hi m.rq }) s

/-- A register of mailbox `n`'s block written. -/
def mbxRegWrite (n o : Nat) (v : U32) (s : State) : State :=
  match o with
  | 0x00 => ringAddrWrite n o v s
  | 0x04 => ringAddrWrite n o v s
  | 0x08 => ringAddrWrite n o v s
  | 0x0C => ringAddrWrite n o v s
  | 0x10 => mbxCfgWrite n v s
  | 0x14 => mbxTailWrite n v.toNat s
  | 0x20 => mbxRheadSet n v.toNat s
  | _ => s

/-- The operand of REGISTER_WRITE at which BAR2 begins; below it an operand is an offset of BAR0. (PRESUMED, log 74) -/
def bar2Base : Nat := 0x100000000

/-- A BAR0 register written: an offset that names no register is a violation (R79); a read-only field keeps its value
(R9, R10); every other register acts as its own chapter says. From `bar2Base` on, a word of BAR2 (R54). -/
def regWrite (off : Nat) (v : U32) (s : State) : State :=
  if bar2Base ≤ off then bar2Write (off - bar2Base) v s
  else if !regExists s off then barViolate off true s
  else if off == 0x104 then intStatClear v s
  else if off == 0x108 then intMaskWrite v s
  else if 0x400 ≤ off && off < 0x800 then mbxRegWrite ((off - 0x400) / 64) ((off - 0x400) % 64) v s
  else if 0x800 ≤ off && off < 0x834 then stickyClear ((off - 0x800) / 4) v s
  else if off == 0x844 then violClear v s
  else if off == 0x2010 then { s with fab := { s.fab with bobSel := v.setWidth 16 } }
  else if off == 0x2014 then underrunClear v s
  else if 0x4000 ≤ off && off < 0x8000 then
    let p := (off - 0x4000) / 256
    match (off - 0x4000) % 256 with
    | 0xEC => halfClear p false v s
    | 0xF0 => halfClear p true v s
    | 0xF4 => tsOvfClear p v s
    | _ => s
  else if off == 0x8004 then cursorWrite v s
  else s

def execRegisterWrite (t off : Nat) (v : U32) (s : State) : Res := happens t s (regWrite off v)

/-- A BAR0 access that is not one aligned 32-bit access with every byte enabled, or that names no register (R55, R79). -/
def execBar0AccessViolation (t off : Nat) (write : Bool) (size be : Nat) (s : State) : Res :=
  happens t s fun s =>
    if size != 4 || off % 4 != 0 || be != 15 || !regExists s off then barViolate off write s else s

end Sys2Proof.Machine
end

