-- ==== Sys2Proof/Machine/Store.lean ====
section
/-! DEFINITION. The STORE commands (R145), correction data loaded, persisted and restored (R139 to R142, R498), the patrol
scrubber (R137) and the DRAM temperature (R132). -/

namespace Sys2Proof.Machine

/-! ## Correction data (R139 to R142) -/

/-- The active wall's record of a tile. -/
def activeTile (s : State) (tile : Nat) : Option TileRec :=
  match s.wall.active with | some w => tileOf w tile | none => none

/-- STORE_CORR_LOAD. -/
def corrLoad (c : Cmd) (s : State) : State :=
  let p := c.payload
  let tile := field p 0 2
  let record := field p 2 1
  if s.wall.active.isNone then done c stSTATE s
  else match activeTile s tile with
  | none => done c stNOTFOUND s
  | some r =>
    if 1 < record || field p 16 4 != 8 * corrWords record (tilePx r) || field p 8 8 % 8 != 0 then done c stRANGE s
    else if (corrOf s tile).load.isSome || (corrOf s tile).rest.isSome then done c stSTATE s
    else match corrBank s tile (field p 16 4) with
      | none => done c stSTATE s
      | some b => modCorr tile (fun k => { k with load := some { record, bank := b, ref := some c.ref } }) (park c s)

def execStoreCorrLoad (t : Nat) (r : CmdRef) (s : State) : Res := verbF 0x0601 t r s corrLoad

/-- A correction's bytes written as 64-bit words into a copy that is not in use. -/
def corrWrite (tile copy words : Nat) (data : Bytes) (s : State) : State :=
  forEach (List.range words) s fun i s => storeWrite (wordKey 2 tile copy i) (field data (8 * i) 8) s

/-- The switch to a complete copy: at the next boundary, at once with no mode in force (R139, R528). -/
def corrComplete (tile st : Nat) (s : State) : State :=
  let s := corrEvent tile st s
  if modeOn s then s else corrSwitchAll s

/-- The data of a load is in free space: its completion record, CORR_STATE 1 and the switch (R139). -/
def corrLoaded (tile : Nat) (data : Bytes) (s : State) : State :=
  match (corrOf s tile).load with
  | some p =>
    let s := corrWrite tile 1 (corrWords p.record (wallTilePx s tile)) data s
    let s := corrReady tile 1 p (modCorr tile (fun k => { k with load := none }) s)
    corrComplete tile 1 (match p.ref with | some c => finish c stOK 0 [] s | none => s)
  | none => s

def execCorrLoadDone (t tile : Nat) (data : Bytes) (s : State) : Res := occurs t s (corrLoaded tile data)

/-- A tile is the first in TILE order of those whose correction record meets `p`. -/
def firstTile (p : Corr → Bool) (tile : Nat) (s : State) : Bool :=
  (s.store.corr.find? fun e => p e.2).map (·.1) == some tile

/-- A restore has written its data (R139, R142). Restores run in TILE order: only the first can have. (DESIGN CHOICE, log 40) -/
def corrRestored (tile : Nat) (s : State) : State :=
  match (corrOf s tile).rest, kget? s.store.flash tile with
  | some p, some f =>
    if firstTile (fun k => k.rest.isSome) tile s then
      let s := corrWrite tile 2 (corrWords p.record f.px) f.data s
      corrComplete tile 2 (corrReady tile 2 p (modCorr tile (fun k => { k with rest := none }) s))
    else s
  | _, _ => s

def execCorrRestoreDone (t tile : Nat) (s : State) : Res := occurs t s (corrRestored tile)

/-- STORE_CORR_RESTORE. -/
def corrRestore (c : Cmd) (s : State) : State :=
  let tile := field c.payload 0 2
  let busy (t : Nat) : Bool := (corrOf s t).persisting || (corrOf s t).rest.isSome
  let l := if tile == 0xFFFF then (wallTiles s).map (·.tile) else if (activeTile s tile).isSome then [tile] else []
  if l.isEmpty then done c stNOTFOUND s
  else if l.any busy then done c stSTATE s
  else forEach l (done c stACCEPTED s) startRestore

def execStoreCorrRestore (t : Nat) (r : CmdRef) (s : State) : Res := verb 0x0603 t r s corrRestore

/-- STORE_CORR_PERSIST. -/
def corrPersist (c : Cmd) (s : State) : State :=
  let tile := field c.payload 0 2
  let mark (t : Nat) (s : State) : State := modCorr t (fun k => { k with persisting := true }) s
  if tile == 0xFFFF then
    let l := ((wallTiles s).map (·.tile)).filter fun t => (corrOf s t).present
    if s.wall.active.isNone then done c stNOTFOUND s
    else if s.store.corr.any (fun e => e.2.persisting || e.2.rest.isSome) then done c stSTATE s
    else forEach l (done c stACCEPTED s) mark
  else if (activeTile s tile).isNone then done c stNOTFOUND s
  else if !(corrOf s tile).present || (corrOf s tile).persisting || (corrOf s tile).rest.isSome then done c stSTATE s
  else mark tile (done c stACCEPTED s)

def execStoreCorrPersist (t : Nat) (r : CmdRef) (s : State) : Res := verb 0x0602 t r s corrPersist

/-- The units of 4,096 bytes in the correction store's data area: of a flash of 16 MiB, less 8 MiB and 128 KiB, 2,016 units, and
256 for every further MiB (R497, R498). (DESIGN CHOICE, log 7) -/
def flashUnits : Nat := 2016 + 256 * Config.flashExtraMib.val

/-- The lowest unit that begins a free run of `n`: after one of the copies, or at the start (R498). (DESIGN CHOICE, log 40) -/
def flashRoom (s : State) (n : Nat) : Option Nat :=
  let used := s.store.flash.map fun e => ((e.2.offset - 131072) / 4096, (e.2.data.length + 4095) / 4096)
  let cand := sortBy id (0 :: used.map fun u => u.1 + u.2)
  cand.find? fun a => decide (a + n ≤ flashUnits) && used.all fun u => decide (a + n ≤ u.1) || decide (u.1 + u.2 ≤ a)

/-- A tile's present correction as bytes, whether a word of it is uncorrectable, and the state after (R136). -/
def corrData (tile words : Nat) (s : State) : Bytes × Bool × State :=
  (List.range words).foldl (fun a i =>
    let (v, bad, s) := storeRead (wordKey 2 tile 0 i) a.2.2
    (a.1 ++ leN 8 v, a.2.1 || bad, s)) ([], false, s)

/-- A persist reaches a tile's turn: its copy is written (STATE 3), the store is full (STATE 5), or its correction has
become absent, by an error met as it is read too (STATE 0). Only the first tile in TILE order has its turn. (DESIGN CHOICE, log 40) -/
def corrPersisted (tile : Nat) (s : State) : State :=
  let k := corrOf s tile
  if !firstTile (fun k => k.persisting) tile s then s
  else
    let s := modCorr tile (fun k => { k with persisting := false }) s
    match activeTile s tile with
    | some r =>
      if !k.present then corrEvent tile 0 s
      else
        let (data, bad, s) := corrData tile (corrWords k.record (tilePx r)) s
        if bad then corrEvent tile 0 (corrLost tile s)
        else match flashRoom s ((data.length + 4095) / 4096) with
        | none => corrEvent tile 5 s
        | some u =>
          let f : FlashCorr := { px := tilePx r, record := k.record, data, crc := crc32 data, offset := 131072 + 4096 * u }
          corrEvent tile 3 { s with store := { s.store with flash := kset s.store.flash tile f } }
    | none => corrEvent tile 0 s

def execCorrPersistDone (t tile : Nat) (s : State) : Res := happens t s (corrPersisted tile)

/-! ## Scrubbing and injection (R136, R137, R145) -/

def execStoreScrubSet (t : Nat) (r : CmdRef) (s : State) : Res :=
  verb 0x0604 t r s fun c s =>
    let v := field c.payload 0 4
    if v < 10 || 3600 < v then done c stRANGE s else done c stOK { s with store := { s.store with scrubS := v } }

/-- A word holds a ply slot: a woven buffer, or a plane of a video or sACN source (R133). -/
def isSlot (key : Nat) : Bool :=
  match keyParts key with
  | (0, _, _, _) => true
  | (1, obj, _, _) => obj % 4 != 1
  | (3, _, _, _) => true
  | _ => false

/-- Bit errors that have grown in a word of a bank in service (R136, R138). -/
def errorsGrow (key err : Nat) (s : State) : State :=
  match bankOfKey s key with
  | some b =>
    if err == 0 || !bankUp s b then s
    else setWord key { wordAt s key with err := min 2 ((wordAt s key).err + err), injected := false } s
  | none => s

/-- A word scrubbed: read as R136 reads it; an uncorrectable slot is written back poisoned, and an uncorrectable correction
record makes its tile's correction absent. -/
def scrubWord (key : Nat) (s : State) : State :=
  let (v, bad, s) := storeRead key s
  let (kind, obj, copy, _) := keyParts key
  if !bad then s
  else if isSlot key then
    modBank ((bankOfKey s key).getD 0) (fun k => { k with poisonWb := k.poisonWb + 1 })
      (setWord key { data := BitVec.ofNat 64 (setBit v 55 true) } s)
  else if kind == 2 && copy == 0 then corrLost obj s
  else s

/-- One step of the patrol scrubber (R137): the next word, in address order, of a bank in service; the last ends the pass. A
pass begins no sooner than one scrub period after the one before. (DESIGN CHOICE, log 12) -/
def scrubStep (s : State) : State :=
  let here (key : Nat) : Bool := match bankOfKey s key with | some b => bankUp s b | none => false
  if s.store.scrubAt == 0 && decide (s.now < s.store.scrubFrom) then s
  else
    let s := if s.store.scrubAt == 0 then { s with store := { s.store with scrubFrom := s.now + 1000000000 * s.store.scrubS } } else s
    match s.store.words.find? (fun e => decide (s.store.scrubAt ≤ e.1) && here e.1) with
    | some e => scrubWord e.1 { s with store := { s.store with scrubAt := e.1 + 1 } }
    | none =>
      let s := forEach ((List.range 32).filter (bankUp s)) s fun b s => modBank b (fun k => { k with passes := k.passes + 1 }) s
      { s with store := { s.store with scrubAt := 0 } }

/-- SCRUB_STEP: the errors that have grown in word `key` since the step before, and the step. (DESIGN CHOICE, log 12) -/
def execScrubStep (t key err : Nat) (s : State) : Res := occurs t s fun s => scrubStep (errorsGrow key err s)

def execStoreInject (t : Nat) (r : CmdRef) (s : State) : Res :=
  verb 0x0607 t r s fun c s =>
    let b := field c.payload 0 1
    let n := field c.payload 1 1
    if 31 < b || n == 0 || 2 < n then done c stRANGE s
    else if !bankUp s b then done c stSTATE s
    else done c stOK (modBank b (fun k => { k with armed := k.armed ++ [n] }) s)

/-! ## Reading back (R145) -/

/-- A stack refreshes at twice the rate from +85 °C up (R132); temperatures are in 0.1 °C. -/
def fastRefresh (temp : Int) : Bool := decide (850 ≤ temp)

/-- STORE_STATUS. -/
def storeStatusBytes (s : State) : Bytes :=
  leN 4 s.store.up ++ leN 4 s.store.retired ++ leN 4 s.store.scrubS ++ leN 2 (twos 16 s.store.temp0)
    ++ leN 2 (twos 16 s.store.temp1) ++ leN 1 (b2n (fastRefresh s.store.temp0) + 2 * b2n (fastRefresh s.store.temp1)) ++ zeros 15
    ++ (List.range 32).flatMap fun b => leN 4 ((bankBufBytes s b + 1023) / 1024) ++ leN 4 ((corrBytes s b + 1023) / 1024)

def execStoreStatus (t : Nat) (r : CmdRef) (s : State) : Res :=
  verb 0x0605 t r s fun c s => reply c (storeStatusBytes s) s

def execStoreCounters (t : Nat) (r : CmdRef) (s : State) : Res :=
  verb 0x0606 t r s fun c s =>
    let b := field c.payload 0 1
    let k := kgetD s.store.banks b {}
    if 31 < b then done c stRANGE s
    else reply c (leN 8 k.ce.toNat ++ leN 4 k.ue.toNat ++ leN 4 k.hard.toNat ++ leN 4 k.passes.toNat
      ++ leN 4 k.canaryFail.toNat ++ leN 4 k.poisonWb.toNat ++ zeros 4) s

/-- A stack's DRAM temperature crosses +85 °C (R132). -/
def dramTemp (stack : Nat) (temp : Int) (s : State) : State :=
  if stack == 0 then { s with store := { s.store with temp0 := temp } } else { s with store := { s.store with temp1 := temp } }

def execDramTempCross (t stack : Nat) (temp : Int) (s : State) : Res := happens t s (dramTemp stack temp)

end Sys2Proof.Machine
end

