-- ==== Sys2Proof/Machine/Command.lean ====
section
/-! DEFINITION. The rest of the command path: commands taken from the rings and in-band (R62, R77, R78), responses
(R66, R67), opcodes the device does not implement (R68), SYS_IDENT (R71), and commands stopped before their decision point
by an abort, a deadline or a drain (R63, R73, R74). -/

namespace Sys2Proof.Machine

/-! ## Taking and answering -/

/-- A command taken from mailbox `n`'s ring: its entry and payload as read from host memory (R62, R64). -/
def takeFromRing (n : Nat) (entry payload : Bytes) (s : State) : State :=
  if mayTake n s then
    intake layoutOf n (padTo 64 entry) payload none (modMbx n (fun m => { m with head := m.head + 1 }) s)
  else s

def execCommandTake (t n : Nat) (entry payload : Bytes) (s : State) : Res :=
  happens t s (takeFromRing (n % 16) entry payload)

/-- An in-band datagram received on its port (R77, R78). -/
def execInbandDatagram (t : Nat) (d : Datagram) (s : State) : Res :=
  happens t s fun s => rxGate 1 d.port (udpLen d.payload.length) (castOfIp d.dstIp) none false false s (inbandDatagram layoutOf d)

/-- The frame size of a port, 9,216 bytes with its 18 bytes of MAC header and FCS, bounds an in-band response (R259, R78). -/
def execResponseWrite (t n : Nat) (s : State) : Res := happens t s (responseWrite 9198 (n % 16))

/-- A command whose opcode the device does not implement ends UNSUPPORTED (R68). -/
def unsupportedCmd (r : CmdRef) (s : State) : State :=
  match findCmd r s with
  | some c => if c.core.isSome && (layoutOf c.opcode c.payload).isNone then done c stUNSUPPORTED s else s
  | none => s

def execUnsupported (t : Nat) (r : CmdRef) (s : State) : Res := happens t s (unsupportedCmd r)

/-- The three version bytes of the running image (R71, R479). -/
def runVersion (s : State) : Bytes := bytesAt (runImage s) 8 3

/-- SYS_IDENT's response (R71). (DESIGN CHOICE, log 7) -/
def identBytes (s : State) : Bytes :=
  ([0, 1, 2, 3, 4, 5].map Config.lot) ++ [Config.wafer, Config.dieX, Config.dieY, Config.stepping]
    ++ leN 1 (b2n Config.grade) ++ zeros 1 ++ leN 4 Config.serial.toNat ++ leN 2 0x6430 ++ leN 1 s.upd.running ++ zeros 1
    ++ runVersion s ++ zeros 9

def execSysIdent (t : Nat) (r : CmdRef) (s : State) : Res := verb 0x0001 t r s fun c s => reply c (identBytes s) s

/-! ## What a stopped command leaves (R73) -/

/-- A pending mode change withdrawn with its placement trigger: the mode in force stands and no PLACED follows (R208). (DEDUCED, log 14) -/
def modeDiscard (r : CmdRef) (s : State) : State :=
  match s.mode.pending with
  | some m =>
    if m.ref == some r then
      { s with mode := { s.mode with pending := none }
               place := { s.place with triggers := s.place.triggers.filter fun q => !(q.cause == 7 && q.at_ + 8000000 == m.bc) } }
    else s
  | none => s

/-- A plane submission dropped: its back copy is discarded and the front copy stands (R127). (DEDUCED, log 14) -/
def planeDiscard (r : CmdRef) (s : State) : State :=
  { s with ing := { s.ing with planes := kmap s.ing.planes fun _ v =>
      if (match v.sub with | some q => q.ref == r | none => false) then { v with sub := none } else v } }

/-- A correction load dropped before its completion record; the space it frees serves restores that wait (R139, R142). (DEDUCED, log 14) -/
def corrDiscard (r : CmdRef) (s : State) : State :=
  forEach (s.store.corr.filter fun e => match e.2.load with | some p => p.ref == some r | none => false) s fun e s =>
    retryRestores (dropObject 2 e.1 1 (modCorr e.1 (fun k => { k with load := none }) s))

/-- A weave in build and the WEAVE_PARAMs that wait are dropped; the weave in force stands (R169, R172). (DEDUCED, log 14) -/
def weaveDiscard (r : CmdRef) (s : State) : State :=
  { s with weave := { s.weave with
      building := match s.weave.building with | some (q, w) => if q == r then none else some (q, w) | none => none
      params := s.weave.params.filter fun q => q.ref != r } }

/-- A port's or a radio's disable, or an output's redefinition, is called off and its drain ends. (DEDUCED, log 14) -/
def drainDiscard (r : CmdRef) (s : State) : State :=
  let s := forEach (s.link.ports.filter fun e => e.2.off == some r) s fun e s =>
    drainEnd 1 e.1 (modPort e.1 (fun q => { q with off := none, enabled := true }) s)
  let s := forEach (s.fix.outs.filter fun e => e.2.ref == some r) s fun e s =>
    drainEnd (if isDmx e.1 then 2 else 3) (if isDmx e.1 then e.1 - 4096 else e.1)
      (modOut e.1 (fun q => { q with redef := none, ref := none }) s)
  forEach (s.air.radios.filter fun e => e.2.ref == some r) s fun e s =>
    drainEnd 4 e.1 (modRadio e.1 (fun q => { q with st := 1, ref := none }) s)

/-- An RDM request dropped from its port, queued or in progress. (DEDUCED, log 14) -/
def rdmDiscard (r : CmdRef) (s : State) : State :=
  let mine (j : RdmJob) : Bool := match j with | .host q _ _ _ _ _ => q == r | _ => false
  { s with fix := { s.fix with dmx := kmap s.fix.dmx fun _ p =>
      { p with queue := p.queue.filter (fun j => !mine j), cur := p.cur.filter (fun j => !mine j) } } }

/-- A node's message dropped from its queue; the one in flight is no longer reported. (DEDUCED, log 14) -/
def airDiscard (r : CmdRef) (s : State) : State :=
  { s with air := { s.air with nodes := kmap s.air.nodes fun _ q =>
      { q with queue := q.queue.filter (fun m => m.1 != r)
               down := q.down.map fun d => if d.ref == some r then { d with ref := none } else d } } }

/-- A METER_CLEAR is undone; a POWER_ENTER's entry into Calm is called off (R371). (DEDUCED, log 14) -/
def restDiscard (r : CmdRef) (s : State) : State :=
  let s := clearUndo r s
  if (match s.power.entry with | some e => e.ref == some r | none => false) then
    { s with power := { s.power with entry := none }, mode := { s.mode with wakeLatch := none } }
  else s

/-- What the command under `r` has started and not completed is discarded (R73). (DEDUCED, log 14) -/
def discard (r : CmdRef) (s : State) : State :=
  restDiscard r (airDiscard r (rdmDiscard r (drainDiscard r (weaveDiscard r (corrDiscard r
    (planeDiscard r (modeDiscard r s)))))))

/-- A command in flight stopped with a status: its outputs are discarded, an activation's load is cancelled (R486). (DEDUCED, log 14) -/
def stopCmd (r : CmdRef) (status : Nat) (s : State) : State :=
  if updLoading s && (match s.upd.act with | some a => a.ref == some r | none => false) then updCancel status 0 6 s
  else finish r status 0 [] (discard r s)

/-! ## Abort, deadline, drain -/

/-- The record that the command under `r` has just left waits for that of mailbox `n`'s command `tag` (R73). -/
def recordAfter (r : CmdRef) (n tag : Nat) (s : State) : State :=
  match r with
  | .mbx m own => modMbx m (fun q => { q with recs := q.recs.map fun x =>
      if x.tag == own && x.opcode == 0x0101 then { x with after := some (n, tag) } else x }) s
  | .cue _ _ => s

/-- MBX_ABORT: a command in flight other than itself ends ABORTED, its record before the abort's (R73). -/
def mbxAbort (c : Cmd) (s : State) : State :=
  let n := field c.payload 0 1
  let tag := field c.payload 2 2
  let target : CmdRef := .mbx n tag
  if target == c.ref then done c stNOTFOUND s
  else if (findCmd target s).isSome then
    recordAfter c.ref n tag (done c stOK (stopCmd target stABORTED s))
  else match kget? (mbxOf s n).tags tag with
  | some u => done c (if s.now < u then stALREADY else stNOTFOUND) s
  | none => done c stNOTFOUND s

def execMbxAbort (t : Nat) (r : CmdRef) (s : State) : Res := verb 0x0101 t r s mbxAbort

/-- A command's deadline passes before its completion record is written (R74). -/
def deadlinePasses (r : CmdRef) (s : State) : State :=
  match findCmd r s with
  | some c => match c.deadline with
    | some d => if d ≤ s.now then stopCmd r stTIMEOUT s else s
    | none => s
  | none => s

def execCommandDeadline (t : Nat) (r : CmdRef) (s : State) : Res := happens t s (deadlinePasses r)

/-- The drain of mailbox `n` expires: what still runs ends ABORTED (R63). -/
def mbxDrainExpire (n : Nat) (s : State) : State :=
  match s.sched.drains.find? (fun d => d.function == 0xFF && d.inst == n) with
  | none => s
  | some d =>
    if s.now < d.expires then s
    else
      let l := inFlight s n
      let s := forEach l s fun c s => stopCmd c.ref stABORTED s
      mbxDrainEnd n { s with sched := { s.sched with drains := s.sched.drains.map fun q =>
        if q.function == 0xFF && q.inst == n then { q with aborted := q.aborted + l.length } else q } }

def execMailboxDrainTimeout (t n : Nat) (s : State) : Res := happens t s (mbxDrainExpire (n % 16))

end Sys2Proof.Machine
end

