-- ==== Sys2Proof/Machine/Dispatch.lean ====
section
/-! DEFINITION. Which meaning each command and event of the table has: one arm per constructor. -/

namespace Sys2Proof.Machine

def exec (i : Instr) (s : State) : Host.Outcome State Fault Refusal :=
  match i with
  | .powerOn t vbatHeld compatLow => Sys2Proof.Machine.execPowerOn t vbatHeld compatLow s
  | .resetNAssert t lowNs => Sys2Proof.Machine.execResetNAssert t lowNs s
  | .pciePerst t asserted => Sys2Proof.Machine.execPciePerst t asserted s
  | .pcieLinkStateChange t c => Sys2Proof.Machine.execPcieLinkStateChange t c s
  | .bootStageDone t r => Sys2Proof.Machine.execBootStageDone t r s
  | .mbxTailDoorbell t n v => Sys2Proof.Machine.execMbxTailDoorbell t n v s
  | .mbxRheadWrite t n v => Sys2Proof.Machine.execMbxRheadWrite t n v s
  | .mbxEnable t n v => Sys2Proof.Machine.execMbxEnable t n v s
  | .mbxDisable t n v => Sys2Proof.Machine.execMbxDisable t n v s
  | .hifIntMaskWrite t v => Sys2Proof.Machine.execHifIntMaskWrite t v s
  | .hifIntStatClear t v => Sys2Proof.Machine.execHifIntStatClear t v s
  | .fltViolClear t v => Sys2Proof.Machine.execFltViolClear t v s
  | .fltStickyClear t k v => Sys2Proof.Machine.execFltStickyClear t k v s
  | .macHalfClear t port hi v => Sys2Proof.Machine.execMacHalfClear t port hi v s
  | .tsOvfClear t port v => Sys2Proof.Machine.execTsOvfClear t port v s
  | .underrunClear t v => Sys2Proof.Machine.execUnderrunClear t v s
  | .reelCursorWrite t v => Sys2Proof.Machine.execReelCursorWrite t v s
  | .reelWindowLoadDone t => Sys2Proof.Machine.execReelWindowLoadDone t s
  | .registerWrite t off v => Sys2Proof.Machine.execRegisterWrite t off v s
  | .bar0AccessViolation t off write size be => Sys2Proof.Machine.execBar0AccessViolation t off write size be s
  | .commandTake t n entry payload => Sys2Proof.Machine.execCommandTake t n entry payload s
  | .unsupported t r => Sys2Proof.Machine.execUnsupported t r s
  | .threadDispatch t core => Sys2Proof.Machine.execThreadDispatch t core s
  | .threadQuantumExpiry t core => Sys2Proof.Machine.execThreadQuantumExpiry t core s
  | .classFloorWindow t timedNs commandNs backgroundNs => Sys2Proof.Machine.execClassFloorWindow t timedNs commandNs backgroundNs s
  | .responseWrite t n => Sys2Proof.Machine.execResponseWrite t n s
  | .eventWrite t => Sys2Proof.Machine.execEventWrite t s
  | .commandDeadline t r => Sys2Proof.Machine.execCommandDeadline t r s
  | .mailboxDrainTimeout t n => Sys2Proof.Machine.execMailboxDrainTimeout t n s
  | .tagMemoryExpiry t n tag => Sys2Proof.Machine.execTagMemoryExpiry t n tag s
  | .inbandDatagram t d => Sys2Proof.Machine.execInbandDatagram t d s
  | .sysNop t r => Sys2Proof.Machine.execSysNop t r s
  | .sysIdent t r => Sys2Proof.Machine.execSysIdent t r s
  | .mbxAbort t r => Sys2Proof.Machine.execMbxAbort t r s
  | .mbxInbandSet t r => Sys2Proof.Machine.execMbxInbandSet t r s
  | .mbxKeySet t r => Sys2Proof.Machine.execMbxKeySet t r s
  | .wallDefine t r => Sys2Proof.Machine.execWallDefine t r s
  | .wallActivate t r => Sys2Proof.Machine.execWallActivate t r s
  | .wallStatus t r => Sys2Proof.Machine.execWallStatus t r s
  | .placeProfile t r => Sys2Proof.Machine.execPlaceProfile t r s
  | .placePin t r => Sys2Proof.Machine.execPlacePin t r s
  | .placeUnpin t r => Sys2Proof.Machine.execPlaceUnpin t r s
  | .placeReport t r => Sys2Proof.Machine.execPlaceReport t r s
  | .weaveLoad t r => Sys2Proof.Machine.execWeaveLoad t r s
  | .weaveTable t r => Sys2Proof.Machine.execWeaveTable t r s
  | .weaveParam t r => Sys2Proof.Machine.execWeaveParam t r s
  | .weaveStatus t r => Sys2Proof.Machine.execWeaveStatus t r s
  | .weaveCounters t r => Sys2Proof.Machine.execWeaveCounters t r s
  | .ingestVideoDefine t r => Sys2Proof.Machine.execIngestVideoDefine t r s
  | .ingestAudioDefine t r => Sys2Proof.Machine.execIngestAudioDefine t r s
  | .ingestTapDefine t r => Sys2Proof.Machine.execIngestTapDefine t r s
  | .ingestSacnMapDefine t r => Sys2Proof.Machine.execIngestSacnMapDefine t r s
  | .ingestPlaneDefine t r => Sys2Proof.Machine.execIngestPlaneDefine t r s
  | .ingestPlaneSubmit t r => Sys2Proof.Machine.execIngestPlaneSubmit t r s
  | .planeCopyDone t source image => Sys2Proof.Machine.execPlaneCopyDone t source image s
  | .ingestRemove t r => Sys2Proof.Machine.execIngestRemove t r s
  | .ingestCounters t r => Sys2Proof.Machine.execIngestCounters t r s
  | .ingestTapRead t r => Sys2Proof.Machine.execIngestTapRead t r s
  | .storeCorrLoad t r => Sys2Proof.Machine.execStoreCorrLoad t r s
  | .storeCorrPersist t r => Sys2Proof.Machine.execStoreCorrPersist t r s
  | .corrPersistDone t tile => Sys2Proof.Machine.execCorrPersistDone t tile s
  | .storeCorrRestore t r => Sys2Proof.Machine.execStoreCorrRestore t r s
  | .corrRestoreDone t tile => Sys2Proof.Machine.execCorrRestoreDone t tile s
  | .storeScrubSet t r => Sys2Proof.Machine.execStoreScrubSet t r s
  | .storeStatus t r => Sys2Proof.Machine.execStoreStatus t r s
  | .storeCounters t r => Sys2Proof.Machine.execStoreCounters t r s
  | .storeInject t r => Sys2Proof.Machine.execStoreInject t r s
  | .scrubStep t key err => Sys2Proof.Machine.execScrubStep t key err s
  | .dramTempCross t stack temp => Sys2Proof.Machine.execDramTempCross t stack temp s
  | .schedStatus t r => Sys2Proof.Machine.execSchedStatus t r s
  | .schedCounters t r => Sys2Proof.Machine.execSchedCounters t r s
  | .schedTakeSet t r => Sys2Proof.Machine.execSchedTakeSet t r s
  | .schedSpindle t r => Sys2Proof.Machine.execSchedSpindle t r s
  | .schedDrainSet t r => Sys2Proof.Machine.execSchedDrainSet t r s
  | .schedClassSet t r => Sys2Proof.Machine.execSchedClassSet t r s
  | .schedThreads t r => Sys2Proof.Machine.execSchedThreads t r s
  | .drainTimeout t function inst => Sys2Proof.Machine.execDrainTimeout t function inst s
  | .modeSet t r => Sys2Proof.Machine.execModeSet t r s
  | .modeStatus t r => Sys2Proof.Machine.execModeStatus t r s
  | .modeCalmSet t r => Sys2Proof.Machine.execModeCalmSet t r s
  | .modeCalmExit t r => Sys2Proof.Machine.execModeCalmExit t r s
  | .linkStatus t r => Sys2Proof.Machine.execLinkStatus t r s
  | .linkEnum t r => Sys2Proof.Machine.execLinkEnum t r s
  | .linkTile t r => Sys2Proof.Machine.execLinkTile t r s
  | .linkCounters t r => Sys2Proof.Machine.execLinkCounters t r s
  | .linkGenSet t r => Sys2Proof.Machine.execLinkGenSet t r s
  | .portConfig t r => Sys2Proof.Machine.execPortConfig t r s
  | .portStatus t r => Sys2Proof.Machine.execPortStatus t r s
  | .portCounters t r => Sys2Proof.Machine.execPortCounters t r s
  | .timePtpSet t r => Sys2Proof.Machine.execTimePtpSet t r s
  | .timePtpPort t r => Sys2Proof.Machine.execTimePtpPort t r s
  | .timeStatus t r => Sys2Proof.Machine.execTimeStatus t r s
  | .timeLock t r => Sys2Proof.Machine.execTimeLock t r s
  | .timeTrigger t r => Sys2Proof.Machine.execTimeTrigger t r s
  | .timeLtcSet t r => Sys2Proof.Machine.execTimeLtcSet t r s
  | .timeRtcSet t r => Sys2Proof.Machine.execTimeRtcSet t r s
  | .cueSchedule t r => Sys2Proof.Machine.execCueSchedule t r s
  | .cueCancel t r => Sys2Proof.Machine.execCueCancel t r s
  | .cueStatus t r => Sys2Proof.Machine.execCueStatus t r s
  | .healthProbeSet t r => Sys2Proof.Machine.execHealthProbeSet t r s
  | .healthDefectRead t r => Sys2Proof.Machine.execHealthDefectRead t r s
  | .healthDefectClear t r => Sys2Proof.Machine.execHealthDefectClear t r s
  | .healthThermalSet t r => Sys2Proof.Machine.execHealthThermalSet t r s
  | .healthTile t r => Sys2Proof.Machine.execHealthTile t r s
  | .healthZoneSet t r => Sys2Proof.Machine.execHealthZoneSet t r s
  | .healthSensorDefine t r => Sys2Proof.Machine.execHealthSensorDefine t r s
  | .healthSensorReference t r => Sys2Proof.Machine.execHealthSensorReference t r s
  | .healthZoneRead t r => Sys2Proof.Machine.execHealthZoneRead t r s
  | .healthSensorRead t r => Sys2Proof.Machine.execHealthSensorRead t r s
  | .fixOutputDefine t r => Sys2Proof.Machine.execFixOutputDefine t r s
  | .fixFixtureDefine t r => Sys2Proof.Machine.execFixFixtureDefine t r s
  | .fixSet t r => Sys2Proof.Machine.execFixSet t r s
  | .fixSafeSet t r => Sys2Proof.Machine.execFixSafeSet t r s
  | .fixConfig t r => Sys2Proof.Machine.execFixConfig t r s
  | .fixRdm t r => Sys2Proof.Machine.execFixRdm t r s
  | .fixRdmDiscover t r => Sys2Proof.Machine.execFixRdmDiscover t r s
  | .fixRdmUids t r => Sys2Proof.Machine.execFixRdmUids t r s
  | .fixCounters t r => Sys2Proof.Machine.execFixCounters t r s
  | .airNetSet t r => Sys2Proof.Machine.execAirNetSet t r s
  | .airRadioDefine t r => Sys2Proof.Machine.execAirRadioDefine t r s
  | .airBandDefine t r => Sys2Proof.Machine.execAirBandDefine t r s
  | .airRadioEnable t r => Sys2Proof.Machine.execAirRadioEnable t r s
  | .airCrowdDefine t r => Sys2Proof.Machine.execAirCrowdDefine t r s
  | .airNodeAdd t r => Sys2Proof.Machine.execAirNodeAdd t r s
  | .airChmap t r => Sys2Proof.Machine.execAirChmap t r s
  | .airSend t r => Sys2Proof.Machine.execAirSend t r s
  | .airRecv t r => Sys2Proof.Machine.execAirRecv t r s
  | .airStatus t r => Sys2Proof.Machine.execAirStatus t r s
  | .airNodeStatus t r => Sys2Proof.Machine.execAirNodeStatus t r s
  | .airCounters t r => Sys2Proof.Machine.execAirCounters t r s
  | .powerEnter t r => Sys2Proof.Machine.execPowerEnter t r s
  | .powerEntryDone t => Sys2Proof.Machine.execPowerEntryDone t s
  | .powerExit t r => Sys2Proof.Machine.execPowerExit t r s
  | .powerFeedSet t r => Sys2Proof.Machine.execPowerFeedSet t r s
  | .powerPaceSet t r => Sys2Proof.Machine.execPowerPaceSet t r s
  | .powerWakeSet t r => Sys2Proof.Machine.execPowerWakeSet t r s
  | .powerCmpSet t r => Sys2Proof.Machine.execPowerCmpSet t r s
  | .powerStatus t r => Sys2Proof.Machine.execPowerStatus t r s
  | .powerWakeReport t r => Sys2Proof.Machine.execPowerWakeReport t r s
  | .meterInputSet t r => Sys2Proof.Machine.execMeterInputSet t r s
  | .meterCircuitSet t r => Sys2Proof.Machine.execMeterCircuitSet t r s
  | .meterRead t r => Sys2Proof.Machine.execMeterRead t r s
  | .meterMeasure t r => Sys2Proof.Machine.execMeterMeasure t r s
  | .meterHarmonics t r => Sys2Proof.Machine.execMeterHarmonics t r s
  | .meterPulseSet t r => Sys2Proof.Machine.execMeterPulseSet t r s
  | .meterSaveSet t r => Sys2Proof.Machine.execMeterSaveSet t r s
  | .meterClear t r => Sys2Proof.Machine.execMeterClear t r s
  | .meterCoefSet t r => Sys2Proof.Machine.execMeterCoefSet t r s
  | .meterCapSet t r => Sys2Proof.Machine.execMeterCapSet t r s
  | .meterCapStatus t r => Sys2Proof.Machine.execMeterCapStatus t r s
  | .twinConfig t r => Sys2Proof.Machine.execTwinConfig t r s
  | .twinStatus t r => Sys2Proof.Machine.execTwinStatus t r s
  | .twinDrill t r => Sys2Proof.Machine.execTwinDrill t r s
  | .twinCounters t r => Sys2Proof.Machine.execTwinCounters t r s
  | .faultStatus t r => Sys2Proof.Machine.execFaultStatus t r s
  | .faultReactSet t r => Sys2Proof.Machine.execFaultReactSet t r s
  | .faultSafeSet t r => Sys2Proof.Machine.execFaultSafeSet t r s
  | .faultCounters t r => Sys2Proof.Machine.execFaultCounters t r s
  | .faultReturn t r => Sys2Proof.Machine.execFaultReturn t r s
  | .faultInject t r => Sys2Proof.Machine.execFaultInject t r s
  | .calStatus t r => Sys2Proof.Machine.execCalStatus t r s
  | .calSet t r => Sys2Proof.Machine.execCalSet t r s
  | .calRun t r => Sys2Proof.Machine.execCalRun t r s
  | .calTrimRead t r => Sys2Proof.Machine.execCalTrimRead t r s
  | .calCounters t r => Sys2Proof.Machine.execCalCounters t r s
  | .calRestoreFactory t r => Sys2Proof.Machine.execCalRestoreFactory t r s
  | .reelStatus t r => Sys2Proof.Machine.execReelStatus t r s
  | .reelRead t r => Sys2Proof.Machine.execReelRead t r s
  | .reelClear t r => Sys2Proof.Machine.execReelClear t r s
  | .reelNote t r => Sys2Proof.Machine.execReelNote t r s
  | .updateBegin t r => Sys2Proof.Machine.execUpdateBegin t r s
  | .updateWrite t r => Sys2Proof.Machine.execUpdateWrite t r s
  | .updateVerify t r => Sys2Proof.Machine.execUpdateVerify t r s
  | .updateActivate t r => Sys2Proof.Machine.execUpdateActivate t r s
  | .updateConfirm t r => Sys2Proof.Machine.execUpdateConfirm t r s
  | .updateStatus t r => Sys2Proof.Machine.execUpdateStatus t r s
  | .updateLock t r => Sys2Proof.Machine.execUpdateLock t r s
  | .updateLoadDone t => Sys2Proof.Machine.execUpdateLoadDone t s
  | .handoverBlockRead t => Sys2Proof.Machine.execHandoverBlockRead t s
  | .updateConfirmation t => Sys2Proof.Machine.execUpdateConfirmation t s
  | .healthWindowExpiry t => Sys2Proof.Machine.execHealthWindowExpiry t s
  | .fallbackBlockWritten t written => Sys2Proof.Machine.execFallbackBlockWritten t written s
  | .ownerKeyLockoutExpiry t => Sys2Proof.Machine.execOwnerKeyLockoutExpiry t s
  | .interlockPinChange t pin high => Sys2Proof.Machine.execInterlockPinChange t pin high s
  | .paceWindowEnd t fabric => Sys2Proof.Machine.execPaceWindowEnd t fabric s
  | .paceEvaluation t => Sys2Proof.Machine.execPaceEvaluation t s
  | .railSettled t => Sys2Proof.Machine.execRailSettled t s
  | .junctionTempChange t tenths => Sys2Proof.Machine.execJunctionTempChange t tenths s
  | .bobbinWrite t id word eoi poison => Sys2Proof.Machine.execBobbinWrite t id word eoi poison s
  | .bobbinRead t id parityOk => Sys2Proof.Machine.execBobbinRead t id parityOk s
  | .bobbinFlush t id => Sys2Proof.Machine.execBobbinFlush t id s
  | .frameBoundary t => Sys2Proof.Machine.execFrameBoundary t s
  | .placementLeadExpiry t => Sys2Proof.Machine.execPlacementLeadExpiry t s
  | .sacnKeepalive t out => Sys2Proof.Machine.execSacnKeepalive t out s
  | .commitCopySend t copy => Sys2Proof.Machine.execCommitCopySend t copy s
  | .skeinGuardExpiry t => Sys2Proof.Machine.execSkeinGuardExpiry t s
  | .probeQueue t port => Sys2Proof.Machine.execProbeQueue t port s
  | .takeIssue t spindle => Sys2Proof.Machine.execTakeIssue t spindle s
  | .takeTimeout t spindle => Sys2Proof.Machine.execTakeTimeout t spindle s
  | .pixelComplete t spindle internalPoison => Sys2Proof.Machine.execPixelComplete t spindle internalPoison s
  | .hankComplete t spindle => Sys2Proof.Machine.execHankComplete t spindle s
  | .bankGate t bank => Sys2Proof.Machine.execBankGate t bank s
  | .spindleStall t spindle => Sys2Proof.Machine.execSpindleStall t spindle s
  | .videoPacket t p => Sys2Proof.Machine.execVideoPacket t p s
  | .fcsVerdict t port ok => Sys2Proof.Machine.execFcsVerdict t port ok s
  | .audioPacket t p => Sys2Proof.Machine.execAudioPacket t p s
  | .audioSampleDue t => Sys2Proof.Machine.execAudioSampleDue t s
  | .sacnDataPacket t p => Sys2Proof.Machine.execSacnDataPacket t p s
  | .sacnSyncPacket t port p => Sys2Proof.Machine.execSacnSyncPacket t port p s
  | .sacnSourceTimeout t univ cid => Sys2Proof.Machine.execSacnSourceTimeout t univ cid s
  | .streamLostTimeout t kind id => Sys2Proof.Machine.execStreamLostTimeout t kind id s
  | .igmpQuery t port group => Sys2Proof.Machine.execIgmpQuery t port group s
  | .pauseFrame t port opcode quanta => Sys2Proof.Machine.execPauseFrame t port opcode quanta s
  | .pauseQuantaExpiry t port => Sys2Proof.Machine.execPauseQuantaExpiry t port s
  | .frameTransmitStart t port => Sys2Proof.Machine.execFrameTransmitStart t port s
  | .ackRx t h epoch count => Sys2Proof.Machine.execAckRx t h epoch count s
  | .nakRx t h epoch base missing => Sys2Proof.Machine.execNakRx t h epoch base missing s
  | .ackWaitExpiry t tile => Sys2Proof.Machine.execAckWaitExpiry t tile s
  | .reportRx t h r => Sys2Proof.Machine.execReportRx t h r s
  | .replyRx t h r => Sys2Proof.Machine.execReplyRx t h r s
  | .discoverCollectEnd t chain => Sys2Proof.Machine.execDiscoverCollectEnd t chain s
  | .echoRx t h seq turn rtt => Sys2Proof.Machine.execEchoRx t h seq turn rtt s
  | .measureRotation t port => Sys2Proof.Machine.execMeasureRotation t port s
  | .enumerationDone t chain => Sys2Proof.Machine.execEnumerationDone t chain s
  | .speedConfirmRx t h speed => Sys2Proof.Machine.execSpeedConfirmRx t h speed s
  | .speedConfirmTimeout t port => Sys2Proof.Machine.execSpeedConfirmTimeout t port s
  | .lineRetrained t port => Sys2Proof.Machine.execLineRetrained t port s
  | .lockChange t port lock signal anDone => Sys2Proof.Machine.execLockChange t port lock signal anDone s
  | .lockLossTimeout t port => Sys2Proof.Machine.execLockLossTimeout t port s
  | .ptpAnnounceRx t a => Sys2Proof.Machine.execPtpAnnounceRx t a s
  | .ptpEventRx t x => Sys2Proof.Machine.execPtpEventRx t x s
  | .ptpMessageTx t port k => Sys2Proof.Machine.execPtpMessageTx t port k s
  | .announceTimeout t port => Sys2Proof.Machine.execAnnounceTimeout t port s
  | .ltcWord t w => Sys2Proof.Machine.execLtcWord t w s
  | .ltcLossTimeout t => Sys2Proof.Machine.execLtcLossTimeout t s
  | .rtcSecond t => Sys2Proof.Machine.execRtcSecond t s
  | .triggerFire t n => Sys2Proof.Machine.execTriggerFire t n s
  | .cueFire t cue => Sys2Proof.Machine.execCueFire t cue s
  | .cueCommandDone t cue => Sys2Proof.Machine.execCueCommandDone t cue s
  | .detectProbeDue t port => Sys2Proof.Machine.execDetectProbeDue t port s
  | .probeResultTimeout t tile => Sys2Proof.Machine.execProbeResultTimeout t tile s
  | .sensorSampleDue t sensor => Sys2Proof.Machine.execSensorSampleDue t sensor s
  | .i2cTransactionDone t sensor res => Sys2Proof.Machine.execI2cTransactionDone t sensor res s
  | .sensorRetry t sensor => Sys2Proof.Machine.execSensorRetry t sensor s
  | .tempStaleTimeout t tile => Sys2Proof.Machine.execTempStaleTimeout t tile s
  | .dmxFrameStart t port => Sys2Proof.Machine.execDmxFrameStart t port s
  | .rdmRequestSend t port => Sys2Proof.Machine.execRdmRequestSend t port s
  | .rdmResponse t port a => Sys2Proof.Machine.execRdmResponse t port a s
  | .rdmResponseTimeout t port => Sys2Proof.Machine.execRdmResponseTimeout t port s
  | .streamTerminatedSend t out => Sys2Proof.Machine.execStreamTerminatedSend t out s
  | .superframeStart t => Sys2Proof.Machine.execSuperframeStart t s
  | .beaconSend t radio busy => Sys2Proof.Machine.execBeaconSend t radio busy s
  | .recoveryBeaconSend t radio busy => Sys2Proof.Machine.execRecoveryBeaconSend t radio busy s
  | .crowdSend t radio slot busy => Sys2Proof.Machine.execCrowdSend t radio slot busy s
  | .anchorDownSend t node busy => Sys2Proof.Machine.execAnchorDownSend t node busy s
  | .upRx t u => Sys2Proof.Machine.execUpRx t u s
  | .joinReqRx t radio eui => Sys2Proof.Machine.execJoinReqRx t radio eui s
  | .resyncRx t u => Sys2Proof.Machine.execResyncRx t u s
  | .budgetBucketRoll t radio band => Sys2Proof.Machine.execBudgetBucketRoll t radio band s
  | .supervisionTimeout t node => Sys2Proof.Machine.execSupervisionTimeout t node s
  | .recoveryHoldExpiry t radio => Sys2Proof.Machine.execRecoveryHoldExpiry t radio s
  | .feedLevelChange t feed mV => Sys2Proof.Machine.execFeedLevelChange t feed mV s
  | .feedLiveQualified t feed => Sys2Proof.Machine.execFeedLiveQualified t feed s
  | .carryReturnTimeout t => Sys2Proof.Machine.execCarryReturnTimeout t s
  | .lastGaspEnd t => Sys2Proof.Machine.execLastGaspEnd t s
  | .railOutOfRange t rail => Sys2Proof.Machine.execRailOutOfRange t rail s
  | .junctionTrip t => Sys2Proof.Machine.execJunctionTrip t s
  | .comparatorDebounced t n holds => Sys2Proof.Machine.execComparatorDebounced t n holds s
  | .rtcAlarm t => Sys2Proof.Machine.execRtcAlarm t s
  | .gpioWakeEdge t pin rising => Sys2Proof.Machine.execGpioWakeEdge t pin rising s
  | .pcieWake t => Sys2Proof.Machine.execPcieWake t s
  | .linkActivityWake t port => Sys2Proof.Machine.execLinkActivityWake t port s
  | .wakeStepDone t badBanks badDram csaOk => Sys2Proof.Machine.execWakeStepDone t badBanks badDram csaOk s
  | .wakeStepTimeout t => Sys2Proof.Machine.execWakeStepTimeout t s
  | .wakeRepeat t => Sys2Proof.Machine.execWakeRepeat t s
  | .meterSample t m => Sys2Proof.Machine.execMeterSample t m s
  | .meterPowerSample t p => Sys2Proof.Machine.execMeterPowerSample t p s
  | .meterWindowEnd t w => Sys2Proof.Machine.execMeterWindowEnd t w s
  | .capCorrectionUpdate t => Sys2Proof.Machine.execCapCorrectionUpdate t s
  | .capTargetCompute t => Sys2Proof.Machine.execCapTargetCompute t s
  | .meterSaveDue t => Sys2Proof.Machine.execMeterSaveDue t s
  | .meterSaveVerify t ok => Sys2Proof.Machine.execMeterSaveVerify t ok s
  | .pulseStart t n => Sys2Proof.Machine.execPulseStart t n s
  | .pulseEnd t n => Sys2Proof.Machine.execPulseEnd t n s
  | .helloSend t => Sys2Proof.Machine.execHelloSend t s
  | .helloRx t h => Sys2Proof.Machine.execHelloRx t h s
  | .twinLinkTimeout t => Sys2Proof.Machine.execTwinLinkTimeout t s
  | .digestSegmentRx t d => Sys2Proof.Machine.execDigestSegmentRx t d s
  | .dackRx t epoch => Sys2Proof.Machine.execDackRx t epoch s
  | .roleInRegistered t high => Sys2Proof.Machine.execRoleInRegistered t high s
  | .heartbeatPulse t => Sys2Proof.Machine.execHeartbeatPulse t s
  | .healthWordTimeout t => Sys2Proof.Machine.execHealthWordTimeout t s
  | .faultDetection t source cause values => Sys2Proof.Machine.execFaultDetection t source cause values s
  | .lullExpiry t source => Sys2Proof.Machine.execLullExpiry t source s
  | .returnStepDone t source ok => Sys2Proof.Machine.execReturnStepDone t source ok s
  | .dieTempRead t controller power => Sys2Proof.Machine.execDieTempRead t controller power s
  | .calMeasurementDone t item results => Sys2Proof.Machine.execCalMeasurementDone t item results s
  | .calApplyStep t item => Sys2Proof.Machine.execCalApplyStep t item s
  | .calDiscardRetry t item inst => Sys2Proof.Machine.execCalDiscardRetry t item inst s
  | .reelRecordWrite t verified => Sys2Proof.Machine.execReelRecordWrite t verified s
  | .sectorSwitchDone t => Sys2Proof.Machine.execSectorSwitchDone t s
  | .squallWrite t => Sys2Proof.Machine.execSquallWrite t s
  | .resetNRelease t compatLow => Sys2Proof.Machine.execResetNRelease t compatLow s
  | .feedBusBelow7v t below vbat => Sys2Proof.Machine.execFeedBusBelow7v t below vbat s
  | .faultSourceQuiet t source => Sys2Proof.Machine.execFaultSourceQuiet t source s
  | .receivedFrame t f => Sys2Proof.Machine.execReceivedFrame t f s
  | .corrLoadDone t tile data => Sys2Proof.Machine.execCorrLoadDone t tile data s
  | .weaveLoadDone t => Sys2Proof.Machine.execWeaveLoadDone t s
  | .vmodFoldBack t g folded => Sys2Proof.Machine.execVmodFoldBack t g folded s

end Sys2Proof.Machine
end

