-- ==== Sys2Proof/Safety.lean ====
section
/-! DEFINITION. What claims about runs are stated in: a command that completes, a command in flight on a core, FAULT_N
driven as R435 says, and the record a completed command leaves (R66, R73). -/

namespace Sys2Proof.Safety

open Sys2Proof.Machine

/-- The command completes from this state with a next state. -/
def Completes (i : Instr) (s : State) : Prop := ∃ s', exec i s = .next s'

/-- The level of FAULT_N is what R435 says: low exactly while it is asserted. -/
abbrev PinDriven (s : State) : Prop := s.faultLow = faultN s

/-- The command `c` under the reference `r` has an opcode and runs on a core, and FAULT_N is driven as R435 says: the states in
which a verb of the command set has its effect. -/
abbrev Ready (op : Nat) (r : CmdRef) (c : Cmd) (s : State) : Prop :=
  findCmd r s = some c ∧ c.opcode = op ∧ c.core.isSome = true ∧ PinDriven s

/-- A standard port that is not retired and has room in its ingress bobbin receives a frame of legal length (R109, R261, R268,
R273). -/
abbrev Receives (s : State) (port len : Nat) (video : Bool) : Prop :=
  port < 64 ∧ (portOf s port).role = 1 ∧ (portOf s port).retired = false ∧ rxDrop s port video = none ∧ 64 ≤ len ∧ len ≤ 9216

/-- What a command that began in `s` at the instant `t` leaves of its effect `s'`: the detections noted are handled at this
instant (R432), and FAULT_N is driven (R435). -/
def settled (t : Nat) (s s' : State) : State := leave (advance t s) (settle s')

/-- What a command that notes no detection leaves of its effect `s'`. -/
def ended (t : Nat) (s s' : State) : State := leave (advance t s) s'

end Sys2Proof.Safety
end

