-- ==== Sys2Proof/WellFormed.lean ====
section
/-! DEFINITION. Which commands and events the device can be given: every number names a port, a mailbox, a unit or an object
that the manual's ranges admit. A meaning needs none of this: each is total, and reduces or ignores what does not exist. -/

namespace Sys2Proof

/-- A command in flight is named by a mailbox that takes commands, 1 to 15, and a tag of 16 bits (R65), or by one of 512 cues
and the position, of 16, of its embedded command (R298). -/
def CmdRef.wf (r : CmdRef) : Bool :=
  match r with
  | .mbx n tag => decide (1 ≤ n) && decide (n < 16) && decide (tag < 65536)
  | .cue c i => decide (c < 512) && decide (i < 16)

/-- A tile frame's header names a port, a chain and an end that exist (R226). -/
def TileHdr.wf (h : TileHdr) : Bool := decide (h.port < 64) && decide (h.chain < 256) && decide (h.toEnd < 2)

/-- A command or event the device can be given. -/
def Instr.wf (i : Instr) : Bool :=
  match i with
  | .powerOn _ _ _ => true
  | .resetNAssert _ _ => true
  | .pciePerst _ _ => true
  | .pcieLinkStateChange _ _ => true
  | .bootStageDone _ _ => true
  | .mbxTailDoorbell _ n v => decide (n < 16) && decide (v < 65536)
  | .mbxRheadWrite _ n v => decide (n < 16) && decide (v < 65536)
  | .mbxEnable _ n v => decide (n < 16) && v.getLsbD 31
  | .mbxDisable _ n v => decide (n < 16) && !v.getLsbD 31
  | .hifIntMaskWrite _ _ => true
  | .hifIntStatClear _ _ => true
  | .fltViolClear _ _ => true
  | .fltStickyClear _ k _ => decide (k < 13)
  | .macHalfClear _ port _ _ => decide (port < 64)
  | .tsOvfClear _ port _ => decide (port < 64)
  | .underrunClear _ _ => true
  | .reelCursorWrite _ _ => true
  | .reelWindowLoadDone _ => true
  | .registerWrite _ off _ => decide (off < 0xC000) && off % 4 == 0
  | .bar0AccessViolation _ _ _ size be => decide (0 < size) && decide (be < 16)
  | .commandTake _ n entry payload => decide (1 ≤ n) && decide (n < 16) && entry.length == 64 && decide (payload.length ≤ 4096)
  | .unsupported _ r => r.wf
  | .threadDispatch _ core => decide (core < 8)
  | .threadQuantumExpiry _ core => decide (core < 8)
  | .classFloorWindow _ _ _ _ => true
  | .responseWrite _ n => decide (1 ≤ n) && decide (n < 16)
  | .eventWrite _ => true
  | .commandDeadline _ r => r.wf
  | .mailboxDrainTimeout _ n => decide (1 ≤ n) && decide (n < 16)
  | .tagMemoryExpiry _ n tag => decide (1 ≤ n) && decide (n < 16) && decide (tag < 65536)
  | .inbandDatagram _ d => decide (d.port < 64) && decide (d.payload.length ≤ 9188)
  | .sysNop _ r => r.wf
  | .sysIdent _ r => r.wf
  | .mbxAbort _ r => r.wf
  | .mbxInbandSet _ r => r.wf
  | .mbxKeySet _ r => r.wf
  | .wallDefine _ r => r.wf
  | .wallActivate _ r => r.wf
  | .wallStatus _ r => r.wf
  | .placeProfile _ r => r.wf
  | .placePin _ r => r.wf
  | .placeUnpin _ r => r.wf
  | .placeReport _ r => r.wf
  | .weaveLoad _ r => r.wf
  | .weaveTable _ r => r.wf
  | .weaveParam _ r => r.wf
  | .weaveStatus _ r => r.wf
  | .weaveCounters _ r => r.wf
  | .ingestVideoDefine _ r => r.wf
  | .ingestAudioDefine _ r => r.wf
  | .ingestTapDefine _ r => r.wf
  | .ingestSacnMapDefine _ r => r.wf
  | .ingestPlaneDefine _ r => r.wf
  | .ingestPlaneSubmit _ r => r.wf
  | .planeCopyDone _ source _ => decide (source < 65536)
  | .ingestRemove _ r => r.wf
  | .ingestCounters _ r => r.wf
  | .ingestTapRead _ r => r.wf
  | .storeCorrLoad _ r => r.wf
  | .storeCorrPersist _ r => r.wf
  | .corrPersistDone _ tile => decide (tile < 65536)
  | .storeCorrRestore _ r => r.wf
  | .corrRestoreDone _ tile => decide (tile < 65536)
  | .storeScrubSet _ r => r.wf
  | .storeStatus _ r => r.wf
  | .storeCounters _ r => r.wf
  | .storeInject _ r => r.wf
  | .scrubStep _ _ err => decide (err < 3)
  | .dramTempCross _ stack _ => decide (stack < 2)
  | .schedStatus _ r => r.wf
  | .schedCounters _ r => r.wf
  | .schedTakeSet _ r => r.wf
  | .schedSpindle _ r => r.wf
  | .schedDrainSet _ r => r.wf
  | .schedClassSet _ r => r.wf
  | .schedThreads _ r => r.wf
  | .drainTimeout _ function inst => decide (function < 5) && decide (inst < 65536)
  | .modeSet _ r => r.wf
  | .modeStatus _ r => r.wf
  | .modeCalmSet _ r => r.wf
  | .modeCalmExit _ r => r.wf
  | .linkStatus _ r => r.wf
  | .linkEnum _ r => r.wf
  | .linkTile _ r => r.wf
  | .linkCounters _ r => r.wf
  | .linkGenSet _ r => r.wf
  | .portConfig _ r => r.wf
  | .portStatus _ r => r.wf
  | .portCounters _ r => r.wf
  | .timePtpSet _ r => r.wf
  | .timePtpPort _ r => r.wf
  | .timeStatus _ r => r.wf
  | .timeLock _ r => r.wf
  | .timeTrigger _ r => r.wf
  | .timeLtcSet _ r => r.wf
  | .timeRtcSet _ r => r.wf
  | .cueSchedule _ r => r.wf
  | .cueCancel _ r => r.wf
  | .cueStatus _ r => r.wf
  | .healthProbeSet _ r => r.wf
  | .healthDefectRead _ r => r.wf
  | .healthDefectClear _ r => r.wf
  | .healthThermalSet _ r => r.wf
  | .healthTile _ r => r.wf
  | .healthZoneSet _ r => r.wf
  | .healthSensorDefine _ r => r.wf
  | .healthSensorReference _ r => r.wf
  | .healthZoneRead _ r => r.wf
  | .healthSensorRead _ r => r.wf
  | .fixOutputDefine _ r => r.wf
  | .fixFixtureDefine _ r => r.wf
  | .fixSet _ r => r.wf
  | .fixSafeSet _ r => r.wf
  | .fixConfig _ r => r.wf
  | .fixRdm _ r => r.wf
  | .fixRdmDiscover _ r => r.wf
  | .fixRdmUids _ r => r.wf
  | .fixCounters _ r => r.wf
  | .airNetSet _ r => r.wf
  | .airRadioDefine _ r => r.wf
  | .airBandDefine _ r => r.wf
  | .airRadioEnable _ r => r.wf
  | .airCrowdDefine _ r => r.wf
  | .airNodeAdd _ r => r.wf
  | .airChmap _ r => r.wf
  | .airSend _ r => r.wf
  | .airRecv _ r => r.wf
  | .airStatus _ r => r.wf
  | .airNodeStatus _ r => r.wf
  | .airCounters _ r => r.wf
  | .powerEnter _ r => r.wf
  | .powerEntryDone _ => true
  | .powerExit _ r => r.wf
  | .powerFeedSet _ r => r.wf
  | .powerPaceSet _ r => r.wf
  | .powerWakeSet _ r => r.wf
  | .powerCmpSet _ r => r.wf
  | .powerStatus _ r => r.wf
  | .powerWakeReport _ r => r.wf
  | .meterInputSet _ r => r.wf
  | .meterCircuitSet _ r => r.wf
  | .meterRead _ r => r.wf
  | .meterMeasure _ r => r.wf
  | .meterHarmonics _ r => r.wf
  | .meterPulseSet _ r => r.wf
  | .meterSaveSet _ r => r.wf
  | .meterClear _ r => r.wf
  | .meterCoefSet _ r => r.wf
  | .meterCapSet _ r => r.wf
  | .meterCapStatus _ r => r.wf
  | .twinConfig _ r => r.wf
  | .twinStatus _ r => r.wf
  | .twinDrill _ r => r.wf
  | .twinCounters _ r => r.wf
  | .faultStatus _ r => r.wf
  | .faultReactSet _ r => r.wf
  | .faultSafeSet _ r => r.wf
  | .faultCounters _ r => r.wf
  | .faultReturn _ r => r.wf
  | .faultInject _ r => r.wf
  | .calStatus _ r => r.wf
  | .calSet _ r => r.wf
  | .calRun _ r => r.wf
  | .calTrimRead _ r => r.wf
  | .calCounters _ r => r.wf
  | .calRestoreFactory _ r => r.wf
  | .reelStatus _ r => r.wf
  | .reelRead _ r => r.wf
  | .reelClear _ r => r.wf
  | .reelNote _ r => r.wf
  | .updateBegin _ r => r.wf
  | .updateWrite _ r => r.wf
  | .updateVerify _ r => r.wf
  | .updateActivate _ r => r.wf
  | .updateConfirm _ r => r.wf
  | .updateStatus _ r => r.wf
  | .updateLock _ r => r.wf
  | .updateLoadDone _ => true
  | .handoverBlockRead _ => true
  | .updateConfirmation _ => true
  | .healthWindowExpiry _ => true
  | .fallbackBlockWritten _ _ => true
  | .ownerKeyLockoutExpiry _ => true
  | .interlockPinChange _ pin _ => decide (pin < 3)
  | .paceWindowEnd _ _ => true
  | .paceEvaluation _ => true
  | .railSettled _ => true
  | .junctionTempChange _ _ => true
  | .bobbinWrite _ id _ _ _ => decide (id < 65536)
  | .bobbinRead _ id _ => decide (id < 65536)
  | .bobbinFlush _ id => decide (id < 65536)
  | .frameBoundary _ => true
  | .placementLeadExpiry _ => true
  | .sacnKeepalive _ out => decide (out < 4104)
  | .commitCopySend _ copy => decide (copy < 2)
  | .skeinGuardExpiry _ => true
  | .probeQueue _ port => decide (port < 64)
  | .takeIssue _ spindle => decide (spindle < 256)
  | .takeTimeout _ spindle => decide (spindle < 256)
  | .pixelComplete _ spindle _ => decide (spindle < 256)
  | .hankComplete _ spindle => decide (spindle < 256)
  | .bankGate _ bank => decide (bank < 16)
  | .spindleStall _ spindle => decide (spindle < 256)
  | .videoPacket _ p => decide (p.port < 64)
  | .fcsVerdict _ port _ => decide (port < 64)
  | .audioPacket _ p => decide (p.port < 64)
  | .audioSampleDue _ => true
  | .sacnDataPacket _ p => decide (p.port < 64) && decide (p.univ < 64000) && decide (p.udpPort < 65536)
  | .sacnSyncPacket _ port p => decide (port < 64) && decide (p.udpPort < 65536) && decide (p.univ < 64000)
  | .sacnSourceTimeout _ univ _ => decide (univ < 64000)
  | .streamLostTimeout _ kind id => decide (kind < 2) && decide (id < 65536)
  | .igmpQuery _ port _ => decide (port < 64)
  | .pauseFrame _ port _ quanta => decide (port < 64) && decide (quanta < 65536)
  | .pauseQuantaExpiry _ port => decide (port < 64)
  | .frameTransmitStart _ port => decide (port ≤ 64)
  | .ackRx _ h _ count => h.wf && decide (count < 256)
  | .nakRx _ h _ _ _ => h.wf
  | .ackWaitExpiry _ tile => decide (tile < 65536)
  | .reportRx _ h _ => h.wf
  | .replyRx _ h _ => h.wf
  | .discoverCollectEnd _ chain => decide (chain < 256)
  | .echoRx _ h _ _ _ => h.wf
  | .measureRotation _ port => decide (port < 64)
  | .enumerationDone _ chain => decide (chain < 256)
  | .speedConfirmRx _ h speed => h.wf && decide (speed < 4)
  | .speedConfirmTimeout _ port => decide (port < 64)
  | .lineRetrained _ port => decide (port < 64)
  | .lockChange _ port _ _ _ => decide (port ≤ 64)
  | .lockLossTimeout _ port => decide (port ≤ 64)
  | .ptpAnnounceRx _ a => decide (a.port < 64)
  | .ptpEventRx _ x => decide (x.port < 64)
  | .ptpMessageTx _ port k => decide (port < 64) && k != .followUp
  | .announceTimeout _ port => decide (port < 64)
  | .ltcWord _ _ => true
  | .ltcLossTimeout _ => true
  | .rtcSecond _ => true
  | .triggerFire _ n => decide (n < 64)
  | .cueFire _ cue => decide (cue < 512)
  | .cueCommandDone _ cue => decide (cue < 512)
  | .detectProbeDue _ port => decide (port < 64)
  | .probeResultTimeout _ tile => decide (tile < 65536)
  | .sensorSampleDue _ sensor => decide (sensor < 16)
  | .i2cTransactionDone _ sensor _ => decide (sensor < 16)
  | .sensorRetry _ sensor => decide (sensor < 16)
  | .tempStaleTimeout _ tile => decide (tile < 65536)
  | .dmxFrameStart _ port => decide (port < 8)
  | .rdmRequestSend _ port => decide (port < 8)
  | .rdmResponse _ port _ => decide (port < 8)
  | .rdmResponseTimeout _ port => decide (port < 8)
  | .streamTerminatedSend _ out => decide (out < 4096)
  | .superframeStart _ => true
  | .beaconSend _ radio _ => decide (radio < 4)
  | .recoveryBeaconSend _ radio _ => decide (radio < 4)
  | .crowdSend _ radio slot _ => decide (radio < 4) && decide (slot < 512)
  | .anchorDownSend _ node _ => decide (node < 65536)
  | .upRx _ u => decide (u.radio < 4)
  | .joinReqRx _ radio _ => decide (radio < 4)
  | .resyncRx _ u => decide (u.radio < 4)
  | .budgetBucketRoll _ radio band => decide (radio < 4) && decide (band < 4)
  | .supervisionTimeout _ node => decide (node < 65536)
  | .recoveryHoldExpiry _ radio => decide (radio < 4)
  | .feedLevelChange _ feed _ => decide (feed < 2)
  | .feedLiveQualified _ feed => decide (feed < 2)
  | .carryReturnTimeout _ => true
  | .lastGaspEnd _ => true
  | .railOutOfRange _ rail => decide (rail < 32)
  | .junctionTrip _ => true
  | .comparatorDebounced _ n _ => decide (n < 3)
  | .rtcAlarm _ => true
  | .gpioWakeEdge _ pin _ => decide (pin < 32)
  | .pcieWake _ => true
  | .linkActivityWake _ port => decide (port < 64)
  | .wakeStepDone _ _ _ _ => true
  | .wakeStepTimeout _ => true
  | .wakeRepeat _ => true
  | .meterSample _ _ => true
  | .meterPowerSample _ p => decide (p.circuit < 10)
  | .meterWindowEnd _ w => decide (w.circuit < 10)
  | .capCorrectionUpdate _ => true
  | .capTargetCompute _ => true
  | .meterSaveDue _ => true
  | .meterSaveVerify _ _ => true
  | .pulseStart _ n => decide (n < 8)
  | .pulseEnd _ n => decide (n < 8)
  | .helloSend _ => true
  | .helloRx _ h => decide (h.side < 2)
  | .twinLinkTimeout _ => true
  | .digestSegmentRx _ d => decide (d.seg < d.nseg)
  | .dackRx _ _ => true
  | .roleInRegistered _ _ => true
  | .heartbeatPulse _ => true
  | .healthWordTimeout _ => true
  | .faultDetection _ source cause _ => decide (source < 65536) && decide (cause < 256)
  | .lullExpiry _ source => decide (source < 65536)
  | .returnStepDone _ source _ => decide (source < 65536)
  | .dieTempRead _ _ _ => true
  | .calMeasurementDone _ item _ => decide (item < 5)
  | .calApplyStep _ item => decide (item < 5)
  | .calDiscardRetry _ item inst => decide (item < 5) && decide (inst < 1024)
  | .reelRecordWrite _ _ => true
  | .sectorSwitchDone _ => true
  | .squallWrite _ => true
  | .resetNRelease _ _ => true
  | .feedBusBelow7v _ _ _ => true
  | .faultSourceQuiet _ source => decide (source < 65536)
  | .receivedFrame _ f => decide (f.port ≤ 64)
  | .corrLoadDone _ tile _ => decide (tile < 65536)
  | .weaveLoadDone _ => true
  | .vmodFoldBack _ g _ => decide (g < 8)

end Sys2Proof
end

