-- ==== Sys2Proof/Certificates/Slice0/Obligations.lean ====
section
/-! DEFINITION. What is stated about the model, from the spec's numbered rules: the host interface, one statement or more for
every family of commands and events, what each changes and when it completes, and the invariants every step keeps. -/

open Sys2Proof Sys2Proof.Machine Sys2Proof.Safety

/-! ## The block -/

/-- One step runs the command at the front of the queue on the state with the queue's rest, and idles on an empty queue (the model's
own queue, notes/assumptions/1.md). -/
def Obligations.StepRunsFront : Prop :=
  (∀ (c : Instr) (rest : List Instr) (s : State), s.pending = c :: rest → step s = exec c { s with pending := rest })
  ∧ ∀ s : State, s.pending = [] → step s = .next s

/-- No command changes the queue: the state that a command leaves holds the queue it began with. -/
def Obligations.QueueUntouched : Prop :=
  ∀ (c : Instr) (s s' : State), exec c s = .next s' → s'.pending = s.pending

/-- FAULT_N is driven as R435 says in every state a step leaves, if it is in the state the step begins in: low exactly while a source
whose reactions include PIN is in the fault state, the device has no service (R36), a failed wake waits or the device is stranded
(R380), or no image verified (R502). -/
def Obligations.FaultPinInvariant : Prop :=
  ∀ s s' : State, PinDriven s → step s = .next s' → PinDriven s'

/-- Right after reset FAULT_N is high and driven as R435 says, the queue is empty, no command is in flight, and the frame store lists
no word. Register values at reset that the field maps give: HIF (R58), a mailbox block (R60), the violation log (R80), PWR_STAT
(R382), FAB_PACE and FAB_SVC (R32), TIME_STAT with no slave port (R295), MAC_PSTAT but for its strap (R270), and REEL_STAT with 4
spares (R472). -/
def Obligations.ResetState : Prop :=
  (PinDriven State.reset ∧ State.reset.faultLow = false ∧ State.reset.pending = [] ∧ State.reset.cmds = []
      ∧ kmemWf {} State.reset.store.words = true)
  ∧ ((∀ o ∈ [0x100, 0x104, 0x108, 0x10C, 0x110, 0x114, 0x118, 0x11C, 0x408, 0x40C, 0x410, 0x41C, 0x420, 0x424, 0x440, 0x444,
        0x448, 0x44C, 0x450, 0x454, 0x458, 0x45C, 0x460, 0x464, 0x800, 0x804, 0x830, 0x834, 0x840, 0x844, 0x848, 0x2008, 0x1004, 0x1008,
        0x100C, 0x2004, 0x2010, 0x2014, 0x2018, 0x201C, 0x3004, 0x3008, 0x300C, 0x3010, 0x3014, 0x3018, 0x301C, 0x3020, 0x3024,
        0x4000, 0x40E8, 0x40EC, 0x40F0, 0x40F8, 0x40FC, 0x8004, 0x8008, 0x800C, 0x9000],
      regRead State.reset o = some 0)
    ∧ regRead State.reset 0x1000 = some 0x03800000
    ∧ regRead State.reset 0x2000 = some 700
    ∧ regRead State.reset 0x3000 = some 0x00FF0000
    ∧ regRead State.reset 0x8000 = some 0x04000000
    ∧ ∀ o ∈ [0x14, 0x120, 0x400, 0x404, 0x414, 0x418, 0x428, 0x838, 0x84C, 0x1010, 0x200C, 0x2020, 0x3028, 0x8030, 0xA000],
        regRead State.reset o = none)

/-! ## Direct registers and mailboxes -/

/-- HIF_INT_MASK written (R58, R59): the mask takes the 21 low bits; the message of vector `n` is due exactly where bit `n` of the
mask rises over a status bit that is 1 and whose message has not been sent since the bit was last cleared; it is sent, or stays
pending while its entry of the MSI-X table is masked (the model's choice, notes/assumptions/74.md); nothing else changes but the
record of what has been sent. HIF_INT_STAT written (R58): each 1 clears its bit and each 0 leaves its bit, and a vector whose bit
is cleared may be sent again (R59); nothing else changes. Completing, with the next state said: hifIntMaskWrite, hifIntStatClear. -/
def Obligations.InterruptRegisters : Prop :=
  (∀ (t : Nat) (v : U32) (s : State), awake s = true → PinDriven s →
      ∃ s', exec (.hifIntMaskWrite t v) s = .next s'
        ∧ s'.hif.intMask = v &&& 0x1FFFFF#32 ∧ s'.hif.intStat = s.hif.intStat
        ∧ (∃ l : List Nat, s'.out = (l.map Out.msix) ++ s.out ∧ ∀ n, n ∈ l ↔ n < 21 ∧ v.getLsbD n = true
              ∧ s.hif.intMask.getLsbD n = false ∧ s.hif.intStat.getLsbD n = true ∧ s.hif.intSent.getLsbD n = false
              ∧ (msixEntry s n).masked = false)
        ∧ (∀ n, s'.hif.msixPend.testBit n = true ↔ s.hif.msixPend.testBit n = true ∨ n < 21 ∧ v.getLsbD n = true
              ∧ s.hif.intMask.getLsbD n = false ∧ s.hif.intStat.getLsbD n = true ∧ s.hif.intSent.getLsbD n = false
              ∧ (msixEntry s n).masked = true)
        ∧ { s' with out := s.out, hif := s.hif } = advance t s)
  ∧ (∀ (t : Nat) (v : U32) (s : State), awake s = true → PinDriven s →
      exec (.hifIntStatClear t v) s = .next { advance t s with hif := { s.hif with
        intStat := s.hif.intStat &&& ~~~v, intSent := s.hif.intSent &&& ~~~v } })

/-- MBX_TAIL of an enabled mailbox (R61): an index that leaves the ring no fuller than its size is taken; one that would make it hold
more is a violation of KIND 3, discarded; while ENABLE is 0 the write is ignored. MBX_RHEAD likewise may not pass MBX_RTAIL.
MBX_CFG (R60, R61, R63): a change of ENABLE from 0 to 1 sets the four indices to 0 and takes SIZE; a change to 0 starts the drain
of R63 with its 100 ms, which ends at once where nothing is in flight or waits to be written; an ENABLE while DRAINING is a
violation that leaves the mailbox as it is. Completing, with the next state said: mbxTailDoorbell, mbxRheadWrite, mbxEnable,
mbxDisable. -/
def Obligations.MailboxRegisters : Prop :=
  ((∀ (t n v : Nat) (s : State), awake s = true → PinDriven s → 1 ≤ n → n < 16 → v < 65536 →
      mbxUnassigned n 0x14 s = false → (mbxOf s n).enable = true →
      (BitVec.ofNat 16 v - (mbxOf s n).head).toNat ≤ ringSize (mbxOf s n) →
      exec (.mbxTailDoorbell t n v) s = .next (modMbx n (fun m => { m with tail := BitVec.ofNat 16 v }) (advance t s)))
    ∧ (∀ (t n v : Nat) (s : State), awake s = true → PinDriven s → 1 ≤ n → n < 16 →
      mbxUnassigned n 0x14 s = false → (mbxOf s n).enable = false → exec (.mbxTailDoorbell t n v) s = .next (advance t s))
    ∧ (∀ (t n v : Nat) (s : State), awake s = true → PinDriven s → 1 ≤ n → n < 16 → v < 65536 →
      mbxUnassigned n 0x14 s = false → (mbxOf s n).enable = true →
      ringSize (mbxOf s n) < (BitVec.ofNat 16 v - (mbxOf s n).head).toNat →
      ∃ s', exec (.mbxTailDoorbell t n v) s = .next s' ∧ mbxOf s' n = mbxOf s n ∧ s'.hif.violCnt = s.hif.violCnt + 1
        ∧ (s.hif.viol.getLsbD 31 = false → s'.hif.viol = violWord 3 false n 0
            ∧ s'.hif.violAddr = BitVec.ofNat 32 (v + 0x140000)))
    ∧ ∀ (t n v : Nat) (s : State), awake s = true → PinDriven s → 1 ≤ n → n < 16 → v < 65536 →
      mbxUnassigned n 0x20 s = false →
      (BitVec.ofNat 16 v - (mbxOf s n).rhead).toNat ≤ ((mbxOf s n).rtail - (mbxOf s n).rhead).toNat →
      exec (.mbxRheadWrite t n v) s = .next (modMbx n (fun m => { m with rhead := BitVec.ofNat 16 v }) (advance t s)))
  ∧ ((∀ (t n : Nat) (v : U32) (s : State), awake s = true → PinDriven s → 1 ≤ n → n < 16 → v.toNat % 16 < 9 →
      mbxUnassigned n 0x10 s = false → (mbxOf s n).enable = false → (mbxOf s n).draining = false →
      exec (.mbxEnable t n v) s = .next (modMbx n (fun m => { m with
        enable := true, size := v.toNat % 16, head := 0, tail := 0, rtail := 0, rhead := 0 }) (advance t s)))
    ∧ (∀ (t n : Nat) (v : U32) (s : State), awake s = true → PinDriven s → 1 ≤ n → n < 16 →
      mbxUnassigned n 0x10 s = false → (mbxOf s n).enable = false → (mbxOf s n).draining = true →
      ∃ s', exec (.mbxEnable t n v) s = .next s' ∧ mbxOf s' n = mbxOf s n ∧ s'.hif.violCnt = s.hif.violCnt + 1)
    ∧ ∀ (t n : Nat) (v : U32) (s : State), awake s = true → PinDriven s → 1 ≤ n → n < 16 → v.toNat % 16 = (mbxOf s n).size →
      (mbxOf s n).size < 9 → mbxUnassigned n 0x10 s = false → (mbxOf s n).enable = true → inFlight s n ≠ [] →
      exec (.mbxDisable t n v) s = .next { (modMbx n (fun m => { m with enable := false, draining := true }) (advance t s)) with
        sched := { s.sched with drains := s.sched.drains ++
          [{ function := 0xFF, inst := n, expires := max s.now t + 100000000 }] } })

/-- The write-one-to-clear registers: FLT_VIOL's VALID clears the capture and re-arms it (R80); a 1 in FLT_STICKY`k` clears its
source's sticky bit (R431); TS_OVF clears for the port's whole group, and the half-range bits of a port for each 1 written (R270).
Completing, with the next state said: fltViolClear, fltStickyClear, macHalfClear, tsOvfClear. -/
def Obligations.WriteOneToClear : Prop :=
  (∀ (t : Nat) (v : U32) (s : State), awake s = true → PinDriven s →
    exec (.fltViolClear t v) s = .next { advance t s with hif :=
      (if v.getLsbD 31 then { s.hif with viol := 0, violAddr := 0 } else s.hif) })
  ∧ (∀ (t k : Nat) (v : U32) (s : State), awake s = true → k < 13 →
    ∃ s', exec (.fltStickyClear t k v) s = .next s'
      ∧ ∀ j id, j < 32 → stickySource k j = some id →
          (srcOf s' id).sticky = ((srcOf s id).sticky && !v.getLsbD j))
  ∧ (∀ (t p : Nat) (v : U32) (s : State), awake s = true → PinDriven s → p < 64 → v.getLsbD 31 = true →
    ∃ s', exec (.tsOvfClear t p v) s = .next s' ∧ (∀ q, q < 64 → q / 8 = p / 8 → (pstat s' q).testBit 31 = false)
      ∧ { s' with link := s.link } = advance t s)
  ∧ ∀ (t p : Nat) (hi : Bool) (v : U32) (s : State), awake s = true → PinDriven s → p < 64 →
    ∃ s', exec (.macHalfClear t p hi v) s = .next s'
      ∧ (∀ i, i < 32 → (portOf s' p).half.testBit (if hi then 32 + i else i)
          = ((portOf s p).half.testBit (if hi then 32 + i else i) && !v.getLsbD i))
      ∧ { s' with link := s.link } = advance t s

/-- A write of 1 to FAB_BOB_STAT.UNDERRUN clears the underrun bit of the bobbin that FAB_BOB_SEL named when the write arrived, and of
no other; a write of FAB_BOB_SEL issued before it selects the bobbin it clears (R33). Completing, with the next state said:
underrunClear, registerWrite. -/
def Obligations.UnderrunClear : Prop :=
  (∀ (t : Nat) (v : U32) (s : State), awake s = true → PinDriven s → v.getLsbD 1 = true → bobStat s ≠ 0 →
    ∃ s', exec (.underrunClear t v) s = .next s' ∧ (bobOf s' s.fab.bobSel.toNat).underrun = false
      ∧ (∀ k, k ≠ s.fab.bobSel.toNat → bobOf s' k = bobOf s k) ∧ { s' with fab := s.fab } = advance t s)
  ∧ ∀ (t u : Nat) (w v : U32) (s : State), awake s = true → PinDriven s → v.getLsbD 1 = true →
    (bobDef (w.toNat % 65536)).isSome = true →
    ∃ s1 s2, exec (.registerWrite t 0x2010 w) s = .next s1 ∧ exec (.registerWrite u 0x2014 v) s1 = .next s2
      ∧ (bobOf s2 (w.toNat % 65536)).underrun = false ∧ ∀ k, k ≠ w.toNat % 65536 → bobOf s2 k = bobOf s k

/-- A BAR0 access that is not an aligned 32-bit access with every byte enabled (R55), or that names no register (R56), is a violation
of KIND 0: reported as an Unsupported Request, counted, and captured with the offset where VALID was 0 (R79, R80). Completing,
with the next state said: bar0AccessViolation. -/
def Obligations.Bar0Violation : Prop :=
  ∀ (t off : Nat) (w : Bool) (size be : Nat) (s : State), awake s = true → PinDriven s →
    (size ≠ 4 ∨ off % 4 ≠ 0 ∨ be ≠ 15 ∨ regExists s off = false) →
    ∃ s', exec (.bar0AccessViolation t off w size be) s = .next s'
      ∧ s'.hif.violCnt = s.hif.violCnt + 1
      ∧ s'.out.head? = some (.unsupportedRequest off w)
      ∧ (s.hif.viol.getLsbD 31 = false → s'.hif.viol = violWord 0 false 0 0 ∧ s'.hif.violAddr = BitVec.ofNat 32 off
          ∧ s'.hif.intStat.getLsbD 18 = true)
      ∧ (s.hif.viol.getLsbD 31 = true → s'.hif.viol = s.hif.viol ∧ s'.hif.violAddr = s.hif.violAddr)
      ∧ s'.mbx = s.mbx ∧ s'.cmds = s.cmds ∧ s'.store = s.store ∧ s'.link = s.link ∧ s'.flt = s.flt

/-- A register write (R10, R56): at an offset that names no register it is a violation (R79); a read-only register keeps its value;
HIF_INT_MASK, HIF_INT_STAT, FLT_VIOL, FAB_BOB_STAT and REEL_CURSOR act as their own commands do; FAB_BOB_SEL takes its 16 bits
(R32); an entry of the MSI-X table that BAR2 unmasks sends its pending message (the model's choice, notes/assumptions/74.md); a
ring address takes the value, its bits 5:0 reserved, while the mailbox is neither enabled nor draining (R60, R61). REEL_CURSOR
written (R472, R473): the cursor takes the value and LOADING reads 1; when the load ends, slot j of the window holds record CURSOR
+ j as the reel held it when the load began, and LOADING reads 0. Completing, with the next state said: reelCursorWrite,
reelWindowLoadDone, registerWrite. -/
def Obligations.RegisterAccess : Prop :=
  ((∀ (t off : Nat) (v : U32) (s : State), off < bar2Base → regExists s off = false → exec (.registerWrite t off v) s =
      exec (.bar0AccessViolation t off true 4 15) s)
    ∧ (∀ (t : Nat) (v : U32) (s : State), exec (.registerWrite t 0x108 v) s = exec (.hifIntMaskWrite t v) s
      ∧ exec (.registerWrite t 0x104 v) s = exec (.hifIntStatClear t v) s
      ∧ exec (.registerWrite t 0x844 v) s = exec (.fltViolClear t v) s
      ∧ exec (.registerWrite t 0x2014 v) s = exec (.underrunClear t v) s
      ∧ exec (.registerWrite t 0x8004 v) s = exec (.reelCursorWrite t v) s)
    ∧ (∀ (t off : Nat) (v : U32) (s : State), awake s = true → PinDriven s →
      off ∈ [0x0, 0x4, 0x8, 0xC, 0x10, 0x100, 0x10C, 0x840, 0x848, 0x834, 0x1000, 0x2000, 0x2008, 0x3000, 0x4000, 0x8000, 0x9000] →
      exec (.registerWrite t off v) s = .next (advance t s))
    ∧ (∀ (t n : Nat) (v : U32) (s : State), awake s = true → PinDriven s → n < 32 → v.getLsbD 0 = false →
      ∃ s', exec (.registerWrite t (bar2Base + 16 * n + 12) v) s = .next s' ∧ (msixEntry s' n).masked = false
        ∧ s'.hif.msixPend.testBit n = false
        ∧ s'.out = (if s.hif.msixPend.testBit n then [.msix n] else []) ++ s.out)
    ∧ (∀ (t : Nat) (v : U32) (s : State), awake s = true → PinDriven s →
      exec (.registerWrite t 0x2010 v) s = .next { advance t s with fab := { s.fab with bobSel := v.setWidth 16 } })
    ∧ ∀ (t n : Nat) (v : U32) (s : State), awake s = true → PinDriven s → 1 ≤ n → n < 16 → mbxUnassigned n 0 s = false →
      (mbxOf s n).enable = false → (mbxOf s n).draining = false →
      ∃ s', exec (.registerWrite t (0x400 + 64 * n) v) s = .next s'
        ∧ (mbxOf s' n).cq = ((mbxOf s n).cq &&& 0xFFFFFFFF00000000#64) ||| ((v &&& 0xFFFFFFC0#32).setWidth 64)
        ∧ (∀ k, k ≠ n → mbxOf s' k = mbxOf s k) ∧ { s' with mbx := s.mbx } = advance t s)
  ∧ ((∀ (t : Nat) (v : U32) (s : State), awake s = true → PinDriven s →
      exec (.reelCursorWrite t v) s = .next { advance t s with reel := { s.reel with
        cursor := v, loading := true, loaded := (List.range 16).map (windowSlot s.reel v) } })
    ∧ ∀ (t : Nat) (s : State), awake s = true → PinDriven s → s.reel.loading = true →
      exec (.reelWindowLoadDone t) s = .next { advance t s with reel := { s.reel with
        window := s.reel.loaded, loading := false, loaded := [] } })

/-- A command taken from a ring (R62, R64, R65, R79, R74): MBX_HEAD advances; a command that breaks no rule and whose deadline has not
passed is in flight, last in the order it was taken, and the memory of its tag ends; one whose deadline has passed leaves the
record TIMEOUT; one that breaks a rule leaves the record VIOLATION and is counted in FLT_VIOL_CNT. Control threads (R193 to R195):
a command that waits and may start takes a free core and one of the COMMAND class's threads; at the end of a quantum of 200 µs a
ready thread of the same priority or higher runs next; a COMMAND class below its floor has its oldest ready thread raised to
priority 11. Completing, with the next state said: commandTake, threadDispatch, threadQuantumExpiry, classFloorWindow. -/
def Obligations.CommandIntake : Prop :=
  (∀ (t n : Nat) (entry payload : Bytes) (s : State), awake s = true → PinDriven s → 1 ≤ n → n < 16 → entry.length = 64 →
      mayTake n s = true →
      let op := field entry 0 2
      let tag := field entry 2 2
      let p := padTo (min (field entry 4 2) 4096) payload
      let bad := commandCheck layoutOf n false entry p (modMbx n (fun m => { m with head := m.head + 1 }) (advance t s))
      let dead := ∃ d, deadlineOf entry (max s.now t) = some d ∧ d ≤ max s.now t
      ∃ s', exec (.commandTake t n entry payload) s = .next s'
        ∧ (mbxOf s' n).head = (mbxOf s n).head + 1
        ∧ (bad = none → ¬ dead → (∃ c, s'.cmds = s.cmds ++ [c] ∧ c.ref = .mbx n tag ∧ c.opcode = op ∧ c.payload = p
              ∧ c.phase = .waiting ∧ c.deadline = deadlineOf entry (max s.now t) ∧ c.takenAt = max s.now t
              ∧ c.prio = mbxPrio s n
              ∧ c.ordered = (field entry 6 2).testBit 1)
            ∧ (mbxOf s' n).recs = (mbxOf s n).recs ∧ kget? (mbxOf s' n).tags tag = none)
        ∧ (bad = none → dead → s'.cmds = s.cmds ∧ ∃ r, (mbxOf s' n).recs = (mbxOf s n).recs ++ [r]
              ∧ r.tag = tag ∧ r.opcode = op ∧ r.status = 0x11)
        ∧ (∀ k a, bad = some (k, a) → s'.cmds = s.cmds ∧ s'.hif.violCnt = s.hif.violCnt + 1
            ∧ (s.hif.viol.getLsbD 31 = false → s'.hif.viol = violWord k false n tag ∧ s'.hif.violAddr = BitVec.ofNat 32 a)
            ∧ ∃ r, (mbxOf s' n).recs = (mbxOf s n).recs ++ [r] ∧ r.tag = tag ∧ r.status = 0x30))
  ∧ ((∀ (t core : Nat) (c : Cmd) (s : State), awake s = true → PinDriven s → core < 8 → s.sched.coresUp.testBit core = true →
      s.hif.ready = true → bestCmd s core = some c → onCore s core = none →
      exec (.threadDispatch t core) s = .next (giveCore core c (advance t s)))
    ∧ (∀ (t core : Nat) (c d : Cmd) (s : State), awake s = true → PinDriven s → onCore s core = some d →
      bestCmd s core = some c → d.prio ≤ c.prio → d.since + 200000 ≤ max s.now t →
      let z := modCmd d.ref (fun d => { d with core := none, turn := s.hif.turns }) (advance t s)
      exec (.threadQuantumExpiry t core) s =
        .next (giveCore core c { z with hif := { s.hif with turns := s.hif.turns + 1 } }))
    ∧ (∀ (t core : Nat) (d : Cmd) (s : State), awake s = true → PinDriven s → onCore s core = some d →
      max s.now t < d.since + 200000 → exec (.threadQuantumExpiry t core) s = .next (advance t s))
    ∧ ∀ (t a b k : Nat) (c : Cmd) (s : State), awake s = true → PinDriven s →
      (sortBy (fun c => c.order) (s.cmds.filter fun c => mayStart s c && (match c.ref with | .mbx _ _ => true | _ => false))).head? = some c →
      b * 10 < (setBits 8 s.sched.coresUp).length * 10000000 → backgroundThreads s = 0 →
      exec (.classFloorWindow t a b k) s = .next (modCmd c.ref (fun d => { d with prio := max d.prio 11 })
        { advance t s with sched := { s.sched with command := { s.sched.command with raises := s.sched.command.raises + 1 } } }))

/-- A command's completion (R66, R73): it is no longer in flight; its mailbox's completion bobbin gains one record with its tag,
opcode, status, DETAIL and response payload, its tag is remembered for 1 s, and no other mailbox changes; nothing else changes but
the COMMAND class's count of busy threads, where the command held one. A cue's command leaves no record. A response written (R62,
R66, R67): the oldest completion record of the mailbox leaves its bobbin for the response ring at RTAIL, its payload first and cut
to RESP_LEN with TRUNC, RTAIL advances and the interrupt of the mailbox is set; with no room in the ring, or while a record that
must come first waits on another mailbox (R73), nothing happens. An event written (R75) takes the oldest that waits. Completing,
with the next state said: responseWrite, eventWrite. -/
def Obligations.CommandCompletion : Prop :=
  ((∀ (c : Cmd) (n tag st d : Nat) (p : Bytes) (s : State), c.ref = .mbx n tag →
      findCmd c.ref (complete c st d p s) = none
      ∧ (mbxOf (complete c st d p s) n).recs = (mbxOf s n).recs ++
          [{ tag := tag, opcode := c.opcode, status := st, detail := BitVec.ofNat 64 d, payload := p
             respAddr := c.respAddr, respLen := c.respLen, inband := c.inband, time := s.now }]
      ∧ kget? (mbxOf (complete c st d p s) n).tags tag = some (s.now + 1000000000)
      ∧ (∀ k, k ≠ n → mbxOf (complete c st d p s) k = mbxOf s k)
      ∧ { complete c st d p s with cmds := s.cmds, mbx := s.mbx, sched := s.sched } = s
      ∧ { (complete c st d p s).sched with command := s.sched.command } = s.sched)
    ∧ ∀ (c : Cmd) (q i st d : Nat) (p : Bytes) (s : State), c.ref = .cue q i →
      findCmd c.ref (complete c st d p s) = none ∧ { complete c st d p s with cmds := s.cmds, time := s.time } = s)
  ∧ ((∀ (t n : Nat) (r : CRec) (rest : List CRec) (s : State), awake s = true → PinDriven s → 1 ≤ n → n < 16 →
      (mbxOf s n).recs = r :: rest → r.inband = none → r.after = none → ringRoom (mbxOf s n) = true → (mbxOf s n).draining = false →
      ∃ s', exec (.responseWrite t n) s = .next s' ∧ (mbxOf s' n).recs = rest ∧ (mbxOf s' n).rtail = (mbxOf s n).rtail + 1
        ∧ s'.hif.intStat.getLsbD n = true
        ∧ Out.response n ((mbxOf s n).rtail.toNat % ringSize (mbxOf s n)) r.respAddr (r.payload.take r.respLen)
            (responseEntry s.hif.compat r (decide (r.respLen < r.payload.length))
              ((mbxOf s n).rtail.toNat / ringSize (mbxOf s n) % 2 == 0) (r.payload.take r.respLen).length) ∈ s'.out)
    ∧ (∀ (t n : Nat) (s : State), awake s = true → PinDriven s → 1 ≤ n → n < 16 → (∀ r ∈ (mbxOf s n).recs, r.inband = none) →
      ringRoom (mbxOf s n) = false → exec (.responseWrite t n) s = .next (advance t s))
    ∧ (∀ (t n k tag : Nat) (r q : CRec) (rest : List CRec) (s : State), awake s = true → PinDriven s → 1 ≤ n → n < 16 →
      (mbxOf s n).recs = r :: rest → r.after = some (k, tag) → q ∈ (mbxOf s k).recs → q.tag = tag →
      exec (.responseWrite t n) s = .next (advance t s))
    ∧ ∀ (t : Nat) (e : Ev) (rest : List Ev) (s : State), awake s = true → PinDriven s → s.hif.evq = e :: rest →
      s.hif.lostCount = 0 → (mbxOf s 0).enable = true → ringRoom (mbxOf s 0) = true →
      ∃ s', exec (.eventWrite t) s = .next s' ∧ s'.hif.evq = rest ∧ s'.hif.evSeq = s.hif.evSeq + 1
        ∧ (mbxOf s' 0).rtail = (mbxOf s 0).rtail + 1 ∧ s'.hif.intStat.getLsbD 0 = true)

/-- SYS_NOP echoes its payload, and SYS_IDENT answers the identity of R71, 32 bytes: both with OK; an opcode that the device does not
implement ends UNSUPPORTED (R68). MBX_ABORT (R73): a command in flight is stopped, its outputs discarded, and ends ABORTED, and
the abort ends OK, its record held back until that of the command has been written; naming itself or a tag that nothing holds, it
ends NOT_FOUND; a remembered tag ends it ALREADY_DONE. A deadline acts as an abort at its instant, with TIMEOUT for ABORTED (R74);
before it, nothing happens. The drain of a mailbox that expires (R63): each of its commands still in flight is stopped and ends
ABORTED, and the drain counts them. The memory of a completed command's tag ends 1 s after its record (R73). Completing, with the
next state said: unsupported, commandDeadline, mailboxDrainTimeout, tagMemoryExpiry, sysNop, sysIdent, mbxAbort. -/
def Obligations.SystemCommands : Prop :=
  ((∀ (t : Nat) (r : CmdRef) (c : Cmd) (s : State), Ready 0x0000 r c s →
      exec (.sysNop t r) s = .next (complete c 0x00 0 c.payload (advance t s)))
    ∧ (∀ (t : Nat) (r : CmdRef) (c : Cmd) (s : State), Ready 0x0001 r c s →
      exec (.sysIdent t r) s = .next (complete c 0x00 0 (identBytes (advance t s)) (advance t s))
      ∧ (identBytes s).length = 32 ∧ field (identBytes s) 16 2 = 0x6430 ∧ field (identBytes s) 18 1 = s.upd.running % 256
      ∧ field (identBytes s) 12 4 = Config.serial.toNat ∧ byteAt (identBytes s) 6 = Config.wafer)
    ∧ ∀ (t op : Nat) (r : CmdRef) (c : Cmd) (s : State), awake s = true → Ready op r c s → layoutOf op c.payload = none →
      exec (.unsupported t r) s = .next (complete c 0x31 0 [] (advance t s)))
  ∧ ((∀ (t n tag : Nat) (r : CmdRef) (c : Cmd) (s : State), Ready 0x0101 r c s → field c.payload 0 1 = n → field c.payload 2 2 = tag →
      CmdRef.mbx n tag ≠ r → (findCmd (.mbx n tag) s).isSome = true →
      ∃ z, exec (.mbxAbort t r) s = .next (ended t s z) ∧ findCmd (.mbx n tag) z = none
        ∧ recordAfter c.ref n tag (complete c 0x00 0 [] (stopCmd (.mbx n tag) 0x13 (advance t s))) = z
        ∧ ∀ m own, c.ref = .mbx m own → (mbxOf z m).recs.any (fun x => x.tag == own && x.after == some (n, tag)) = true)
    ∧ (∀ (t n tag u : Nat) (r : CmdRef) (c : Cmd) (s : State), Ready 0x0101 r c s → field c.payload 0 1 = n →
      field c.payload 2 2 = tag → CmdRef.mbx n tag ≠ r → findCmd (.mbx n tag) s = none →
      kget? (mbxOf s n).tags tag = some u → max s.now t < u →
      exec (.mbxAbort t r) s = .next (complete c 0x03 0 [] (advance t s)))
    ∧ (∀ (t : Nat) (r : CmdRef) (c : Cmd) (s : State), Ready 0x0101 r c s →
      CmdRef.mbx (field c.payload 0 1) (field c.payload 2 2) = r →
      exec (.mbxAbort t r) s = .next (complete c 0x22 0 [] (advance t s)))
    ∧ ∀ (r : CmdRef) (st : Nat) (c : Cmd) (s : State), findCmd r s = some c → s.upd.act = none →
      findCmd r (stopCmd r st s) = none ∧ (stopCmd r st s).pending = s.pending
      ∧ ∀ n tag, r = .mbx n tag → ∃ d, (mbxOf (stopCmd r st s) n).recs = (mbxOf s n).recs ++ [d] ∧ d.tag = tag ∧ d.status = st)
  ∧ ((∀ (t d : Nat) (r : CmdRef) (c : Cmd) (s : State), awake s = true → findCmd r s = some c → c.deadline = some d →
      d ≤ max s.now t → exec (.commandDeadline t r) s = .next (ended t s (stopCmd r 0x11 (advance t s))))
    ∧ ∀ (t d : Nat) (r : CmdRef) (c : Cmd) (s : State), awake s = true → PinDriven s → findCmd r s = some c →
      c.deadline = some d → max s.now t < d → exec (.commandDeadline t r) s = .next (advance t s))
  ∧ ((∀ (t n : Nat) (d : Drain) (s : State), awake s = true → n < 16 →
      s.sched.drains.find? (fun d => d.function == 0xFF && d.inst == n) = some d → d.expires ≤ max s.now t →
      let z := forEach (inFlight s n) (advance t s) (fun c s => stopCmd c.ref 0x13 s)
      exec (.mailboxDrainTimeout t n) s = .next (ended t s (mbxDrainEnd n { z with sched := { z.sched with
        drains := z.sched.drains.map fun q =>
          if q.function == 0xFF && q.inst == n then { q with aborted := q.aborted + (inFlight s n).length } else q } })))
    ∧ ∀ (t n tag u : Nat) (s : State), awake s = true → PinDriven s → n < 16 → kget? (mbxOf s n).tags tag = some u →
      u ≤ max s.now t →
      exec (.tagMemoryExpiry t n tag) s = .next (modMbx n (fun m => { m with tags := kerase m.tags tag }) (advance t s)))

/-- MBX_KEY_SET (R71, R72, R78): with the key authority, a slot takes its key, a key of zeros empties it, and its highest SEQ restarts
at 0; without the authority it ends DENIED with the keys as they were. MBX_INBAND_SET: enabled, mailbox 15 serves in-band on the
port, UDP port, address and keys given. An in-band datagram (R77, R78) to the port, address and UDP port in service, a standard
one that is not retired, in a frame of legal length (R268), of VERSION 1, whole, at most 64 commands in flight, under a permitted
key slot that is not empty: with a wrong MAC it is counted in INB_AUTHFAIL, with an old SEQ in INB_REPLAY, and otherwise in INB_RX
with its SEQ the highest of the slot, and its command is taken on mailbox 15. A datagram shorter than 60 bytes is counted in
INB_DROP. Completing, with the next state said: inbandDatagram, mbxInbandSet, mbxKeySet. -/
def Obligations.InbandMailbox : Prop :=
  ((∀ (t : Nat) (r : CmdRef) (c : Cmd) (s : State), Ready 0x0103 r c s → keyAuthority c = true → field c.payload 0 1 ≤ 3 →
      ∃ s', exec (.mbxKeySet t r) s = .next (complete c 0x00 0 [] s')
        ∧ kget? s'.hif.keys (field c.payload 0 1) =
            (if (bytesAt c.payload 4 32).all (· == 0#8) then none else some (bytesAt c.payload 4 32))
        ∧ (∀ k, k ≠ field c.payload 0 1 → kget? s'.hif.keys k = kget? s.hif.keys k)
        ∧ kgetD s'.hif.keySeq (field c.payload 0 1) 0 = 0 ∧ { s' with hif := s.hif } = advance t s)
    ∧ (∀ (t : Nat) (r : CmdRef) (c : Cmd) (s : State), Ready 0x0103 r c s → keyAuthority c = false →
      exec (.mbxKeySet t r) s = .next (complete c 0x24 0 [] (advance t s)))
    ∧ ∀ (t : Nat) (r : CmdRef) (c : Cmd) (s : State), Ready 0x0102 r c s → keyAuthority c = true → field c.payload 0 1 = 1 →
      field c.payload 1 1 ≤ 63 → field c.payload 2 2 ≠ 0 → field c.payload 4 4 ≠ 0 → (mbxOf s 15).enable = false →
      (setBits 4 (field c.payload 8 1 % 16)).all (fun k => (kgetD s.hif.keys k []).isEmpty) = false →
      exec (.mbxInbandSet t r) s = .next (complete c 0x00 0 [] { advance t s with hif := { s.hif with
        inbEnabled := true, inband := true, inbPort := field c.payload 1 1, inbUdp := field c.payload 2 2,
        inbIp := BitVec.ofNat 32 (beNat (bytesAt c.payload 4 4)), inbKeys := field c.payload 8 1 % 16 } }))
  ∧ (∀ (t : Nat) (d : Datagram) (s : State), awake s = true → PinDriven s → Receives s d.port (udpLen d.payload.length) false →
      s.hif.inband = true → s.hif.inbEnabled = true → s.hif.ready = true → d.port = s.hif.inbPort → d.dstIp = s.hif.inbIp →
      d.udpPort = s.hif.inbUdp →
      let p := d.payload
      let len := field p 16 2
      let slot := field p 1 1
      let key := kgetD s.hif.keys slot []
      let whole := d.fragment = false ∧ p.length = 60 + len ∧ field p 0 1 = 1 ∧ (inFlight s 15).length < 64 ∧ slot < 4
        ∧ s.hif.inbKeys.testBit slot = true ∧ key ≠ []
      ∃ s', exec (.inbandDatagram t d) s = .next s'
        ∧ (p.length < 60 → s'.hif.inbDrop = s.hif.inbDrop + 1 ∧ s'.cmds = s.cmds)
        ∧ (whole → hmacSha256 key (p.take (28 + len)) ≠ p.drop (28 + len) →
            s'.hif.inbAuthFail = s.hif.inbAuthFail + 1 ∧ s'.cmds = s.cmds)
        ∧ (whole → hmacSha256 key (p.take (28 + len)) = p.drop (28 + len) → field p 4 8 ≤ kgetD s.hif.keySeq slot 0 →
            s'.hif.inbReplay = s.hif.inbReplay + 1 ∧ s'.cmds = s.cmds)
        ∧ (whole → hmacSha256 key (p.take (28 + len)) = p.drop (28 + len) → kgetD s.hif.keySeq slot 0 < field p 4 8 →
            s'.hif.inbRx = s.hif.inbRx + 1 ∧ kgetD s'.hif.keySeq slot 0 = field p 4 8))

/-! ## The wall and placement -/

/-- WALL_DEFINE (R87, R88): a fragment of at least one data byte that begins at 0, or where the staged image ends with the same TOTAL,
and ends within TOTAL, is staged, and the command ends OK with DETAIL the bytes staged; any other fragment ends RANGE, with DETAIL
the bytes staged before (the model's choice, log 73), and stages nothing. WALL_STATUS answers the staged bytes, the active wall's
CRC, epoch, tiles and chains, and the state (R87). WALL_ACTIVATE (R89): a whole staged image that passes the header, CRC, record,
source, port and rule checks, with no change pending, is pending, and a placement of cause 0 is asked for; the command ends
ACCEPTED. With a change pending it ends STATE; with a header field wrong, RANGE with DETAIL its offset; with the CRC wrong, STATE:
in each case no wall is pending. Completing, with the next state said: wallDefine, wallActivate, wallStatus. -/
def Obligations.WallCommands : Prop :=
  ((∀ (t : Nat) (r : CmdRef) (c : Cmd) (s : State), Ready 0x0201 r c s →
      let o := field c.payload 0 4
      let total := field c.payload 4 4
      let data := c.payload.drop 16
      let good := 32 ≤ total ∧ total ≤ 353312 ∧ data ≠ [] ∧ data.length ≤ 4080 ∧ o + data.length ≤ total
        ∧ (o = 0 ∨ (o = s.wall.staged.length ∧ total = s.wall.stagedTotal))
      let staged := if o = 0 then data else s.wall.staged ++ data
      (good → exec (.wallDefine t r) s = .next (complete c 0x00 staged.length []
        { advance t s with wall := { s.wall with staged := staged, stagedTotal := total } }))
      ∧ (¬ good → exec (.wallDefine t r) s = .next (complete c 0x21 s.wall.staged.length [] (advance t s))))
    ∧ (∀ (t : Nat) (r : CmdRef) (c : Cmd) (s : State), Ready 0x0203 r c s →
      exec (.wallStatus t r) s = .next (complete c 0x00 0 (wallStatusBytes s) (advance t s)))
    ∧ ∀ s : State, s.wall.active = none → s.wall.pending = none → field (wallStatusBytes s) 0 4 = s.wall.staged.length % 2 ^ 32
        ∧ field (wallStatusBytes s) 4 4 = 0 ∧ field (wallStatusBytes s) 15 1 = 0 ∧ (wallStatusBytes s).length = 16)
  ∧ (∀ (t : Nat) (r : CmdRef) (c : Cmd) (s : State), Ready 0x0202 r c s →
      let b := s.wall.staged
      let w := parseWall b
      let keep := bit (field c.payload 0 1) 0
      let pins := if keep then s.place.pins.filter (pinKept w) else []
      (changePending s = true → exec (.wallActivate t r) s = .next (settled t s (complete c 0x23 0 [] (advance t s))))
      ∧ (∀ o, changePending s = false → b ≠ [] → b.length = s.wall.stagedTotal → headBad b s.wall.stagedTotal = some o →
          exec (.wallActivate t r) s = .next (settled t s (complete c 0x21 o [] (advance t s))))
      ∧ (changePending s = false → b ≠ [] → b.length = s.wall.stagedTotal → headBad b s.wall.stagedTotal = none → wallCrc b ≠ w.crc →
          exec (.wallActivate t r) s = .next (settled t s (complete c 0x23 0 [] (advance t s))))
      ∧ (changePending s = false → b ≠ [] → b.length = s.wall.stagedTotal → headBad b s.wall.stagedTotal = none →
          wallCrc b = w.crc → imageBad b w = none → sourceMissing s w = none → (wallPorts w).any (portServes s) = false →
          wallRulesBad w s.place.profile pins (advance t s) = none →
          exec (.wallActivate t r) s = .next (settled t s (calmWake 4 (placeTrigger 0 0 0 (complete c 0x01 0 []
            { advance t s with wall := { s.wall with pending := some (w, keep), pendKept := b } }))))))

/-- PLACE_PROFILE (R91, R93): a profile other than the one in force, admitted, with no change pending, is pending with a placement of
cause 1, and ends ACCEPTED; the one in force ends OK at once; a value above 3 ends RANGE. PLACE_PIN (R99, R104): a pin that the
wall has and that fits is held under the lowest free number, which DETAIL gives. PLACE_UNPIN: every pin of the number, or with
0xFFFF every pin, is freed; a number that no pin has ends NOT_FOUND. PLACE_REPORT answers the placement (R105). A placement that
is due with no mode in force comes into force when its lead of 8 ms has passed (R94, R100): with the profile, the wall and the
pins that waited for it; before that nothing happens. With a profile pending alone, the profile in force is the one asked for, its
setpoint window holds VCORE (R20), and no shed step is left (R93). Completing, with the next state said: placeProfile, placePin,
placeUnpin, placeReport, placementLeadExpiry. -/
def Obligations.PlacementCommands : Prop :=
  ((∀ (t : Nat) (r : CmdRef) (c : Cmd) (s : State), Ready 0x0301 r c s →
      let p := field c.payload 0 1
      (3 < p → exec (.placeProfile t r) s = .next (settled t s (complete c 0x21 0 [] (advance t s))))
      ∧ (p ≤ 3 → changePending s = false → p = s.place.profile →
          exec (.placeProfile t r) s = .next (settled t s (complete c 0x00 0 [] (advance t s))))
      ∧ (p ≤ 3 → changePending s = false → p ≠ s.place.profile → (p = 3 → modeN s.mode.mode ≤ 1) → s.wall.active = none →
          admits none s.weave.active s.mode.mode p (advance t s) = true →
          exec (.placeProfile t r) s = .next (settled t s (calmWake 4 (placeTrigger 1 0 0 (complete c 0x01 0 []
            { advance t s with place := { s.place with pendProfile := some p }
                               mode := { s.mode with calmAuto := s.mode.calmAuto && p != 3 } }))))))
    ∧ (∀ (t : Nat) (r : CmdRef) (c : Cmd) (s : State) (w : WallImg), Ready 0x0302 r c s → s.wall.active = some w →
      let q := parsePin c.payload (freePin s) (s.place.gen + (if s.place.triggers.isEmpty then 1 else 2))
      q.kind = 0 → pinAbsent w q = false → s.place.pins.length < 256 → pinOverlaps s q = false → q.target ≤ 15 →
      buffersFit (advance t s) w s.place.profile (s.place.pins ++ [q]) = true → s.place.profile ≠ 2 →
      exec (.placePin t r) s = .next (settled t s (pinTrigger (complete c 0x00 q.num []
        { advance t s with place := { s.place with pins := s.place.pins ++ [q] } }))))
    ∧ (∀ (t : Nat) (r : CmdRef) (c : Cmd) (s : State), Ready 0x0303 r c s →
      let n := field c.payload 0 2
      let rest := if n = 0xFFFF then [] else s.place.pins.filter fun p => p.num != n
      ((n = 0xFFFF ∨ s.place.pins.any (fun p => p.num == n) = true) → exec (.placeUnpin t r) s = .next (settled t s
        (pinTrigger (complete c 0x00 0 [] { advance t s with place := { s.place with pins := rest } }))))
      ∧ (n ≠ 0xFFFF → s.place.pins.any (fun p => p.num == n) = false →
          exec (.placeUnpin t r) s = .next (settled t s (complete c 0x22 0 [] (advance t s)))))
    ∧ ∀ (t : Nat) (r : CmdRef) (c : Cmd) (s : State), Ready 0x0304 r c s →
      exec (.placeReport t r) s = .next (complete c 0x00 0 (placeReportBytes (advance t s)) (advance t s)))
  ∧ ((∀ (t d : Nat) (s : State), awake s = true → s.mode.mode = 0 → s.mode.pending = none → placeDueAt (advance t s) = some d →
      d ≤ max s.now t → exec (.placementLeadExpiry t) s =
        .next (settled t s (fixNow (placementInForce (dueTriggers (max s.now t) false s.place.triggers) (epochNow s) (advance t s)))))
    ∧ (∀ (t d : Nat) (s : State), awake s = true → s.mode.mode = 0 → s.mode.pending = none → placeDueAt (advance t s) = some d →
      max s.now t < d → exec (.placementLeadExpiry t) s = .next (settled t s (advance t s)))
    ∧ ∀ (p : Nat) (s : State), s.place.pendProfile = some p →
      (profileInForce s).place.profile = p ∧ (profileInForce s).place.pendProfile = none ∧ (profileInForce s).place.shed = 0
      ∧ (vWindow p).1 ≤ (profileInForce s).fab.vcore ∧ (profileInForce s).fab.vcore ≤ (vWindow p).2
      ∧ { profileInForce s with place := s.place, fab := s.fab } = s)

/-! ## The weave -/

/-- WEAVE_LOAD returns STATE, and changes nothing, while a completed weave has not yet taken effect, while a profile change is
pending, and while a wall activation is pending (R170). -/
def Obligations.WeaveLoadRefused : Prop :=
  ∀ (t : Nat) (r : CmdRef) (c : Cmd) (s : State), Ready 0x0401 r c s →
    (s.weave.pend ≠ none ∨ s.place.pendProfile ≠ none ∨ s.wall.pending ≠ none) →
    exec (.weaveLoad t r) s = .next (complete c 0x23 0 [] (advance t s))

/-- WEAVE_LOAD (R169, R170): with no weave pending or in build and no profile or wall pending, a payload that breaks no rule starts
its build and the command waits; a payload that breaks one ends with the status and DETAIL of the first broken rule and the weave
in force stands. When the build ends the command ends OK, and with no mode in force the weave is in force at once (R528),
otherwise it is pending for the next boundary. WEAVE_TABLE (R171): a slot that no weave in force, pending or in build and no
waiting WEAVE_PARAM names takes its entries, a first entry of 0 starting it anew; one in use ends STATE. WEAVE_STATUS and
WEAVE_COUNTERS answer what R173 and R174 give; counters of a node that the weave in force does not hold end NOT_FOUND. WEAVE_PARAM
(R172) for the weave in force, its entries sound: with no mode in force WHEN 0 applies it at once and the command ends; with one,
it waits for the first boundary at least 500 µs after the command was taken, unless 16 changes wait already, which ends it BUSY.
An applied change replaces the parameters of the nodes it names and no others, and ends the command. Completing, with the next
state said: weaveLoad, weaveTable, weaveParam, weaveStatus, weaveCounters, weaveLoadDone. -/
def Obligations.WeaveCommands : Prop :=
  ((∀ (t : Nat) (r : CmdRef) (c : Cmd) (s : State), Ready 0x0401 r c s → s.weave.pend = none → s.weave.building = none →
      s.place.pendProfile = none → s.wall.pending = none →
      (weaveBad c.payload (advance t s) = none → exec (.weaveLoad t r) s = .next (ended t s (calmWake 4 (park c
        { advance t s with weave := { s.weave with
          building := some (c.ref, { id := field c.payload 0 2, nodes := parseNodes c.payload (field c.payload 2 1) }) } }))))
      ∧ ∀ st d, weaveBad c.payload (advance t s) = some (st, d) →
          exec (.weaveLoad t r) s = .next (complete c st d [] (advance t s)))
    ∧ (∀ (t : Nat) (r : CmdRef) (c : Cmd) (w : Weave) (s : State), awake s = true → s.weave.building = some (r, w) →
      findCmd r s = some c → s.mode.mode = 0 →
      exec (.weaveLoadDone t) s = .next (settled t s (weaveInForce w (complete c 0x00 0 []
        { advance t s with weave := { s.weave with building := none } }))))
    ∧ (∀ (t : Nat) (r : CmdRef) (c : Cmd) (w : Weave) (s : State), awake s = true → s.weave.building = some (r, w) →
      findCmd r s = some c → s.mode.mode ≠ 0 → s.wall.active ≠ none →
      let z := complete c 0x00 0 [] { advance t s with weave := { s.weave with building := none } }
      exec (.weaveLoadDone t) s = .next (settled t s { z with weave := { z.weave with pend := some w, pendAt := nextBoundary z } }))
    ∧ ∀ (w : Weave) (s : State), (weaveInForce w s).weave.active = some w ∧ (weaveInForce w s).weave.pend = none
      ∧ (weaveInForce w s).mode.moved = true ∧ (weaveInForce w s).weave.nodes.length = w.nodes.length
      ∧ ∀ e ∈ (weaveInForce w s).weave.nodes, e.2.sat = 0 ∧ e.2.nan = 0 ∧ e.2.invalidIn = 0 ∧ e.2.poisonIn = 0)
  ∧ ((∀ (t : Nat) (r : CmdRef) (c : Cmd) (s : State), Ready 0x0402 r c s →
      let k := field c.payload 0 1
      let first := field c.payload 2 2
      let n := field c.payload 4 2
      k ≤ 15 → first ≤ 1024 → n ≠ 0 → n ≤ 340 → first + n ≤ 1025 →
      (tableInUse s k = true → exec (.weaveTable t r) s = .next (complete c 0x23 0 [] (advance t s)))
      ∧ (tableInUse s k = false → exec (.weaveTable t r) s = .next (complete c 0x00 0 [] { advance t s with weave :=
          { s.weave with tables := kset s.weave.tables k ((List.range n).foldl (fun tb i => kset tb (first + i)
            (field c.payload (8 + 12 * i) 4, field c.payload (12 + 12 * i) 4, field c.payload (16 + 12 * i) 4))
            (if first = 0 then [] else kgetD s.weave.tables k [])) } })))
    ∧ (∀ (t : Nat) (r : CmdRef) (c : Cmd) (s : State), Ready 0x0404 r c s →
      exec (.weaveStatus t r) s = .next (complete c 0x00 0 (weaveStatusBytes (advance t s)) (advance t s)))
    ∧ ∀ (t : Nat) (r : CmdRef) (c : Cmd) (s : State), Ready 0x0405 r c s →
      (∀ w, s.weave.active = some w → field c.payload 0 1 < w.nodes.length → ∃ b : Bytes, b.length = 32
        ∧ exec (.weaveCounters t r) s = .next (complete c 0x00 0 b (advance t s))
        ∧ field b 0 8 = (kgetD s.weave.nodes (field c.payload 0 1) {}).sat.toNat
        ∧ field b 8 4 = (kgetD s.weave.nodes (field c.payload 0 1) {}).nan.toNat)
      ∧ (s.weave.active = none → exec (.weaveCounters t r) s = .next (complete c 0x22 0 [] (advance t s))))
  ∧ ((∀ (t : Nat) (r : CmdRef) (c : Cmd) (w : Weave) (s : State), Ready 0x0403 r c s → s.weave.active = some w → s.weave.pend = none →
      field c.payload 0 2 = w.id → field c.payload 2 1 ≤ 1 → field c.payload 3 1 = 0 → field c.payload 12 1 ≠ 0 →
      field c.payload 12 1 ≤ 16 → paramEntriesBad w c.payload (field c.payload 12 1) (advance t s) = none →
      let q : ParamWait := { ref := c.ref, order := c.order, weaveId := w.id, timed := false
                             epoch := BitVec.ofNat 32 (field c.payload 4 4), at_ := max s.now t, late := 0, grace := field c.payload 8 4
                             entries := (List.range (field c.payload 12 1)).map fun i =>
                               (field c.payload (16 + 32 * i) 1, bytesAt c.payload (20 + 32 * i) 28) }
      (s.mode.mode = 0 → exec (.weaveParam t r) s = .next (ended t s (calmWake 4 (paramApply q (advance t s)))))
      ∧ (s.mode.mode ≠ 0 → s.weave.params.length < 16 → exec (.weaveParam t r) s = .next (ended t s (calmWake 4 (park c
          { advance t s with weave := { s.weave with params :=
            s.weave.params ++ [{ q with at_ := c.takenAt + 500000 }] } }))))
      ∧ (s.mode.mode ≠ 0 → 16 ≤ s.weave.params.length →
          exec (.weaveParam t r) s = .next (complete c 0x10 0 [] (advance t s))))
    ∧ ∀ (q : ParamWait) (c : Cmd) (w : Weave) (s : State), s.weave.active = some w → w.id = q.weaveId → findCmd q.ref s = some c →
      findCmd q.ref (paramApply q s) = none ∧ ∃ v, (paramApply q s).weave.active = some v ∧ v.id = w.id
        ∧ v.nodes.length = w.nodes.length
        ∧ ∀ i nd, w.nodes[i]? = some nd → ∃ nd', v.nodes[i]? = some nd' ∧ nd'.kind = nd.kind ∧ nd'.a = nd.a ∧ nd'.b = nd.b
            ∧ (q.entries.all (fun e => e.1 != i) = true → nd' = nd))

/-- The start of a weave (R134, R177, R230): the epoch is being sent, to be committed at the next boundary, with no skein closed yet,
and the pace loop runs; a period that weaves nothing sends nothing. Entering Calm (R216): the epoch is not sent, every bank in
service is gated, and the DRAM refreshes itself. A pixel that completes (R176, R180): its slot in the frame store is what the
weave delivers, poisoned where the error arose in the spindle, and the spindle goes on to the next pixel; a spindle with no hank
does nothing. A hank whose last PACK write is acknowledged is counted and the spindle starts the token it prefetched. Completing,
with the next state said: pixelComplete, hankComplete, spindleStall. -/
def Obligations.WeaveWork : Prop :=
  ((∀ (e : U32) (s : State),
      let s' := beginWeave e s
      s'.link.epoch = e ∧ s'.link.commitAt = nextBoundary s ∧ s'.link.sending = true ∧ s'.mode.weaving = true
      ∧ s'.fab.frozen = false ∧ s'.mode.lastWeaveStart = some s.now ∧ (∀ k ∈ s'.link.skeins, k.closed = false ∧ k.sends = 0
          ∧ k.acks = []))
    ∧ (∀ s : State, (idlePeriod s).link.sending = false ∧ (idlePeriod s).link.skeins = [] ∧ (idlePeriod s).mode.weaving = false
        ∧ (idlePeriod s).fab.frozen = true ∧ (idlePeriod s).store = s.store)
    ∧ ∀ s : State, (calmEnter s).mode.calm = true ∧ (calmEnter s).link.sending = false ∧ (calmEnter s).mode.weaving = false
        ∧ (calmEnter s).store.selfRefresh = true ∧ (calmEnter s).mode.counter = s.mode.counter
        ∧ ∀ b, b < 16 → sbankUp s b = true → (sbOf (calmEnter s) b).gated = true)
  ∧ ((∀ (t i : Nat) (bad : Bool) (h : Hank) (w : WallImg) (v : Weave) (q : TileRec) (s : State), awake s = true →
      (spOf s i).hank = some h → (spOf s i).done < h.count → s.wall.active = some w → s.weave.active = some v →
      tileOf w h.tile = some q →
      let px := h.first + (spOf s i).done
      let slot := byteAt (leN 4 s.mode.slots.toNat) (s.mode.n % modeN s.mode.mode)
      let z := weavePixel v { wall := w, tile := q, idx := px, base := slot.toNat % 16, black := bit slot.toNat 7 } (advance t s)
      let key := wovenKey w q h.epoch px
      ∃ s', exec (.pixelComplete t i bad) s = .next (settled t s s') ∧ (spOf s' i).hank = some h
        ∧ (spOf s' i).done = (spOf s i).done + 1
        ∧ ((∀ b, bankOfKey z.2 key = some b → (kgetD z.2.store.banks b {}).armed = []) →
            wordAt s' key = { data := BitVec.ofNat 64 (slotWord z.1.ply z.1.valid (z.1.poison || bad)) }))
    ∧ (∀ (t i : Nat) (bad : Bool) (s : State), awake s = true → (spOf s i).hank = none →
      exec (.pixelComplete t i bad) s = .next (settled t s (advance t s)))
    ∧ (∀ (t i : Nat) (h k : Hank) (rest : List Hank) (s : State), awake s = true → (spOf s i).hank = some h → h.count ≠ 0 →
      h.count ≤ (spOf s i).done → (spOf s i).draining = false → (spOf s i).prefetch = k :: rest →
      ∃ s', exec (.hankComplete t i) s = .next (settled t s s') ∧ (spOf s' i).hank = some k ∧ (spOf s' i).done = 0
        ∧ (spOf s' i).prefetch = rest ∧ (sbOf s' (spBank i)).hanks = (sbOf s (spBank i)).hanks + 1 ∧ s'.store = s.store)
    ∧ (∀ (t i : Nat) (h : Hank) (s : State), awake s = true → (spOf s i).hank = some h → (spOf s i).done < h.count →
      exec (.hankComplete t i) s = .next (settled t s (advance t s)))
    ∧ (∀ (t i : Nat) (h : Hank) (s : State), awake s = true → (spOf s i).hank = some h → (spOf s i).done < h.count →
      (spOf s i).pxStart + 10000 ≤ max s.now t → spUp s i = true →
      exec (.spindleStall t i) s = .next (settled t s (raise (0x2800 + i) 0 [] (advance t s))))
    ∧ ∀ (t i : Nat) (h : Hank) (s : State), awake s = true → (spOf s i).hank = some h → max s.now t < (spOf s i).pxStart + 10000 →
      exec (.spindleStall t i) s = .next (settled t s (advance t s)))

/-! ## Ingest and the frame store -/

/-- The INGEST definitions (R110, R117, R119, R121, R125, R128): a source that is not in the wall and whose fields lie in their ranges
takes its definition, for video and audio with an IGMP report on its port for a multicast group; KIND 0xFF removes a tap.
INGEST_REMOVE (R109, R128): an object of a kind that is not defined ends NOT_FOUND; a map not in the wall is removed.
INGEST_COUNTERS answers the counters of R129, and INGEST_TAP_READ every tap's value, 0x80000000 for one not defined. Completing,
with the next state said: ingestVideoDefine, ingestAudioDefine, ingestTapDefine, ingestSacnMapDefine, ingestPlaneDefine,
ingestRemove, ingestCounters, ingestTapRead. -/
def Obligations.IngestCommands : Prop :=
  ((∀ (t : Nat) (r : CmdRef) (c : Cmd) (s : State), Ready 0x0501 r c s →
      let p := c.payload
      let fmt := field p 15 1
      field p 0 2 ≤ 1023 → field p 2 1 ≤ 63 → field p 3 1 ≤ 2 → field p 14 1 ∈ [8, 10, 12] → fmt % 16 ≤ 1 → fmt / 16 % 4 ≤ 1 →
      1 ≤ field p 16 2 → field p 16 2 ≤ 8192 → 1 ≤ field p 18 2 → field p 18 2 ≤ 8192 → field p 16 2 * field p 18 2 ≤ 33554432 →
      field p 20 2 = 0 → field p 22 2 = 0 → (khas s.ing.videos (field p 0 2) = true ∨ s.ing.videos.length < 32) →
      sourceInWall s 0 (field p 0 2) = false → isChainPort s (field p 2 1) = false →
      ∃ s' v, exec (.ingestVideoDefine t r) s = .next (complete c 0x00 0 [] s') ∧ kget? s'.ing.videos (field p 0 2) = some v
        ∧ v.port = field p 2 1 ∧ v.sampling = field p 3 1 ∧ v.udp = field p 12 2 ∧ v.depth = field p 14 1 ∧ v.w = field p 16 2
        ∧ v.h = field p 18 2 ∧ v.nits = 203 ∧ v.thresh = 0 ∧ v.lost = true ∧ v.hasFront = false
        ∧ (khas s.ing.videos (field p 0 2) = false → s'.fab = s.fab)
        ∧ { s' with ing := s.ing, link := s.link, fab := s.fab } = advance t s)
    ∧ (∀ (t : Nat) (r : CmdRef) (c : Cmd) (s : State), Ready 0x0501 r c s →
      ∃ s' st, exec (.ingestVideoDefine t r) s = .next s' ∧ findCmd r s' = none ∧ st ∈ [0x00, 0x21, 0x23]
        ∧ (st = 0x00 → khas s'.ing.videos (field c.payload 0 2) = true)
        ∧ (st ≠ 0x00 → s' = complete c st 0 [] (advance t s)))
    ∧ (∀ (t : Nat) (r : CmdRef) (c : Cmd) (s : State), Ready 0x0502 r c s →
      let p := c.payload
      field p 0 1 ≤ 15 → field p 1 1 ≤ 63 → 1 ≤ field p 2 1 → field p 2 1 ≤ 8 → field p 3 1 + field p 2 1 ≤ 64 → field p 14 1 ≤ 1 →
      field p 16 2 = 0 → s.ing.audios = [] → isChainPort s (field p 1 1) = false → field p 4 1 = 0 →
      ∃ s', exec (.ingestAudioDefine t r) s = .next (complete c 0x00 0 [] s')
        ∧ (∃ a, kget? s'.ing.audios (field p 0 1) = some a ∧ a.port = field p 1 1 ∧ a.channels = field p 2 1
            ∧ a.first = field p 3 1 ∧ a.udp = field p 12 2 ∧ a.offsetUs = 1000 ∧ a.lost = true)
        ∧ { s' with ing := s.ing } = advance t s)
    ∧ (∀ (t : Nat) (r : CmdRef) (c : Cmd) (s : State), Ready 0x0503 r c s → field c.payload 0 1 ≤ 31 → field c.payload 1 1 = 0xFF →
      exec (.ingestTapDefine t r) s = .next (complete c 0x00 0 [] { advance t s with ing :=
        { s.ing with taps := kerase s.ing.taps (field c.payload 0 1) } }))
    ∧ (∀ (t : Nat) (r : CmdRef) (c : Cmd) (s : State), Ready 0x0505 r c s →
      let p := c.payload
      let v : HPlane := { layout := field p 2 1, transfer := field p 3 1, gamma := field p 4 2, w := field p 6 2, h := field p 8 2 }
      field p 0 2 ≤ 1023 → v.layout ≤ 3 → v.transfer ≤ 2 → v.transfer ≠ 1 → v.gamma = 0 → 1 ≤ v.w → v.w ≤ 16384 → 1 ≤ v.h →
      v.h ≤ 16384 → v.w * v.h * layoutBytes v.layout ≤ 234881024 → kget? s.ing.planes (field p 0 2) = none →
      s.ing.planes.length < 64 →
      exec (.ingestPlaneDefine t r) s = .next (complete c 0x00 0 [] { advance t s with ing :=
        { s.ing with planes := kset s.ing.planes (field p 0 2) v } }))
    ∧ ∀ (t : Nat) (r : CmdRef) (c : Cmd) (s : State), Ready 0x0504 r c s →
      ∃ s' st, exec (.ingestSacnMapDefine t r) s = .next s' ∧ findCmd r s' = none ∧ st ∈ [0x00, 0x21, 0x23]
        ∧ (st = 0x00 → ∃ m, kget? s'.ing.maps (field c.payload 0 2) = some m ∧ m.firstUniv = field c.payload 4 2
            ∧ m.channels = field c.payload 3 1)
        ∧ (st ≠ 0x00 → s' = complete c st 0 [] (advance t s)))
  ∧ ((∀ (t : Nat) (r : CmdRef) (c : Cmd) (s : State), Ready 0x0507 r c s →
      (field c.payload 0 1 = 2 → khas s.ing.maps (field c.payload 2 2) = true → sourceInWall s 2 (field c.payload 2 2) = false →
        exec (.ingestRemove t r) s = .next (complete c 0x00 0 [] { advance t s with ing :=
          { s.ing with maps := kerase s.ing.maps (field c.payload 2 2) } }))
      ∧ (field c.payload 0 1 = 0 → kget? s.ing.videos (field c.payload 2 2) = none →
        exec (.ingestRemove t r) s = .next (complete c 0x22 0 [] (advance t s))))
    ∧ (∀ (t : Nat) (r : CmdRef) (c : Cmd) (k : IngCnt) (s : State), Ready 0x0508 r c s →
      ingestCnt s (field c.payload 0 1) (field c.payload 2 2) = some k →
      exec (.ingestCounters t r) s = .next (complete c 0x00 0 (ingestBytes k) (advance t s))
      ∧ (ingestBytes k).length = 64 ∧ field (ingestBytes k) 0 8 = k.packets.toNat ∧ field (ingestBytes k) 36 4 = k.frames.toNat)
    ∧ ∀ (t : Nat) (r : CmdRef) (c : Cmd) (s : State), Ready 0x0509 r c s →
      ∃ b : Bytes, exec (.ingestTapRead t r) s = .next (complete c 0x00 0 b (advance t s)) ∧ b.length = 128
        ∧ ∀ i, i < 32 → (kget? s.ing.taps i = none → field b (4 * i) 4 = 0x80000000)
            ∧ ∀ q, kget? s.ing.taps i = some q → field b (4 * i) 4 = twos 32 q.value)

/-- INGEST_PLANE_SUBMIT (R126): a submission to a plane that has none in progress starts its copy and the command waits; while one is,
it ends STATE; for a plane not defined, NOT_FOUND. When the copy ends on time with no mode in force, the command ends OK and the
back copy becomes the front copy. What arrives at ingest and its clocks: a video packet received on a standard port that no stream
takes is counted UNMATCHED (R107) and changes no stream; an audio packet of a stream whose samples are all in time is counted
(R118) and the stream receives (R130); the sample of its media clock that is due reaches each of its channels (R118); a stream
silent for 100 ms of video or 20 ms of audio is lost, with SOURCE_STATE (R130), and before that nothing happens; an sACN source
silent for 2.5 s leaves its universe (R122); the first packet of a universe makes its sender the source, counts for every map that
receives it, and its data become pending or wait for the map's synchronization packet, which makes them pending (R121 to R124).
The verdict on a packet consumed by cut-through (R113, R114, R268): a frame whose check fails is counted as an FCS error of its
port, and its packet's pixels are not valid and count as a rollback, but not where its words were poisoned; a packet whose check
passes stands; with no packet waiting for its verdict nothing happens. Completing, with the next state said: ingestPlaneSubmit,
planeCopyDone, videoPacket, fcsVerdict, audioPacket, audioSampleDue, sacnDataPacket, sacnSyncPacket, sacnSourceTimeout,
streamLostTimeout, igmpQuery. -/
def Obligations.IngestStreams : Prop :=
  ((∀ (t : Nat) (r : CmdRef) (c : Cmd) (v : HPlane) (s : State), Ready 0x0506 r c s →
      let p := c.payload
      kget? s.ing.planes (field p 0 2) = some v → field p 2 1 ≤ 1 → field p 3 1 = 0 → field p 8 8 % 4 = 0 → field p 16 4 % 4 = 0 →
      v.w * layoutBytes v.layout ≤ field p 16 4 →
      (v.sub = none → ∃ s', exec (.ingestPlaneSubmit t r) s = .next s' ∧ (∃ u, kget? s'.ing.planes (field p 0 2) = some u
          ∧ u.front = v.front ∧ ∃ q, u.sub = some q ∧ q.ref = r ∧ q.stride = field p 16 4 ∧ q.copied = false)
        ∧ (findCmd r s').isSome = true ∧ s'.store = s.store)
      ∧ (v.sub ≠ none → exec (.ingestPlaneSubmit t r) s = .next (complete c 0x23 0 [] (advance t s))))
    ∧ (∀ (t : Nat) (r : CmdRef) (c : Cmd) (s : State), Ready 0x0506 r c s → kget? s.ing.planes (field c.payload 0 2) = none →
      exec (.ingestPlaneSubmit t r) s = .next (complete c 0x22 0 [] (advance t s)))
    ∧ ∀ (t id : Nat) (image : Bytes) (c : Cmd) (v : HPlane) (q : Submit) (s : State), awake s = true → s.mode.mode = 0 →
      kget? s.ing.planes id = some v → v.sub = some q → q.copied = false → q.when_ = 0 → findCmd q.ref s = some c →
      ∃ s', exec (.planeCopyDone t id image) s = .next (settled t s s') ∧ findCmd q.ref s' = none
        ∧ ∃ u, kget? s'.ing.planes id = some u ∧ u.front = 1 - v.front ∧ u.hasFront = true ∧ u.sub = none
            ∧ u.cnt.frames = v.cnt.frames + 1 ∧ u.cnt.packets = v.cnt.packets)
  ∧ ((∀ (t : Nat) (p : VideoPkt) (s : State), awake s = true → Receives s p.port p.bytes true → p.cut = false →
      findVideo s p = none →
      ∃ s', exec (.videoPacket t p) s = .next (settled t s s') ∧ s'.ing.videos = s.ing.videos ∧ s'.store = s.store
        ∧ (kgetD s'.ing.ports p.port {}).unmatched = (kgetD s.ing.ports p.port {}).unmatched + 1)
    ∧ (∀ (t : Nat) (p : VideoPkt) (id : Nat) (v : Video) (s : State), awake s = true → Receives s p.port p.bytes true →
      p.cut = false → findVideo s p = some (id, v) → v.opened = false → v.prevTs = none → v.seq = none → p.marker = false →
      kget? s.ing.videos id = some v →
      ∃ s', exec (.videoPacket t p) s = .next (settled t s s') ∧ ∃ u, kget? s'.ing.videos id = some u ∧ u.opened = true
        ∧ u.seq = some p.seq ∧ u.ts = some p.ts ∧ u.lost = false ∧ u.front = v.front
        ∧ u.cnt.packets = v.cnt.packets + 1 ∧ u.cnt.seqGaps = v.cnt.seqGaps)
    ∧ (∀ (t : Nat) (p : AudioPkt) (s : State), awake s = true → Receives s p.port p.bytes false → s.ing.audios = [] →
      ∃ s', exec (.audioPacket t p) s = .next (settled t s s') ∧ s'.ing.audios = []
        ∧ (kgetD s'.ing.ports p.port {}).unmatched = (kgetD s.ing.ports p.port {}).unmatched + 1)
    ∧ (∀ (t : Nat) (s : State), awake s = true → s.ing.audios = [] → s.ing.taps = [] →
      exec (.audioSampleDue t) s = .next (settled t s (advance t s)))
    ∧ (∀ (t id : Nat) (a : Audio) (s : State), awake s = true → s.ing.audios = [(id, a)] → kwf s.ing.chans = true →
      let due := (kgetD a.queue ((max s.now t - 1000 * a.offsetUs) * 48 / 1000000) ([], false)).1
      ∃ s', exec (.audioSampleDue t) s = .next (settled t s s')
        ∧ (∀ i, i < a.channels → kget? s'.ing.chans (a.first + i) = some (if a.lost = true then 0 else due.getD i 0))
        ∧ (∀ j, (j < a.first ∨ a.first + a.channels ≤ j) → kget? s'.ing.chans j = kget? s.ing.chans j))
    ∧ (∀ (t id : Nat) (v : Video) (s : State), awake s = true → kget? s.ing.videos id = some v → v.lost = false →
      s.time.lockSource = 0 →
      (v.lastAt + 100000000 ≤ max s.now t → exec (.streamLostTimeout t 0 id) s = .next (settled t s
        (sourceEvent 0 0 id (modVideo id (fun v => { v with lost := true }) (advance t s)))))
      ∧ (max s.now t < v.lastAt + 100000000 → exec (.streamLostTimeout t 0 id) s = .next (settled t s (advance t s))))
    ∧ (∀ (t u k : Nat) (cid : BitVec 128) (q : USrc) (s : State), awake s = true →
      (univOf s u k).srcs.find? (fun q => q.cid == cid) = some q → k < 256 →
      (∀ j, j < 256 → j ≠ k → (univOf s u j).srcs.find? (fun q => q.cid == cid) = none) →
      (q.lastAt + 2500000000 ≤ max s.now t → exec (.sacnSourceTimeout t u cid) s = .next (settled t s (univLeave u k cid (advance t s))))
      ∧ (max s.now t < q.lastAt + 2500000000 → exec (.sacnSourceTimeout t u cid) s = .next (settled t s (advance t s))))
    ∧ (∀ (t : Nat) (p : SacnPkt) (s : State), awake s = true → Receives s p.port p.bytes false → p.preview = true →
      ∃ s', exec (.sacnDataPacket t p) s = .next (settled t s s') ∧ s'.ing.univs = s.ing.univs
        ∧ (kgetD s'.ing.ports p.port {}).unmatched = (kgetD s.ing.ports p.port {}).unmatched + 1)
    ∧ (∀ (t k : Nat) (p : SacnPkt) (s : State), awake s = true → Receives s p.port p.bytes false →
      scopesOf s p.univ p.port = [k] → sacnAddressed p.dst p.udpPort p.univ = true →
      p.startCode = 0 → p.discovery = false → p.preview = false → p.terminated = false → kget? s.ing.univs (univKey p.univ k) = none →
      (s.ing.maps.map (·.1)).Nodup →
      let d : UData := { slots := p.data, poison := p.poison != 0 }
      ∃ s', exec (.sacnDataPacket t p) s = .next (settled t s s')
        ∧ (univOf s' p.univ k).srcs = [{ cid := p.cid, prio := p.prio, seq := p.seq, lastAt := max s.now t, data := d }]
        ∧ ∀ e ∈ mapsOf s p.univ k, ∃ m, kget? s'.ing.maps e.1 = some m ∧ m.cnt.packets = e.2.cnt.packets + 1
            ∧ kgetD m.univs (p.univ - m.firstUniv) {} = univTake m.sync d (kgetD e.2.univs (p.univ - e.2.firstUniv) {}))
    ∧ (∀ (t port udp univ : Nat) (dst : U32) (s : State), awake s = true → Receives s port syncFrameLen false →
      sacnAddressed dst udp univ = true → univ ≠ 0 →
      ∃ s', exec (.sacnSyncPacket t port { dst := dst, udpPort := udp, univ := univ }) s = .next (settled t s s')
        ∧ ∀ e ∈ s.ing.maps, e.2.sync = univ → (e.2.port = 0xFF ∨ e.2.port = port) → kget? s.ing.maps e.1 = some e.2 →
            ∃ m, kget? s'.ing.maps e.1 = some m ∧ ∀ i k d, kget? e.2.univs i = some k → k.wait = some d →
              kget? m.univs i = some { k with wait := none, pend := some d })
    ∧ ∀ (t port : Nat) (g : U32) (s : State), awake s = true → Receives s port 64 false →
      s.ing.videos = [] → s.ing.audios = [] →
      ∃ s', exec (.igmpQuery t port g) s = .next (settled t s s') ∧ s'.ing = s.ing ∧ (portOf s' port).queue = (portOf s port).queue)
  ∧ ((∀ (t port id first count : Nat) (ok marker : Bool) (v : Video) (s : State), awake s = true → port < 64 →
      s.ing.videos.find? (fun e => e.2.port == port && e.2.verdict.isSome) = some (id, v) → kget? s.ing.videos id = some v →
      v.verdict = some (first, count, marker) →
      ∃ s' u, exec (.fcsVerdict t port ok) s = .next (settled t s s') ∧ kget? s'.ing.videos id = some u ∧ u.verdict = none
        ∧ (ok = false → kgetD (portOf s' port).cnt 25 0 = kgetD (portOf s port).cnt 25 0 + 1)
        ∧ (ok = false → v.verdictPoison = false → u.cnt.rollbacks = v.cnt.rollbacks + 1
            ∧ u.cnt.rollbackPx = v.cnt.rollbackPx + BitVec.ofNat 32 count
            ∧ ∀ i, i < count → (wordAt s' (videoKey s id v (first + i))).data.getLsbD 54 = false)
        ∧ (ok = false → v.verdictPoison = true → u = { v with verdict := none } ∧ s'.store = s.store)
        ∧ (ok = true → marker = false → u = { v with verdict := none } ∧ s'.store = s.store))
    ∧ ∀ (t port : Nat) (ok : Bool) (s : State), awake s = true →
      s.ing.videos.find? (fun e => e.2.port == port && e.2.verdict.isSome) = none →
      exec (.fcsVerdict t port ok) s = .next (settled t s (advance t s)))

/-- The frame store's words (R131, R136, R139): a word written reads back as written where its bank is in service and no error is
armed for it (a bank out of service takes none), and every other word reads as before; correcting a word changes no other and
gives the data it read; an object's copy that is dropped reads as unlisted and no word outside it changes; a copy that is moved
reads where it goes as it read where it was. -/
def Obligations.StoreMemory : Prop :=
  (∀ (key data j : Nat) (s : State), j ≠ key → wordAt (storeWrite key data s) j = wordAt s j)
  ∧ (∀ (key data b : Nat) (s : State), bankOfKey s key = some b → bankUp s b = false → storeWrite key data s = s)
  ∧ (∀ (key data : Nat) (s : State), data < 2 ^ 64 →
      (∀ b, bankOfKey s key = some b → bankUp s b = true ∧ (kgetD s.store.banks b {}).armed = []) →
      storeRead key (storeWrite key data s) = (data, false, storeWrite key data s))
  ∧ (∀ (key j : Nat) (s : State), (wordAt (storeRead key s).2.2 j).data = (wordAt s j).data
      ∧ ((wordAt s key).err = 1 → (wordAt (storeRead key s).2.2 key).err = 0))
  ∧ (∀ (kind obj copy j : Nat) (s : State), wordAt (dropObject kind obj copy s) j =
      if wordKey kind obj copy 0 ≤ j ∧ j < wordKey kind obj (copy + 1) 0 then {} else wordAt s j)
  ∧ ∀ (kind obj src dst i : Nat) (s : State), kmemWf {} s.store.words = true → src ≠ dst → i < 2 ^ 28 →
      wordAt (moveObject kind obj src dst s) (wordKey kind obj dst i) = wordAt s (wordKey kind obj src i)

/-- STORE_SCRUB_SET (R137, R145) takes 10 s to 3,600 s and refuses the rest with RANGE; STORE_STATUS and STORE_COUNTERS answer; a
stack refreshes at twice the rate from +85 °C up (R132). An error armed with STORE_INJECT enters the check code of the next word
written to the bank (R145): one bit wrong is corrected and counted in CE, two are uncorrectable and counted in UE, and neither
makes a row hard or raises the bank's source (R136, R138). Completing, with the next state said: storeScrubSet, storeStatus,
storeCounters, storeInject, dramTempCross. -/
def Obligations.StoreCommands : Prop :=
  ((∀ (t : Nat) (r : CmdRef) (c : Cmd) (s : State), Ready 0x0604 r c s →
      let v := field c.payload 0 4
      (10 ≤ v → v ≤ 3600 → exec (.storeScrubSet t r) s = .next (complete c 0x00 0 []
        { advance t s with store := { s.store with scrubS := v } }))
      ∧ (v < 10 ∨ 3600 < v → exec (.storeScrubSet t r) s = .next (complete c 0x21 0 [] (advance t s))))
    ∧ (∀ (t : Nat) (r : CmdRef) (c : Cmd) (s : State), Ready 0x0605 r c s →
      exec (.storeStatus t r) s = .next (complete c 0x00 0 (storeStatusBytes s) (advance t s))
      ∧ (storeStatusBytes s).length = 288 ∧ field (storeStatusBytes s) 0 4 = s.store.up % 2 ^ 32
      ∧ field (storeStatusBytes s) 4 4 = s.store.retired % 2 ^ 32 ∧ field (storeStatusBytes s) 8 4 = s.store.scrubS % 2 ^ 32
      ∧ field (storeStatusBytes s) 16 1 = b2n (decide (850 ≤ s.store.temp0)) + 2 * b2n (decide (850 ≤ s.store.temp1)))
    ∧ (∀ (t : Nat) (r : CmdRef) (c : Cmd) (s : State), Ready 0x0606 r c s →
      (field c.payload 0 1 ≤ 31 → ∃ b : Bytes, exec (.storeCounters t r) s = .next (complete c 0x00 0 b (advance t s))
        ∧ b.length = 32 ∧ field b 0 8 = (kgetD s.store.banks (field c.payload 0 1) {}).ce.toNat
        ∧ field b 8 4 = (kgetD s.store.banks (field c.payload 0 1) {}).ue.toNat)
      ∧ (31 < field c.payload 0 1 → exec (.storeCounters t r) s = .next (complete c 0x21 0 [] (advance t s))))
    ∧ ∀ (t stack : Nat) (temp : Int) (s : State), awake s = true → PinDriven s →
      exec (.dramTempCross t stack temp) s = .next (if stack = 0
        then { advance t s with store := { s.store with temp0 := temp } }
        else { advance t s with store := { s.store with temp1 := temp } }))
  ∧ ((∀ (t : Nat) (r : CmdRef) (c : Cmd) (s : State), Ready 0x0607 r c s →
      let b := field c.payload 0 1
      let n := field c.payload 1 1
      b ≤ 31 → 1 ≤ n → n ≤ 2 →
      (bankUp s b = true → exec (.storeInject t r) s = .next (complete c 0x00 0 []
        (modBank b (fun k => { k with armed := k.armed ++ [n] }) (advance t s))))
      ∧ (bankUp s b = false → exec (.storeInject t r) s = .next (complete c 0x23 0 [] (advance t s))))
    ∧ (∀ (key data b n : Nat) (rest : List Nat) (s : State), bankOfKey s key = some b → bankUp s b = true →
        (kgetD s.store.banks b {}).armed = n :: rest →
        wordAt (storeWrite key data s) key = { data := BitVec.ofNat 64 data, err := n, injected := true }
        ∧ (kgetD (storeWrite key data s).store.banks b {}).armed = rest)
    ∧ (∀ (key b : Nat) (w : Word64) (s : State), wordAt s key = w → w.err = 1 → w.injected = true → bankOfKey s key = some b →
        (storeRead key s).1 = w.data.toNat ∧ (storeRead key s).2.1 = false
        ∧ (kgetD (storeRead key s).2.2.store.banks b {}).ce = (kgetD s.store.banks b {}).ce + 1
        ∧ (kgetD (storeRead key s).2.2.store.banks b {}).hard = (kgetD s.store.banks b {}).hard
        ∧ (storeRead key s).2.2.flt = s.flt)
    ∧ ∀ (key b : Nat) (w : Word64) (s : State), wordAt s key = w → w.err = 2 → w.injected = true → bankOfKey s key = some b →
        (storeRead key s).2.1 = true ∧ (kgetD (storeRead key s).2.2.store.banks b {}).ue = (kgetD s.store.banks b {}).ue + 1
        ∧ (storeRead key s).2.2.flt = s.flt)

/-- Correction data (R139, R142, R145, R498): a load for a tile of the wall takes free space in the bank that ranks first and waits
for its data; when they are in place the command ends OK and with no mode in force the tile's correction is the new one at once,
while with a mode in force the old stands until the next boundary; restores and persists of tiles that are idle are accepted and
run in TILE order; a persist writes the copy into the lowest room of the correction store, and an uncorrectable word met as it
reads makes the correction absent and writes no copy. The patrol scrubber (R136, R137): a step goes to the next listed word of a
bank in service, in address order (the model's order, notes/assumptions/12.md), and the next step goes on from there. Bit errors
grow in any word of a bank in service. A sound word is left; a single error, injected or grown, is corrected in place; an
uncorrectable slot is written back poisoned and counted. The step after the last word ends the pass, counted for every bank in
service; the next pass begins no sooner than one scrub period after the start of the one before. Completing, with the next state
said: storeCorrLoad, storeCorrPersist, corrPersistDone, storeCorrRestore, corrRestoreDone, scrubStep, corrLoadDone. -/
def Obligations.Corrections : Prop :=
  ((∀ (t b : Nat) (r : CmdRef) (c : Cmd) (w : WallImg) (q : TileRec) (s : State), Ready 0x0601 r c s → s.wall.active = some w →
      let p := c.payload
      let tile := field p 0 2
      let record := field p 2 1
      tileOf w tile = some q → record ≤ 1 → field p 16 4 = 8 * corrWords record (tilePx q) → field p 8 8 % 8 = 0 →
      (corrOf s tile).load = none → (corrOf s tile).rest = none → corrBank s tile (field p 16 4) = some b →
      exec (.storeCorrLoad t r) s = .next (settled t s (modCorr tile (fun k => { k with
        load := some { record := record, bank := b, ref := some r } }) (park c (advance t s)))))
    ∧ (∀ (t tile : Nat) (data : Bytes) (r : CmdRef) (c : Cmd) (q : TileRec) (p : CorrCopy) (s : State), awake s = true →
      (corrOf s tile).load = some p → p.ref = some r → findCmd r s = some c → activeTile s tile = some q →
      ∃ s', exec (.corrLoadDone t tile data) s = .next (settled t s s') ∧ findCmd r s' = none
        ∧ (corrOf s' tile).load = none
        ∧ (s.mode.mode = 0 → (corrOf s' tile).present = true ∧ (corrOf s' tile).record = p.record
            ∧ (corrOf s' tile).bank = p.bank ∧ (corrOf s' tile).ready = none)
        ∧ (s.mode.mode ≠ 0 → (corrOf s' tile).present = (corrOf s tile).present ∧ (corrOf s' tile).bank = (corrOf s tile).bank
            ∧ (corrOf s' tile).ready = some { p with ref := none }))
    ∧ (∀ (t : Nat) (r : CmdRef) (c : Cmd) (s : State), Ready 0x0603 r c s →
      let tile := field c.payload 0 2
      let l := if tile = 0xFFFF then (wallTiles s).map (fun q => q.tile) else [tile]
      (tile = 0xFFFF ∨ (activeTile s tile).isSome = true) → l ≠ [] →
      (∀ i ∈ l, (corrOf s i).persisting = false ∧ (corrOf s i).rest = none) →
      exec (.storeCorrRestore t r) s = .next (forEach l (complete c 0x01 0 [] (advance t s)) startRestore))
    ∧ (∀ (t tile : Nat) (p : CorrCopy) (f : FlashCorr) (s : State), awake s = true → (corrOf s tile).rest = some p →
      firstTile (fun k => k.rest.isSome) tile s = true → kget? s.store.flash tile = some f →
      ∃ s', exec (.corrRestoreDone t tile) s = .next (settled t s s') ∧ (corrOf s' tile).rest = none
        ∧ (s.mode.mode = 0 → (corrOf s' tile).present = true ∧ (corrOf s' tile).record = p.record ∧ (corrOf s' tile).ready = none)
        ∧ (s.mode.mode ≠ 0 → (corrOf s' tile).ready = some { p with ref := none }))
    ∧ (∀ (t : Nat) (r : CmdRef) (c : Cmd) (s : State), Ready 0x0602 r c s →
      let tile := field c.payload 0 2
      tile ≠ 0xFFFF → (activeTile s tile).isSome = true → (corrOf s tile).present = true → (corrOf s tile).persisting = false →
      (corrOf s tile).rest = none →
      exec (.storeCorrPersist t r) s = .next (modCorr tile (fun k => { k with persisting := true })
        (complete c 0x01 0 [] (advance t s))))
    ∧ (∀ (t : Nat) (r : CmdRef) (c : Cmd) (s : State), Ready 0x0602 r c s → field c.payload 0 2 = 0xFFFF →
      s.wall.active.isSome = true → s.store.corr.any (fun e => e.2.persisting || e.2.rest.isSome) = false →
      exec (.storeCorrPersist t r) s = .next (forEach (((wallTiles s).map (fun q => q.tile)).filter fun i => (corrOf s i).present)
        (complete c 0x01 0 [] (advance t s)) (fun i s => modCorr i (fun k => { k with persisting := true }) s)))
    ∧ ∀ (t tile : Nat) (q : TileRec) (s : State), awake s = true → PinDriven s → (corrOf s tile).persisting = true →
      firstTile (fun k => k.persisting) tile s = true → (corrOf s tile).present = true → activeTile s tile = some q →
      let z := corrData tile (corrWords (corrOf s tile).record (tilePx q)) (modCorr tile (fun k => { k with persisting := false }) (advance t s))
      ∃ s', exec (.corrPersistDone t tile) s = .next s'
        ∧ (z.2.1 = false → (corrOf s' tile).persisting = false ∧ ∀ u, flashRoom s ((z.1.length + 4095) / 4096) = some u →
            kget? s'.store.flash tile = some { px := tilePx q, record := (corrOf s tile).record, data := z.1, crc := crc32 z.1
                                               offset := 131072 + 4096 * u }
            ∧ s'.store.words = z.2.2.store.words)
        ∧ (z.2.1 = true → (corrOf s' tile).present = false ∧ s'.store.flash = s.store.flash))
  ∧ (let here (s : State) (e : Nat × Word64) : Bool := s.store.scrubAt ≤ e.1 && (match bankOfKey s e.1 with | some b => bankUp s b | none => false)
    let goes (t key : Nat) (s : State) : State := { advance t s with store := { s.store with
      scrubAt := key, scrubFrom := if s.store.scrubAt = 0 then max s.now t + 1000000000 * s.store.scrubS else s.store.scrubFrom } }
    (∀ (t key err : Nat) (s : State), awake s = true → s.store.scrubAt = 0 → max s.now t < s.store.scrubFrom →
      ∃ s', exec (.scrubStep t key err) s = .next (settled t s s')
        ∧ (∀ b, bankOfKey s key = some b → bankUp s b = true → 0 < err → (wordAt s key).err + err ≤ 2 →
            wordAt s' key = { data := (wordAt s key).data, err := (wordAt s key).err + err })
        ∧ ∀ j, j ≠ key → wordAt s' j = wordAt s j)
    ∧ (∀ (t key i : Nat) (w : Word64) (s : State), awake s = true → (s.store.scrubAt = 0 → s.store.scrubFrom ≤ max s.now t) →
      s.store.words.find? (here s) = some (key, w) → wordAt s key = w → w.err = 0 →
      exec (.scrubStep t i 0) s = .next (settled t s (goes t (key + 1) s)))
    ∧ (∀ (t key b err : Nat) (w : Word64) (s : State), awake s = true → (s.store.scrubAt = 0 → s.store.scrubFrom ≤ max s.now t) →
      s.store.words.find? (here s) = some (key, w) → wordAt s key = w → bankOfKey s key = some b → w.err + err = 1 →
      ∃ s', exec (.scrubStep t key err) s = .next (settled t s s') ∧ wordAt s' key = { data := w.data }
        ∧ (∀ j, j ≠ key → wordAt s' j = wordAt s j) ∧ s'.store.scrubAt = key + 1
        ∧ (kgetD s'.store.banks b {}).ce = (kgetD s.store.banks b {}).ce + 1)
    ∧ (∀ (t key b err : Nat) (w : Word64) (s : State), awake s = true → (s.store.scrubAt = 0 → s.store.scrubFrom ≤ max s.now t) →
      s.store.words.find? (here s) = some (key, w) → wordAt s key = w → bankOfKey s key = some b → w.err + err = 2 →
      isSlot key = true →
      ∃ s', exec (.scrubStep t key err) s = .next (settled t s s')
        ∧ wordAt s' key = { data := BitVec.ofNat 64 (setBit w.data.toNat 55 true) }
        ∧ (∀ j, j ≠ key → wordAt s' j = wordAt s j) ∧ s'.store.scrubAt = key + 1
        ∧ (kgetD s'.store.banks b {}).ue = (kgetD s.store.banks b {}).ue + 1
        ∧ (kgetD s'.store.banks b {}).poisonWb = (kgetD s.store.banks b {}).poisonWb + 1)
    ∧ ∀ (t i : Nat) (s : State), awake s = true → (s.store.scrubAt = 0 → s.store.scrubFrom ≤ max s.now t) →
      s.store.words.find? (here s) = none →
      ∃ s', exec (.scrubStep t i 0) s = .next (settled t s s') ∧ s'.store.scrubAt = 0 ∧ s'.store.words = s.store.words
        ∧ ∀ i, i < 32 → (kgetD s'.store.banks i {}).passes = (kgetD s.store.banks i {}).passes + (if bankUp s i then 1 else 0))

/-! ## Spindles, scheduling and pace -/

/-- SCHED_TAKE_SET, SCHED_DRAIN_SET and SCHED_CLASS_SET (R182, R192, R194, R198) take values in their ranges and refuse others with
RANGE; with a mode in force the TAKE times wait for the next boundary. SCHED_STATUS, SCHED_COUNTERS and SCHED_THREADS answer.
SCHED_SPINDLE (R186, R187): a spindle that is idle of hanks and disabled leaves service at once; one with a hank drains; a
disabled one enabled is back in service with a placement trigger; in each case the command ends ACCEPTED. A spindle above 255, a
bank above 15, an ACTION above 1 or a KIND above 1 ends RANGE. Completing, with the next state said: schedStatus, schedCounters,
schedTakeSet, schedSpindle, schedDrainSet, schedClassSet, schedThreads. -/
def Obligations.SchedCommands : Prop :=
  ((∀ (t : Nat) (r : CmdRef) (c : Cmd) (s : State), Ready 0x0703 r c s →
      let a := field c.payload 0 4
      let b := field c.payload 4 4
      (a = 0 ∨ 10000 < a ∨ 10000 < b → exec (.schedTakeSet t r) s = .next (complete c 0x21 0 [] (advance t s)))
      ∧ (a ≠ 0 → a ≤ 10000 → b ≤ 10000 → s.mode.mode = 0 → exec (.schedTakeSet t r) s = .next (complete c 0x00 0 []
          { advance t s with sched := { s.sched with takeUs := a, gateUs := b } }))
      ∧ (a ≠ 0 → a ≤ 10000 → b ≤ 10000 → s.mode.mode ≠ 0 → exec (.schedTakeSet t r) s = .next (complete c 0x00 0 []
          { advance t s with sched := { s.sched with pendTake := some (a, b) } })))
    ∧ (∀ (t : Nat) (r : CmdRef) (c : Cmd) (s : State), Ready 0x0705 r c s →
      let f := field c.payload 0 1
      let v := field c.payload 4 4
      let range := [(5, 1000), (100, 100000), (25000, 1000000), (1000, 1000000), (1000, 1000000)].getD f (1, 0)
      (range.1 ≤ v → v ≤ range.2 → exec (.schedDrainSet t r) s = .next (complete c 0x00 0 []
        { advance t s with sched := { s.sched with drainUs := s.sched.drainUs.set f v } }))
      ∧ (v < range.1 ∨ range.2 < v → exec (.schedDrainSet t r) s = .next (complete c 0x21 0 [] (advance t s))))
    ∧ (∀ (t : Nat) (r : CmdRef) (c : Cmd) (s : State), Ready 0x0706 r c s →
      let n := field c.payload 0 1
      let v := field c.payload 1 1
      (1 ≤ n → n ≤ 15 → 6 ≤ v → v ≤ 11 → exec (.schedClassSet t r) s = .next (complete c 0x00 0 []
        { advance t s with sched := { s.sched with prio := kset s.sched.prio n v } }))
      ∧ (n = 0 ∨ 15 < n ∨ v < 6 ∨ 11 < v → exec (.schedClassSet t r) s = .next (complete c 0x21 0 [] (advance t s))))
    ∧ (∀ (t : Nat) (r : CmdRef) (c : Cmd) (s : State), Ready 0x0701 r c s →
      exec (.schedStatus t r) s = .next (complete c 0x00 0 (schedStatusBytes s) (advance t s))
      ∧ (schedStatusBytes s).length = 64 ∧ field (schedStatusBytes s) 40 4 = s.sched.takeUs % 2 ^ 32)
    ∧ (∀ (t : Nat) (r : CmdRef) (c : Cmd) (s : State), Ready 0x0702 r c s →
      (field c.payload 0 1 ≤ 15 → ∃ b : Bytes, exec (.schedCounters t r) s = .next (complete c 0x00 0 b (advance t s))
        ∧ b.length = 32 ∧ field b 0 8 = (sbOf s (field c.payload 0 1)).hanks.toNat
        ∧ field b 8 4 = (sbOf s (field c.payload 0 1)).takesBlocked.toNat
        ∧ field b 24 4 = (sbOf s (field c.payload 0 1)).handback.toNat)
      ∧ (15 < field c.payload 0 1 → exec (.schedCounters t r) s = .next (complete c 0x21 0 [] (advance t s))))
    ∧ ∀ (t : Nat) (r : CmdRef) (c : Cmd) (s : State), Ready 0x0707 r c s →
      ∃ b : Bytes, exec (.schedThreads t r) s = .next (complete c 0x00 0 b (advance t s)) ∧ b.length = 32
        ∧ field b 8 2 = s.sched.command.busy % 65536 ∧ field b 12 4 = s.sched.command.raises.toNat)
  ∧ ((∀ (t : Nat) (r : CmdRef) (c : Cmd) (s : State), Ready 0x0704 r c s →
      let i := field c.payload 2 2
      field c.payload 0 1 = 0 → field c.payload 1 1 = 0 → i ≤ 255 → spUp s i = true → (spOf s i).draining = false →
      (s.fab.svcLevel = 2 → ∃ j ∈ spindlesUp s, j ≠ i ∧ (spOf s j).draining = false) →
      ∃ s', exec (.schedSpindle t r) s = .next (settled t s s') ∧ findCmd r s' = none
        ∧ ((spOf s i).hank = none → (spOf s' i).svc = .disabled ∧ (spOf s' i).draining = false)
        ∧ ((spOf s i).hank ≠ none → (spOf s' i).svc = .up ∧ (spOf s' i).draining = true ∧ (spOf s' i).prefetch = []
            ∧ (spOf s' i).hank = (spOf s i).hank ∧ draining s' 0 i = true))
    ∧ (∀ (t : Nat) (r : CmdRef) (c : Cmd) (s : State), Ready 0x0704 r c s →
      let i := field c.payload 2 2
      field c.payload 0 1 = 1 → field c.payload 1 1 = 0 → i ≤ 255 → (spOf s i).svc = .disabled →
      (sbOf s (spBank i)).disabling = false →
      exec (.schedSpindle t r) s = .next (settled t s (spindleOn i (complete c 0x01 0 [] (advance t s)))))
    ∧ ∀ (t : Nat) (r : CmdRef) (c : Cmd) (s : State), Ready 0x0704 r c s →
      (1 < field c.payload 0 1 ∨ 1 < field c.payload 1 1 ∨ (field c.payload 1 1 = 0 ∧ 255 < field c.payload 2 2)
        ∨ (field c.payload 1 1 = 1 ∧ 15 < field c.payload 2 2)) →
      exec (.schedSpindle t r) s = .next (settled t s (complete c 0x21 0 [] (advance t s))))

/-- TAKE (R182, R183): a spindle in service that may take, in a bank that is awake, powered and not being left, gets the head of a
list that holds a token; with an empty list it blocks, counted; at TAKE_TIMEOUT a blocked TAKE returns IDLE, counted, and before
it nothing happens. A bank gates once its spindles have been idle with its list empty for GATE_DELAY, counted; never in Draught or
while one is not idle, and not before (R184). Completing, with the next state said: takeIssue, takeTimeout, bankGate. -/
def Obligations.TakeAndGate : Prop :=
  ((∀ (t i : Nat) (h : Hank) (rest : List Hank) (s : State), awake s = true → PinDriven s → canTake s i = true →
      (sbOf s (spBank i)).disabling = false → s.place.inForce.powered.contains (spBank i) = true →
      (sbOf s (spBank i)).ready = h :: rest → (sbOf s (spBank i)).seed = [] → (spOf s i).prefetch = [] → (spOf s i).hank = none →
      ∃ s', exec (.takeIssue t i) s = .next s' ∧ (sbOf s' (spBank i)).ready = rest ∧ (spOf s' i).hank = some h
        ∧ (spOf s' i).prefetch = [] ∧ (∀ j, j ≠ i → spOf s' j = spOf s j) ∧ { s' with sched := s.sched } = advance t s)
    ∧ (∀ (t i : Nat) (s : State), awake s = true → PinDriven s → canTake s i = true →
      (sbOf s (spBank i)).disabling = false → s.place.inForce.powered.contains (spBank i) = true →
      (sbOf s (spBank i)).ready = [] →
      ∃ s', exec (.takeIssue t i) s = .next s' ∧ (spOf s' i).blocked = some (max s.now t)
        ∧ (sbOf s' (spBank i)).takes = (sbOf s (spBank i)).takes ++ [i]
        ∧ (sbOf s' (spBank i)).takesBlocked = (sbOf s (spBank i)).takesBlocked + 1)
    ∧ (∀ (t i since : Nat) (s : State), awake s = true → PinDriven s → (spOf s i).blocked = some since →
      since + 1000 * s.sched.takeUs ≤ max s.now t →
      ∃ s', exec (.takeTimeout t i) s = .next s' ∧ (spOf s' i).blocked = none ∧ (spOf s' i).idle = true
        ∧ (sbOf s' (spBank i)).takesIdle = (sbOf s (spBank i)).takesIdle + 1)
    ∧ ∀ (t i since : Nat) (s : State), awake s = true → PinDriven s → (spOf s i).blocked = some since →
      max s.now t < since + 1000 * s.sched.takeUs → exec (.takeTimeout t i) s = .next (advance t s))
  ∧ ((∀ (t b since : Nat) (s : State), awake s = true → PinDriven s → (sbOf s b).idleSince = some since → s.place.profile ≠ 3 →
      (sbOf s b).gated = false → bankIdle s b = true → since + 1000 * s.sched.gateUs ≤ max s.now t →
      exec (.bankGate t b) s = .next (modSb b (fun k => { k with gated := true, gates := k.gates + 1 }) (advance t s)))
    ∧ (∀ (t b : Nat) (s : State), awake s = true → PinDriven s → s.place.profile = 3 → exec (.bankGate t b) s = .next (advance t s))
    ∧ (∀ (t b : Nat) (s : State), awake s = true → PinDriven s → bankIdle s b = false → exec (.bankGate t b) s = .next (advance t s))
    ∧ ∀ (t b since : Nat) (s : State), awake s = true → PinDriven s → (sbOf s b).idleSince = some since →
      max s.now t < since + 1000 * s.sched.gateUs → exec (.bankGate t b) s = .next (advance t s))

/-- A bobbin (R26 to R30, R189, R190): a word offered to one with room is queued last; a full one of the data class holds its producer
with the word, and one of the control class refuses the item with BUSY and nothing of it stays queued; a read of one that holds a
whole item delivers its oldest word, poisoned where its parity fails, counts a poisoned word, and takes the word that a held
producer waits with; a read of an empty one delivers the last word again and sets UNDERRUN; a flush empties it and swallows the
rest of an item part-way in. An identifier that names no bobbin takes and gives nothing. The pace loop (R17 to R21): a window ends
on every monitor and the last 16 are kept; while the rail settles, the loop is frozen or 20 µs have not passed, no evaluation is
made; below the ceiling with the slack under the raise threshold VCORE rises by 10 mV at most to the ceiling, and the rail
settles; a settled rail lets the loop evaluate again. Completing, with the next state said: paceWindowEnd, paceEvaluation,
railSettled, bobbinWrite, bobbinRead, bobbinFlush. -/
def Obligations.PaceAndBobbins : Prop :=
  ((∀ (t id : Nat) (d : BobDef) (word : U64) (eoi poison : Bool) (s : State), awake s = true → PinDriven s → bobDef id = some d →
      (bobOf s id).swallowing = false → (bobOf s id).refusing = false → (bobOf s id).flushedNext = false →
      (bobFill s id < d.capacity → (bobOf s id).waiting = [] → exec (.bobbinWrite t id word eoi poison) s = .next
        (modBob id (fun b => { b with words := b.words ++ [{ word := word, poison := poison, eoi := eoi }]
                                      partway := !eoi }) (advance t s)))
      ∧ (d.capacity ≤ bobFill s id → d.control = false → exec (.bobbinWrite t id word eoi poison) s = .next
        (modBob id (fun b => { b with waiting := b.waiting ++ [{ word := word, poison := poison, eoi := eoi }] }) (advance t s)))
      ∧ (d.capacity ≤ bobFill s id → d.control = true → ∃ s', exec (.bobbinWrite t id word eoi poison) s = .next s'
        ∧ s'.out = .bobAnswer id 0x10 :: s.out ∧ (bobOf s' id).words = wholeItems (bobOf s id).words
        ∧ (bobOf s' id).refusing = !eoi))
    ∧ (∀ (t id : Nat) (d : BobDef) (ok : Bool) (w : BWord) (rest : List BWord) (s : State), awake s = true → PinDriven s →
      bobDef id = some d → (bobOf s id).cutMark = false → (bobOf s id).words = w :: rest → bobReady (bobOf s id) = true →
      ∃ s', exec (.bobbinRead t id ok) s = .next s'
        ∧ ((bobOf s id).waiting = [] → (bobOf s' id).words = rest)
        ∧ (∀ x, (bobOf s id).waiting = [x] → bobFill s id ≤ d.capacity → (bobOf s' id).words = rest ++ [x] ∧ (bobOf s' id).waiting = [])
        ∧ (bobOf s' id).last = some (if ok then w else { w with poison := true })
        ∧ (bobOf s' id).poisoned = (bobOf s id).poisoned + (if ok && !w.poison then 0 else 1)
        ∧ (∀ j, j ≠ id → bobOf s' j = bobOf s j))
    ∧ (∀ (t id : Nat) (d : BobDef) (ok : Bool) (s : State), awake s = true → PinDriven s → bobDef id = some d →
      (bobOf s id).cutMark = false → (bobOf s id).words = [] → unitFill s id = 0 →
      ∃ s', exec (.bobbinRead t id ok) s = .next s' ∧ (bobOf s' id).words = [] ∧ (bobOf s' id).underrun = true
        ∧ (bobOf s' id).last = some ((bobOf s id).last.getD { word := 0, poison := true }))
    ∧ (∀ (t id : Nat) (d : BobDef) (s : State), awake s = true → PinDriven s → bobDef id = some d → (bobOf s id).waiting = [] →
      ∃ s', exec (.bobbinFlush t id) s = .next s' ∧ (bobOf s' id).words = []
        ∧ (bobOf s' id).swallowing = ((bobOf s id).swallowing || (bobOf s id).partway)
        ∧ (bobOf s' id).cutMark = ((bobOf s id).cutMark || (bobOf s id).started) ∧ (bobOf s' id).started = false
        ∧ (∀ j, j ≠ id → bobOf s' j = bobOf s j) ∧ (id / 1024 ∉ [6, 15] → unitFill s' id = 0))
    ∧ ∀ (t id : Nat) (word : U64) (eoi poison ok : Bool) (s : State), awake s = true → PinDriven s → bobDef id = none →
      exec (.bobbinWrite t id word eoi poison) s = .next (advance t s) ∧ exec (.bobbinRead t id ok) s = .next (advance t s)
        ∧ exec (.bobbinFlush t id) s = .next (advance t s))
  ∧ ((∀ (t fabric : Nat) (s : State), awake s = true → PinDriven s →
      exec (.paceWindowEnd t fabric) s = .next { advance t s with fab := { s.fab with
        windows := kmap s.fab.windows (fun _ l => 0 :: l.take 16), fabWindow := (fabric :: s.fab.fabWindow).take 16 } })
    ∧ (∀ (t : Nat) (s : State), awake s = true → PinDriven s →
      (s.fab.frozen = true ∨ s.fab.settling = true ∨ s.fab.weaveFinish.isSome = true ∨ max s.now t < s.fab.lastEvalAt + 20000) →
      exec (.paceEvaluation t) s = .next (advance t s))
    ∧ (∀ (t : Nat) (s : State), awake s = true → PinDriven s → s.fab.frozen = false → s.fab.settling = false → s.fab.weaveFinish = none →
      s.fab.lastEvalAt + 20000 ≤ max s.now t → s.fab.vcore < ceiling s → projectedSlack (advance t s) < s.fab.raiseTh →
      exec (.paceEvaluation t) s = .next { advance t s with fab := { s.fab with
        lastEvalAt := max s.now t, vcore := min (ceiling s) (s.fab.vcore + 10), settling := true } })
    ∧ (∀ (t : Nat) (s : State), awake s = true → PinDriven s → s.fab.frozen = false → s.fab.settling = false → s.fab.weaveFinish = none →
      s.fab.lastEvalAt + 20000 ≤ max s.now t → ceiling s ≤ s.fab.vcore → projectedSlack (advance t s) < s.fab.shedTh →
      canShed s = true → exec (.paceEvaluation t) s = .next { advance t s with fab := { s.fab with
        lastEvalAt := max s.now t, shedPending := true } })
    ∧ ∀ (t : Nat) (s : State), awake s = true → PinDriven s →
      exec (.railSettled t) s = .next { advance t s with fab := { s.fab with settling := false } })

/-! ## Scan-out -/

/-- MODE_SET (R205, R207, R210): a mode of the table other than the one in force, its fields in range, with no change pending and
loads that fit, waits for the first boundary at least 8 ms on; a MODE that the table does not have ends RANGE; with a change
pending it ends STATE; the mode, phase and slots in force end OK at once. MODE_STATUS answers the mode, its interleave factor, the
state, the epoch and the frame counter (R219). MODE_CALM_SET (R216, R219) takes its frames, 0 for 120, and refuses 1 and an ENABLE
above 1 with RANGE. MODE_CALM_EXIT wakes a device in Calm and ends OK, and outside Calm ends STATE (R218, R219). Completing, with
the next state said: modeSet, modeStatus, modeCalmSet, modeCalmExit. -/
def Obligations.ModeCommands : Prop :=
  (∀ (t : Nat) (r : CmdRef) (c : Cmd) (s : State), Ready 0x0801 r c s →
      let p := c.payload
      let mode := field p 0 1
      let phase := field p 8 4
      let slots := field p 16 4
      let sound := (modeRow mode).isSome = true ∧ (field p 1 1 ≤ 1 ∨ field p 1 1 = 0xFF) ∧ field p 2 1 ≤ 1
        ∧ phase * rateNum mode < rateDen mode * 1000000000 ∧ slotsOk slots (modeN mode) = true
      ((modeRow mode).isNone = true → exec (.modeSet t r) s = .next (settled t s (complete c 0x21 0 [] (advance t s))))
      ∧ (sound → changePending s = true → exec (.modeSet t r) s = .next (settled t s (complete c 0x23 0 [] (advance t s))))
      ∧ (sound → changePending s = false → field p 2 1 = 0 → (modeN mode = 1 ∨ s.place.profile ≠ 3) → mode = s.mode.mode →
          phase = s.mode.phase → slots = s.mode.slots.toNat →
          exec (.modeSet t r) s = .next (settled t s (complete c 0x00 0 [] (advance t s))))
      ∧ (sound → changePending s = false → field p 2 1 = 0 → (modeN mode = 1 ∨ s.place.profile ≠ 3) → mode ≠ s.mode.mode →
          admits s.wall.active s.weave.active mode s.place.profile (advance t s) = true →
          exec (.modeSet t r) s = .next (settled t s (calmWake 4 (modeAsk mode phase (BitVec.ofNat 32 slots)
            (changeBoundary (advance t s) mode phase (max s.now t + 8000000)) (some c.ref) 0 0 (park c
              { advance t s with mode := { s.mode with calmAuto := s.mode.calmAuto && modeN mode == 1 } }))))))
  ∧ ((∀ (t : Nat) (r : CmdRef) (c : Cmd) (s : State), Ready 0x0802 r c s →
      exec (.modeStatus t r) s = .next (complete c 0x00 0 (modeStatusBytes (advance t s)) (advance t s)))
    ∧ (∀ s : State, (modeStatusBytes s).length = 48 ∧ field (modeStatusBytes s) 0 1 = s.mode.mode % 256
        ∧ field (modeStatusBytes s) 2 1 = modeState s % 256 ∧ field (modeStatusBytes s) 4 4 = (epochNow s).toNat
        ∧ field (modeStatusBytes s) 8 8 = s.mode.counter.toNat)
    ∧ (∀ (t : Nat) (r : CmdRef) (c : Cmd) (s : State), Ready 0x0803 r c s →
      let en := field c.payload 0 1
      let n := field c.payload 2 2
      let frames := if n = 0 then 120 else n
      ((1 < en ∨ n = 1) → exec (.modeCalmSet t r) s = .next (complete c 0x21 0 [] (advance t s)))
      ∧ (en ≤ 1 → n ≠ 1 → isDistaff s = false →
          (en = 1 → s.place.profile ≠ 3 ∧ modeN s.mode.mode ≤ 1 ∧ s.mode.mode ≠ 0) →
          exec (.modeCalmSet t r) s = .next (complete c 0x00 0 [] { advance t s with mode := { s.mode with
            calmAuto := decide (en = 1), stillFrames := frames
            still := if frames = s.mode.stillFrames then s.mode.still else 0 } })))
    ∧ ∀ (t : Nat) (r : CmdRef) (c : Cmd) (s : State), Ready 0x0804 r c s →
      (s.mode.calm = true → s.mode.wakeAt = none → isDistaff s = false →
        exec (.modeCalmExit t r) s = .next (ended t s (calmWakeFrom c.takenAt 0 (complete c 0x00 0 [] (advance t s)))))
      ∧ (s.mode.calm = false → exec (.modeCalmExit t r) s = .next (complete c 0x23 0 [] (advance t s))))

/-- FRAME_BOUNDARY (R202, R203): with a mode in force, it comes at boundary `n` of R202 and closes the period, and the frame counter
and the boundary's index advance by one; before that instant nothing happens. With no mode, it comes at the boundary of the first
mode change, and without one nothing happens. What a boundary does (R181, R204, R206): the epoch sent is the last that flipped, at
this boundary, where its COMMIT was sent, and else the last flip stands; the tokens of the epoch still queued are discarded, each
counted in STALE_HANKS; a pending mode change is in force, settling, and ends its command. Completing, with the next state said:
frameBoundary. -/
def Obligations.FrameBoundary : Prop :=
  ((∀ (t : Nat) (s : State), awake s = true → s.mode.mode ≠ 0 → nextBoundary s ≤ max s.now t →
      let b := min t (nextBoundary s)
      exec (.frameBoundary t) s = .next (settled b s (boundary (advance b s))))
    ∧ (∀ (t : Nat) (s : State), awake s = true → s.mode.mode ≠ 0 → max s.now t < nextBoundary s →
      exec (.frameBoundary t) s = .next (settled t s (advance t s)))
    ∧ (∀ (t : Nat) (s : State), awake s = true → s.mode.mode = 0 → s.mode.pending = none →
      exec (.frameBoundary t) s = .next (settled t s (advance t s)))
    ∧ (∀ (t : Nat) (m : ModePend) (s : State), awake s = true → s.mode.mode = 0 → s.mode.pending = some m →
      m.bc ≤ max s.now t →
      exec (.frameBoundary t) s = .next (settled (min t m.bc) s (generatorStart m (advance (min t m.bc) s))))
    ∧ ∀ s : State, s.twin.enabled = false → s.twin.drill = none → (periodEnd s).mode.counter = s.mode.counter + 1
        ∧ (periodEnd s).mode.n = s.mode.n + 1 ∧ (periodEnd s).mode.mode = s.mode.mode)
  ∧ ((∀ (b : Nat) (s : State), commitSent s = true → (commitEpoch b s).mode.lastFlip = BitVec.ofNat 64 b
        ∧ (commitEpoch b s).mode.lastFlipEpoch = s.link.epoch)
    ∧ (∀ (b : Nat) (s : State), commitSent s = false → (commitEpoch b s).mode.lastFlip = s.mode.lastFlip
        ∧ (commitEpoch b s).mode.lastFlipEpoch = s.mode.lastFlipEpoch)
    ∧ (∀ (b : Nat) (s : State), b < 16 → (sbOf (staleDiscard s) b).ready = [] ∧ (sbOf (staleDiscard s) b).seed = []
        ∧ (sbOf (staleDiscard s) b).remaining = 0
        ∧ (sbOf (staleDiscard s) b).stale = (sbOf s b).stale + BitVec.ofNat 32 ((sbOf s b).ready.length
            + ((bankSpindles b).map fun i => (spOf s i).prefetch.length).sum))
    ∧ ∀ (b : Nat) (m : ModePend) (s : State), s.mode.pending = some m → (m.mode ≠ s.mode.mode ∨ m.phase ≠ s.mode.phase) →
        (modeSwitch b s).mode.mode = m.mode ∧ (modeSwitch b s).mode.phase = m.phase ∧ (modeSwitch b s).mode.slots = m.slots
        ∧ (modeSwitch b s).mode.pending = none ∧ (modeSwitch b s).mode.settle.isSome = true
        ∧ (modeSwitch b s).mode.counter = s.mode.counter ∧ ∀ r, m.ref = some r → findCmd r (modeSwitch b s) = none)

/-- A drain that expires (R191, R192): a spindle's puts it out of service; a port's discards its queue and leaves the port unused; an
output's and a radio's end with what they abort; before its instant, or with none in progress, nothing happens. The end of an
enumeration (R242, R254, R257): each tile of the chain is ready, or excluded with its cause, and the chain is ready where none is
excluded, ready with exclusions otherwise. The 2 ms collection of REPLYs ends with the measuring. Completing, with the next state
said: drainTimeout, discoverCollectEnd, enumerationDone. -/
def Obligations.DrainsAndEnumerations : Prop :=
  ((∀ (t f n : Nat) (d : Drain) (s : State), awake s = true →
      s.sched.drains.find? (fun d => d.function == f && d.inst == n) = some d →
      (max s.now t < d.expires → exec (.drainTimeout t f n) s = .next (settled t s (advance t s)))
      ∧ (d.expires ≤ max s.now t →
          (f = 0 → exec (.drainTimeout t f n) s = .next (settled t s (spindleOff n (advance t s))))
          ∧ (f = 2 → exec (.drainTimeout t f n) s = .next (settled t s (outExpired (4096 + n) (advance t s))))
          ∧ (f = 3 → exec (.drainTimeout t f n) s = .next (settled t s (outExpired n (advance t s))))
          ∧ (f = 4 → exec (.drainTimeout t f n) s = .next (settled t s (radioExpired n (advance t s))))
          ∧ (f = 1 → (portOf s n).off.isSome = true → ∃ s', exec (.drainTimeout t f n) s = .next (settled t s s')
              ∧ (portOf s' n).queue = [] ∧ (portOf s' n).role = 0 ∧ (portOf s' n).off = none ∧ draining s' 1 n = false)))
    ∧ (∀ (t f n : Nat) (s : State), awake s = true →
      s.sched.drains.find? (fun d => d.function == f && d.inst == n) = none →
      exec (.drainTimeout t f n) s = .next (settled t s (advance t s)))
    ∧ ∀ (n : Nat) (s : State), (spOf s n).draining = true → (spOf (spindleOff n s) n).svc = .disabled
        ∧ (spOf (spindleOff n s) n).draining = false ∧ draining (spindleOff n s) 0 n = false)
  ∧ ((∀ (t n : Nat) (w : WallImg) (c : ChainRec) (s : State), awake s = true → s.wall.active = some w → chainOf w n = some c →
      c.chain = n → (chainLk s n).phase = 2 →
      ∃ s', exec (.enumerationDone t n) s = .next (settled t s s') ∧ (chainLk s' n).phase = 0
        ∧ ((chainLk s' n).state = 2 ∨ (chainLk s' n).state = 3))
    ∧ (∀ (t n : Nat) (s : State), awake s = true → s.wall.active = none →
      exec (.discoverCollectEnd t n) s = .next (settled t s (advance t s)))
    ∧ ∀ (t n : Nat) (w : WallImg) (c : ChainRec) (s : State), awake s = true → s.wall.active = some w → chainOf w n = some c →
      (chainLk s n).phase = 1 →
      (max s.now t < (chainLk s n).began + 2000000 →
        exec (.discoverCollectEnd t n) s = .next (settled t s (advance t s)))
      ∧ ((chainLk s n).began + 2000000 ≤ max s.now t → ∃ s', exec (.discoverCollectEnd t n) s = .next (settled t s s')
          ∧ (chainLk s' n).phase = 2 ∧ ((chainLk s' n).gen = 1 ∨ (chainLk s' n).gen = 2)
          ∧ (chainLk s' n).brk = breakOf (advance t s) c))

/-! ## Ezond Link and the ports -/

/-- The LINK commands (R255, R256): a chain or tile that the active wall has not ends NOT_FOUND; otherwise LINK_STATUS and LINK_TILE
answer, and LINK_ENUM starts an enumeration where none runs and ends STATE where one does. LINK_COUNTERS answers and LINK_GEN_SET
takes generation 1 or 2 of a port of 0 to 63. The PORT commands (R267, R275): PORT_CONFIG refuses a port above 63, an offset
beyond 100 µs and a speed it does not have with RANGE, and a change while one runs with STATE; an unused port enabled at its
present speed is a standard port; one disabled that is unused keeps its settings. PORT_STATUS and PORT_COUNTERS answer, and refuse
a port above 64 with RANGE. Completing, with the next state said: linkStatus, linkEnum, linkTile, linkCounters, linkGenSet,
portConfig, portStatus, portCounters. -/
def Obligations.LinkCommands : Prop :=
  ((∀ (t : Nat) (r : CmdRef) (c : Cmd) (s : State), Ready 0x0901 r c s →
      (∀ k, activeChain s (field c.payload 0 1) = some k →
        exec (.linkStatus t r) s = .next (complete c 0x00 0 (linkStatusBytes s k) (advance t s)))
      ∧ (activeChain s (field c.payload 0 1) = none → exec (.linkStatus t r) s = .next (complete c 0x22 0 [] (advance t s))))
    ∧ (∀ (k : ChainRec) (s : State), (linkStatusBytes s k).length = 32 ∧ field (linkStatusBytes s k) 0 1 = k.chain % 256
        ∧ field (linkStatusBytes s k) 1 1 = (chainLk s k.chain).state % 256
        ∧ field (linkStatusBytes s k) 20 2 = s.twin.cgen.toNat)
    ∧ (∀ (t : Nat) (r : CmdRef) (c : Cmd) (s : State), Ready 0x0902 r c s →
      (∀ k, activeChain s (field c.payload 0 1) = some k → (chainLk s k.chain).phase = 0 →
        exec (.linkEnum t r) s = .next (startEnum k 3 (complete c 0x01 0 [] (advance t s))))
      ∧ (∀ k, activeChain s (field c.payload 0 1) = some k → (chainLk s k.chain).phase ≠ 0 →
        exec (.linkEnum t r) s = .next (complete c 0x23 0 [] (advance t s)))
      ∧ (activeChain s (field c.payload 0 1) = none → exec (.linkEnum t r) s = .next (complete c 0x22 0 [] (advance t s))))
    ∧ (∀ (t : Nat) (r : CmdRef) (c : Cmd) (s : State), Ready 0x0903 r c s →
      (∀ w q, s.wall.active = some w → tileOf w (field c.payload 0 2) = some q →
        exec (.linkTile t r) s = .next (complete c 0x00 0 (linkTileBytes s w q) (advance t s)))
      ∧ (s.wall.active = none → exec (.linkTile t r) s = .next (complete c 0x22 0 [] (advance t s))))
    ∧ (∀ (w : WallImg) (q : TileRec) (s : State), (linkTileBytes s w q).length = 64
        ∧ field (linkTileBytes s w q) 0 2 = q.tile % 65536 ∧ field (linkTileBytes s w q) 4 1 = (tileLk s q.tile).state % 256
        ∧ field (linkTileBytes s w q) 52 2 = (tileLk s q.tile).genHi % 65536)
    ∧ (∀ (t : Nat) (r : CmdRef) (c : Cmd) (s : State), Ready 0x0904 r c s →
      (field c.payload 0 1 ≤ 63 → exec (.linkCounters t r) s =
        .next (complete c 0x00 0 (linkCounterBytes (portOf s (field c.payload 0 1)).lnk) (advance t s)))
      ∧ (63 < field c.payload 0 1 → exec (.linkCounters t r) s = .next (complete c 0x21 0 [] (advance t s))))
    ∧ (∀ k : LinkCnt, (linkCounterBytes k).length = 64 ∧ field (linkCounterBytes k) 0 8 = k.skeins.toNat
        ∧ field (linkCounterBytes k) 12 4 = k.nakRx.toNat ∧ field (linkCounterBytes k) 20 4 = k.dropped.toNat)
    ∧ ∀ (t : Nat) (r : CmdRef) (c : Cmd) (s : State), Ready 0x0905 r c s →
      let p := field c.payload 0 1
      let g := field c.payload 1 1
      (p ≤ 63 → 1 ≤ g → g ≤ 2 → exec (.linkGenSet t r) s = .next (complete c 0x00 0 []
        (modPort p (fun q => { q with linkgen := some g }) (advance t s))))
      ∧ ((63 < p ∨ g = 0 ∨ 2 < g) → exec (.linkGenSet t r) s = .next (complete c 0x21 0 [] (advance t s))))
  ∧ ((∀ (t : Nat) (r : CmdRef) (c : Cmd) (s : State), Ready 0x0A01 r c s →
      let b := c.payload
      let p := field b 0 1
      let set (z : State) : State := modPort p (fun q => { q with
        enabled := field b 1 1 == 1, cfg := field b 2 1, suspended := false, an := bit (field b 3 1) 0
        pauseHonour := bit (field b 3 1) 1, rxExtra := sfield b 4 4, txExtra := sfield b 8 4 }) z
      let sound := p ≤ 63 ∧ field b 1 1 ≤ 1 ∧ field b 2 1 ≤ 3 ∧ (bit (field b 3 1) 0 = true → field b 2 1 = 3)
        ∧ (sfield b 4 4).natAbs ≤ 6400000 ∧ (sfield b 8 4).natAbs ≤ 6400000 ∧ chainPort s p = none
      ((63 < p ∨ 1 < field b 1 1 ∨ (3 < field b 2 1 ∧ field b 2 1 ≠ 0xFF)) →
        exec (.portConfig t r) s = .next (settled t s (complete c 0x21 0 [] (advance t s))))
      ∧ (sound → ((portOf s p).req ≠ none ∨ (portOf s p).off ≠ none) →
        exec (.portConfig t r) s = .next (settled t s (complete c 0x23 0 [] (advance t s))))
      ∧ (sound → (portOf s p).req = none → (portOf s p).off = none → field b 1 1 = 0 → portServes s p = false →
        (portOf s p).role = 0 → exec (.portConfig t r) s = .next (settled t s (complete c 0x00 0 [] (set (advance t s)))))
      ∧ (sound → (portOf s p).req = none → (portOf s p).off = none → field b 1 1 = 1 → (portOf s p).speed = field b 2 1 →
        (portOf s p).role = 0 → ∃ s', exec (.portConfig t r) s = .next (settled t s (complete c 0x00 0 [] s'))
          ∧ (portOf s' p).role = 1 ∧ (portOf s' p).enabled = true ∧ (portOf s' p).cfg = field b 2 1))
    ∧ (∀ (t : Nat) (r : CmdRef) (c : Cmd) (s : State), Ready 0x0A02 r c s →
      (field c.payload 0 1 ≤ 64 → exec (.portStatus t r) s = .next (complete c 0x00 0
        (portStatusBytes (advance t s) (field c.payload 0 1)) (advance t s)))
      ∧ (64 < field c.payload 0 1 → exec (.portStatus t r) s = .next (complete c 0x21 0 [] (advance t s))))
    ∧ (∀ (p : Nat) (s : State), (portStatusBytes s p).length = 32 ∧ field (portStatusBytes s p) 1 1 = (portOf s p).role % 256
        ∧ field (portStatusBytes s p) 4 4 = pstat s p % 2 ^ 32 ∧ field (portStatusBytes s p) 8 4 = (portOf s p).lockLosses.toNat)
    ∧ ∀ (t : Nat) (r : CmdRef) (c : Cmd) (s : State), Ready 0x0A03 r c s →
      (field c.payload 0 1 ≤ 64 → ∃ b : Bytes, exec (.portCounters t r) s = .next (complete c 0x00 0 b (advance t s))
        ∧ b.length = 472 ∧ ∀ n, n < 59 → field b (8 * n) 8 = kgetD (portOf s (field c.payload 0 1)).cnt n 0 % 2 ^ 64)
      ∧ (64 < field c.payload 0 1 → exec (.portCounters t r) s = .next (complete c 0x21 0 [] (advance t s))))

/-- A port whose line is idle starts the waiting frame of the highest class (R264): it leaves the queue, it is sent with its addresses
and EtherType (R225), and the line is busy for its bytes and the 8 of preamble. A skein's frame starts only where its last bit
leaves by the retry guard (R232). A busy line starts nothing. COMMIT copies (R234): 45 µs before the commit copy 0 is queued on
every end that serves tiles of a ready chain, 42 µs before it copy 1; before that, without pixel service or after R443 none is
queued. At the retry guard every skein not yet sent is dropped for the epoch and none waits on a line (R232). ACK and NAK (R238,
R239) of a tile on a port in service, from which no newer generation makes this device give up its role: an ACK of the epoch being
sent acknowledges the tile's skeins; a NAK counts in NAK_RX and LINK_ERR and, before the guard, resends each missing skein that
was sent; the tile's GEN_HI is the frame's GEN (R226, R243). Completing, with the next state said: commitCopySend,
skeinGuardExpiry, frameTransmitStart, ackRx, nakRx, ackWaitExpiry. -/
def Obligations.LinkFrames : Prop :=
  ((∀ (t p : Nat) (f : TxFrame) (rest : List TxFrame) (s : State), awake s = true → p ≤ 64 → (portOf s p).retired = false →
      (portOf s p).off = none → lineIdle (advance t s) p = true →
      let z := modPort p (fun q => { q with current := none }) (advance t s)
      nextTx z ((portOf z p).queue.filter (eligible z p)) = some (f, rest) → txClass f.kind ≠ 5 → txClass f.kind ≠ 2 →
      ∃ s', exec (.frameTransmitStart t p) s = .next (settled t s s')
        ∧ (portOf s' p).queue = dropFirst (· == f) (portOf s p).queue
        ∧ (portOf s' p).current = some { f with head := frameHead p f }
        ∧ (portOf s' p).busyUntil = max s.now t + lineNs (portOf s p).speed (f.len + 8)
        ∧ Out.frame p { f with head := frameHead p f } ∈ s'.out)
    ∧ (∀ (t p : Nat) (s : State), awake s = true → p ≤ 64 → lineIdle (advance t s) p = false →
      exec (.frameTransmitStart t p) s = .next (settled t s (advance t s)))
    ∧ ∀ (p tile idx : Nat) (poll : Bool) (f : TxFrame) (s z : State), startSkein p tile idx poll f s = some z →
      (portOf z p).busyUntil ≤ guardAt s ∧ guardAt z = guardAt s)
  ∧ ((∀ (t copy : Nat) (s : State), awake s = true → copy ≤ 1 → s.link.sending = true →
      s.link.commitAt ≤ max s.now t + (if copy = 0 then 45000 else 42000) → s.fab.svcLevel = 2 → s.flt.hushed = false →
      exec (.commitCopySend t copy) s = .next (settled t s (forEach (allEnds s) (advance t s) fun e s =>
        if hopsOf s e.1 e.2.1 == 0 || !chainReady s e.1.chain then s
        else queueTx e.2.2 (castEnd s e.1 e.2.1 2 copy (.commit copy) s.link.epoch
          ((beN 4 s.link.epoch.toNat ++ beN 8 s.link.commitAt ++ zeros 8) ++ zeros 4)) s)))
    ∧ (∀ (t copy : Nat) (s : State), awake s = true →
      (1 < copy ∨ s.link.sending = false ∨ s.fab.svcLevel ≠ 2 ∨ s.flt.hushed = true
        ∨ max s.now t + (if copy = 0 then 45000 else 42000) < s.link.commitAt) →
      exec (.commitCopySend t copy) s = .next (settled t s (advance t s)))
    ∧ (∀ (t : Nat) (s : State), awake s = true → s.link.sending = true → guardAt s ≤ max s.now t →
      ∃ s', exec (.skeinGuardExpiry t) s = .next (settled t s s')
        ∧ (∀ p, ∀ f ∈ (portOf s' p).queue, ∀ tile idx poll, f.kind ≠ .skein tile idx poll)
        ∧ ∀ tile idx k, findSkein s tile idx = some k → k.sends = 0 → ∃ k', findSkein s' tile idx = some k' ∧ k'.dropped = true)
    ∧ ∀ (t : Nat) (s : State), awake s = true → (s.link.sending = false ∨ max s.now t < guardAt s) →
      exec (.skeinGuardExpiry t) s = .next (settled t s (advance t s)))
  ∧ ((∀ (t n : Nat) (h : TileHdr) (e : U32) (c : ChainRec) (b : Bool) (q : TileRec) (s : State), awake s = true →
      (portOf s h.port).retired = false → tileOfHdr s h = some (c, b, q) →
      (s.twin.enabled && s.twin.role == 1 && newerGen h.gen.toNat s.twin.cgen.toNat) = false → e = s.link.epoch →
      ∃ s', exec (.ackRx t h e n) s = .next (settled t s s') ∧ (tileLk s' q.tile).acked = true
        ∧ (tileLk s' q.tile).waitFrom = none ∧ (tileLk s' q.tile).genHi = h.gen.toNat)
    ∧ (∀ (t base : Nat) (h : TileHdr) (e : U32) (miss : U64) (c : ChainRec) (b : Bool) (q : TileRec) (s : State), awake s = true →
      (portOf s h.port).retired = false → tileOfHdr s h = some (c, b, q) →
      (s.twin.enabled && s.twin.role == 1 && newerGen h.gen.toNat s.twin.cgen.toNat) = false →
      ∃ s', exec (.nakRx t h e base miss) s = .next (settled t s s')
        ∧ (portOf s' h.port).lnk.nakRx = (portOf s h.port).lnk.nakRx + 1
        ∧ (portOf s' h.port).lnk.linkErr = (portOf s h.port).lnk.linkErr + 1
        ∧ (tileLk s' q.tile).genHi = h.gen.toNat
        ∧ (e = s.link.epoch → max s.now t < guardAt s → (chainLk s c.chain).gen ≠ 1 → ∀ w i k c' b', s.wall.active = some w →
            tileOf w q.tile = some q → servePort s w q = some (c', b', h.port) → i < 64 → miss.getLsbD i = true →
            findSkein s q.tile (base + i) = some k → k.sends ≠ 0 → maySend h.port (.skein q.tile (base + i) false) s = true →
            skeinQueued s' h.port q.tile (base + i) = true))
    ∧ ∀ (t tile at_ : Nat) (w : WallImg) (q : TileRec) (c : ChainRec) (b : Bool) (s : State), awake s = true →
      (tileLk s tile).waitFrom = some at_ → skeinPlace s tile = some (w, q, c, b) →
      let wait := 10000 + 2 * ((offOf (tileLk s tile) b).getD 0) / 64
      (((tileLk s tile).acked = true ∨ max s.now t < at_ + wait) →
        exec (.ackWaitExpiry t tile) s = .next (settled t s (advance t s)))
      ∧ ((tileLk s tile).acked = false → at_ + wait ≤ max s.now t → ∃ s', exec (.ackWaitExpiry t tile) s = .next (settled t s s')
          ∧ (tileLk s' tile).waitFrom = none
          ∧ (portOf s' (portOfEnd c b)).lnk.linkErr = (portOf s (portOfEnd c b)).lnk.linkErr
              + (if (tileLk s tile).polled then 1 else 0)))

/-- ECHO and MEASURE (R244, R246): an ECHO adds its sample to the last 16 of its hop and end; the rotation sends a MEASURE to the next
hop of a ready chain's end in service, and none otherwise. Chain speeds (R248, R266, R267): a CONFIRM of the speed asked for in
time counts its hop, and once every hop needed has confirmed, the change is agreed; a hop that has not confirmed in 200 µs cancels
it, counted, and a raise is asked again later; a line that has retrained ends the change. Completing, with the next state said:
echoRx, measureRotation, speedConfirmRx, speedConfirmTimeout, lineRetrained. -/
def Obligations.MeasureAndSpeed : Prop :=
  ((∀ (t turn rtt : Nat) (seq : U16) (h : TileHdr) (c : ChainRec) (b : Bool) (q : TileRec) (s : State), awake s = true →
      (portOf s h.port).retired = false → tileOfHdr s h = some (c, b, q) →
      (s.twin.enabled && s.twin.role == 1 && newerGen h.gen.toNat s.twin.cgen.toNat) = false →
      let l := samplesOf (chainLk s c.chain) b h.hop ++ [(rtt : Int) - (turn : Int)]
      ∃ s', exec (.echoRx t h seq turn rtt) s = .next (settled t s s')
        ∧ samplesOf (chainLk s' c.chain) b h.hop = l.drop (l.length - 16))
    ∧ (∀ (t p : Nat) (c : ChainRec) (b : Bool) (s : State), awake s = true → endOfPort s p = some (c, b) →
      let hops := (if b then (chainLk s c.chain).foundB else (chainLk s c.chain).foundA).map (fun e => e.1)
      let i := (portOf s p).measureNext
      (chainReady s c.chain = true → chainUp s p = true → hops ≠ [] → exec (.measureRotation t p) s =
        .next (settled t s (measure c b p (hops.getD (i % hops.length) 1)
          (modPort p (fun q => { q with measureNext := i + 1 }) (advance t s)))))
      ∧ (chainUp s p = false → exec (.measureRotation t p) s = .next (settled t s (advance t s))))
    ∧ ∀ (t p : Nat) (s : State), awake s = true → endOfPort s p = none →
      exec (.measureRotation t p) s = .next (settled t s (advance t s)))
  ∧ ((∀ (t speed : Nat) (h : TileHdr) (c : ChainRec) (b : Bool) (q : TileRec) (r : SpeedReq) (s : State), awake s = true →
      (portOf s h.port).retired = false → tileOfHdr s h = some (c, b, q) →
      (s.twin.enabled && s.twin.role == 1 && newerGen h.gen.toNat s.twin.cgen.toNat) = false →
      (portOf s h.port).req = some r → r.dest = speed → r.agreed = false → max s.now t ≤ r.askedAt + 200000 → max s.now t < r.at_ →
      ∃ s' r', exec (.speedConfirmRx t h speed) s = .next (settled t s s') ∧ (portOf s' h.port).req = some r'
        ∧ h.hop ∈ r'.got ∧ (∀ x ∈ r.got, x ∈ r'.got) ∧ (r'.agreed = true ↔ ∀ x ∈ r.need, x ∈ r'.got))
    ∧ (∀ (t p : Nat) (r : SpeedReq) (c : ChainRec) (b : Bool) (s : State), awake s = true → (portOf s p).req = some r →
      endOfPort s p = some (c, b) → r.agreed = false → r.retrain = false →
      (max s.now t < r.askedAt + 200000 → exec (.speedConfirmTimeout t p) s = .next (settled t s (speedsDue (advance t s))))
      ∧ (r.askedAt + 200000 ≤ max s.now t → ∃ s', exec (.speedConfirmTimeout t p) s = .next (settled t s s')
          ∧ (portOf s' p).req = none ∧ (portOf s' p).again = (if r.rises then some r.dest else none)
          ∧ (portOf s' p).speedCancels = (portOf s p).speedCancels + 1 ∧ (portOf s' p).speed = (portOf s p).speed))
    ∧ (∀ (t p : Nat) (r : SpeedReq) (s : State), awake s = true → (portOf s p).req = some r → r.retrain = true →
      ∃ s', exec (.lineRetrained t p) s = .next (settled t s s') ∧ (portOf s' p).req = none
        ∧ (portOf s' p).speed = (portOf s p).speed ∧ (portOf s' p).speedCancels = (portOf s p).speedCancels)
    ∧ ∀ (t p : Nat) (s : State), awake s = true → (portOf s p).req = none →
      exec (.lineRetrained t p) s = .next (settled t s (speedsDue (advance t s))))

/-- Pause (R263): a pause frame defers a standard port that honours pause for its quanta at the port's speed, and no other port; once
they have passed the port is no longer deferred; a port that is off hears none. Lock (R270, R273, R436, R511): a port in use takes
its receiver's state, AN_DONE only where it negotiates at the speed that does (R259); a loss of lock of 10 ms or less is counted
when it ends; one that has lasted 10 ms is a detection of the port's source with CAUSE 2; the ports of a board output that is on
and folds back lose lock. A received frame that no other command takes (R107, R268, R436): one with an error counts in its error's
counter; on a retired port, or on a standard port whose buffer is full, it is dropped and counted; any other is counted by size,
kind and bytes; a port that is off hears none. Completing, with the next state said: pauseFrame, pauseQuantaExpiry, lockChange,
lockLossTimeout, receivedFrame, vmodFoldBack. -/
def Obligations.PortEvents : Prop :=
  ((∀ (t p op quanta : Nat) (s : State), awake s = true → PinDriven s → p < 64 → hears s p = true →
      ∃ s', exec (.pauseFrame t p op quanta) s = .next s'
        ∧ ((portOf s p).role = 1 → (portOf s p).retired = false → (portOf s p).pauseHonour = true → op = 1 → (portOf s' p).pausedUntil =
            max s.now t + quanta * 512 * 1000000000 / lineRate (portOf s p).speed)
        ∧ (((portOf s p).role ≠ 1 ∨ (portOf s p).retired = true ∨ (portOf s p).pauseHonour = false ∨ op ≠ 1) →
            (portOf s' p).pausedUntil = (portOf s p).pausedUntil)
        ∧ kgetD (portOf s' p).cnt 12 0 = kgetD (portOf s p).cnt 12 0 + (if op = 1 ∨ op = 0x101 then 1 else 0))
    ∧ (∀ (t p op quanta : Nat) (s : State), awake s = true → PinDriven s → hears s p = false →
      exec (.pauseFrame t p op quanta) s = .next (advance t s))
    ∧ ∀ (t p : Nat) (s : State), awake s = true → PinDriven s →
      ((portOf s p).pausedUntil ≤ max s.now t → exec (.pauseQuantaExpiry t p) s =
        .next (modPort p (fun q => { q with pausedUntil := 0 }) (advance t s)))
      ∧ (max s.now t < (portOf s p).pausedUntil → exec (.pauseQuantaExpiry t p) s = .next (advance t s)))
  ∧ ((∀ (t p : Nat) (lock sig an : Bool) (s : State), awake s = true → (portOf s p).role = 0 → p ≠ 64 →
      exec (.lockChange t p lock sig an) s = .next (settled t s (advance t s)))
    ∧ (∀ (t p : Nat) (lock sig an : Bool) (s : State), awake s = true → p ≤ 64 → ((portOf s p).role ≠ 0 ∨ p = 64) →
      ∃ s', exec (.lockChange t p lock sig an) s = .next (settled t s s') ∧ (portOf s' p).lock = lock
        ∧ (portOf s' p).signal = sig ∧ (portOf s' p).anDone = (an && (portOf s p).an && (portOf s p).speed == 3)
        ∧ ((portOf s p).lock = true → lock = false → kget? s'.flt.lockLostAt p = some (max s.now t))
        ∧ (∀ a, (portOf s p).lock = false → lock = true → kget? s.flt.lockLostAt p = some a →
            kget? s'.flt.lockLostAt p = none
            ∧ (portOf s' p).lockLosses = (portOf s p).lockLosses + (if max s.now t ≤ a + 10000000 then 1 else 0)))
    ∧ (∀ (t p a : Nat) (s : State), awake s = true → p < 64 → kget? s.flt.lockLostAt p = some a →
      (a + 10000000 ≤ max s.now t → exec (.lockLossTimeout t p) s = .next (settled t s (raise (0x1C00 + p) 2
        [((max s.now t - a : Nat) : Int)] { advance t s with flt := { s.flt with lockLostAt := kerase s.flt.lockLostAt p } })))
      ∧ (max s.now t < a + 10000000 → exec (.lockLossTimeout t p) s = .next (settled t s (advance t s))))
    ∧ ∀ (t g p : Nat) (s : State), awake s = true → g < 8 → vmodOn s g = true → p / 8 = g → (portOf s p).role ≠ 0 →
      ∃ s', exec (.vmodFoldBack t g true) s = .next (settled t s s') ∧ g ∈ s'.power.foldBack ∧ (portOf s' p).lock = false)
  ∧ ((∀ (t : Nat) (f : RxFrame) (e : RxErr) (s : State), awake s = true → f.port ≤ 64 → f.err = some e → hears s f.port = true →
      ∃ s', exec (.receivedFrame t f) s = .next (settled t s s')
        ∧ kgetD (portOf s' f.port).cnt (errCounter e) 0 = kgetD (portOf s f.port).cnt (errCounter e) 0 + 1)
    ∧ (∀ (t : Nat) (f : RxFrame) (s : State), awake s = true → f.port ≤ 64 → f.err = none →
      f.pause = false → roleAt s f.port = 1 → (portOf s f.port).retired = false → 2048 ≤ ingressFill s f.port →
      exec (.receivedFrame t f) s = .next (settled t s (bumpCnt f.port 32 1 (advance t s))))
    ∧ (∀ (t : Nat) (f : RxFrame) (s : State), awake s = true → f.port ≤ 64 → f.err = none → f.pause = false →
      (portOf s f.port).retired = true → hears s f.port = true → 64 ≤ f.len → f.len ≤ 9216 →
      ∃ s', exec (.receivedFrame t f) s = .next (settled t s s') ∧ s'.ing = s.ing
        ∧ kgetD (portOf s' f.port).cnt 32 0 = kgetD (portOf s f.port).cnt 32 0 + 1)
    ∧ (∀ (t : Nat) (f : RxFrame) (s : State), awake s = true → f.port < 64 → f.err = none → f.pause = false →
      (portOf s f.port).role = 0 → exec (.receivedFrame t f) s = .next (settled t s (advance t s)))
    ∧ (∀ (t : Nat) (f : RxFrame) (s : State), awake s = true → f.port ≤ 64 → f.err = none → f.pause = false →
      rxDrop s f.port f.video = none → hears s f.port = true → 64 ≤ f.len → f.len ≤ 9216 → ∃ s', exec (.receivedFrame t f) s = .next (settled t s s')
        ∧ kgetD (portOf s' f.port).cnt 33 0 = kgetD (portOf s f.port).cnt 33 0 + f.len)
    ∧ ∀ (p n k : Nat) (s : State), kgetD (portOf (bumpCnt p n k s) p).cnt n 0 = kgetD (portOf s p).cnt n 0 + k
        ∧ (∀ j, j ≠ n → kgetD (portOf (bumpCnt p n k s) p).cnt j 0 = kgetD (portOf s p).cnt j 0)
        ∧ (∀ q, q ≠ p → portOf (bumpCnt p n k s) q = portOf s q))

/-! ## Time -/

/-- The TIME settings (R277, R278, R297): TIME_PTP_SET takes the settings of a profile in its ranges and refuses others with RANGE,
and a change of profile, role or domain loses the master; TIME_PTP_PORT enables PTP on a standard port where the role has room,
else ends STATE, and disables it; TIME_STATUS answers. TIME_LOCK (R283 to R285): with a mode in force and no change pending,
source 0 frees the lock and source 1 names a video stream, lost or being followed; a stream not defined ends NOT_FOUND, and
without a mode it ends STATE. A step of TIME (R281, R289) moves the time by the step, counts it, and settles the epochs of the
mode in force. Completing, with the next state said: timePtpSet, timePtpPort, timeStatus, timeLock. -/
def Obligations.TimeCommands : Prop :=
  ((∀ (t : Nat) (r : CmdRef) (c : Cmd) (s : State), Ready 0x0B01 r c s →
      let p := c.payload
      let sound := field p 0 1 ≤ 1 ∧ field p 1 1 ≤ 2 ∧ field p 2 1 ≤ 127
        ∧ ptpRange (field p 0 1) (sfield p 5 1) (sfield p 6 1) (sfield p 7 1) = true ∧ 2 ≤ field p 8 1 ∧ field p 8 1 ≤ 10
        ∧ (bit (field p 9 1) 1 = true → field p 0 1 ≠ 0) ∧ (field p 10 2 = 0 ∨ (10 ≤ field p 10 2 ∧ field p 10 2 ≤ 1000))
        ∧ field p 12 4 ≤ 1000000 ∧ s.time.ports.length ≤ roleLimit (field p 1 1)
      ((1 < field p 0 1 ∨ 2 < field p 1 1 ∨ 127 < field p 2 1 ∨ field p 8 1 < 2 ∨ 10 < field p 8 1 ∨ 1000000 < field p 12 4) →
        exec (.timePtpSet t r) s = .next (settled t s (complete c 0x21 0 [] (advance t s))))
      ∧ (sound → field p 0 1 = s.time.profile → field p 1 1 = s.time.role → field p 2 1 = s.time.domain →
        exec (.timePtpSet t r) s = .next (settled t s (complete c 0x00 0 [] { advance t s with time := { s.time with
          prio1 := field p 3 1, prio2 := field p 4 1, logSync := sfield p 5 1, logAnn := sfield p 6 1
          logDelay := sfield p 7 1, timeout := field p 8 1, step := bit (field p 9 1) 0, l2 := bit (field p 9 1) 1
          bandwidth := if field p 10 2 = 0 then 100 else field p 10 2
          stepUs := if field p 12 4 = 0 then 1000 else field p 12 4 } })))
      ∧ (sound → field p 0 1 ≠ s.time.profile → ∃ s', exec (.timePtpSet t r) s = .next (settled t s (complete c 0x00 0 [] s'))
          ∧ s'.time.profile = field p 0 1 ∧ s'.time.role = field p 1 1 ∧ s'.time.slavePort = 0xFF
          ∧ (s.time.state = 2 → s'.time.state = 3)))
    ∧ (∀ (t : Nat) (r : CmdRef) (c : Cmd) (s : State), Ready 0x0B02 r c s →
      let p := c.payload
      let port := field p 0 1
      let sound := port ≤ 63 ∧ field p 2 1 ≤ 1 ∧ (sfield p 4 4).natAbs ≤ 64000000
      (sound → field p 1 1 = 1 → (portOf s port).role = 1 → (kerase s.time.ports port).length < roleLimit s.time.role →
        exec (.timePtpPort t r) s = .next (settled t s (complete c 0x00 0 [] { advance t s with time := { s.time with
          ports := kset s.time.ports port { kgetD s.time.ports port {} with oneStep := field p 2 1 == 1, asym := sfield p 4 4 } } })))
      ∧ (sound → field p 1 1 = 1 → (portOf s port).role ≠ 1 →
        exec (.timePtpPort t r) s = .next (settled t s (complete c 0x23 0 [] (advance t s))))
      ∧ (sound → field p 1 1 = 0 → s.time.slavePort ≠ port →
        exec (.timePtpPort t r) s = .next (settled t s (complete c 0x00 0 [] { advance t s with time := { s.time with
          ports := kerase s.time.ports port } })))
      ∧ (63 < port → exec (.timePtpPort t r) s = .next (settled t s (complete c 0x21 0 [] (advance t s)))))
    ∧ (∀ (t : Nat) (r : CmdRef) (c : Cmd) (s : State), Ready 0x0B03 r c s →
      exec (.timeStatus t r) s = .next (complete c 0x00 0 (timeStatusBytes (advance t s)) (advance t s)))
    ∧ ∀ s : State, (timeStatusBytes s).length = 64 ∧ field (timeStatusBytes s) 0 1 = s.time.state % 256
        ∧ field (timeStatusBytes s) 8 8 = s.now % 2 ^ 64 ∧ field (timeStatusBytes s) 56 4 = s.time.steps.toNat)
  ∧ ((∀ (t : Nat) (r : CmdRef) (c : Cmd) (s : State), Ready 0x0B04 r c s →
      let p := c.payload
      let per : Int := periodNs s.mode.mode
      let sound := (field p 8 4 = 0 ∨ (12000 ≤ field p 8 4 ∧ field p 8 4 ≤ 1000000)) ∧ 1 - per ≤ sfield p 4 4
        ∧ sfield p 4 4 ≤ per - 1
      ((2 < field p 0 1) → exec (.timeLock t r) s = .next (settled t s (complete c 0x21 0 [] (advance t s))))
      ∧ (sound → field p 0 1 ≤ 2 → (s.mode.mode = 0 ∨ s.mode.pending.isSome = true) →
        exec (.timeLock t r) s = .next (settled t s (complete c 0x23 0 [] (advance t s))))
      ∧ (sound → s.mode.mode ≠ 0 → s.mode.pending = none → field p 0 1 = 1 → khas s.ing.videos (field p 2 2) = false →
        exec (.timeLock t r) s = .next (settled t s (complete c 0x22 0 [] (advance t s))))
      ∧ (sound → s.mode.mode ≠ 0 → s.mode.pending = none → field p 0 1 ≤ 1 →
        (field p 0 1 = 1 → khas s.ing.videos (field p 2 2) = true) →
        ∃ s', exec (.timeLock t r) s = .next (settled t s s') ∧ findCmd r s' = none ∧ s'.time.lockSource = field p 0 1
          ∧ s'.time.lockId = field p 2 2 ∧ s'.time.lockTol = (if field p 8 4 = 0 then 20000 else field p 8 4)
          ∧ (field p 0 1 = 0 → s'.time.lockState = 0)
          ∧ (∀ v, field p 0 1 = 1 → kget? s.ing.videos (field p 2 2) = some v → s'.time.lockState = (if v.lost then 4 else 2))))
    ∧ ∀ s : State, (timeStep s).now = ((s.now : Int) + s.time.stepBy).toNat ∧ (timeStep s).time.steps = s.time.steps + 1
        ∧ (timeStep s).time.stepAt = none ∧ (timeStep s).time.seq = s.time.seq + 2
        ∧ (s.mode.mode ≠ 0 → (timeStep s).mode.settle.isSome = true) ∧ (timeStep s).mode.counter = s.mode.counter
        ∧ (timeStep s).mode.mode = s.mode.mode)

/-- PTP received and sent (R277 to R282): an Announce of another domain is counted as a frame and changes no master; an exchange whose
timestamp is lost or not yet there has no effect, and a GAP counts every exchange it discards; one on the slave port whose offset
calls for no step gives the offset and path that its four timestamps define, and 16 in a row within 100 ns lock the time; a
message that a port may not send is not queued; a port's Announce that has timed out is forgotten, and before that nothing
happens. Completing, with the next state said: ptpAnnounceRx, ptpEventRx, ptpMessageTx, announceTimeout. -/
def Obligations.PtpTime : Prop :=
  (∀ (t : Nat) (a : Announce) (s : State), awake s = true →
    Receives s a.port (if s.time.l2 then 82 else 110) false → (ptpUp s a.port = false ∨ a.domain ≠ s.time.domain) →
    ∃ s', exec (.ptpAnnounceRx t a) s = .next (settled t s s') ∧ s'.time = s.time
      ∧ kgetD (portOf s' a.port).cnt 13 0 = kgetD (portOf s a.port).cnt 13 0 + 1)
  ∧ (∀ (t : Nat) (a : Announce) (s : State), awake s = true →
    Receives s a.port (if s.time.l2 then 82 else 110) false → ptpUp s a.port = true → a.domain = s.time.domain →
    (kgetD s.time.ports a.port {}).best = none →
    ∃ s', exec (.ptpAnnounceRx t a) s = .next (settled t s s') ∧ ∃ q, kget? s'.time.ports a.port = some q ∧ q.best = some a
      ∧ q.count = 1 ∧ q.heardAt = max s.now t)
  ∧ (∀ (t : Nat) (x : PtpExchange) (s : State), awake s = true →
    Receives s x.port (if s.time.l2 then 64 else 90) false → ptpUp s x.port = true → s.time.slavePort = x.port →
    s.link.ts.flatMap (fun e => e.2.entries) = [] → delayStamp x s = none →
    ∃ s', exec (.ptpEventRx t x) s = .next (settled t s s') ∧ s'.time = s.time)
  ∧ (∀ (e : TsEntry) (old rest : List TsWait) (w : TsWait) (s : State), e.gap = true → s.time.tsWait = old ++ w :: rest →
    w.id = e.id → (∀ v ∈ old, v.id ≠ e.id ∧ v.at_ = none ∧ tsGroupOf v.port = tsGroupOf e.port) →
    (tsEntry e s).time.tsMissing = s.time.tsMissing + BitVec.ofNat 32 old.length
    ∧ ∀ v ∈ old, v ∉ (tsEntry e s).time.tsWait)
  ∧ (∀ (t : Nat) (t3 : Int) (x : PtpExchange) (s : State), awake s = true →
    Receives s x.port (if s.time.l2 then 64 else 90) false → ptpUp s x.port = true → s.time.slavePort = x.port →
    s.link.ts.flatMap (fun e => e.2.entries) = [] → delayStamp x s = some t3 →
    let off := ((x.t2 - x.t1) - (x.t4 - t3)) / 2 - (kgetD s.time.ports x.port {}).asym / 64
    (s.time.step = false ∨ off.natAbs < 1000 * s.time.stepUs) →
    ∃ s', exec (.ptpEventRx t x) s = .next (settled t s s') ∧ s'.time.offset = off
      ∧ s'.time.meanPath = (((x.t2 - x.t1) + (x.t4 - t3)) / 2).toNat
      ∧ (s.time.state = 1 → off.natAbs ≤ 100 → 15 ≤ s.time.lockRun → s'.time.state = 2)
      ∧ (s.time.state = 1 → 100 < off.natAbs → s'.time.state = 1 ∧ s'.time.lockRun = 0)
      ∧ (s.time.state = 2 → off.natAbs ≤ 1000 → s'.time.state = 2))
  ∧ (∀ (t p : Nat) (k : PtpTx) (s : State), awake s = true → PinDriven s → ptpUp s p = false →
    s.link.ts.flatMap (fun e => e.2.entries) = [] → exec (.ptpMessageTx t p k) s = .next (advance t s))
  ∧ (∀ (t p : Nat) (q : PtpPort) (s : State), awake s = true → PinDriven s → ptpUp s p = true → s.time.slavePort = p →
    kget? s.time.ports p = some q → s.link.ts.flatMap (fun e => e.2.entries) = [] →
    let z := if q.oneStep then advance t s else modTime (fun k => { k with
      tsNext := (s.time.tsNext + 1) % 65536, tsWait := k.tsWait ++ [{ id := s.time.tsNext, port := p, kind := .delayReq }] }) (advance t s)
    exec (.ptpMessageTx t p .delayReq) s = .next (queueTx p { kind := .ptp .delayReq
                                                              tsId := if q.oneStep then none else some s.time.tsNext
                                                              len := if s.time.l2 then 64 else udpLen 44 } z))
  ∧ ∀ (t p : Nat) (q : PtpPort) (s : State), awake s = true → kget? s.time.ports p = some q →
    (max s.now t < q.heardAt + s.time.timeout * pow2s s.time.logAnn →
      exec (.announceTimeout t p) s = .next (settled t s (advance t s)))
    ∧ (q.best.isSome = true → q.heardAt + s.time.timeout * pow2s s.time.logAnn ≤ max s.now t →
      ∃ s', exec (.announceTimeout t p) s = .next (settled t s s') ∧ ∃ u, kget? s'.time.ports p = some u ∧ u.best = none
        ∧ u.count = 0)

/-- LTC (R286): TIME_LTC_SET switches the decoder; a word while it is off changes nothing; the second of two consecutive words locks
it; with no valid word for 4 nominal frame periods it is lost, and before that nothing happens. The RTC (R287): while TIME is
locked each second sets the RTC and the UTC offset from it, and otherwise leaves them; TIME_RTC_SET sets the RTC while TIME is not
locked, and an alarm; locked, setting it ends STATE. Completing, with the next state said: timeLtcSet, timeRtcSet, ltcWord,
ltcLossTimeout, rtcSecond. -/
def Obligations.LtcAndRtc : Prop :=
  ((∀ (t : Nat) (r : CmdRef) (c : Cmd) (s : State), Ready 0x0B06 r c s →
      ((1 < field c.payload 0 1 ∨ 4 < field c.payload 1 1) →
        exec (.timeLtcSet t r) s = .next (complete c 0x21 0 [] (advance t s)))
      ∧ (field c.payload 0 1 ≤ 1 → field c.payload 1 1 ≤ 4 → ∃ s', exec (.timeLtcSet t r) s = .next (complete c 0x00 0 [] s')
          ∧ s'.time.ltcOn = decide (field c.payload 0 1 = 1) ∧ s'.time.ltcRateSet = field c.payload 1 1
          ∧ (field c.payload 0 1 = 0 → s'.time.ltcState = 0)
          ∧ (field c.payload 0 1 = 1 → s.time.ltcOn = false → s'.time.ltcState = 1)
          ∧ { s' with time := s.time, hif := s.hif } = advance t s))
    ∧ (∀ (t : Nat) (w : LtcWord) (s : State), awake s = true → PinDriven s → s.time.ltcOn = false →
      exec (.ltcWord t w) s = .next (advance t s))
    ∧ (∀ (t : Nat) (w : LtcWord) (q : U32) (s : State), awake s = true → PinDriven s → s.time.ltcOn = true → 1 ≤ w.rate →
      w.rate ≤ 4 → (s.time.ltcRateSet = 0 ∨ s.time.ltcRateSet = w.rate) → s.time.ltcState = 1 → s.time.ltcPrev = some q →
      s.time.ltcRate = w.rate → 1 ≤ s.time.ltcRun → (tcFrames w.rate q + 1) % tcDay w.rate = tcFrames w.rate w.tc →
      s.time.cues = [] →
      ∃ s', exec (.ltcWord t w) s = .next s' ∧ s'.time.ltcState = 2 ∧ s'.time.ltcTc = w.tc ∧ s'.time.ltcLatch = max s.now t)
    ∧ ∀ (t : Nat) (s : State), awake s = true → PinDriven s →
      (s.time.ltcState = 2 → s.time.ltcLatch + 4 * ltcPeriod s.time.ltcRate ≤ max s.now t →
        ∃ s', exec (.ltcLossTimeout t) s = .next s' ∧ s'.time.ltcState = 3)
      ∧ ((s.time.ltcState ≠ 2 ∨ max s.now t < s.time.ltcLatch + 4 * ltcPeriod s.time.ltcRate) →
        exec (.ltcLossTimeout t) s = .next (advance t s)))
  ∧ ((∀ (t : Nat) (s : State), PinDriven s →
      exec (.rtcSecond t) s = .next (if s.time.state = 2 then { advance t s with time := { s.time with
        rtcSec := max s.now t / 1000000000, rtcAt := max s.now t / 1000000000 * 1000000000, rtcValid := true
        utcOffset := s.time.gmUtc } } else advance t s))
    ∧ ∀ (t : Nat) (r : CmdRef) (c : Cmd) (s : State), Ready 0x0B07 r c s →
      let p := c.payload
      (bit (field p 0 1) 0 = true → 2 ^ 48 ≤ field p 8 8 →
        exec (.timeRtcSet t r) s = .next (complete c 0x21 0 [] (advance t s)))
      ∧ (bit (field p 0 1) 0 = true → field p 8 8 < 2 ^ 48 → s.time.state = 2 →
        exec (.timeRtcSet t r) s = .next (complete c 0x23 0 [] (advance t s)))
      ∧ (bit (field p 0 1) 0 = true → field p 8 8 < 2 ^ 48 → s.time.state ≠ 2 → bit (field p 0 1) 1 = false →
        exec (.timeRtcSet t r) s = .next (complete c 0x00 0 [] { advance t s with time := { s.time with
          rtcSec := field p 8 8, rtcAt := max s.now t, rtcValid := true, utcOffset := sfield p 2 2 } }))
      ∧ (bit (field p 0 1) 0 = false → bit (field p 0 1) 1 = true →
        exec (.timeRtcSet t r) s = .next (complete c 0x00 0 [] { advance t s with time := { s.time with
          alarm := if field p 4 4 = 0 then none else some (rtcNs (advance t s) + field p 4 4 * 1000000000) } })))

/-- CUE_SCHEDULE (R79, R292, R298): a cue whose commands break a rule of R79 ends VIOLATION; a number above 511 ends RANGE; a number
in use ends STATE; a cue for an instant that has not passed is pending and ends ACCEPTED. CUE_STATUS answers, zeros for none.
Completing, with the next state said: cueSchedule, cueStatus. -/
def Obligations.CueCommands : Prop :=
  (∀ (t : Nat) (r : CmdRef) (c : Cmd) (s : State), Ready 0x0C01 r c s →
    let p := c.payload
    let n := field p 0 2
    let l := cueCmds p (min (field p 20 1) 16) 24
    let sound := cueViolation l = none ∧ n ≤ 511 ∧ (field p 2 1 ≤ 1 ∨ field p 2 1 = 0xFF) ∧ field p 3 1 = 0
      ∧ 1 ≤ field p 20 1 ∧ field p 20 1 ≤ 16 ∧ l.find? (fun e => cueForbids e.2.1) = none
    (∀ k a, cueViolation l = some (k, a) → ∃ s', exec (.cueSchedule t r) s = .next (complete c 0x30 0 [] s')
        ∧ s'.hif.violCnt = s.hif.violCnt + 1 ∧ s'.time = s.time)
    ∧ (cueViolation l = none → (511 < n ∨ field p 20 1 = 0 ∨ 16 < field p 20 1) →
        exec (.cueSchedule t r) s = .next (complete c 0x21 0 [] (advance t s)))
    ∧ (sound → khas s.time.cues n = true → exec (.cueSchedule t r) s = .next (complete c 0x23 0 [] (advance t s)))
    ∧ (sound → khas s.time.cues n = false → (512 ≤ s.time.cues.length ∨ 524288 < cueBytes s + (p.length - 24)) →
        exec (.cueSchedule t r) s = .next (complete c 0x10 0 [] (advance t s)))
    ∧ (sound → khas s.time.cues n = false → s.time.cues.length < 512 → cueBytes s + (p.length - 24) ≤ 524288 →
        max s.now t ≤ field p 8 8 → ∃ s' q, exec (.cueSchedule t r) s = .next (complete c 0x01 0 [] s')
          ∧ kget? s'.time.cues n = some q ∧ q.state = 1 ∧ q.at_ = field p 8 8 ∧ q.when_ = 0 ∧ q.cmds = l.map (fun e => e.2)
          ∧ (∀ j, j ≠ n → kget? s'.time.cues j = kget? s.time.cues j) ∧ { s' with time := s.time } = advance t s))
  ∧ ∀ (t : Nat) (r : CmdRef) (c : Cmd) (s : State), Ready 0x0C03 r c s →
    (field c.payload 0 2 ≤ 511 → exec (.cueStatus t r) s =
      .next (complete c 0x00 0 (cueStatusBytes (advance t s) (field c.payload 0 2)) (advance t s)))
    ∧ (511 < field c.payload 0 2 → exec (.cueStatus t r) s = .next (complete c 0x21 0 [] (advance t s)))

/-- CUE_CANCEL (R294, R298): a pending cue it names is removed, and no other, and it returns OK; one whose fire record has been
written makes it return ALREADY_DONE and is left to run as it was; NOT_FOUND for none; 0xFFFF removes every pending cue.
Completing, with the next state said: cueCancel. -/
def Obligations.CueCancel : Prop :=
  ∀ (t : Nat) (r : CmdRef) (c : Cmd) (s : State), Ready 0x0C02 r c s →
    let n := field c.payload 0 2
    (n = 0xFFFF → exec (.cueCancel t r) s = .next (complete c 0x00 0 [] { advance t s with time := { s.time with
      cues := kfilter s.time.cues (fun _ q => q.state != 1) } }))
    ∧ (n ≠ 0xFFFF → kget? s.time.cues n = none → exec (.cueCancel t r) s = .next (complete c 0x22 0 [] (advance t s)))
    ∧ (∀ q, n ≠ 0xFFFF → kget? s.time.cues n = some q → q.state ≠ 1 →
        exec (.cueCancel t r) s = .next (complete c 0x03 0 [] (advance t s)))
    ∧ ∀ q, n ≠ 0xFFFF → kget? s.time.cues n = some q → q.state = 1 → ∃ s',
        exec (.cueCancel t r) s = .next (complete c 0x00 0 [] s') ∧ kget? s'.time.cues n = none
          ∧ (∀ k, k ≠ n → kget? s'.time.cues k = kget? s.time.cues k) ∧ { s' with time := s.time } = advance t s

/-- Time triggers (R288 to R291): TIME_TRIGGER with KIND 0xFF clears one; one set for a later instant is armed and ends OK; a trigger
that is due on time fires, and one that fires once is done; before its instant nothing happens. A cue (R292, R293): before its
instant nothing happens; at it, in an epoch that is woven, its fire record is written and its first command runs on a TIMED
thread; when that has completed the next runs, and after the last CUE_DONE frees the number. Completing, with the next state said:
timeTrigger, triggerFire, cueFire, cueCommandDone. -/
def Obligations.CuesAndTriggers : Prop :=
  ((∀ (t : Nat) (r : CmdRef) (c : Cmd) (s : State), Ready 0x0B05 r c s →
      let p := c.payload
      let n := field p 0 1
      ((47 < n ∨ (field p 1 1 ≠ 0 ∧ field p 1 1 ≠ 3 ∧ field p 1 1 ≠ 0xFF)) →
        exec (.timeTrigger t r) s = .next (complete c 0x21 0 [] (advance t s)))
      ∧ (n ≤ 47 → field p 1 1 = 0xFF → kget? s.time.trigs n = none →
        exec (.timeTrigger t r) s = .next (complete c 0x00 0 [] (advance t s)))
      ∧ (n ≤ 47 → field p 1 1 = 0 → field p 4 1 = 0 → field p 5 1 ≤ 1 → field p 20 4 = 0 → kget? s.time.trigs n = none →
        max s.now t < field p 8 8 → ∃ s' q, exec (.timeTrigger t r) s = .next (complete c 0x00 0 [] s')
          ∧ kget? s'.time.trigs n = some q ∧ q.kind = 0 ∧ q.base = 0 ∧ q.next = field p 8 8 ∧ q.period = 0
          ∧ q.policy = field p 5 1 ∧ q.inst = 0 ∧ (∀ j, j ≠ n → kget? s'.time.trigs j = kget? s.time.trigs j)
          ∧ { s' with time := s.time } = advance t s))
    ∧ (∀ (t n : Nat) (q : TTrig) (s : State), awake s = true → PinDriven s → kget? s.time.trigs n = some q → q.base = 0 →
      (max s.now t < q.next → exec (.triggerFire t n) s = .next (advance t s))
      ∧ (q.next ≤ max s.now t → max s.now t - q.next ≤ q.grace → q.period = 0 → q.kind = 0 →
          ∃ s', exec (.triggerFire t n) s = .next s' ∧ kget? s'.time.trigs n = none
            ∧ s'.hif.evq = s.hif.evq ++ [{ code := 0x0B03
                                           data := padTo 16 (leN 1 n ++ zeros 3 ++ leN 4 (q.inst + 1).toNat ++ leN 4 q.missed.toNat)
                                           time := max s.now t, source := evSource 0x0B03 }]))
    ∧ ∀ (t n : Nat) (s : State), awake s = true → PinDriven s → kget? s.time.trigs n = none →
      exec (.triggerFire t n) s = .next (advance t s))
  ∧ ((∀ (t n at_ : Nat) (q : Cue) (s : State), awake s = true → PinDriven s → kget? s.time.cues n = some q →
      cueAt s q = some at_ → max s.now t < at_ → exec (.cueFire t n) s = .next (advance t s))
    ∧ (∀ (t n at_ : Nat) (q : Cue) (h p : Bytes) (rest : List (Bytes × Bytes)) (s : State), awake s = true → PinDriven s →
      kget? s.time.cues n = some q → cueAt s q = some at_ → at_ ≤ max s.now t → max s.now t - at_ ≤ q.grace → s.power.st < 3 →
      s.hif.ready = true → q.state = 1 → q.held = false → notWoven s = false → q.cmds = (h, p) :: rest →
      ∃ s' u c, exec (.cueFire t n) s = .next s' ∧ kget? s'.time.cues n = some u ∧ u.state = 2 ∧ u.idx = 0 ∧ u.late = false
        ∧ kget? s'.time.fired n = some (max s.now t) ∧ s'.cmds = s.cmds ++ [c] ∧ c.ref = .cue n 0 ∧ c.opcode = field h 0 2
        ∧ c.payload = p ∧ s'.sched.timed.busy = s.sched.timed.busy + 1)
    ∧ (∀ (t n : Nat) (q : Cue) (h p : Bytes) (s : State), awake s = true → PinDriven s → kget? s.time.cues n = some q →
      q.state = 2 → findCmd (.cue n q.idx) s = none → q.cmds[q.idx + 1]? = some (h, p) →
      ∃ s' u c, exec (.cueCommandDone t n) s = .next s' ∧ kget? s'.time.cues n = some u ∧ u.idx = q.idx + 1
        ∧ s'.cmds = s.cmds ++ [c] ∧ c.ref = .cue n (q.idx + 1) ∧ c.opcode = field h 0 2 ∧ c.payload = p)
    ∧ (∀ (t n : Nat) (q : Cue) (s : State), awake s = true → PinDriven s → kget? s.time.cues n = some q → q.state = 2 →
      findCmd (.cue n q.idx) s = none → q.cmds.length ≤ q.idx + 1 →
      ∃ s' e, exec (.cueCommandDone t n) s = .next s' ∧ kget? s'.time.cues n = none ∧ s'.hif.evq = s.hif.evq ++ [e]
        ∧ e.code = 0x0C01 ∧ s'.sched.timed.busy = s.sched.timed.busy - 1)
    ∧ ∀ (t n : Nat) (q : Cue) (s : State), awake s = true → PinDriven s → kget? s.time.cues n = some q → q.state = 2 →
      (findCmd (.cue n q.idx) s).isSome = true → exec (.cueCommandDone t n) s = .next (advance t s))

/-! ## Drive health, the reel and calibration -/

/-- The HEALTH settings (R302, R306, R313, R314): HEALTH_PROBE_SET takes PERIOD_S up to 3,600, 0 for 10, and starts the periods anew;
HEALTH_THERMAL_SET takes a curve in its ranges and refuses others with RANGE; HEALTH_ZONE_SET gives each tile of a range its zone
and leaves the others. What the HEALTH commands answer (R304, R314): a tile that the active wall has not ends NOT_FOUND; a sensor
above 15 or a zone above 63 ends RANGE. A sensor's reference is asked for where it is neither failed nor blocked, else the command
ends STATE. A map entry that HEALTH_DEFECT_CLEAR names is gone. HEALTH_SENSOR_DEFINE (R309, R314): a sensor above 15 ends RANGE,
and a tile that the wall has not ends NOT_FOUND; NPIX 0 removes a sensor; a new definition in its ranges, of pixels that the tile
has and no sentinel of its chain holds, is kept. Completing, with the next state said: healthProbeSet, healthDefectRead,
healthDefectClear, healthThermalSet, healthTile, healthZoneSet, healthSensorDefine, healthSensorReference, healthZoneRead,
healthSensorRead. -/
def Obligations.HealthCommands : Prop :=
  ((∀ (t : Nat) (r : CmdRef) (c : Cmd) (s : State), Ready 0x0D01 r c s →
      let en := field c.payload 0 1
      let per := if field c.payload 2 2 = 0 then 10 else field c.payload 2 2
      (en ≤ 1 → per ≤ 3600 → exec (.healthProbeSet t r) s = .next (complete c 0x00 0 [] { advance t s with health := { s.health with
        probeOn := decide (en = 1), periodS := per, due := [], nextDetect := [] } }))
      ∧ ((1 < en ∨ 3600 < per) → exec (.healthProbeSet t r) s = .next (complete c 0x21 0 [] (advance t s))))
    ∧ (∀ (t : Nat) (r : CmdRef) (c : Cmd) (s : State), Ready 0x0D04 r c s →
      let p := c.payload
      let a := sfield p 0 2
      let b := sfield p 2 2
      let d := sfield p 4 2
      let h := sfield p 6 2
      let depth := sfield p 8 4
      let stale := field p 12 2
      let sound := 0 ≤ a ∧ a ≤ 1498 ∧ a < b ∧ b < d ∧ d ≤ 1500 ∧ 1 ≤ h ∧ h ≤ 100 ∧ -65536 ≤ depth ∧ depth ≤ 0 ∧ 2 ≤ stale ∧ stale ≤ 600
      (sound → exec (.healthThermalSet t r) s = .next (complete c 0x00 0 [] { advance t s with health := { s.health with
        tStart := a, tFull := b, tCut := d, hyst := h, depth := depth, staleS := stale } }))
      ∧ (¬ sound → exec (.healthThermalSet t r) s = .next (complete c 0x21 0 [] (advance t s))))
    ∧ ∀ (t : Nat) (r : CmdRef) (c : Cmd) (s : State), Ready 0x0D06 r c s →
      let a := field c.payload 0 2
      let b := field c.payload 2 2
      let z := field c.payload 4 1
      ((b < a ∨ 8191 < b ∨ 63 < z) → exec (.healthZoneSet t r) s = .next (complete c 0x21 0 [] (advance t s)))
      ∧ (a ≤ b → b ≤ 8191 → z ≤ 63 → kwf s.health.zones = true → ∃ s', exec (.healthZoneSet t r) s = .next (complete c 0x00 0 [] s')
          ∧ (∀ k, a ≤ k → k ≤ b → kgetD s'.health.zones k 0 = z)
          ∧ (∀ k, (k < a ∨ b < k) → kgetD s'.health.zones k 0 = kgetD s.health.zones k 0) ∧ kwf s'.health.zones = true))
  ∧ ((∀ (t : Nat) (r : CmdRef) (c : Cmd) (s : State), Ready 0x0D02 r c s →
      let tile := field c.payload 0 2
      let l := s.health.defects.filter fun e => tile == 0xFFFF || e.1 / 4 / 65536 == tile
      let part := (l.drop (field c.payload 2 2)).take 511
      ((tile = 0xFFFF ∨ healthTileOk s tile = true) → exec (.healthDefectRead t r) s = .next (complete c 0x00 0
        (leN 2 part.length ++ leN 2 (min l.length 65535) ++ leN 4 s.health.mapFull.toNat ++ part.flatMap defectBytes) (advance t s)))
      ∧ (tile ≠ 0xFFFF → healthTileOk s tile = false →
        exec (.healthDefectRead t r) s = .next (complete c 0x22 0 [] (advance t s))))
    ∧ (∀ (t k : Nat) (r : CmdRef) (c : Cmd) (s : State), Ready 0x0D03 r c s → field c.payload 0 2 = 0xFFFF →
      field c.payload 2 2 = 0xFFFF → field c.payload 4 1 = 0xFF → khas s.health.defects k = true →
      ∃ s', exec (.healthDefectClear t r) s = .next (complete c 0x00 0 [] s') ∧ (∀ j, khas s'.health.defects j = false)
        ∧ s'.mode.moved = true)
    ∧ (∀ (t : Nat) (r : CmdRef) (c : Cmd) (s : State), Ready 0x0D03 r c s → s.health.defects = [] →
      exec (.healthDefectClear t r) s = .next (complete c 0x22 0 [] (advance t s)))
    ∧ (∀ (t : Nat) (r : CmdRef) (c : Cmd) (s : State), Ready 0x0D05 r c s →
      (healthTileOk s (field c.payload 0 2) = true → exec (.healthTile t r) s =
        .next (complete c 0x00 0 (healthTileBytes (advance t s) (field c.payload 0 2)) (advance t s)))
      ∧ (healthTileOk s (field c.payload 0 2) = false → exec (.healthTile t r) s = .next (complete c 0x22 0 [] (advance t s))))
    ∧ (∀ (tile : Nat) (s : State), (healthTileBytes s tile).length = 32 ∧ field (healthTileBytes s tile) 0 2 = tile % 65536
        ∧ field (healthTileBytes s tile) 3 1 = (tileH s tile).heat % 256)
    ∧ (∀ (t : Nat) (r : CmdRef) (c : Cmd) (s : State), Ready 0x0D08 r c s →
      (kget? s.health.sensors (field c.payload 0 1) = none →
        exec (.healthSensorReference t r) s = .next (complete c 0x22 0 [] (advance t s)))
      ∧ (∀ q, kget? s.health.sensors (field c.payload 0 1) = some q → q.failed = false → sensorBlocked s q = false →
        exec (.healthSensorReference t r) s = .next (complete c 0x01 0 []
          (modSensor (field c.payload 0 1) (fun q => { q with wantRef := true }) (advance t s))))
      ∧ (∀ q, kget? s.health.sensors (field c.payload 0 1) = some q → q.failed = true →
        exec (.healthSensorReference t r) s = .next (complete c 0x23 0 [] (advance t s))))
    ∧ (∀ (t : Nat) (r : CmdRef) (c : Cmd) (s : State), Ready 0x0D09 r c s →
      (field c.payload 0 1 ≤ 63 → ∃ b : Bytes, exec (.healthZoneRead t r) s = .next (complete c 0x00 0 b (advance t s))
        ∧ b.length = 32)
      ∧ (63 < field c.payload 0 1 → exec (.healthZoneRead t r) s = .next (complete c 0x21 0 [] (advance t s))))
    ∧ ∀ (t : Nat) (r : CmdRef) (c : Cmd) (s : State), Ready 0x0D0A r c s →
      (field c.payload 0 1 ≤ 15 → exec (.healthSensorRead t r) s =
        .next (complete c 0x00 0 (sensorBytes s (field c.payload 0 1)) (advance t s)))
      ∧ (15 < field c.payload 0 1 → exec (.healthSensorRead t r) s = .next (complete c 0x21 0 [] (advance t s))))
  ∧ (∀ (t : Nat) (r : CmdRef) (c : Cmd) (s : State), Ready 0x0D07 r c s →
      let p := c.payload
      let n := field p 0 1
      let px := (List.range (min (field p 6 1) 16)).map fun i => field p (32 + 2 * i) 2
      let sound := n ≤ 15 ∧ 1 ≤ field p 6 1 ∧ field p 6 1 ≤ 16 ∧ field p 1 1 ≤ 1 ∧ 0x08 ≤ field p 2 1 ∧ field p 2 1 ≤ 0x77
        ∧ field p 3 1 ≤ 63 ∧ 2000 ≤ field p 8 4 ∧ field p 8 4 ≤ 32000 ∧ field p 12 4 ≤ 262143 ∧ 1 ≤ field p 16 1 ∧ field p 16 1 ≤ 8
        ∧ 4 ≤ field p 19 1 ∧ field p 19 1 ≤ 64 ∧ field p 28 2 ≤ 3600 ∧ (∀ i, i < 3 → field p 18 1 / 4 ^ i % 4 ≠ 3)
      (15 < n → exec (.healthSensorDefine t r) s = .next (complete c 0x21 0 [] (advance t s)))
      ∧ (n ≤ 15 → field p 6 1 = 0 → khas s.health.sensors n = false →
          exec (.healthSensorDefine t r) s = .next (complete c 0x00 0 [] { advance t s with health := { s.health with
            sensors := kerase s.health.sensors n } }))
      ∧ (sound → healthTileOk s (field p 4 2) = false →
          exec (.healthSensorDefine t r) s = .next (complete c 0x22 0 [] (advance t s)))
      ∧ (∀ w q, sound → s.wall.active = some w → tileOf w (field p 4 2) = some q → (∀ i ∈ px, i < tilePx q) →
          sentinelOverlap s n (field p 4 2) px = false → khas s.health.sensors n = false →
          ∃ s' u, exec (.healthSensorDefine t r) s = .next s' ∧ findCmd r s' = none ∧ kget? s'.health.sensors n = some u
            ∧ u.bus = field p 1 1 ∧ u.addr = field p 2 1 ∧ u.zone = field p 3 1 ∧ u.tile = field p 4 2 ∧ u.pixels = px
            ∧ u.intNs = field p 8 4 ∧ u.samples = field p 19 1 ∧ u.ref = none))

/-- Probes (R300 to R303): a DETECT falls due on each end in turn across the period, and only while probing is enabled; a PROBE leaves
where R300 allows, a DETECT before a sentinel; one that is not allowed, as in the safe state or on a generation 1 chain, is not
sent; a result that is not complete in time is given up. A channel's run of results (R303, R304): the third in a row of one state
enters it in the map with that state, with DEFECT_STATE, while the map has room; the first two do not. Completing, with the next
state said: probeQueue, detectProbeDue, probeResultTimeout. -/
def Obligations.ProbesAndDefects : Prop :=
  ((∀ (t p : Nat) (s : State), awake s = true → PinDriven s → (s.health.probeOn = false ∨ (probeEnds s).contains p = false) →
      exec (.detectProbeDue t p) s = .next (advance t s))
    ∧ (∀ (t p at_ : Nat) (s : State), awake s = true → PinDriven s → s.health.probeOn = true → (probeEnds s).contains p = true →
      kget? s.health.nextDetect p = some at_ → at_ ≤ max s.now t →
      ∃ s', exec (.detectProbeDue t p) s = .next s' ∧ s'.health.due.contains p = true
        ∧ kget? s'.health.nextDetect p = some (at_ + s.health.periodS * 1000000000) ∧ { s' with health := s.health } = advance t s)
    ∧ (∀ (t p : Nat) (c : ChainRec) (b : Bool) (s : State), awake s = true → endOfPort s p = some (c, b) →
      (probeAllowed (advance t s) c p = false → exec (.probeQueue t p) s = .next (settled t s (advance t s)))
      ∧ (probeAllowed (advance t s) c p = true → s.health.due.contains p = true →
          exec (.probeQueue t p) s = .next (settled t s (sendDetect c b p (advance t s)))))
    ∧ (∀ (c : ChainRec) (p : Nat) (s : State), (s.flt.safe = true ∨ (chainLk s c.chain).gen = 1 ∨ s.health.probed.contains p = true) →
      probeAllowed s c p = false)
    ∧ ∀ (t tile : Nat) (w : ProbeWait) (s : State), awake s = true → PinDriven s → kget? s.health.waits tile = some w →
      (w.deadline ≤ max s.now t → exec (.probeResultTimeout t tile) s = .next { advance t s with health := { s.health with
        waits := kerase s.health.waits tile } })
      ∧ (max s.now t < w.deadline → exec (.probeResultTimeout t tile) s = .next (advance t s)))
  ∧ ((∀ (tile n : Nat) (e : ReportEntry) (s : State), let key := chanKey tile e.pixel e.channel
      kgetD s.health.runs key (0, 0) = (e.st, n) → n < 2 →
      (chanReported tile e s).health.defects = s.health.defects ∧ kgetD (chanReported tile e s).health.runs key (0, 0) = (e.st, n + 1)
      ∧ (chanReported tile e s).hif = s.hif)
    ∧ (∀ (tile : Nat) (e : ReportEntry) (s : State), let key := chanKey tile e.pixel e.channel
      kgetD s.health.runs key (0, 0) = (e.st, 2) → kget? s.health.defects key = none → s.health.defects.length < 65536 →
      kget? (chanReported tile e s).health.defects key = some e.st ∧ (chanReported tile e s).mode.moved = true
      ∧ ∃ v, (chanReported tile e s).hif.evq = s.hif.evq ++ [v] ∧ v.code = 0x0D01)
    ∧ ∀ (tile key : Nat) (s : State), (kgetD s.health.runs key (0, 0)).2 < 3 → khas s.health.defects key = false →
      (tileH (chanClean tile key s) tile).transient = (tileH s tile).transient + 1
      ∧ kget? (chanClean tile key s).health.runs key = none)

/-- REPORT and REPLY of a tile on a port in service, from which no newer generation makes this device give up its role (R240 to R242,
R246, R306, R308): a REPORT is counted with its holds and kept; with THERMAL's temperature valid it sets the tile's; a REPLY in an
enumeration is kept by its hop and end, and outside one changes nothing of the chain. Colour sensors (R310, R311): a sample falls
due a period after the last began, for a sensor neither sampling, failed nor blocked; the third failed transaction in a row makes
it FAILED, each counted; a good one of a FAILED sensor returns it; a FAILED sensor is tried again every 10 s and not before.
Completing, with the next state said: reportRx, replyRx, sensorSampleDue, i2cTransactionDone, sensorRetry, tempStaleTimeout. -/
def Obligations.TilesAndSensors : Prop :=
  ((∀ (t : Nat) (h : TileHdr) (r : Report) (c : ChainRec) (b : Bool) (q : TileRec) (s : State), awake s = true →
      (portOf s h.port).retired = false → tileOfHdr s h = some (c, b, q) →
      (s.twin.enabled && s.twin.role == 1 && newerGen h.gen.toNat s.twin.cgen.toNat) = false →
      ∃ s', exec (.reportRx t h r) s = .next (settled t s s') ∧ (tileLk s' q.tile).status = r.status
        ∧ (tileLk s' q.tile).lastEpoch = r.epoch ∧ (tileLk s' q.tile).lastReport = max s.now t
        ∧ (tileLk s' q.tile).holds = (tileLk s q.tile).holds + r.held
        ∧ (portOf s' h.port).lnk.reports = (portOf s h.port).lnk.reports + 1)
    ∧ (∀ (t : Nat) (h : TileHdr) (r : Reply) (c : ChainRec) (b : Bool) (q : TileRec) (s : State), awake s = true →
      (portOf s h.port).retired = false → tileOfHdr s h = some (c, b, q) →
      (s.twin.enabled && s.twin.role == 1 && newerGen h.gen.toNat s.twin.cgen.toNat) = false →
      ∃ s', exec (.replyRx t h r) s = .next (settled t s s')
        ∧ ((chainLk s c.chain).phase = 1 → 1 ≤ r.hop → r.hop ≤ c.tiles →
            kget? (if b then (chainLk s' c.chain).foundB else (chainLk s' c.chain).foundA) r.hop = some r)
        ∧ ((chainLk s c.chain).phase ≠ 1 → chainLk s' c.chain = chainLk s c.chain))
    ∧ (∀ (tile : Nat) (x : Int) (s : State), (tileH (tileTemp tile x s) tile).temp = x
        ∧ (s.health.tCut ≤ x → (tileH (tileTemp tile x s) tile).heat = 2))
    ∧ (∀ (h : Health) (x : Int), (h.tCut ≤ x → derate h x = -65536) ∧ (x < h.tCut → h.tFull ≤ x → derate h x = h.depth)
        ∧ (x < h.tCut → x < h.tFull → x ≤ h.tStart → derate h x = 0))
    ∧ ∀ (t tile : Nat) (w : WallImg) (q : TileRec) (s : State), awake s = true → PinDriven s → s.wall.active = some w →
      tileOf w tile = some q →
      (max s.now t < (tileH s tile).tempAt.getD s.bootAt + s.health.staleS * 1000000000 →
        exec (.tempStaleTimeout t tile) s = .next (advance t s))
      ∧ ((tileH s tile).tempAt.getD s.bootAt + s.health.staleS * 1000000000 ≤ max s.now t →
        ∃ s', exec (.tempStaleTimeout t tile) s = .next s' ∧ (tileH s' tile).heat = 3 ∧ s'.weave = s.weave))
  ∧ ((∀ (t n : Nat) (q : Sensor) (s : State), awake s = true → PinDriven s → kget? s.health.sensors n = some q →
      ((∀ b, q.began = some b → b + q.periodS * 1000000000 ≤ max s.now t) → q.sampling = false → q.failed = false →
        q.blocked = false → ∃ s' u, exec (.sensorSampleDue t n) s = .next s' ∧ kget? s'.health.sensors n = some u
          ∧ u.sampling = true ∧ u.began = some (max s.now t) ∧ u.cycle = 0 ∧ u.sub = 0)
      ∧ ((q.sampling = true ∨ q.failed = true ∨ q.blocked = true) → exec (.sensorSampleDue t n) s = .next (advance t s)))
    ∧ (∀ (t n : Nat) (q : Sensor) (s : State), awake s = true → PinDriven s → kget? s.health.sensors n = some q →
      q.due.isSome = true → q.failed = false →
      ∃ s' u, exec (.i2cTransactionDone t n .failed) s = .next s' ∧ kget? s'.health.sensors n = some u
        ∧ u.i2cFail = q.i2cFail + 1 ∧ u.fails = q.fails + 1 ∧ u.due = none ∧ u.failed = decide (3 ≤ q.fails + 1))
    ∧ (∀ (t n a b c : Nat) (q : Sensor) (s : State), awake s = true → PinDriven s → kget? s.health.sensors n = some q →
      q.due.isSome = true → q.failed = true →
      ∃ s' u, exec (.i2cTransactionDone t n (.ok a b c)) s = .next s' ∧ kget? s'.health.sensors n = some u
        ∧ u.failed = false ∧ u.fails = 0)
    ∧ ∀ (t n : Nat) (q : Sensor) (s : State), awake s = true → PinDriven s → kget? s.health.sensors n = some q →
      ((q.failed = false ∨ max s.now t < q.failedAt + 10000000000) → exec (.sensorRetry t n) s = .next (advance t s))
      ∧ (q.failed = true → q.failedAt + 10000000000 ≤ max s.now t → ∃ s' u, exec (.sensorRetry t n) s = .next s'
          ∧ kget? s'.health.sensors n = some u ∧ u.failedAt = max s.now t ∧ u.due.isSome = true ∧ s'.out = .i2c q.bus q.addr q.start :: s.out))

/-- The REEL commands (R464, R466, R474, R476): REEL_STATUS answers; REEL_READ gives records of the classes from a readable SEQ, and
ends RANGE for another; REEL_CLEAR without the authority ends DENIED, and with it moves REEL_FIRST past a readable SEQ; a
REEL_NOTE of 1 to 200 bytes is staged, and with the staging bobbin full it ends BUSY. The reel's writer (R463 to R470): the oldest
staged record is written under the next SEQ with its copy in the always-on ring; a write that does not verify retires the sector
for the lowest spare, and with none left the reel goes into tally mode; in tally mode it is counted for its class; with nothing
staged nothing happens. The squall table goes ahead of the staged records, and a spare in place opens with a LOGMEDIA record.
Completing, with the next state said: reelStatus, reelRead, reelClear, reelNote, reelRecordWrite, sectorSwitchDone, squallWrite. -/
def Obligations.ReelRecording : Prop :=
  ((∀ (t : Nat) (r : CmdRef) (c : Cmd) (s : State), Ready 0x1501 r c s →
      exec (.reelStatus t r) s = .next (complete c 0x00 0 (reelStatusBytes s) (advance t s)))
    ∧ (∀ s : State, (reelStatusBytes s).length = 48 ∧ field (reelStatusBytes s) 0 4 = s.reel.first.toNat
        ∧ field (reelStatusBytes s) 4 4 = s.reel.next.toNat ∧ field (reelStatusBytes s) 20 1 = s.reel.spares % 256)
    ∧ (∀ (t : Nat) (r : CmdRef) (c : Cmd) (s : State), Ready 0x1502 r c s →
      let q : U32 := BitVec.ofNat 32 (field c.payload 0 4)
      ((readable s.reel q = false ∨ field c.payload 4 2 = 0 ∨ 255 < field c.payload 4 2) →
        exec (.reelRead t r) s = .next (complete c 0x21 0 [] (advance t s)))
      ∧ (readable s.reel q = true → 1 ≤ field c.payload 4 2 → field c.payload 4 2 ≤ 255 →
        ∃ l n, readRecs s.reel (field c.payload 6 1) (s.reel.next - q).toNat q (field c.payload 4 2) (c.respLen - 8) = (l, n)
          ∧ l.length ≤ field c.payload 4 2
          ∧ exec (.reelRead t r) s = .next (complete c 0x00 0 (leN 2 l.length ++ zeros 2 ++ leN 4 n.toNat ++ l.flatten) (advance t s))))
    ∧ (∀ (t : Nat) (r : CmdRef) (c : Cmd) (s : State), Ready 0x1503 r c s →
      let upto : U32 := BitVec.ofNat 32 (field c.payload 0 4)
      (keyAuthority c = false → exec (.reelClear t r) s = .next (complete c 0x24 0 [] (advance t s)))
      ∧ (keyAuthority c = true → readable s.reel upto = true → ∃ s', exec (.reelClear t r) s = .next (complete c 0x00 0 [] s')
          ∧ s'.reel.first = upto + 1 ∧ s'.reel.clears = s.reel.clears + 1 ∧ s'.reel.recs = s.reel.recs))
    ∧ ∀ (t : Nat) (r : CmdRef) (c : Cmd) (s : State), Ready 0x1504 r c s →
      let n := field c.payload 0 1
      ((n = 0 ∨ 200 < n ∨ c.payload.length ≠ 8 + n) → exec (.reelNote t r) s = .next (complete c 0x21 0 [] (advance t s)))
      ∧ (1 ≤ n → n ≤ 200 → c.payload.length = 8 + n → 64 ≤ s.reel.staging.length →
        exec (.reelNote t r) s = .next (complete c 0x10 0 [] (advance t s)))
      ∧ (1 ≤ n → n ≤ 200 → c.payload.length = 8 + n → s.reel.staging.length < 64 → s.reel.refusing = false → s.flt.noService = false →
        ∃ s' e, exec (.reelNote t r) s = .next (complete c 0x00 0 [] s') ∧ s'.reel.staging = s.reel.staging ++ [e] ∧ e.cls = 2
          ∧ e.code = 0x0082 ∧ { s' with reel := s.reel } = advance t s))
  ∧ ((∀ (t : Nat) (e : RRec) (rest : List RRec) (s : State), awake s = true → reelWrites s = true →
      s.reel.failedRec = none → squallDue s = false → s.reel.staging = e :: rest →
      (s.reel.tally = false → s.reel.offset + (recBytes e s.reel.next).length ≤ 16384 →
        ∃ s', exec (.reelRecordWrite t true) s = .next (settled t s s') ∧ s'.reel.staging = rest ∧ s'.reel.next = s.reel.next + 1
          ∧ s'.reel.recs = s.reel.recs ++ [{ seq := s.reel.next, sector := s.reel.pos, bytes := recBytes e s.reel.next }]
          ∧ s'.reel.first = s.reel.first
          ∧ (s'.reel.aon.head?.map fun x => x.seq) = some s.reel.next)
      ∧ (s.reel.tally = false → 0 < s.reel.spares → ∃ s', exec (.reelRecordWrite t false) s = .next (settled t s s')
          ∧ s'.reel.switching = true ∧ s'.reel.spares = s.reel.spares - 1 ∧ s'.reel.failedRec = some e ∧ s'.reel.recs = s.reel.recs
          ∧ s'.reel.next = s.reel.next)
      ∧ (s.reel.tally = false → s.reel.spares = 0 → ∃ s', exec (.reelRecordWrite t false) s = .next (settled t s s')
          ∧ s'.reel.tally = true)
      ∧ (s.reel.tally = true → ∃ s', exec (.reelRecordWrite t true) s = .next (settled t s s') ∧ s'.reel.recs = s.reel.recs
          ∧ s'.reel.next = s.reel.next + 1))
    ∧ (∀ (t : Nat) (ok : Bool) (s : State), awake s = true → s.reel.failedRec = none → squallDue s = false → s.reel.staging = [] →
      exec (.reelRecordWrite t ok) s = .next (settled t s (advance t s)))
    ∧ (∀ (t : Nat) (s : State), awake s = true →
      (s.reel.switching = false → exec (.sectorSwitchDone t) s = .next (settled t s (advance t s)))
      ∧ (s.reel.switching = true → s.reel.offset = 64 → ∃ s', exec (.sectorSwitchDone t) s = .next (settled t s s')
          ∧ s'.reel.switching = false ∧ s'.reel.next = s.reel.next + 1 ∧ s'.reel.recs.length = s.reel.recs.length + 1))
    ∧ (∀ (t : Nat) (s : State), awake s = true → s.reel.squall = [] → exec (.squallWrite t) s = .next (settled t s (advance t s)))
    ∧ (∀ (t : Nat) (s : State), awake s = true → squallDue s = true → s.reel.failedRec = none →
      exec (.squallWrite t) s = exec (.reelRecordWrite t true) s)
    ∧ (∀ (t : Nat) (s : State), awake s = true → s.reel.squall ≠ [] → s.reel.staging.length ≤ 32 → reelWrites s = true →
      s.reel.failedRec = none → s.reel.tally = false →
      ∃ s', exec (.squallWrite t) s = .next (settled t s s') ∧ s'.reel.squall = [] ∧ s'.reel.squalls = s.reel.squalls + 1
        ∧ s'.reel.next = s.reel.next + 1 ∧ s'.reel.staging = s.reel.staging)
    ∧ ∀ (r : RRec) (s : State), s.reel.refusing = false → s.flt.noService = false →
      (s.reel.staging.length < 64 → (offerRec r s).reel.staging = s.reel.staging ++ [r] ∧ (offerRec r s).reel.squall = s.reel.squall)
      ∧ (64 ≤ s.reel.staging.length → (offerRec r s).reel.staging = s.reel.staging
          ∧ (offerRec r s).reel.squall = squallAdd r.source r.code r.cls s.reel.squall))

/-- The CAL commands (R449, R452, R454, R459): CAL_SET takes a DELTA of 2.0 to 50.0 °C, 0 for 15; CAL_RUN without an item ends RANGE,
with one of them running STATE, and else is accepted; CAL_RESTORE_FACTORY needs the authority of R72 and applies the factory
values of the instances it names; the others answer. A calibration run (R454 to R458): a die temperature starts the runs that are
due; a measurement moves a run that measures to its application, its plausible results its targets; an application moves each
value one step no sooner than its item allows; a discarded instance falls due again after 60 s, and not before. Completing, with
the next state said: calStatus, calSet, calRun, calTrimRead, calCounters, calRestoreFactory, dieTempRead, calMeasurementDone,
calApplyStep, calDiscardRetry. -/
def Obligations.CalibrationRuns : Prop :=
  ((∀ (t : Nat) (r : CmdRef) (c : Cmd) (s : State), Ready 0x1401 r c s →
      exec (.calStatus t r) s = .next (complete c 0x00 0 (leN 2 s.cal.delta ++ leN 1 s.cal.enable ++ zeros 5
        ++ (List.range 5).flatMap (calEntry s)) (advance t s)))
    ∧ (∀ (t : Nat) (r : CmdRef) (c : Cmd) (s : State), Ready 0x1402 r c s →
      let d := if field c.payload 2 2 = 0 then 150 else field c.payload 2 2
      (20 ≤ d → d ≤ 500 → exec (.calSet t r) s = .next (complete c 0x00 0 [] { advance t s with cal := { s.cal with
        enable := field c.payload 0 1, delta := d } }))
      ∧ ((d < 20 ∨ 500 < d) → exec (.calSet t r) s = .next (complete c 0x21 0 [] (advance t s))))
    ∧ (∀ (t : Nat) (r : CmdRef) (c : Cmd) (s : State), Ready 0x1403 r c s →
      let l := setBits 5 (field c.payload 0 1)
      (l = [] → exec (.calRun t r) s = .next (complete c 0x21 0 [] (advance t s)))
      ∧ (l ≠ [] → (∃ i ∈ l, (calItem s i).phase ≠ 0) → exec (.calRun t r) s = .next (complete c 0x23 0 [] (advance t s)))
      ∧ (l ≠ [] → (∀ i ∈ l, (calItem s i).phase = 0) → exec (.calRun t r) s = .next (forEach l (complete c 0x01 0 [] (advance t s))
          fun i s => calStart i (forEach (List.range (instCount i)) s fun n s => calDue i n s))))
    ∧ (∀ (t : Nat) (r : CmdRef) (c : Cmd) (s : State), Ready 0x1404 r c s →
      (instExists (field c.payload 0 1) (field c.payload 2 2) = true → ∃ b : Bytes,
        exec (.calTrimRead t r) s = .next (complete c 0x00 0 b (advance t s)) ∧ (field b 0 1).testBit 1 =
          (calInst s (field c.payload 0 1) (field c.payload 2 2)).live.isSome)
      ∧ (instExists (field c.payload 0 1) (field c.payload 2 2) = false →
        exec (.calTrimRead t r) s = .next (complete c 0x22 0 [] (advance t s))))
    ∧ (∀ (t : Nat) (r : CmdRef) (c : Cmd) (s : State), Ready 0x1405 r c s →
      (field c.payload 0 1 ≤ 4 → ∃ b : Bytes, exec (.calCounters t r) s = .next (complete c 0x00 0 b (advance t s)) ∧ b.length = 32
        ∧ field b 0 4 = (calItem s (field c.payload 0 1)).runs.toNat ∧ field b 8 4 = (calItem s (field c.payload 0 1)).discarded.toNat)
      ∧ (4 < field c.payload 0 1 → exec (.calCounters t r) s = .next (complete c 0x21 0 [] (advance t s))))
    ∧ ∀ (t : Nat) (r : CmdRef) (c : Cmd) (s : State), Ready 0x1406 r c s →
      let i := field c.payload 0 1
      let n := field c.payload 2 2
      (keyAuthority c = false → exec (.calRestoreFactory t r) s = .next (complete c 0x24 0 [] (advance t s)))
      ∧ (keyAuthority c = true → instExists i n = true → (calItem s i).phase ≠ 0 →
        exec (.calRestoreFactory t r) s = .next (complete c 0x23 0 [] (advance t s)))
      ∧ (keyAuthority c = true → instExists i n = true → (calItem s i).phase = 0 →
        ∃ s', exec (.calRestoreFactory t r) s = .next s' ∧ findCmd r s' = none ∧ (calItem s' i).phase = 3
          ∧ (calItem s' i).targets = [(n, factoryData s i n)]
          ∧ (calInst s' i n).due = false ∧ ∀ j m, (calInst s' j m).live = (calInst s j m).live))
  ∧ ((∀ (t : Nat) (a b : Int) (s : State), awake s = true → PinDriven s → s.cal.enable = 0 →
      (∀ i, i < 5 → dueInsts s i = []) →
      exec (.dieTempRead t a b) s = .next { advance t s with cal := { s.cal with ctl := a, pwr := b } })
    ∧ (∀ (i n : Nat) (s : State), (calItem s i).phase = 0 → calMayRun s i = true → n ∈ dueInsts s i →
        (calItem (calStart i s) i).phase = 2 ∧ (calItem (calStart i s) i).insts = dueInsts s i
        ∧ (calInst (calStart i s) i n).due = false)
    ∧ (∀ (t i : Nat) (l : List CalResult) (s : State), awake s = true → PinDriven s → (calItem s i).phase ≠ 2 →
      exec (.calMeasurementDone t i l) s = .next (advance t s))
    ∧ (∀ (t i : Nat) (r : CalResult) (s : State), awake s = true → (calItem s i).phase = 2 → (calItem s i).insts = [r.inst] →
      (calItem s i).targets = [] → instRetired s i r.inst = false → i ≠ 0 → plausible s i r = true →
      ∃ s', exec (.calMeasurementDone t i [r]) s = .next s' ∧ (calItem s' i).phase = 3
        ∧ (calItem s' i).targets = [(r.inst, padTo 48 r.data)])
    ∧ (∀ (t i : Nat) (s : State), awake s = true →
      ((calItem s i).phase ≠ 3 ∨ max s.now t < (calItem s i).stepAt + stepGap i) →
      exec (.calApplyStep t i) s = .next (settled t s (advance t s)))
    ∧ (∀ (t i : Nat) (s : State), awake s = true → (calItem s i).phase = 3 → (calItem s i).stepAt + stepGap i ≤ max s.now t →
      exec (.calApplyStep t i) s = .next (settled t s (applyStep i (advance t s))))
    ∧ (∀ (n : Nat) (d : Bytes) (s : State), (calItem s 2).phase = 3 → (calItem s 2).stepAt ≤ s.now → (calItem s 2).targets = [(n, d)] →
      n < 3 → ∃ r, (calInst (applyStep 2 s) 2 n).live = some r ∧ r.data = d ∧ r.temp = (calItem s 2).temp)
    ∧ ∀ (t i n a : Nat) (s : State), awake s = true → PinDriven s → (calInst s i n).discardAt = some a →
      (max s.now t < a + 60000000000 → exec (.calDiscardRetry t i n) s = .next (advance t s))
      ∧ (a + 60000000000 ≤ max s.now t → exec (.calDiscardRetry t i n) s =
          .next (calStart i (modInst i n (fun q => { q with due := true, discardAt := none }) (advance t s)))))

/-! ## Metering, power and boot -/

/-- The METER settings (R386, R393, R395, R398, R402, R403): each takes values in its ranges and refuses others with RANGE;
METER_CLEAR needs the authority of R72, clears the accumulators it names, and waits for the save it forces. A new cap that finds
the next epoch's target computed has it computed again (R402). What the METER commands answer (R403): a circuit that they do not
have ends RANGE. Completing, with the next state said: meterInputSet, meterCircuitSet, meterRead, meterMeasure, meterHarmonics,
meterPulseSet, meterSaveSet, meterClear, meterCoefSet, meterCapSet, meterCapStatus. -/
def Obligations.MeterCommands : Prop :=
  ((∀ (t : Nat) (r : CmdRef) (c : Cmd) (s : State), Ready 0x1101 r c s →
      let v := field c.payload 0 1
      let sound := v ≤ 3 ∧ field c.payload 1 1 ≤ 1 ∧ 1 ≤ field c.payload 4 4 ∧ field c.payload 4 4 ≤ 4000000000
      (sound → exec (.meterInputSet t r) s = .next (complete c 0x00 0 [] { advance t s with meter := { s.meter with
        vin := kmod s.meter.vin v {} fun q => { q with nominal := field c.payload 1 1, vscale := field c.payload 4 4 } } }))
      ∧ (¬ sound → exec (.meterInputSet t r) s = .next (complete c 0x21 0 [] (advance t s))))
    ∧ (∀ (t : Nat) (r : CmdRef) (c : Cmd) (s : State), Ready 0x1102 r c s →
      let n := field c.payload 0 1
      let sound := n ≤ 7 ∧ field c.payload 1 1 ≤ 1 ∧ field c.payload 2 1 ≤ 3 ∧ 1 ≤ field c.payload 4 4
        ∧ field c.payload 4 4 ≤ 4000000000
      (sound → exec (.meterCircuitSet t r) s = .next (complete c 0x00 0 [] (modCircuit n (fun k => { k with
        enable := field c.payload 1 1 == 1, vsel := field c.payload 2 1, invert := bit (field c.payload 3 1) 0
        iscale := field c.payload 4 4 }) (advance t s))))
      ∧ (¬ sound → exec (.meterCircuitSet t r) s = .next (complete c 0x21 0 [] (advance t s))))
    ∧ (∀ (t : Nat) (r : CmdRef) (c : Cmd) (s : State), Ready 0x1106 r c s →
      let p := c.payload
      let w := if field p 8 2 = 0 then 30 else field p 8 2
      let sound := field p 0 1 ≤ 7 ∧ field p 1 1 ≤ 5 ∧ (field p 1 1 = 0 ∨ 1000 ≤ field p 4 4) ∧ 10 ≤ w ∧ w ≤ 1000 ∧ field p 10 1 ≤ 1
      (sound → ∃ s', exec (.meterPulseSet t r) s = .next (complete c 0x00 0 [] s') ∧ kget? s'.meter.pulses (field p 0 1) =
          some { qty := field p 1 1, circuits := field p 2 2, uwh := field p 4 4, widthMs := w, low := field p 10 1 == 1 }
        ∧ (∀ j, j ≠ field p 0 1 → kget? s'.meter.pulses j = kget? s.meter.pulses j)
        ∧ s'.out = .pin ("PULSE" ++ toString (field p 0 1)) (decide (field p 10 1 = 1)) :: s.out)
      ∧ (¬ sound → exec (.meterPulseSet t r) s = .next (complete c 0x21 0 [] (advance t s))))
    ∧ (∀ (t : Nat) (r : CmdRef) (c : Cmd) (s : State), Ready 0x1107 r c s →
      let v := if field c.payload 0 2 = 0 then 60 else field c.payload 0 2
      (v ≤ 3600 → exec (.meterSaveSet t r) s = .next (complete c 0x00 0 [] { advance t s with meter := { s.meter with saveS := v } }))
      ∧ (3600 < v → exec (.meterSaveSet t r) s = .next (complete c 0x21 0 [] (advance t s))))
    ∧ (∀ (t : Nat) (r : CmdRef) (c : Cmd) (s : State), Ready 0x1108 r c s →
      let l := namedCircuits (field c.payload 0 1)
      (keyAuthority c = false → exec (.meterClear t r) s = .next (complete c 0x24 0 [] (advance t s)))
      ∧ (keyAuthority c = true → l = [] → exec (.meterClear t r) s = .next (complete c 0x21 0 [] (advance t s)))
      ∧ (keyAuthority c = true → l ≠ [] → exec (.meterClear t r) s = .next (park c { advance t s with meter := { s.meter with
          acc := kfilter s.meter.acc (fun k _ => !l.contains (k / 5)), saveNow := true
          clearRefs := s.meter.clearRefs ++ [c.ref]
          cleared := s.meter.cleared ++ [(c.ref, kfilter s.meter.acc fun k _ => l.contains (k / 5))] } })))
    ∧ (∀ (t : Nat) (r : CmdRef) (c : Cmd) (s : State), Ready 0x1109 r c s → field c.payload 0 2 = 1 →
      field c.payload 8 2 ≤ 1023 → ∃ s', exec (.meterCoefSet t r) s = .next s' ∧ findCmd r s' = none
        ∧ kget? s'.meter.coefs (field c.payload 8 2) = some { idle := field c.payload 12 4, k0 := field c.payload 16 4
                                                              k1 := field c.payload 20 4, k2 := field c.payload 24 4 })
    ∧ ∀ (t : Nat) (r : CmdRef) (c : Cmd) (s : State), Ready 0x110A r c s →
      let p := c.payload
      let tau := if field p 8 2 = 0 then 60 else field p 8 2
      let sound := field p 0 1 ≤ 1 ∧ 1 ≤ field p 4 4 ∧ field p 4 4 ≤ 4000000 ∧ 10 ≤ tau ∧ tau ≤ 600
        ∧ (field p 0 1 = 1 → field p 2 2 ≠ 0)
      let q : CapSet := { enable := field p 0 1 == 1, circuits := field p 2 2, capW := field p 4 4, tauS := tau }
      (sound → ∃ s', exec (.meterCapSet t r) s = .next s' ∧ findCmd r s' = none ∧ s'.meter.cap = q
        ∧ s'.meter.g = if bit (field p 10 1) 0 then 2 ^ 32 else s.meter.g)
      ∧ (sound → s.mode.mode ≠ 0 → s.mode.weaving = true → s.meter.capDone = true → remainingOps s = 0 → ∃ s',
        exec (.meterCapSet t r) s = .next s' ∧ s'.meter.capDone = true ∧ s'.meter.capEpoch = s.link.epoch + 1)
      ∧ (¬ sound → exec (.meterCapSet t r) s = .next (complete c 0x21 0 [] (advance t s))))
  ∧ ((∀ (t : Nat) (r : CmdRef) (c : Cmd) (s : State), Ready 0x1103 r c s →
      let l := namedCircuits (field c.payload 0 1)
      (l = [] → exec (.meterRead t r) s = .next (complete c 0x21 0 [] (advance t s)))
      ∧ (l ≠ [] → ∃ b : Bytes, exec (.meterRead t r) s = .next (complete c 0x00 0 b (advance t s)) ∧ b.length = 16 + 40 * l.length
          ∧ field b 0 8 = max s.now t % 2 ^ 64 ∧ field b 12 1 = l.length))
    ∧ (∀ (t : Nat) (r : CmdRef) (c : Cmd) (s : State), Ready 0x1104 r c s →
      (field c.payload 0 1 ≤ 9 → exec (.meterMeasure t r) s =
        .next (complete c 0x00 0 (measureBytes s (field c.payload 0 1)) (advance t s)))
      ∧ (9 < field c.payload 0 1 → exec (.meterMeasure t r) s = .next (complete c 0x21 0 [] (advance t s))))
    ∧ (∀ (n : Nat) (s : State), (measureBytes s n).length = 64)
    ∧ (∀ (t : Nat) (r : CmdRef) (c : Cmd) (s : State), Ready 0x1105 r c s →
      (field c.payload 0 1 ≤ 7 → field c.payload 1 1 ≤ 1 → exec (.meterHarmonics t r) s =
        .next (complete c 0x00 0 (harmonicBytes s (field c.payload 0 1) (field c.payload 1 1 == 1)) (advance t s)))
      ∧ ((7 < field c.payload 0 1 ∨ 1 < field c.payload 1 1) →
        exec (.meterHarmonics t r) s = .next (complete c 0x21 0 [] (advance t s))))
    ∧ (∀ (n : Nat) (cur : Bool) (s : State), (harmonicBytes s n cur).length = 136)
    ∧ (∀ (t : Nat) (r : CmdRef) (c : Cmd) (s : State), Ready 0x110B r c s →
      exec (.meterCapStatus t r) s = .next (complete c 0x00 0 (capBytes s) (advance t s)))
    ∧ ∀ s : State, (capBytes s).length = 48)

/-- Energy (R388, R391, R392, R398): a power sample of a metered circuit adds its energy to that circuit's accumulators alone, the
export side where the power is negative; a circuit that is not metered adds none; a pulse that is owed starts and lasts its width,
and rests as long; samples above 99 % of full scale are said as clipped at most once a second. Saves (R393, R395): one starts in
the slot that does not hold the newest good save, where it is due; read back good it is the newest, and the clears that waited for
it end OK; failed it is repeated. The power cap (R399 to R401): with the ply-operations of the epoch woven, the target is that of
R400 for the epoch after it; with some left, nothing happens; at a whole second the correction g stays within 0.5 to 2 and is
frozen while the cap is not enabled. Completing, with the next state said: meterSample, meterPowerSample, meterWindowEnd,
capCorrectionUpdate, capTargetCompute, meterSaveDue, meterSaveVerify, pulseStart, pulseEnd. -/
def Obligations.EnergyAndCap : Prop :=
  ((∀ (t : Nat) (p : PowerSample) (s : State), awake s = true → PinDriven s → metering s = true → metered s p.circuit = true →
      ∃ s', exec (.meterPowerSample t p) s = .next s'
        ∧ (∀ i, i < 5 → kgetD s'.meter.acc (5 * p.circuit + i) 0 =
            (kgetD s.meter.acc (5 * p.circuit + i) 0 + (energies p).getD i 0) % 2 ^ 96)
        ∧ (∀ j, j / 5 ≠ p.circuit → kgetD s'.meter.acc j 0 = kgetD s.meter.acc j 0)
        ∧ (circuitOf s' p.circuit).secEnergy = (circuitOf s p.circuit).secEnergy + p.p * p.ns)
    ∧ (∀ (t : Nat) (p : PowerSample) (s : State), awake s = true → PinDriven s → (metering s = false ∨ metered s p.circuit = false) →
      exec (.meterPowerSample t p) s = .next (advance t s))
    ∧ (∀ p : PowerSample, (0 ≤ p.p → (energies p).getD 0 0 = energyOf p.p.natAbs p.ns ∧ (energies p).getD 1 0 = 0)
        ∧ (p.p < 0 → (energies p).getD 0 0 = 0 ∧ (energies p).getD 1 0 = energyOf p.p.natAbs p.ns))
    ∧ (∀ (t n : Nat) (m : MeterSample) (s : State), awake s = true → PinDriven s → metering s = true → n < 8 →
      metered s n = true → (circuitOf s n).gain = 16 → 950 ≤ (m.fine.getD n 0).natAbs →
      ∃ s', exec (.meterSample t m) s = .next s' ∧ (circuitOf s' n).gain = 4 ∧ s'.meter.acc = s.meter.acc)
    ∧ (∀ (t : Nat) (m : MeterSample) (s : State), awake s = true → PinDriven s → metering s = false →
      exec (.meterSample t m) s = .next (advance t s))
    ∧ (∀ (t n : Nat) (q : Pulse) (s : State), awake s = true → PinDriven s → kget? s.meter.pulses n = some q → metering s = true →
      (1 ≤ q.owed → q.until_ = none → q.rest ≤ max s.now t → ∃ s', exec (.pulseStart t n) s = .next s'
        ∧ kget? s'.meter.pulses n = some { q with owed := q.owed - 1, until_ := some (max s.now t + q.widthMs * 1000000) }
        ∧ s'.out = .pin ("PULSE" ++ toString n) (!q.low) :: s.out)
      ∧ ((q.owed = 0 ∨ q.until_.isSome = true ∨ max s.now t < q.rest) → exec (.pulseStart t n) s = .next (advance t s)))
    ∧ (∀ (t n u : Nat) (q : Pulse) (s : State), awake s = true → PinDriven s → kget? s.meter.pulses n = some q → q.until_ = some u →
      (u ≤ max s.now t → ∃ s', exec (.pulseEnd t n) s = .next s'
        ∧ kget? s'.meter.pulses n = some { q with until_ := none, rest := max s.now t + q.widthMs * 1000000 }
        ∧ s'.out = .pin ("PULSE" ++ toString n) q.low :: s.out)
      ∧ (max s.now t < u → exec (.pulseEnd t n) s = .next (advance t s)))
    ∧ ∀ (t : Nat) (w : WindowQty) (s : State), awake s = true → PinDriven s → metering s = true → metered s w.circuit = true →
      ∃ s', exec (.meterWindowEnd t w) s = .next s' ∧ (circuitOf s' w.circuit).window = some w
        ∧ (circuitOf s' w.circuit).windowEnd = max s.now t
        ∧ (w.circuit < 8 → (vinOf s' (circuitOf s w.circuit).vsel).lost = decide (w.vrms < 10000)))
  ∧ ((∀ (t : Nat) (s : State), awake s = true → PinDriven s → metering s = true → s.meter.saving = none →
      (s.meter.saveNow = true ∨ s.meter.lastSave + s.meter.saveS * 1000000000 ≤ max s.now t) →
      ∃ s' q, exec (.meterSaveDue t) s = .next s' ∧ s'.meter.saving = some (otherSlot s)
        ∧ kget? s'.meter.slots (otherSlot s) = some q ∧ q.good = false ∧ q.acc = s.meter.acc ∧ q.time = max s.now t
        ∧ s'.meter.newest = s.meter.newest ∧ s.meter.newest ≠ some (otherSlot s))
    ∧ (∀ (t : Nat) (s : State), awake s = true → PinDriven s → s.meter.saveNow = false →
      max s.now t < s.meter.lastSave + s.meter.saveS * 1000000000 → exec (.meterSaveDue t) s = .next (advance t s))
    ∧ (∀ (t k : Nat) (q : SaveSlot) (s : State), awake s = true → PinDriven s → s.meter.saving = some k →
      kget? s.meter.slots k = some q →
      (∃ s', exec (.meterSaveVerify t true) s = .next s' ∧ s'.meter.newest = some k ∧ s'.meter.saving = none
          ∧ kget? s'.meter.slots k = some { q with good := true } ∧ ∀ r ∈ s.meter.saveRefs, findCmd r s' = none)
      ∧ ∃ s', exec (.meterSaveVerify t false) s = .next s' ∧ s'.meter.newest = s.meter.newest ∧ s'.meter.saving = none
          ∧ s'.meter.saveNow = true ∧ s'.cmds = s.cmds)
    ∧ ∀ (t : Nat) (ok : Bool) (s : State), awake s = true → PinDriven s → s.meter.saving = none →
      exec (.meterSaveVerify t ok) s = .next (advance t s))
  ∧ ((∀ (t : Nat) (s : State), awake s = true → PinDriven s → s.mode.mode ≠ 0 → s.mode.weaving = true → s.meter.capDone = false →
      remainingOps s = 0 → capRuns s = true →
      ∃ s', exec (.capTargetCompute t) s = .next s' ∧ s'.meter.capDone = true ∧ s'.meter.capEpoch = s.link.epoch + 1
        ∧ s'.weave.capT = capTarget (capRoom s) (capPower s).1 (capPower s).2.1 * 65536)
    ∧ (∀ (t : Nat) (s : State), awake s = true → PinDriven s →
      (s.mode.mode = 0 ∨ s.mode.weaving = false ∨ s.meter.capDone = true ∨ remainingOps s ≠ 0) →
      exec (.capTargetCompute t) s = .next (advance t s))
    ∧ (∀ room fixed var : Nat, capTarget room fixed var ≤ 0 ∧ (fixed + var ≤ room → capTarget room fixed var = 0)
        ∧ (room < fixed + var → room ≤ fixed → capTarget room fixed var = -65536))
    ∧ ∀ (t : Nat) (s : State), awake s = true → PinDriven s → metering s = true →
      ∃ s', exec (.capCorrectionUpdate t) s = .next s' ∧ (s.meter.cap.enable = false → s'.meter.g = s.meter.g)
        ∧ (2 ^ 31 ≤ s.meter.g → s.meter.g ≤ 2 ^ 33 → 2 ^ 31 ≤ s'.meter.g ∧ s'.meter.g ≤ 2 ^ 33)
        ∧ s'.meter.puN = 0 ∧ s'.meter.acc = s.meter.acc)

/-- The POWER settings (R368, R377, R383): each takes values in its ranges and refuses others with RANGE; the pace thresholds wait for
the next boundary of the mode in force; a GPIO that a time trigger drives is no wake source. POWER_STATUS and POWER_WAKE_REPORT
answer. Feeds (R361 to R364, R508): beyond −62 V or +72 V the level is past the absolute maximum, for which no behaviour is given;
a feed is lost below FEED_LOSS and disconnected above 61.5 V; one at or above FEED_LOSS + 0.5 V for 10 ms is live; the last live
feed lost starts the last gasp, which ends every command in flight, saves and refuses; its end after 4 ms is a cold start. Rails
and the junction (R21, R369, R508, R524): a rail out of range in a state where it is on is a detection of RAIL; the trip at +122
°C strands the device, its commands ended; a temperature above +125 °C is past the absolute maximum; the ceiling falls from +100
°C and returns below +95 °C. Completing, with the next state said: powerFeedSet, powerPaceSet, powerWakeSet, powerCmpSet,
powerStatus, powerWakeReport, junctionTempChange, feedLevelChange, feedLiveQualified, carryReturnTimeout, lastGaspEnd,
railOutOfRange, junctionTrip, feedBusBelow7v. -/
def Obligations.PowerSupply : Prop :=
  ((∀ (t : Nat) (r : CmdRef) (c : Cmd) (s : State), Ready 0x1003 r c s → 2 < field c.payload 0 1 →
      exec (.powerFeedSet t r) s = .next (settled t s (complete c 0x21 0 [] (advance t s))))
    ∧ (∀ (t : Nat) (r : CmdRef) (c : Cmd) (s : State), Ready 0x1003 r c s → field c.payload 0 1 ≤ 2 →
      (∀ i ∈ [2, 4, 6, 8, 10], field c.payload i 2 = 0) → s.power.feedA.live = false → s.power.feedB.live = false →
      ∃ s', exec (.powerFeedSet t r) s = .next (settled t s s') ∧ findCmd r s' = none ∧ s'.power.prio = field c.payload 0 1
        ∧ s'.power.returnMs = 1000 ∧ s'.power.feedA.lowMv = 10000 ∧ s'.power.feedA.lossMv = 8500 ∧ s'.power.feedB.lowMv = 10000
        ∧ s'.power.feedB.lossMv = 8500)
    ∧ (∀ (t : Nat) (r : CmdRef) (c : Cmd) (s : State), Ready 0x1004 r c s →
      let p := c.payload
      let up := if field p 0 2 = 0 then 120 else field p 0 2
      let lo := if field p 2 2 = 0 then 300 else field p 2 2
      let sh := if field p 4 2 = 0 then 40 else field p 4 2
      let sound := 10 ≤ sh ∧ sh ≤ 200 ∧ 30 ≤ up ∧ up ≤ 400 ∧ 130 ≤ lo ∧ lo ≤ 800 ∧ sh + 20 ≤ up ∧ up + 100 ≤ lo
      (sound → s.mode.mode ≠ 0 → exec (.powerPaceSet t r) s = .next { complete c 0x00 0 [] (advance t s) with
        fab := { s.fab with pendTh := some (up, lo, sh) } })
      ∧ (sound → s.mode.mode = 0 → exec (.powerPaceSet t r) s = .next { complete c 0x00 0 [] (advance t s) with
        fab := { s.fab with raiseTh := up, lowerTh := lo, shedTh := sh, pendTh := none } })
      ∧ (¬ sound → exec (.powerPaceSet t r) s = .next (complete c 0x21 0 [] (advance t s))))
    ∧ (∀ (t : Nat) (r : CmdRef) (c : Cmd) (s : State), Ready 0x1005 r c s →
      let p := c.payload
      ((s.time.trigs.any fun e => e.2.kind == 3 && bit (field p 4 4) e.2.target) = true →
        exec (.powerWakeSet t r) s = .next (complete c 0x21 0 [] (advance t s)))
      ∧ ((s.time.trigs.any fun e => e.2.kind == 3 && bit (field p 4 4) e.2.target) = false →
        ∃ s', exec (.powerWakeSet t r) s = .next (complete c 0x00 0 [] s') ∧ s'.power = { s.power with
          sources := field p 0 2 % 128, gpioMask := BitVec.ofNat 32 (field p 4 4), gpioEdge := BitVec.ofNat 32 (field p 8 4)
          linkPorts := BitVec.ofNat 64 (field p 12 8) } ∧ { s' with power := s.power } = advance t s))
    ∧ (∀ (t : Nat) (r : CmdRef) (c : Cmd) (s : State), Ready 0x1006 r c s →
      let p := c.payload
      let sound := field p 0 1 ≤ 2 ∧ field p 1 1 ≤ 1 ∧ field p 3 1 ≤ 1 ∧ field p 4 1 ≤ 3
      (¬ sound → exec (.powerCmpSet t r) s = .next (complete c 0x21 0 [] (advance t s)))
      ∧ (sound → ∃ s', exec (.powerCmpSet t r) s = .next (complete c 0x00 0 [] s') ∧ s'.power = { s.power with
          cmps := s.power.cmps.set (field p 0 1) { enable := field p 1 1 == 1, code := field p 2 1, falling := field p 3 1 == 1
                                                   hyst := field p 4 1, debounce := field p 5 1 } }
        ∧ { s' with power := s.power } = advance t s))
    ∧ (∀ (t : Nat) (r : CmdRef) (c : Cmd) (s : State), Ready 0x1007 r c s → ∃ b : Bytes,
      exec (.powerStatus t r) s = .next (complete c 0x00 0 b (advance t s)) ∧ b.length = 104 ∧ field b 0 1 = powerState s
        ∧ field b 2 1 = s.power.carry % 256 ∧ field b 8 2 = s.fab.vcore % 65536)
    ∧ ∀ (t : Nat) (r : CmdRef) (c : Cmd) (s : State), Ready 0x1008 r c s → ∃ b : Bytes,
      exec (.powerWakeReport t r) s = .next (complete c 0x00 0 b (advance t s)) ∧ b.length = 32
        ∧ field b 1 1 = s.power.wakeCause % 256 ∧ field b 8 4 = s.power.dramFail.toNat)
  ∧ ((∀ (t f : Nat) (mV : Int) (s : State), (mV < -62000 ∨ 72000 < mV) → exec (.feedLevelChange t f mV) s = .fault .absoluteMaximum)
    ∧ (∀ (t f : Nat) (mV : Int) (s : State), -62000 ≤ mV → mV ≤ 72000 → f < 2 → exec (.feedLevelChange t f mV) s =
      .next (settled t s (feedChanged f (feedOf s f) (modFeed f (feedAt (max s.now t) mV) (advance t s)))))
    ∧ (∀ (now : Nat) (mV : Int) (q : Feed), (mV < (q.lossMv : Int) → (feedAt now mV q).live = false)
        ∧ (61500 < mV → (feedAt now mV q).live = false ∧ (feedAt now mV q).ov = true)
        ∧ (q.live = true → q.ov = false → (q.lossMv : Int) ≤ mV → mV ≤ 61500 → (feedAt now mV q).live = true)
        ∧ (feedAt now mV q).mV = mV ∧ (feedAt now mV q).lossMv = q.lossMv)
    ∧ (∀ (t f a : Nat) (s : State), f < 2 → (feedOf s f).aboveAt = some a →
      ((feedOf s f).live = true ∨ max s.now t < a + 10000000) → exec (.feedLiveQualified t f) s = .next (settled t s (advance t s)))
    ∧ (∀ (t f a : Nat) (s : State), f < 2 → (feedOf s f).aboveAt = some a → (feedOf s f).live = false → a + 10000000 ≤ max s.now t →
      exec (.feedLiveQualified t f) s = .next (settled t s (feedChanged f (feedOf s f)
        (modFeed f (fun q => feedAt (max s.now t) q.mV { q with live := true }) (advance t s)))))
    ∧ (∀ (t : Nat) (s : State), PinDriven s → exec (.carryReturnTimeout t) s = .next (carryUpdate (advance t s)))
    ∧ (∀ s : State, s.power.gasp = none → (carryUpdate s).power.carry = carryNext s
        ∧ (s.power.feedA.live = true → s.power.feedB.live = false → carryNext s = 1)
        ∧ (s.power.feedA.live = false → s.power.feedB.live = true → carryNext s = 2))
    ∧ (∀ s : State, (lastGasp s).power.st = 5 ∧ (lastGasp s).power.gasp = some s.now ∧ (lastGasp s).cmds = []
        ∧ (lastGasp s).hif.ready = false ∧ (lastGasp s).reel.refusing = true ∧ (lastGasp s).power.carry = 0)
    ∧ (∀ (t t0 : Nat) (s : State), s.power.gasp = some t0 → PinDriven s →
      (max s.now t < t0 + 4000000 → exec (.lastGaspEnd t) s = .next (advance t s))
      ∧ (t0 + 4000000 ≤ max s.now t → exec (.lastGaspEnd t) s =
          .next (ended t s (resetTo (if s.boot.resetWaits then 1 else 2) true true (advance t s)))))
    ∧ ∀ (t : Nat) (below vbat : Bool) (s : State),
      (below = true → vbat = false → s.power.feedA.live = false → s.power.feedB.live = false →
        ∃ s', exec (.feedBusBelow7v t below vbat) s = .next (ended t s s') ∧ s'.power.st = 7 ∧ s'.reel.aon = []
          ∧ s'.time.rtcValid = false ∧ s'.cmds = [])
      ∧ ((below = false ∨ vbat = true ∨ s.power.feedA.live = true ∨ s.power.feedB.live = true) →
        exec (.feedBusBelow7v t below vbat) s = .next (ended t s (advance t s))))
  ∧ ((∀ (t n : Nat) (s : State),
      (railOn s n = true → exec (.railOutOfRange t n) s = .next (settled t s (raise 0x0403 0 [(n : Int)] (advance t s))))
      ∧ (railOn s n = false → exec (.railOutOfRange t n) s = .next (settled t s (advance t s))))
    ∧ (∀ (t : Nat) (s : State), s.power.st ≠ 7 → ∃ s', exec (.junctionTrip t) s = .next (settled t s s') ∧ s'.power.st = 6
        ∧ s'.flt.stranded = true ∧ s'.cmds = [] ∧ s'.hif.ready = false ∧ s'.power.gasp = none)
    ∧ (∀ (t : Nat) (x : Int) (s : State), 1250 < x → exec (.junctionTempChange t x) s = .fault .absoluteMaximum)
    ∧ (∀ (t : Nat) (x : Int) (s : State), x ≤ 1250 → s.boot.resetWaits = false →
      exec (.junctionTempChange t x) s = .next (settled t s (junctionTemp x (advance t s))))
    ∧ ∀ (x : Int) (s : State), (junctionTemp x s).fab.tj = x ∧ (1000 ≤ x → (junctionTemp x s).fab.hotcap = true)
        ∧ (x < 950 → (junctionTemp x s).fab.hotcap = false)
        ∧ (950 ≤ x → x < 1000 → (junctionTemp x s).fab.hotcap = s.fab.hotcap))

/-- Wake sources (R287, R377, R378): one enabled that works in the state the device is in begins a wake with its cause, and one that
is not enabled or does not work there begins none; during an entry it is kept. The events that are sources are triggers of theirs.
Entries (R370, R371, R375, R376, R383): POWER_ENTER with a state of 1 to 4 that no unit refuses, with none of R383's states
against it and no mode in force, starts the entry and ends; refused it ends STATE with the refusing subsystem in DETAIL; a state
that is none of these ends RANGE. POWER_EXIT wakes a device in Doze. The end of the steps enters the state: Deep Sleep and Doze
lose the frame store. Wakes (R379, R380): the steps of a wake follow in order, and after the last the device is in Run with no
wake; a step that misses its limit is retried once, and W8 not at all; a wake that fails waits 1 s with its rails off, and after
the eighth repetition strands the device; before the limit nothing happens. Completing, with the next state said: powerEnter,
powerEntryDone, powerExit, comparatorDebounced, rtcAlarm, gpioWakeEdge, pcieWake, linkActivityWake, wakeStepDone, wakeStepTimeout,
wakeRepeat. -/
def Obligations.PowerStates : Prop :=
  ((∀ (c : Nat) (s : State), (sourceOn s c = false ∨ s.power.gasp.isSome = true) → wakeTrigger c s = s)
    ∧ (∀ (c : Nat) (s : State), sourceOn s c = true → s.power.gasp = none → s.power.entry = none → sourceWorks c s.power.st = true →
        s.power.wake = none → s.power.failing = false → (wakeTrigger c s).power.wake = (wakeSteps s.power.st).head?
        ∧ (wakeTrigger c s).power.wakeCause = c ∧ (wakeTrigger c s).power.wakeFrom = s.power.st
        ∧ (wakeTrigger c s).power.wakeAt = s.now)
    ∧ (∀ (c : Nat) (e : PowerEntry) (s : State), sourceOn s c = true → s.power.gasp = none → s.power.entry = some e →
        sourceWorks c e.dest = true → s.power.latched = none → wakeTrigger c s = { s with power := { s.power with latched := some c } })
    ∧ (∀ (t n : Nat) (holds : Bool) (k : Cmp) (s : State), n < 3 → s.power.cmps[n]? = some k → k.enable = true →
      let q : State := { advance t s with power := { s.power with cmps := s.power.cmps.set n { k with output := holds } } }
      exec (.comparatorDebounced t n holds) s = .next (settled t s (if holds then wakeTrigger (2 + n) q else q)))
    ∧ (∀ (t a : Nat) (s : State), s.time.alarm = some a →
      (a ≤ rtcNs (advance t s) → exec (.rtcAlarm t) s =
        .next (settled t s (wakeTrigger 5 { advance t s with time := { s.time with alarm := none } })))
      ∧ (rtcNs (advance t s) < a → exec (.rtcAlarm t) s = .next (settled t s (advance t s))))
    ∧ (∀ (t pin : Nat) (up : Bool) (s : State),
      (pin < 32 → s.power.gpioMask.getLsbD pin = true → s.power.gpioEdge.getLsbD pin = up →
        exec (.gpioWakeEdge t pin up) s = .next (settled t s (wakeTrigger 7 (advance t s))))
      ∧ (s.power.gpioMask.getLsbD pin = false → exec (.gpioWakeEdge t pin up) s = .next (settled t s (advance t s))))
    ∧ (∀ (t : Nat) (s : State), exec (.pcieWake t) s = .next (settled t s (wakeTrigger 6 (advance t s))))
    ∧ ∀ (t p : Nat) (s : State),
      (p < 64 → s.power.linkPorts.getLsbD p = true → (portOf s p).role = 1 →
        exec (.linkActivityWake t p) s = .next (settled t s (wakeTrigger 8 (advance t s))))
      ∧ (s.power.linkPorts.getLsbD p = false → exec (.linkActivityWake t p) s = .next (settled t s (advance t s))))
  ∧ ((∀ (t : Nat) (r : CmdRef) (c : Cmd) (s : State), Ready 0x1001 r c s →
      let dst := field c.payload 0 1
      ((dst = 0 ∨ 4 < dst ∨ 1000 < field c.payload 2 2) →
        exec (.powerEnter t r) s = .next (settled t s (complete c 0x21 0 [] (advance t s))))
      ∧ (1 ≤ dst → dst ≤ 4 → field c.payload 2 2 ≤ 1000 → (s.power.entry.isSome = true ∨ s.power.wake.isSome = true) →
        exec (.powerEnter t r) s = .next (settled t s (complete c 0x23 0 [] (advance t s))))
      ∧ (∀ sub, 3 ≤ dst → dst ≤ 4 → field c.payload 2 2 ≤ 1000 → s.power.entry = none → s.power.wake = none → s.twin.enabled = false →
        entryRefuser dst (some c.ref) s = some sub →
        exec (.powerEnter t r) s = .next (settled t s (complete c 0x23 sub [] (refused sub dst (advance t s)))))
      ∧ (3 ≤ dst → dst ≤ 4 → field c.payload 2 2 ≤ 1000 → s.power.entry = none → s.power.wake = none → s.twin.enabled = false →
        entryRefuser dst (some c.ref) s = none → s.mode.mode ≠ 0 →
        exec (.powerEnter t r) s = .next (settled t s (complete c 0x01 0 [] { advance t s with power := { s.power with
          entry := some { ref := none, dest := dst, dark := bit (field c.payload 1 1) 0 }, latched := none } }))))
    ∧ (∀ (t : Nat) (r : CmdRef) (c : Cmd) (s : State), Ready 0x1002 r c s →
      (s.power.entry.isSome = true → exec (.powerExit t r) s = .next (settled t s (complete c 0x23 0 [] (advance t s))))
      ∧ (s.power.entry = none → s.mode.calm = false → s.power.st = 2 → s.power.wake = none → s.power.failing = false →
        exec (.powerExit t r) s = .next (settled t s (wakeTrigger 1 (complete c 0x00 0 [] (advance t s)))))
      ∧ (s.power.entry = none → s.mode.calm = false → s.power.st = 0 →
        exec (.powerExit t r) s = .next (settled t s (complete c 0x23 0 [] (advance t s)))))
    ∧ (∀ (t : Nat) (s : State), (s.power.entry = none ∨ ∃ e, s.power.entry = some e ∧ e.passed = false) →
      exec (.powerEntryDone t) s = .next (settled t s (advance t s)))
    ∧ ∀ (t : Nat) (e : PowerEntry) (s : State), s.power.entry = some e → e.passed = true → s.power.latched = none →
      s.power.sources = 0 → ∃ s', exec (.powerEntryDone t) s = .next (settled t s s') ∧ s'.power.st = e.dest ∧ s'.power.entry = none
        ∧ (e.dest ≠ 3 → s'.store.words = []) ∧ (3 ≤ e.dest → s'.hif.ready = false)
        ∧ (∃ k, s'.power.record = some k ∧ k.dest = e.dest ∧ k.time = max s.now t ∧ k.counter = s.mode.counter))
  ∧ ((∀ (t k j : Nat) (bb : U8) (bd : U32) (ok : Bool) (s : State), s.hif.readyEver = true → s.power.wake = some k →
      (wakeSteps s.power.st).find? (fun j => decide (k < j)) = some j →
      ∃ s', exec (.wakeStepDone t bb bd ok) s = .next (settled t s s') ∧ s'.power.wake = some j ∧ s'.power.wakeRetried = false
        ∧ s'.power.wakeAt = max s.now t ∧ { s' with power := s.power } = advance t s)
    ∧ (∀ (t : Nat) (bb : U8) (bd : U32) (ok : Bool) (s : State), s.hif.readyEver = true → s.power.wake = some 8 →
      exec (.wakeStepDone t bb bd ok) s = .next (settled t s (wakeDone bb.toNat bd ok (advance t s))))
    ∧ (∀ (t : Nat) (bb : U8) (bd : U32) (ok : Bool) (s : State), s.power.wake = none →
      exec (.wakeStepDone t bb bd ok) s = .next (settled t s (advance t s)))
    ∧ (∀ (t k : Nat) (s : State), s.hif.readyEver = true → s.power.wake = some k →
      (max s.now t < s.power.wakeAt + wakeLimit k → exec (.wakeStepTimeout t) s = .next (settled t s (advance t s)))
      ∧ (s.power.wakeAt + wakeLimit k ≤ max s.now t → k ≠ 8 → s.power.wakeRetried = false →
          exec (.wakeStepTimeout t) s = .next (settled t s (raise 0x0C01 0 [(k : Int)] { advance t s with power := { s.power with
            wakeRetried := true, wakeAt := max s.now t, wakeRetries := min 15 (s.power.wakeRetries + 1) } })))
      ∧ (s.power.wakeAt + wakeLimit k ≤ max s.now t → (k = 8 ∨ s.power.wakeRetried = true) →
          exec (.wakeStepTimeout t) s = .next (settled t s (wakeFail k (advance t s)))))
    ∧ (∀ (k : Nat) (s : State), (wakeFail k s).power.wake = none ∧ (wakeFail k s).power.failedStep = k
        ∧ (8 ≤ s.power.attempts → (wakeFail k s).power.st = 6 ∧ (wakeFail k s).flt.stranded = true)
        ∧ (s.power.attempts < 8 → (wakeFail k s).power.st = 4 ∧ (wakeFail k s).power.failing = true))
    ∧ (∀ (t : Nat) (s : State), s.power.failing = true → s.power.wake = none → s.power.wakeAt + 1000000000 ≤ max s.now t →
      s.hif.readyEver = true → exec (.wakeRepeat t) s = .next (settled t s { advance t s with power := { s.power with
        wake := (wakeSteps s.power.st).head?, attempts := s.power.attempts + 1, wakeRetried := false, wakeAt := max s.now t } }))
    ∧ ∀ (t : Nat) (s : State), (s.power.failing = false ∨ max s.now t < s.power.wakeAt + 1000000000) →
      exec (.wakeRepeat t) s = .next (settled t s (advance t s)))

/-- Resets (R11, R494 to R496, R504, R524): a reset leaves no command in flight and boot at B0, with the keys, the stored wall, the
reel's records, the trim and the image slots that MRAM holds; power-on loses the always-on ring; RESET_N below 1 µs is filtered;
RESET_N released samples COMPAT_N; PCIE_PERST_N resets the endpoint alone, and its release may wake; the link trained is up in L0
at its speed and width (R53). The boot stages (R499 to R503, R506): B0 ends with every stack that trained in service; B1 with the
cores that passed and the first slot in the order of R502 that verifies, and where none does the device halts; B2 sets READY; B3
ends with the spindles that passed in service and the service level final; held in reset, halted or with its rails off, no stage
ends. Completing, with the next state said: powerOn, resetNAssert, pciePerst, pcieLinkStateChange, bootStageDone, resetNRelease. -/
def Obligations.ResetsAndBoot : Prop :=
  ((∀ (code : Nat) (aon rtc : Bool) (s : State), (resetTo code aon rtc s).cmds = [] ∧ (resetTo code aon rtc s).boot.stage = 0
        ∧ (resetTo code aon rtc s).boot.code = code ∧ (resetTo code aon rtc s).hif.keys = s.hif.keys
        ∧ (resetTo code aon rtc s).hif.keySeq = s.hif.keySeq ∧ (resetTo code aon rtc s).wall.kept = s.wall.kept
        ∧ (resetTo code aon rtc s).reel.recs = s.reel.recs ∧ (resetTo code aon rtc s).reel.next = s.reel.next
        ∧ (resetTo code aon rtc s).cal.insts = s.cal.insts ∧ (resetTo code aon rtc s).store.words = []
        ∧ (resetTo code aon rtc s).store.flash = s.store.flash ∧ (resetTo code aon rtc s).pending = s.pending
        ∧ (resetTo code false rtc s).reel.aon = [])
    ∧ (∀ (t : Nat) (vbat low : Bool) (s : State), ∃ s', exec (.powerOn t vbat low) s = .next (ended t s s') ∧ s'.hif.compat = low
        ∧ s'.boot.low = false ∧ s'.boot.stage = 0 ∧ s'.boot.code = 0 ∧ s'.cmds = [] ∧ s'.reel.aon = []
        ∧ (vbat = false → s'.time.rtcValid = false))
    ∧ (∀ (t n : Nat) (s : State),
      (n < 1000 → exec (.resetNAssert t n) s = .next (ended t s (advance t s)))
      ∧ (10000 ≤ n → s.power.st ≤ 5 → s.power.gasp = none → ∃ s', exec (.resetNAssert t n) s = .next (ended t s s')
          ∧ s'.boot.low = true ∧ s'.boot.stage = 0 ∧ s'.boot.code = 1 ∧ s'.cmds = [] ∧ s'.hif.compat = s.hif.compat)
      ∧ (10000 ≤ n → s.power.gasp.isSome = true → s.power.st ≠ 7 → ∃ s', exec (.resetNAssert t n) s = .next (ended t s s')
          ∧ s'.boot.low = true ∧ s'.boot.resetWaits = true ∧ s'.boot.stage = s.boot.stage))
    ∧ (∀ (t : Nat) (low : Bool) (s : State), PinDriven s →
      (s.boot.low = true → ∃ s', exec (.resetNRelease t low) s = .next (ended t s s') ∧ s'.boot.low = false ∧ s'.hif.compat = low
          ∧ s'.bootAt = max s.now t ∧ s'.boot.stage = s.boot.stage)
      ∧ (s.boot.low = false → exec (.resetNRelease t low) s = .next (advance t s)))
    ∧ (∀ (t : Nat) (a : Bool) (s : State), PinDriven s →
      (a = true → exec (.pciePerst t a) s = .next { advance t s with
          boot := { s.boot with perst := true }, hif := { s.hif with msix := [], msixPend := 0 } })
      ∧ (a = false → exec (.pciePerst t a) s = .next (ended t s (wakeTrigger 6
          { advance t s with boot := { s.boot with perst := false } }))))
    ∧ ∀ (t : Nat) (s : State),
      (∀ speed width, trains speed width = true → ∃ s', exec (.pcieLinkStateChange t (.toL0 speed width)) s = .next (settled t s s')
          ∧ s'.hif.pcieUp = true ∧ s'.hif.pcieL = 0 ∧ s'.hif.pcieSpeed = speed ∧ s'.hif.pcieWidth = width)
      ∧ (∃ s', exec (.pcieLinkStateChange t .toL1) s = .next (settled t s s') ∧ s'.hif.pcieUp = true ∧ s'.hif.pcieL = 1)
      ∧ (awake s = true → ∃ s', exec (.pcieLinkStateChange t .lost) s = .next (settled t s s') ∧ s'.hif.pcieUp = false
          ∧ s'.flt.due = s.flt.due ++ [(0x1800, 0, [])]))
  ∧ ((∀ (t : Nat) (r : BootReport) (s : State), s.boot.low = false → s.boot.halted = false → s.power.gasp = none → s.power.st < 3 →
      (s.boot.stage = 0 → s.power.failing = false → (s.power.feedA.live = true ∨ s.power.feedB.live = true) → r.missed = none →
        r.stack0 = true → r.stack1 = true → ∃ s', exec (.bootStageDone t r) s = .next (settled t s s') ∧ s'.boot.stage = 1
          ∧ s'.store.up = 2 ^ 32 - 1)
      ∧ (s.boot.stage = 1 → r.coresOk ≠ 0 → r.trimNone = [] → r.trimOne = [] → s.upd.act = none →
        ∃ s', exec (.bootStageDone t r) s = .next (settled t s s')
          ∧ (bootSlot s.upd = none → s'.boot.halted = true ∧ s'.boot.stage = 1)
          ∧ ∀ n, bootSlot s.upd = some n → s'.boot.stage = 2 ∧ s'.sched.coresUp = r.coresOk.toNat ∧ s'.upd = (bootLoad n s.upd).1)
      ∧ (s.boot.stage = 2 → ∃ s', exec (.bootStageDone t r) s = .next (settled t s s') ∧ s'.boot.stage = 3 ∧ s'.hif.ready = true
          ∧ s'.hif.readyEver = true)
      ∧ (s.boot.stage = 3 → ∃ s', exec (.bootStageDone t r) s = .next (settled t s s') ∧ s'.boot.stage = 4
          ∧ s'.fab.svcFinal = true ∧ s'.store.words = []
          ∧ ∀ i, i < 256 → (spOf s' i).svc = if r.spindlesOk.getLsbD i then .up else .retired))
    ∧ ∀ (t : Nat) (r : BootReport) (s : State), (s.boot.low = true ∨ s.boot.halted = true ∨ s.power.gasp.isSome = true
        ∨ 3 ≤ s.power.st) → exec (.bootStageDone t r) s = .next (settled t s (advance t s)))

/-! ## The twin -/

/-- The TWIN commands (R423, R426): TWIN_CONFIG refuses what is out of range with RANGE, a change of SIDE while enabled or a pending
drill with STATE, and keeps the rest; enabling starts the role from the level of ROLE_IN (R410), disabling drops it. TWIN_DRILL is
accepted by an active device in pixel service's mode with the distaff in step, and sets the swap boundary at least 8 ms on.
Completing, with the next state said: twinConfig, twinStatus, twinDrill, twinCounters. -/
def Obligations.TwinCommands : Prop :=
  (∀ (t : Nat) (r : CmdRef) (c : Cmd) (s : State), Ready 0x1201 r c s →
    let en := field c.payload 0 1
    let side := field c.payload 1 1
    let hb := if field c.payload 2 2 = 0 then 1000 else field c.payload 2 2
    let sound := en ≤ 1 ∧ side ≤ 1 ∧ 100 ≤ hb ∧ hb ≤ 10000
    (¬ sound → exec (.twinConfig t r) s = .next (settled t s (complete c 0x21 0 [] (advance t s))))
    ∧ (sound → ((s.twin.enabled = true ∧ side ≠ s.twin.side) ∨ s.twin.drill.isSome = true) →
      exec (.twinConfig t r) s = .next (settled t s (complete c 0x23 0 [] (advance t s))))
    ∧ (sound → s.twin.drill = none → (s.twin.enabled = true → side = s.twin.side) → en = b2n s.twin.enabled →
      exec (.twinConfig t r) s = .next (settled t s
        (complete c 0x00 0 [] { advance t s with twin := { s.twin with side := side, hbUs := hb } })))
    ∧ (sound → s.twin.drill = none → s.twin.enabled = false → en = 1 → s.mode.calm = false → ∃ s',
      exec (.twinConfig t r) s = .next (settled t s s') ∧ findCmd r s' = none ∧ s'.twin.enabled = true ∧ s'.twin.side = side
        ∧ s'.twin.role = b2n s.twin.roleIn)
    ∧ (sound → s.twin.drill = none → s.twin.enabled = true → side = s.twin.side → s.twin.role = 1 → en = 0 → ∃ s',
      exec (.twinConfig t r) s = .next (settled t s s') ∧ findCmd r s' = none ∧ s'.twin.enabled = false ∧ s'.twin.role = 0))
  ∧ (∀ (t : Nat) (r : CmdRef) (c : Cmd) (s : State), Ready 0x1202 r c s → ∃ b : Bytes,
    exec (.twinStatus t r) s = .next (complete c 0x00 0 b (advance t s)) ∧ b.length = 48
      ∧ field b 0 1 = b2n s.twin.enabled ∧ field b 2 1 = s.twin.role % 256 ∧ field b 4 2 = s.twin.cgen.toNat
      ∧ field b 12 1 = b2n s.twin.linkUp ∧ field b 20 4 = (fingerprint s).toNat)
  ∧ (∀ (t : Nat) (r : CmdRef) (c : Cmd) (s : State), Ready 0x1204 r c s → ∃ b : Bytes,
    exec (.twinCounters t r) s = .next (complete c 0x00 0 b (advance t s)) ∧ b.length = 32
      ∧ field b 0 4 = s.twin.digestsTx.toNat ∧ field b 12 4 = s.twin.switchovers.toNat ∧ field b 28 4 = s.twin.linkLosses.toNat)
  ∧ ∀ (t : Nat) (r : CmdRef) (c : Cmd) (s : State), Ready 0x1203 r c s →
    let p := c.payload
    let policy := if field p 0 1 = 0xFF then 0 else field p 0 1
    let now := max s.now t
    let at_ := boundaryFrom s (max now (c.takenAt + 8000000))
    let d : Drill := { epoch := epochEnding s at_, swapAt := at_, check := (if field p 3 1 = 0 then 16 else field p 3 1)
                       revert := bit (field p 2 1) 0 }
    ((1 < policy ∨ 1 < field p 1 1) → exec (.twinDrill t r) s = .next (settled t s (complete c 0x21 0 [] (advance t s))))
    ∧ (policy ≤ 1 → field p 1 1 ≤ 1 →
      (s.twin.enabled = false ∨ s.twin.role ≠ 1 ∨ s.mode.mode = 0 ∨ s.mode.calm = true ∨ s.twin.drill.isSome = true
        ∨ s.twin.linkUp = false) →
      exec (.twinDrill t r) s = .next (settled t s (complete c 0x23 0 [] (advance t s))))
    ∧ (∀ h, policy ≤ 1 → field p 1 1 = 0 → s.twin.enabled = true → s.twin.role = 1 → s.mode.mode ≠ 0 → s.mode.calm = false →
      s.twin.drill = none → s.twin.linkUp = true → s.twin.partner = some h → (h.hbCode = 1 ∨ h.hbCode = 2) → h.calm = false →
      exec (.twinDrill t r) s = .next (settled t s (complete c 0x01 0 [] { advance t s with twin :=
        { s.twin with drill := some d } })))

/-- The twin link (R408, R411, R414, R415, R419, R421): every HELLO carries ROLE, the frame counter and FINGERPRINT; one received
brings the link up, makes a distaff take the active's CGEN, and makes an active device give up the role to a newer one; 10 ms
without one lose the link, with a detection. HEARTBEAT_OUT's code is R411's. Roles (R408, R410, R420, R421): a registered rise of
ROLE_IN makes a distaff active with a new CGEN of its own SIDE, to transmit from the next boundary; a fall makes an active device
a distaff whose chain ports have nothing left to send; the level already held, or any level while twin operation is disabled,
changes only what is held of ROLE_IN. The frame state digest (R415 to R417): the last segment makes the digest whole, and it is
taken only where its length, CRC, EPOCH and FINGERPRINT are good; an active device takes none. A DACK drops the defect entries its
digest carried, and one for no digest sent drops nothing. Completing, with the next state said: helloSend, helloRx,
twinLinkTimeout, digestSegmentRx, dackRx, roleInRegistered, heartbeatPulse. -/
def Obligations.TwinOperation : Prop :=
  ((∀ (t : Nat) (s : State), awake s = true → PinDriven s →
      (s.twin.enabled = false → exec (.helloSend t) s = .next (advance t s))
      ∧ (s.twin.enabled = true → ∃ s' f, exec (.helloSend t) s = .next s' ∧ (portOf s' 64).queue = (portOf s 64).queue ++ [f]
          ∧ f.body.length = 40 ∧ beNat (bytesAt f.body 8 1) = s.twin.role % 256
          ∧ beNat (bytesAt f.body 16 8) = s.mode.counter.toNat ∧ beNat (bytesAt f.body 24 4) = (fingerprint s).toNat
          ∧ { s' with link := s.link } = advance t s))
    ∧ (∀ (t : Nat) (h : Hello) (s : State), awake s = true → (portOf s 64).retired = false → s.twin.enabled = true → ∃ s',
      exec (.helloRx t h) s = .next (settled t s s') ∧ s'.twin.linkUp = true ∧ s'.twin.lastHello = some (max s.now t)
        ∧ s'.twin.partner = some h
        ∧ (s.twin.role = 1 → newerGen h.cgen.toNat s.twin.cgen.toNat = true → s'.twin.role = 0
            ∧ s'.twin.selfDemote = s.twin.selfDemote + 1 ∧ ∀ p, (portOf s p).role = 2 → (portOf s' p).queue = [])
        ∧ (s.twin.role = 1 → newerGen h.cgen.toNat s.twin.cgen.toNat = false → s'.twin.role = 1 ∧ s'.twin.cgen = s.twin.cgen)
        ∧ (s.twin.role = 0 → h.role = 1 → s'.twin.cgen = h.cgen))
    ∧ (∀ (t : Nat) (h : Hello) (s : State), awake s = true → s.twin.enabled = false →
      ∃ s', exec (.helloRx t h) s = .next (settled t s s') ∧ s'.twin = s.twin)
    ∧ (∀ (t : Nat) (s : State), awake s = true →
      ((s.twin.enabled = false ∨ s.twin.linkLost = true ∨ max s.now t < max s.twin.linkFrom (s.twin.lastHello.getD 0) + 10000000) →
        exec (.twinLinkTimeout t) s = .next (settled t s (advance t s)))
      ∧ (s.twin.enabled = true → s.twin.linkLost = false →
        max s.twin.linkFrom (s.twin.lastHello.getD 0) + 10000000 ≤ max s.now t →
        ∃ s', exec (.twinLinkTimeout t) s = .next (settled t s s') ∧ s'.twin.linkUp = false ∧ s'.twin.linkLost = true
          ∧ s'.twin.linkLosses = s.twin.linkLosses + 1 ∧ s'.twin.inStep = false ∧ ∃ l, s'.flt.due = s.flt.due ++ [(0x1C40, 0, l)]))
    ∧ (∀ (t : Nat) (s : State), awake s = true → PinDriven s →
      let k := hbCode (faultN s) (advance t s)
      (k = 0 → exec (.heartbeatPulse t) s = .next (advance t s))
      ∧ (k ≠ 0 → exec (.heartbeatPulse t) s = .next { advance t s with out := .heartbeat k :: s.out }))
    ∧ ∀ (s : State), (s.twin.enabled = false ∨ s.fab.svcLevel ≠ 2 ∨ faultN s = true → hbCode (faultN s) s = 0)
      ∧ (s.twin.enabled = true → s.fab.svcLevel = 2 → faultN s = false → awake s = true →
        (kgetD s.flt.srcs 0x1408 {}).inFault = false → s.twin.role = 1 →
        hbCode (faultN s) s = if cutOff s = true then 3 else 4))
  ∧ ((∀ (t : Nat) (s : State), awake s = true → s.hif.ready = true → s.twin.enabled = true →
      (s.twin.roleIn = false → s.twin.role = 0 → ∃ s', exec (.roleInRegistered t true) s = .next (settled t s s')
        ∧ s'.twin.role = 1 ∧ s'.twin.cgen = nextGen s.twin ∧ s'.twin.switchovers = s.twin.switchovers + 1
        ∧ s'.twin.roleIn = true ∧ s'.twin.pending = if modeOn s = true then some (nextBoundary s) else none)
      ∧ (s.twin.roleIn = true → s.twin.role = 1 → ∃ s', exec (.roleInRegistered t false) s = .next (settled t s s')
        ∧ s'.twin.role = 0 ∧ s'.twin.cgen = s.twin.cgen ∧ s'.twin.roleIn = false
        ∧ ∀ p, (portOf s p).role = 2 → (portOf s' p).queue = []))
    ∧ (∀ (t : Nat) (high : Bool) (s : State), (awake s = false ∨ s.twin.roleIn = high ∨ s.twin.enabled = false) →
      exec (.roleInRegistered t high) s = .next (settled t s { advance t s with twin := { s.twin with roleIn := high } }))
    ∧ ∀ (k : Twin), (nextGen k).toNat % 2 = k.side % 2)
  ∧ ((∀ (t : Nat) (d : DigestSeg) (s : State), awake s = true → (portOf s 64).retired = false →
      (isDistaff s = false → ∃ s', exec (.digestSegmentRx t d) s = .next (settled t s s') ∧ s'.twin = s.twin)
      ∧ (isDistaff s = true → s.twin.rxEpoch = d.epoch → s.twin.nsegs.contains d.seg = false →
        s.twin.nsegs.length + 1 ≠ d.nseg → ∃ s', exec (.digestSegmentRx t d) s = .next (settled t s s')
          ∧ s'.twin = { s.twin with segs := kset s.twin.segs d.offset d.data, nsegs := s.twin.nsegs ++ [d.seg] })
      ∧ (isDistaff s = true → s.twin.rxEpoch ≠ d.epoch → d.nseg = 1 → d.data.length < 144736 →
        ∃ s', exec (.digestSegmentRx t d) s = .next (settled t s s') ∧ s'.twin.digest = s.twin.digest
          ∧ s'.twin.digestsOk = s.twin.digestsOk ∧ s'.twin.rxEpoch = d.epoch))
    ∧ ∀ (t : Nat) (epoch : U32) (s : State), awake s = true → PinDriven s → (portOf s 64).retired = false →
      (s.twin.sent.find? (fun q => q.1 == epoch) = none →
        ∃ s', exec (.dackRx t epoch) s = .next s' ∧ { s' with link := s.link } = advance t s)
      ∧ (∀ dend rend, s.twin.sent.find? (fun q => q.1 == epoch) = some (epoch, dend, rend) →
        ∃ s', exec (.dackRx t epoch) s = .next s' ∧ s'.twin.defJ = (s.twin.defJ.filter fun j => decide (dend ≤ j.seq))
          ∧ s'.twin.reelFrom = rend ∧ { s' with link := s.link, twin := s.twin } = advance t s))

/-! ## Fixtures -/

/-- The FIX commands on outputs and RDM (R325, R328, R329, R332): a definition out of range ends RANGE; one of an output not defined
starts it, in the state of the service; a defined one drains first; a transaction waits in its port's queue of 16, and a port
without RDM ends STATE. The FIX commands on fixtures (R317, R322, R330, R332): with a mode in force, definitions and host values
wait for the next epoch, a FIX_SET that overfills the update bobbin ends BUSY, and one with an entry that cannot be set ends with
that entry's status and sets none; FIX_SAFE_SET changes the safe values of the fixture it names alone; FIX_CONFIG keeps a CID.
Completing, with the next state said: fixOutputDefine, fixFixtureDefine, fixSet, fixSafeSet, fixConfig, fixRdm, fixRdmDiscover,
fixRdmUids, fixCounters. -/
def Obligations.FixtureCommands : Prop :=
  ((∀ (t : Nat) (r : CmdRef) (c : Cmd) (s : State), Ready 0x0E01 r c s →
      let p := c.payload
      let o := field p 0 2
      (4103 < o → exec (.fixOutputDefine t r) s = .next (complete c 0x21 0 [] (advance t s)))
      ∧ (o ≤ 4103 → bit (field p 3 1) 1 = true → outOf s o = none →
          exec (.fixOutputDefine t r) s = .next (complete c 0x00 0 [] (advance t s)))
      ∧ (o ≤ 4103 → bit (field p 3 1) 1 = false → outDefBad s p = true →
          exec (.fixOutputDefine t r) s = .next (complete c 0x21 0 [] (advance t s)))
      ∧ (o ≤ 4095 → bit (field p 3 1) 1 = false → outDefBad s p = false → (portOf s (field p 2 1)).role ≠ 1 →
          exec (.fixOutputDefine t r) s = .next (complete c 0x23 0 [] (advance t s)))
      ∧ (o ≤ 4103 → bit (field p 3 1) 1 = false → outDefBad s p = false → (4096 ≤ o ∨ (portOf s (field p 2 1)).role = 1) →
          outOf s o = none → kwf s.fix.outs = true → ∃ s' q, exec (.fixOutputDefine t r) s = .next (complete c 0x00 0 [] s')
            ∧ outOf s' o = some q ∧ q.d = outDefOf p ∧ (s.fab.svcLevel = 0 → q.st = 0)
            ∧ (2 ≤ s.fab.svcLevel ∨ (s.fab.svcLevel = 1 ∧ 4096 ≤ o) → q.st = (if s.flt.safe = true then 2 else if s.fab.svcLevel = 1 then 3 else 1)))
      ∧ (∀ q, o ≤ 4103 → bit (field p 3 1) 1 = true → outOf s o = some q → q.redef.isSome = true →
          exec (.fixOutputDefine t r) s = .next (complete c 0x23 0 [] (advance t s)))
      ∧ (∀ q, 4096 ≤ o → o ≤ 4103 → bit (field p 3 1) 1 = true → outOf s o = some q → q.redef = none → kwf s.fix.outs = true →
          (dmxOf s (o - 4096)).queue ≠ [] → ∃ s' q', exec (.fixOutputDefine t r) s = .next s' ∧ outOf s' o = some q'
            ∧ q'.redef = some none ∧ q'.ref = some c.ref ∧ draining s' 2 (o - 4096) = true))
    ∧ (∀ (t : Nat) (r : CmdRef) (c : Cmd) (s : State), Ready 0x0E06 r c s →
      let p := c.payload
      let port := field p 0 1
      let cc := field p 1 1
      let pdl := field p 12 1
      let sound := port ≤ 7 ∧ (cc = 0x20 ∨ cc = 0x30) ∧ pdl ≤ 231
      let busy := (dmxOf s port).queue.length + (match (dmxOf s port).cur with | some (.host ..) => 1 | _ => 0)
      (¬ sound → exec (.fixRdm t r) s = .next (complete c 0x21 0 [] (advance t s)))
      ∧ (sound → rdmOn s port = false → exec (.fixRdm t r) s = .next (complete c 0x23 0 [] (advance t s)))
      ∧ (sound → rdmOn s port = true → 16 ≤ busy → exec (.fixRdm t r) s = .next (complete c 0x10 0 [] (advance t s)))
      ∧ (sound → rdmOn s port = true → busy < 16 → exec (.fixRdm t r) s = .next (modDmx port (fun q => { q with
          queue := q.queue ++ [.host c.ref (BitVec.ofNat 48 (field p 4 6)) cc (field p 2 2) (field p 10 2) (bytesAt p 16 pdl)] })
          (park c (advance t s)))))
    ∧ (∀ (t : Nat) (r : CmdRef) (c : Cmd) (s : State), Ready 0x0E07 r c s →
      let port := field c.payload 0 1
      ((7 < port ∨ 1 < field c.payload 1 1) → exec (.fixRdmDiscover t r) s = .next (complete c 0x21 0 [] (advance t s)))
      ∧ (port ≤ 7 → field c.payload 1 1 ≤ 1 → (rdmOn s port = false ∨ (dmxOf s port).disc.isSome = true) →
        exec (.fixRdmDiscover t r) s = .next (complete c 0x23 0 [] (advance t s)))
      ∧ (port ≤ 7 → field c.payload 1 1 = 1 → rdmOn s port = true → (dmxOf s port).disc = none →
        exec (.fixRdmDiscover t r) s = .next (complete c 0x01 0 [] (modDmx port (fun q => { q with disc := some { todo :=
          RdmJob.unmute :: ((dmxOf s port).uids.map RdmJob.muteKnown ++ [.branch 0 (2 ^ 48 - 2)]) } }) (advance t s)))))
    ∧ (∀ (t : Nat) (r : CmdRef) (c : Cmd) (s : State), Ready 0x0E08 r c s →
      let l := (dmxOf s (field c.payload 0 1)).uids
      let part := (l.drop (field c.payload 2 2)).take 256
      (7 < field c.payload 0 1 → exec (.fixRdmUids t r) s = .next (complete c 0x21 0 [] (advance t s)))
      ∧ (field c.payload 0 1 ≤ 7 → exec (.fixRdmUids t r) s = .next (complete c 0x00 0
        (leN 2 part.length ++ leN 2 l.length ++ part.flatMap fun u => leN 6 u.toNat) (advance t s))))
    ∧ ∀ (t : Nat) (r : CmdRef) (c : Cmd) (s : State), Ready 0x0E09 r c s →
      let o := field c.payload 0 2
      (4103 < o → exec (.fixCounters t r) s = .next (complete c 0x21 0 [] (advance t s)))
      ∧ (∀ q, o ≤ 4103 → outOf s o = some q → ∃ b : Bytes, exec (.fixCounters t r) s = .next (complete c 0x00 0 b (advance t s))
        ∧ b.length = 32 ∧ field b 0 8 = q.packets.toNat ∧ field b 8 4 = q.skipped.toNat ∧ field b 20 4 = q.rdmTimeout.toNat)
      ∧ (o ≤ 4103 → outOf s o = none → exec (.fixCounters t r) s = .next (complete c 0x00 0 (zeros 32) (advance t s))))
  ∧ ((∀ (t : Nat) (r : CmdRef) (c : Cmd) (s : State), Ready 0x0E02 r c s →
      let n := field c.payload 0 2
      ((n = 0 ∨ 127 < n) → exec (.fixFixtureDefine t r) s = .next (complete c 0x21 0 [] (advance t s)))
      ∧ (∀ st k, 1 ≤ n → n ≤ 127 → fixRecords s c.payload n = .error (st, k) →
        exec (.fixFixtureDefine t r) s = .next (complete c st k [] (advance t s)))
      ∧ (∀ l, 1 ≤ n → n ≤ 127 → s.mode.mode ≠ 0 → fixRecords s c.payload n = .ok l →
        exec (.fixFixtureDefine t r) s = .next (complete c 0x00 0 [] { advance t s with fix := { s.fix with
          pendFix := s.fix.pendFix ++ l } })))
    ∧ (∀ (t : Nat) (r : CmdRef) (c : Cmd) (s : State), Ready 0x0E03 r c s →
      let p := c.payload
      let n := field p 0 2
      let l := (List.range n).map fun i => (field p (8 + 8 * i) 4, field p (12 + 8 * i) 1, field p (14 + 8 * i) 2)
      ((n = 0 ∨ 511 < n) → exec (.fixSet t r) s = .next (complete c 0x21 0 [] (advance t s)))
      ∧ (1 ≤ n → n ≤ 511 → (∀ e ∈ l, fixEntry s e.1 e.2.1 e.2.2 = 0) → s.mode.mode ≠ 0 → s.fix.setq.length + n ≤ 512 →
        exec (.fixSet t r) s = .next (complete c 0x00 0 [] { advance t s with fix := { s.fix with setq := s.fix.setq ++ l } }))
      ∧ (1 ≤ n → n ≤ 511 → (∀ e ∈ l, fixEntry s e.1 e.2.1 e.2.2 = 0) → s.mode.mode ≠ 0 → 512 < s.fix.setq.length + n →
        exec (.fixSet t r) s = .next (complete c 0x10 0 [] (advance t s)))
      ∧ (∀ st, 1 ≤ n → n ≤ 511 → (l.map fun e => fixEntry s e.1 e.2.1 e.2.2).find? (· != 0) = some st →
        exec (.fixSet t r) s = .next (complete c st 0 [] (advance t s))))
    ∧ (∀ (t : Nat) (r : CmdRef) (c : Cmd) (s : State), Ready 0x0E04 r c s →
      let id := field c.payload 8 4
      ((field c.payload 0 2 = 0 ∨ 56 < field c.payload 0 2) →
        exec (.fixSafeSet t r) s = .next (complete c 0x21 0 [] (advance t s)))
      ∧ (field c.payload 0 2 = 1 → id ≤ 131071 → field c.payload 12 1 ≤ 2 → khas s.fix.fixtures id = false →
        exec (.fixSafeSet t r) s = .next (complete c 0x22 0 [] (advance t s)))
      ∧ (∀ f, field c.payload 0 2 = 1 → id ≤ 131071 → field c.payload 12 1 ≤ 1 → kwf s.fix.fixtures = true →
        kget? s.fix.fixtures id = some f → ∃ s' f', exec (.fixSafeSet t r) s = .next (complete c 0x00 0 [] s')
          ∧ kget? s'.fix.fixtures id = some f' ∧ f'.safeMode = field c.payload 12 1 ∧ f'.d = f.d ∧ f'.shown = f.shown
          ∧ ∀ k, k ≠ id → kget? s'.fix.fixtures k = kget? s.fix.fixtures k))
    ∧ ∀ (t : Nat) (r : CmdRef) (c : Cmd) (s : State), Ready 0x0E05 r c s → exec (.fixConfig t r) s =
      .next (complete c 0x00 0 [] { advance t s with fix := { s.fix with cid :=
        (if (bytesAt c.payload 0 16).all (· == 0#8) = true then none else some (bytesAt c.payload 0 16)) } }))

/-- What outputs send (R323, R325 to R327): a keepalive leaves 800 ms after the last packet and no sooner, advancing the sequence
number; a DMX frame starts at least 20 µs after the last ended, with its start code after BREAK and MAB; a stopping output's
Stream_Terminated packets leave at their instants, and after the third it stops. A data packet of n slots is 126 + n bytes. RDM
transactions (R328, R329): a request leaves between frames under the port's next transaction number; its response ends the command
with the responder's data; 2.8 ms without one fail it, it is sent again twice and then ends TIMEOUT; a branch that nothing answers
is done. A packet of n data bytes is 26 + n bytes. Completing, with the next state said: sacnKeepalive, dmxFrameStart,
rdmRequestSend, rdmResponse, rdmResponseTimeout, streamTerminatedSend. -/
def Obligations.OutputsAndRdm : Prop :=
  ((∀ (t o a : Nat) (q : Output) (s : State), awake s = true → PinDriven s → o ≤ 4095 → outOf s o = some q → q.st ≠ 0 → q.terms = 0 →
      s.mode.mode ≠ 0 → q.lastAt = some a →
      (max s.now t < a + 800000000 → exec (.sacnKeepalive t o) s = .next (advance t s))
      ∧ (a + 800000000 ≤ max s.now t → outsLive s = true → (portOf s q.d.port).enabled = true → (portOf s q.d.port).retired = false →
          (portOf s q.d.port).role = 1 → q.d.port ≤ 63 → ∃ s' q' f, exec (.sacnKeepalive t o) s = .next s' ∧ outOf s' o = some q'
            ∧ q'.seq = q.seq + 1 ∧ q'.packets = q.packets + 1 ∧ q'.lastAt = some (max s.now t)
            ∧ (portOf s' q.d.port).queue = (portOf s q.d.port).queue ++ [f] ∧ f.body = e131Data s q.d q.seq false q.data))
    ∧ (∀ (t p : Nat) (q : Output) (s : State), awake s = true → PinDriven s → p < 8 → outOf s (4096 + p) = some q → q.redef = none →
      outsLive s = true → q.st ≠ 0 → q.terms = 0 → q.d.align = false → (dmxOf s p).cur = none →
      (max s.now t < (dmxOf s p).endAt + 20000 → exec (.dmxFrameStart t p) s = .next (advance t s))
      ∧ ((dmxOf s p).endAt + 20000 ≤ max s.now t → ∃ s' q', exec (.dmxFrameStart t p) s = .next s' ∧ outOf s' (4096 + p) = some q'
        ∧ q'.packets = q.packets + 1 ∧ (dmxOf s' p).open_ = true
        ∧ (dmxOf s' p).codeAt = max s.now t + 1000 * (q.d.breakUs + q.d.mabUs)
        ∧ (dmxOf s' p).endAt = (dmxOf s' p).codeAt + 44000 + q.d.slots * (44000 + 1000 * q.d.gapUs)
        ∧ { s' with fix := s.fix, out := s.out } = advance t s))
    ∧ (∀ (t o : Nat) (q : Output) (s : State), awake s = true → PinDriven s → outOf s o = some q →
      ((q.terms = 0 ∨ max s.now t < q.termAt) → exec (.streamTerminatedSend t o) s = .next (advance t s))
      ∧ (2 ≤ q.terms → q.termAt ≤ max s.now t → ∃ s' q', exec (.streamTerminatedSend t o) s = .next s' ∧ outOf s' o = some q'
        ∧ q'.terms = q.terms - 1 ∧ q'.termAt = q.termAt + 10000000 ∧ q'.st = q.st)
      ∧ (q.terms = 1 → q.termAt ≤ max s.now t → q.redef = none → ∃ s' q', exec (.streamTerminatedSend t o) s = .next s'
        ∧ outOf s' o = some q' ∧ q'.terms = 0 ∧ q'.st = 0))
    ∧ ∀ (s : State) (d : OutDef) (q : U8) (term : Bool) (b : Bytes), (cidBytes s).length = 16 →
      (e131Data s d q term b).length = 126 + b.length)
  ∧ ((∀ (t p : Nat) (s : State), awake s = true → PinDriven s → (8 ≤ p ∨ (dmxOf s p).cur.isSome = true
        ∨ ((dmxOf s p).queue = [] ∧ (dmxOf s p).disc = none)) → exec (.rdmRequestSend t p) s = .next (advance t s))
    ∧ (∀ (t p : Nat) (q : Output) (r : CmdRef) (uid : BitVec 48) (cc pid sub : Nat) (data : Bytes) (l : List RdmJob) (s : State),
      awake s = true → PinDriven s → p < 8 → outOf s (4096 + p) = some q → q.d.rdm = true → q.d.align = false → outsLive s = true →
      (dmxOf s p).queue = .host r uid cc pid sub data :: l → (dmxOf s p).cur = none → (dmxOf s p).rdmDone = false →
      (dmxOf s p).endAt ≤ max s.now t → rdmBroadcast uid = false →
      ∃ s' q', exec (.rdmRequestSend t p) s = .next s' ∧ (dmxOf s' p).cur = some (.host r uid cc pid sub data)
        ∧ (dmxOf s' p).queue = l ∧ (dmxOf s' p).tn = (dmxOf s p).tn + 1 ∧ outOf s' (4096 + p) = some q' ∧ q'.rdmTx = q.rdmTx + 1
        ∧ s'.out.head? = some (.rdm p (rdmPacket uid.toNat (dmxOf s p).tn sub cc pid data)))
    ∧ (∀ (t p : Nat) (a : RdmAnswer) (s : State), awake s = true → PinDriven s → (8 ≤ p ∨ (dmxOf s p).cur = none) →
      exec (.rdmResponse t p a) s = .next (advance t s) ∧ exec (.rdmResponseTimeout t p) s = .next (advance t s))
    ∧ (∀ (t p ty : Nat) (data : Bytes) (r : CmdRef) (c : Cmd) (uid : BitVec 48) (cc pid sub : Nat) (d : Bytes) (s : State),
      awake s = true → PinDriven s → p < 8 → (dmxOf s p).cur = some (.host r uid cc pid sub d) → findCmd r s = some c →
      max s.now t ≤ (dmxOf s p).reqEnd + 2800000 → data.length ≤ 231 →
      exec (.rdmResponse t p (.good ty data)) s = .next (complete c 0x00 0 (leN 1 ty ++ leN 1 data.length ++ zeros 2 ++ data)
        (modDmx p (fun q => { q with cur := none, tries := 0 }) (advance t s))))
    ∧ (∀ (t p : Nat) (q : Output) (r : CmdRef) (c : Cmd) (uid : BitVec 48) (cc pid sub : Nat) (d : Bytes) (s : State),
      awake s = true → PinDriven s → p < 8 → outOf s (4096 + p) = some q → (dmxOf s p).cur = some (.host r uid cc pid sub d) →
      findCmd r s = some c →
      (max s.now t < (dmxOf s p).reqEnd + 2800000 → exec (.rdmResponseTimeout t p) s = .next (advance t s))
      ∧ ((dmxOf s p).reqEnd + 2800000 ≤ max s.now t → (dmxOf s p).tries < 3 → ∃ s' q', exec (.rdmResponseTimeout t p) s = .next s'
        ∧ (dmxOf s' p).cur = none ∧ (dmxOf s' p).queue = .host r uid cc pid sub d :: (dmxOf s p).queue
        ∧ outOf s' (4096 + p) = some q' ∧ q'.rdmTimeout = q.rdmTimeout + 1 ∧ findCmd r s' = some c)
      ∧ ((dmxOf s p).reqEnd + 2800000 ≤ max s.now t → 3 ≤ (dmxOf s p).tries → ∃ s',
        exec (.rdmResponseTimeout t p) s = .next s' ∧ (dmxOf s' p).cur = none ∧ findCmd r s' = none))
    ∧ (∀ (t p lo hi : Nat) (x y : Nat) (l : List RdmJob) (e : Disc) (s : State), awake s = true → PinDriven s → p < 8 →
      (dmxOf s p).cur = some (.branch lo hi) → (dmxOf s p).reqEnd + 2800000 ≤ max s.now t → (dmxOf s p).disc = some e →
      e.todo = .branch x y :: l → exec (.rdmResponseTimeout t p) s =
        .next (modDmx p (fun q => { q with cur := none, tries := 0 }) (advance t s)))
    ∧ ∀ (uid : Nat) (tn : U8) (sub cc pid : Nat) (data : Bytes), (rdmPacket uid tn sub cc pid data).length = 26 + data.length)

/-! ## Ezond Air -/

/-- The AIR definitions (R340, R341, R347, R349, R351, R352, R357, R358): each takes what is in its ranges and refuses the rest with
RANGE, and a definition of what an enabled radio uses with STATE; enabling starts a radio on its home band, disabling one that
owes nothing stops it at once; a new node waits to join, and none other changes. AIR_SEND, AIR_RECV and what reads back (R359): a
message to a connected node waits in the downlink queue of 1,024 and ends BUSY when it is full; AIR_RECV takes up to 16 messages,
oldest first. Completing, with the next state said: airNetSet, airRadioDefine, airBandDefine, airRadioEnable, airCrowdDefine,
airNodeAdd, airChmap, airSend, airRecv, airStatus, airNodeStatus, airCounters. -/
def Obligations.AirCommands : Prop :=
  ((∀ (t : Nat) (r : CmdRef) (c : Cmd) (s : State), Ready 0x0F01 r c s →
      let p := c.payload
      let slot := field p 2 2
      let n := field p 4 2
      let sound := 500 ≤ slot ∧ slot ≤ 20000 ∧ 8 ≤ n ∧ n ≤ 512 ∧ field p 6 1 ≤ 200 ∧ field p 7 1 ≤ 200 ∧ field p 8 4 < n * slot
        ∧ field p 12 2 ≤ 600
      (¬ sound → exec (.airNetSet t r) s = .next (complete c 0x21 0 [] (advance t s)))
      ∧ (sound → s.air.radios = [] → exec (.airNetSet t r) s =
        .next (complete c 0x00 0 [] { advance t s with air := { s.air with net := some p, k := none } })))
    ∧ (∀ (t : Nat) (r : CmdRef) (c : Cmd) (s : State), Ready 0x0F02 r c s →
      let p := c.payload
      let n := field p 0 1
      let sound := n ≤ 3 ∧ 1000 ≤ field p 2 2 ∧ field p 2 2 ≤ 16000 ∧ field p 4 4 ≠ 0 ∧ field p 16 2 ≤ 120
        ∧ (field p 19 1 = 0 ∨ field p 19 1 = 0x80) ∧ 1 ≤ field p 27 1 ∧ field p 27 1 ≤ 3 ∧ field p 31 1 ≤ 1 ∧ field p 32 2 ≤ 128
        ∧ field p 34 1 ≤ 3 ∧ field p 35 1 ≤ 15 ∧ bit (field p 35 1) (field p 34 1) = true ∧ field p 36 1 ≤ 3
        ∧ (field p 38 1 ≤ 3 ∨ field p 38 1 = 0xFF)
      let q : Radio := { radioOf s n with cfg := p, band := field p 34 1 }
      (¬ sound → exec (.airRadioDefine t r) s = .next (complete c 0x21 0 [] (advance t s)))
      ∧ (sound → s.air.net = none → (radioOf s n).st = 0 → exec (.airRadioDefine t r) s =
        .next (complete c 0x00 0 [] { advance t s with air := { s.air with radios := kset s.air.radios n q } }))
      ∧ (sound → s.air.net = none → (radioOf s n).st ≠ 0 →
        exec (.airRadioDefine t r) s = .next (complete c 0x23 0 [] (advance t s))))
    ∧ (∀ (t : Nat) (r : CmdRef) (c : Cmd) (s : State), Ready 0x0F03 r c s →
      let p := c.payload
      let n := field p 0 1
      let nch := field p 3 1
      let cca := field p 6 2
      let sound := n ≤ 3 ∧ field p 1 1 ≤ 3 ∧ field p 2 1 ≤ 1 ∧ 1 ≤ nch ∧ nch ≤ 16 ∧ 1 ≤ field p 4 2 ∧ field p 4 2 ≤ 10000
        ∧ (field p 2 1 = 1 → cca = 0 ∨ (18 ≤ cca ∧ cca ≤ 1000)) ∧ field p 8 1 < nch
      (¬ sound → exec (.airBandDefine t r) s = .next (complete c 0x21 0 [] (advance t s)))
      ∧ (sound → (radioOf s n).st ≠ 0 → exec (.airBandDefine t r) s = .next (complete c 0x23 0 [] (advance t s)))
      ∧ (sound → (radioOf s n).st = 0 → ∃ s', exec (.airBandDefine t r) s = .next (complete c 0x00 0 [] s')
          ∧ (bandOf (radioOf s' n) (field p 1 1)).cfg = p
          ∧ (bandOf (radioOf s' n) (field p 1 1)).buckets = (bandOf (radioOf s n) (field p 1 1)).buckets
          ∧ { s' with air := s.air } = advance t s))
    ∧ (∀ (t : Nat) (r : CmdRef) (c : Cmd) (s : State), Ready 0x0F04 r c s →
      let n := field c.payload 0 1
      let en := field c.payload 1 1
      ((1 < en ∨ 3 < n) → exec (.airRadioEnable t r) s = .next (settled t s (complete c 0x21 0 [] (advance t s))))
      ∧ (n ≤ 3 → en = 1 → ((radioOf s n).st = 2 ∨ radioReady s (radioOf s n) = false) →
        exec (.airRadioEnable t r) s = .next (settled t s (complete c 0x23 0 [] (advance t s))))
      ∧ (n ≤ 3 → en = 1 → (radioOf s n).st = 0 → radioReady s (radioOf s n) = true → ∃ s',
        exec (.airRadioEnable t r) s = .next (settled t s (complete c 0x00 0 [] s')) ∧ (radioOf s' n).st = 1
          ∧ (radioOf s' n).band = field (radioOf s n).cfg 34 1)
      ∧ (n ≤ 3 → en = 0 → (radioOf s n).st = 0 →
        exec (.airRadioEnable t r) s = .next (settled t s (complete c 0x00 0 [] (advance t s))))
      ∧ (n ≤ 3 → en = 0 → (radioOf s n).st = 1 → radioOwes s n = 0 → ∃ s',
        exec (.airRadioEnable t r) s = .next (settled t s s') ∧ findCmd r s' = none ∧ (radioOf s' n).st = 0)
      ∧ (n ≤ 3 → en = 0 → (radioOf s n).st = 1 → radioOwes s n ≠ 0 → ∃ s',
        exec (.airRadioEnable t r) s = .next (settled t s s') ∧ (findCmd r s').isSome = true ∧ (radioOf s' n).st = 2
          ∧ (radioOf s' n).ref = some r ∧ draining s' 4 n = true))
    ∧ (∀ (t : Nat) (r : CmdRef) (c : Cmd) (s : State), Ready 0x0F05 r c s →
      let p := c.payload
      let b := field p 0 1
      let sound := field p 1 1 ≤ 15 ∧ field p 2 1 ≤ 1 ∧ (field p 3 1 = 0 ∨ (field p 3 1 = 1 ∧ 1000 ≤ field p 6 2 ∧ field p 6 2 ≤ 4000))
        ∧ 1 ≤ blockCells p ∧ field p 4 2 + blockCells p ≤ 65536
        ∧ ∀ e ∈ nextBlocks s, e.1 = b ∨ field e.2 4 2 + blockCells e.2 ≤ field p 4 2 ∨ field p 4 2 + blockCells p ≤ field e.2 4 2
      (63 < b → exec (.airCrowdDefine t r) s = .next (complete c 0x21 0 [] (advance t s)))
      ∧ (b ≤ 63 → field p 2 1 = 0xFF → exec (.airCrowdDefine t r) s = .next (complete c 0x00 0 [] { advance t s with air :=
          { s.air with pendBlocks := s.air.pendBlocks ++ [(b, none)] } }))
      ∧ (b ≤ 63 → sound → exec (.airCrowdDefine t r) s = .next (complete c 0x00 0 [] { advance t s with air :=
          { s.air with pendBlocks := s.air.pendBlocks ++ [(b, some p)] } }))
      ∧ (b ≤ 63 → field p 2 1 ≠ 0xFF → ¬ sound → exec (.airCrowdDefine t r) s = .next (complete c 0x21 0 [] (advance t s))))
    ∧ (∀ (t : Nat) (r : CmdRef) (c : Cmd) (s : State), Ready 0x0F06 r c s →
      let p := c.payload
      let n := field p 0 2
      (bit (field p 27 1) 0 = true → kget? s.air.nodes n = none →
        exec (.airNodeAdd t r) s = .next (complete c 0x21 0 [] (advance t s)))
      ∧ (∀ q, bit (field p 27 1) 0 = true → kget? s.air.nodes n = some q → q.conn = false → nodeRefs q = [] → ∃ s',
        exec (.airNodeAdd t r) s = .next (complete c 0x00 0 [] s') ∧ kget? s'.air.nodes n = none)
      ∧ (∀ q, bit (field p 27 1) 0 = true → kget? s.air.nodes n = some q → q.conn = true → nodeRefs q = [] → ∃ s' q',
        exec (.airNodeAdd t r) s = .next (complete c 0x00 0 [] s') ∧ kget? s'.air.nodes n = some q' ∧ q'.release = true
          ∧ q'.conn = true)
      ∧ (bit (field p 27 1) 0 = false → nodeAddBad s p = true →
        exec (.airNodeAdd t r) s = .next (complete c 0x21 0 [] (advance t s)))
      ∧ (bit (field p 27 1) 0 = false → nodeAddBad s p = false → kget? s.air.nodes n = none → ∃ s' q,
        exec (.airNodeAdd t r) s = .next (complete c 0x00 0 [] s') ∧ kget? s'.air.nodes n = some q ∧ q.cfg = p ∧ q.conn = false
          ∧ q.state = 0 ∧ ∀ k, k ≠ n → kget? s'.air.nodes k = kget? s.air.nodes k))
    ∧ ∀ (t : Nat) (r : CmdRef) (c : Cmd) (s : State), Ready 0x0F07 r c s →
      let n := field c.payload 0 1
      let b := field c.payload 1 1
      let m := field c.payload 2 2
      ((3 < n ∨ khas (radioOf s n).bands b = false ∨ m = 0 ∨ 2 ^ bandNch (bandOf (radioOf s n) b) ≤ m) →
        exec (.airChmap t r) s = .next (complete c 0x21 0 [] (advance t s)))
      ∧ (n ≤ 3 → khas (radioOf s n).bands b = true → m ≠ 0 → m < 2 ^ bandNch (bandOf (radioOf s n) b) → kwf s.air.nodes = true →
        ∃ s', exec (.airChmap t r) s = .next (complete c 0x00 0 [] s') ∧ { s' with air := s.air } = advance t s
          ∧ (∀ k q, kget? s.air.nodes k = some q → nodeRadio q = n → nodeBand q = b → q.conn = false →
              kget? s'.air.nodes k = some { q with chmap := m })
          ∧ (∀ k q, kget? s.air.nodes k = some q → (nodeRadio q ≠ n ∨ nodeBand q ≠ b) → kget? s'.air.nodes k = some q)))
  ∧ ((∀ (t : Nat) (r : CmdRef) (c : Cmd) (q : ANode) (s : State), Ready 0x0F08 r c s →
      kget? s.air.nodes (field c.payload 0 2) = some q →
      let n := field c.payload 0 2
      let len := field c.payload 2 1
      let k := radioOf s (nodeRadio q)
      ((len = 0 ∨ uMax s k < len) → exec (.airSend t r) s = .next (complete c 0x21 0 [] (advance t s)))
      ∧ (1 ≤ len → len ≤ uMax s k → (k.st ≠ 1 ∨ q.conn = false ∨ q.lostSync = true ∨ q.release = true) →
        exec (.airSend t r) s = .next (complete c 0x23 0 [] (advance t s)))
      ∧ (1 ≤ len → len ≤ uMax s k → k.st = 1 → q.conn = true → q.lostSync = false → q.release = false → 1024 ≤ downQueued s →
        exec (.airSend t r) s = .next (complete c 0x10 0 [] (advance t s)))
      ∧ (1 ≤ len → len ≤ uMax s k → k.st = 1 → q.conn = true → q.lostSync = false → q.release = false → downQueued s < 1024 →
        exec (.airSend t r) s = .next (modNodeA n (fun q => { q with queue := q.queue ++ [(r, bytesAt c.payload 8 len)] })
          (park c (advance t s)))))
    ∧ (∀ (t : Nat) (r : CmdRef) (c : Cmd) (s : State), Ready 0x0F09 r c s → ∃ b : Bytes,
      exec (.airRecv t r) s = .next (complete c 0x00 0 b { advance t s with air := { s.air with uplink := s.air.uplink.drop 16 } })
        ∧ b.length = 8 + 48 * min 16 s.air.uplink.length ∧ field b 0 2 = min 16 s.air.uplink.length)
    ∧ (∀ (t : Nat) (r : CmdRef) (c : Cmd) (s : State), Ready 0x0F0A r c s →
      let n := field c.payload 0 1
      (3 < n → exec (.airStatus t r) s = .next (complete c 0x21 0 [] (advance t s)))
      ∧ (n ≤ 3 → ∃ b : Bytes, exec (.airStatus t r) s = .next (complete c 0x00 0 b (advance t s)) ∧ b.length = 32
        ∧ field b 0 1 = n ∧ field b 2 1 = (radioOf s n).band % 256))
    ∧ (∀ (t : Nat) (r : CmdRef) (c : Cmd) (s : State), Ready 0x0F0B r c s →
      (kget? s.air.nodes (field c.payload 0 2) = none → exec (.airNodeStatus t r) s = .next (complete c 0x22 0 [] (advance t s)))
      ∧ (∀ q, kget? s.air.nodes (field c.payload 0 2) = some q → ∃ b : Bytes,
        exec (.airNodeStatus t r) s = .next (complete c 0x00 0 b (advance t s)) ∧ b.length = 32
          ∧ field b 0 2 = field c.payload 0 2 ∧ field b 2 1 = q.state % 256))
    ∧ ∀ (t : Nat) (r : CmdRef) (c : Cmd) (s : State), Ready 0x0F0C r c s →
      let n := field c.payload 0 1
      (3 < n → exec (.airCounters t r) s = .next (complete c 0x21 0 [] (advance t s)))
      ∧ (n ≤ 3 → ∃ b : Bytes, exec (.airCounters t r) s = .next (complete c 0x00 0 b (advance t s)) ∧ b.length = 32
        ∧ field b 0 4 = (radioOf s n).tx.toNat ∧ field b 12 4 = (radioOf s n).beaconSkip.toNat))

/-- What radios send (R338, R340, R343, R344, R348, R350, R355, R356): nothing before its instant, and nothing from a radio that is
off or a distaff; a beacon within its band's budget leaves on the air and ends the run of skips; one refused by the budget is
counted and leaves nothing; a crowd frame carries the next cells; a node's anchor carries its oldest message. What radios receive
(R350, R352 to R354, R359): a message of a connected node in its exchange is queued, up to 256, and is a contact; an UP with a bad
CRC is counted alone; a JOIN_REQ of a recorded EUI connects its node; no contact for SUP_MS loses it. A RESYNC ends LOST_SYNC. The
hold of recovery beacons and the buckets of a band's window end at their instants. Completing, with the next state said:
superframeStart, beaconSend, recoveryBeaconSend, crowdSend, anchorDownSend, upRx, joinReqRx, resyncRx, budgetBucketRoll,
supervisionTimeout, recoveryHoldExpiry. -/
def Obligations.AirEvents : Prop :=
  ((∀ (t : Nat) (s : State), awake s = true → PinDriven s →
      ((airBi s = 0 ∨ max s.now t < airPhase s) → exec (.superframeStart t) s = .next (advance t s))
      ∧ (airBi s ≠ 0 → airPhase s ≤ max s.now t → s.air.k ≠ some ((max s.now t - airPhase s) / airBi s) → ∃ s',
        exec (.superframeStart t) s = .next s' ∧ s'.air.k = some ((max s.now t - airPhase s) / airBi s)
          ∧ s'.air.blocks = nextBlocks s ∧ s'.air.pendBlocks = [] ∧ s'.air.shown = s.fix.cells
          ∧ { s' with air := s.air } = advance t s))
    ∧ (∀ (t n k : Nat) (busy : Bool) (s : State), awake s = true → PinDriven s → s.air.k = some k →
      (radioOn (radioOf s n) = false ∨ outsLive s = false ∨ max s.now t < slotTp s k 0) →
      exec (.beaconSend t n busy) s = .next (advance t s) ∧ exec (.recoveryBeaconSend t n busy) s = .next (advance t s)
        ∧ ∀ slot, exec (.crowdSend t n slot busy) s = .next (advance t s))
    ∧ (∀ (t n k : Nat) (s : State), awake s = true → PinDriven s → outsLive s = true → s.air.k = some k → khas s.air.radios n = true →
      let r := radioOf s n
      radioOn r = true → slotTp s k 0 ≤ max s.now t → r.beaconSf ≠ some k → r.band = field r.cfg 34 1 → r.nextBand = none →
      (budgetOk (advance t s) r r.band 0 (tAir r 28) = true → r.returning = none → ∃ s' pdu,
        exec (.beaconSend t n false) s = .next s' ∧ s'.out.head? = some (.air n (beaconCh r r.band) "BEACON" pdu)
          ∧ pdu.length = 28 ∧ (radioOf s' n).skips = 0 ∧ (radioOf s' n).tx = r.tx + 1 ∧ (radioOf s' n).beaconSf = some k
          ∧ { s' with air := s.air, out := s.out } = advance t s)
      ∧ (budgetOk (advance t s) r r.band 0 (tAir r 28) = false → r.skips = 0 → ∃ s', exec (.beaconSend t n false) s = .next s'
          ∧ s'.out = s.out ∧ (radioOf s' n).beaconSkip = r.beaconSkip + 1 ∧ (radioOf s' n).refused = r.refused + 1
          ∧ (radioOf s' n).skips = 1 ∧ { s' with air := s.air } = advance t s))
    ∧ (∀ (t n k : Nat) (s : State), awake s = true → PinDriven s → outsLive s = true → s.air.k = some k → khas s.air.radios n = true →
      let r := radioOf s n
      radioOn r = true → r.recovery = true → slotTp s k 1 ≤ max s.now t → r.recoverySf ≠ some k →
      budgetOk (advance t s) r (field r.cfg 36 1) 0 (tAir r 28) = true → ∃ s' pdu,
        exec (.recoveryBeaconSend t n false) s = .next s' ∧ (radioOf s' n).recoverySf = some k
          ∧ s'.out.head? = some (.air n (field r.cfg 37 1) "BEACON" pdu))
    ∧ (∀ (t n k slot : Nat) (b : Bytes) (first m : Nat) (s : State), awake s = true → PinDriven s → outsLive s = true →
      s.air.k = some k → khas s.air.radios n = true →
      let r := radioOf s n
      let band := field r.cfg 38 1
      let start := if cellCount s ≤ r.cellAt then 0 else r.cellAt
      radioOn r = true → band ≠ 0xFF → 3 ≤ slot → slot ≤ 2 + crowdSlots r → slotTp s k slot ≤ max s.now t → r.crowdSf = none →
      (s.flt.safe = true → field r.cfg 31 1 = 0 → exec (.crowdSend t n slot false) s = .next (advance t s))
      ∧ (s.flt.safe = false → crowdRun s r start = some (b, first, m) →
          budgetOk (advance t s) r band 2 (tAir r (16 + if field b 2 1 = 0 then 3 * m else m)) = true → ∃ s' pdu, exec (.crowdSend t n slot false) s = .next s'
          ∧ s'.out.head? = some (.air n (beaconCh r band) "CROWD" pdu) ∧ (radioOf s' n).crowdSf = some (k, slot)
          ∧ (radioOf s' n).cellAt = if cellCount s ≤ start + m then 0 else start + m))
    ∧ (∀ (t n k : Nat) (q : ANode) (busy : Bool) (s : State), awake s = true → PinDriven s → kget? s.air.nodes n = some q →
      s.air.k = some k →
      (q.conn = false ∨ isAnchor q k = false ∨ q.anchor = some k ∨ max s.now t < slotTp s k (field q.cfg 12 2)) →
      exec (.anchorDownSend t n busy) s = .next (advance t s))
    ∧ ∀ (t n k : Nat) (q : ANode) (r : CmdRef) (b : Bytes) (rest : List (CmdRef × Bytes)) (s : State), awake s = true → PinDriven s →
      outsLive s = true → kget? s.air.nodes n = some q → s.air.k = some k → khas s.air.radios (nodeRadio q) = true →
      radioOn (radioOf s (nodeRadio q)) = true → q.conn = true → isAnchor q k = true → q.firstSf ≤ k →
      slotTp s k (field q.cfg 12 2) ≤ max s.now t → q.anchor ≠ some k → q.mapPend = none → q.missed < 3 → q.lostSync = false →
      q.release = false → q.down = none → q.queue = (r, b) :: rest → guardNs s q (slotTp s k (field q.cfg 12 2)) ≤ slotLen s / 4 →
      budgetOk (advance t s) (radioOf s (nodeRadio q)) (nodeBand q) 1 (tAir (radioOf s (nodeRadio q)) (12 + b.length)) = true →
      ∃ s' q' d pdu, exec (.anchorDownSend t n false) s = .next s' ∧ kget? s'.air.nodes n = some q'
        ∧ s'.out.head? = some (.air (nodeRadio q) (anchorChan n q (nodeEvent q k)) "DOWN" pdu)
        ∧ q'.queue = rest ∧ q'.down = some d ∧ d.kind = 1 ∧ d.body = b ∧ d.ref = some r ∧ d.resends = 0
        ∧ q'.anchor = some k ∧ q'.missed = q.missed + 1)
  ∧ ((∀ (t k : Nat) (u : AirUp) (q : ANode) (s : State), awake s = true → PinDriven s → controls s = true →
      kget? s.air.nodes u.node = some q → s.air.k = some k → radioOn (radioOf s u.radio) = true → nodeRadio q = u.radio →
      (u.crcOk = false → exec (.upRx t u) s = .next (modNodeA u.node (fun q => { q with crcErr := q.crcErr + 1 })
        (modRadio u.radio (fun r => { r with crcErr := r.crcErr + 1 }) (advance t s))))
      ∧ (u.crcOk = true → (q.conn = false ∨ q.anchor ≠ some k ∨ q.lostSync = true) →
        exec (.upRx t u) s = .next (advance t s))
      ∧ (u.crcOk = true → q.conn = true → q.anchor = some k → q.lostSync = false → u.kind = 1 → u.sn = q.nesn → u.nesn = q.sn →
        s.air.uplink.length < 256 → (radioOf s u.radio).st = 1 → ∃ s' q', exec (.upRx t u) s = .next s'
          ∧ s'.air.uplink = s.air.uplink ++ [(u.node, max s.now t, u.body.take 32)] ∧ kget? s'.air.nodes u.node = some q'
          ∧ q'.nesn = !q.nesn ∧ q'.sn = q.sn ∧ q'.lastContact = max s.now t ∧ q'.missed = 0)
      ∧ (∀ d r c, u.crcOk = true → q.conn = true → q.anchor = some k → q.lostSync = false → u.nesn ≠ q.sn → q.down = some d →
        d.kind = 1 → d.ref = some r → findCmd r s = some c → (radioOf s u.radio).st = 1 → u.kind ≠ 1 → ∃ s' q',
        exec (.upRx t u) s = .next s' ∧ findCmd r s' = none ∧ kget? s'.air.nodes u.node = some q' ∧ q'.down = none
          ∧ q'.sn = !q.sn))
    ∧ (∀ (t : Nat) (u : AirUp) (s : State), awake s = true → PinDriven s → kget? s.air.nodes u.node = none →
      exec (.upRx t u) s = .next (advance t s) ∧ exec (.resyncRx t u) s = .next (advance t s)
        ∧ exec (.supervisionTimeout t u.node) s = .next (advance t s))
    ∧ (∀ (t : Nat) (u : AirUp) (q : ANode) (s : State), awake s = true → PinDriven s → controls s = true →
      kget? s.air.nodes u.node = some q → radioOn (radioOf s u.radio) = true → nodeRadio q = u.radio → u.crcOk = true →
      q.conn = true → ∃ s' q', exec (.resyncRx t u) s = .next s' ∧ kget? s'.air.nodes u.node = some q' ∧ q'.lostSync = false
        ∧ q'.scanning = false ∧ q'.missed = 0 ∧ q'.lastContact = max s.now t)
    ∧ (∀ (t n : Nat) (eui : U64) (s : State), awake s = true → PinDriven s →
      s.air.nodes.find? (fun e => field e.2.cfg 4 8 == eui.toNat && nodeRadio e.2 == n) = none →
      exec (.joinReqRx t n eui) s = .next (advance t s))
    ∧ (∀ (t n node : Nat) (eui : U64) (q : ANode) (s : State), awake s = true → PinDriven s → controls s = true →
      s.air.nodes.find? (fun e => field e.2.cfg 4 8 == eui.toNat && nodeRadio e.2 == n) = some (node, q) →
      kwf s.air.nodes = true → q.conn = false → khas s.air.radios n = true → (radioOf s n).st = 1 → (radioOf s n).retired = false →
      budgetOk (advance t s) (radioOf s n) (radioOf s n).band 1 (tAir (radioOf s n) 30) = true → ∃ s' q',
        exec (.joinReqRx t n eui) s = .next s' ∧ kget? s'.air.nodes node = some q' ∧ q'.conn = true ∧ q'.state = 1
          ∧ q'.firstSf = firstAnchor (advance t s) q ∧ q'.lastContact = max s.now t ∧ q'.sn = false ∧ q'.nesn = false)
    ∧ (∀ (t n : Nat) (q : ANode) (s : State), awake s = true → PinDriven s → kget? s.air.nodes n = some q →
      let last := q.lastContact + 1000000 * field q.cfg 16 2
      ((q.conn = false ∨ max s.now t < last) → exec (.supervisionTimeout t n) s = .next (advance t s))
      ∧ (q.conn = true → last ≤ max s.now t → q.release = false → nodeRefs q = [] → (radioOf s (nodeRadio q)).st = 1 → ∃ s' q',
          exec (.supervisionTimeout t n) s = .next s' ∧ kget? s'.air.nodes n = some q' ∧ q'.conn = false ∧ q'.state = 4)
      ∧ (q.conn = true → last ≤ max s.now t → q.release = true → nodeRefs q = [] → ∃ s',
          exec (.supervisionTimeout t n) s = .next s' ∧ kget? s'.air.nodes n = none))
    ∧ (∀ (t n b : Nat) (d : Band) (s : State), awake s = true → PinDriven s → khas s.air.radios n = true →
      kget? (radioOf s n).bands b = some d → ∃ s', exec (.budgetBucketRoll t n b) s = .next s'
        ∧ kget? (radioOf s' n).bands b = some { d with buckets :=
            (kfilter d.buckets fun i _ => decide (max s.now t / 60000000000 < i + 60)) }
        ∧ { s' with air := s.air } = advance t s)
    ∧ ∀ (t n u : Nat) (s : State), awake s = true → PinDriven s → (radioOf s n).holdUntil = some u →
      (u ≤ max s.now t → exec (.recoveryHoldExpiry t n) s = .next (modRadio n (fun r => { r with holdUntil := none }) (advance t s)))
      ∧ (max s.now t < u → ∃ s', exec (.recoveryHoldExpiry t n) s = .next s' ∧ radioOf s' n = radioOf s n))

/-! ## Faults and update -/

/-- The FAULT commands (R429, R430, R440, R447): an identifier that R429 does not list ends NOT_FOUND; FAULT_REACT_SET sets the source
it names and no other; FAULT_RETURN of a source that is not held ends STATE, and of one still in the fault state releases its
hold; FAULT_INJECT detects once with CAUSE 0xFF. The collector's events (R429, R432, R438, R439): a detection is noted at its
instant; a lull that has ended lets a source that is not a unit leave the fault state; a return step that fails is a new detection
with CAUSE 0xFE. One detection (R430, R432, R434, R440): the source's sticky bit is set and the detection counted; a source that
was not in the fault state enters it, with its reactions as they stand, and one that was stays in it with its lull stopped and its
entries as they were; a reaction that includes SAFE puts the device in the safe state, naming the source. Completing, with the
next state said: faultStatus, faultReactSet, faultSafeSet, faultCounters, faultReturn, faultInject, healthWordTimeout,
faultDetection, lullExpiry, returnStepDone, faultSourceQuiet. -/
def Obligations.FaultCollector : Prop :=
  ((∀ (t : Nat) (r : CmdRef) (c : Cmd) (s : State), Ready 0x1301 r c s → ∃ b : Bytes,
      exec (.faultStatus t r) s = .next (complete c 0x00 0 b (advance t s))
        ∧ b.length = 8 + 8 * (s.flt.srcs.filter fun e => e.2.inFault || e.2.held).length
        ∧ field b 2 1 = b2n s.flt.safe ∧ field b 3 1 = b2n (faultN s))
    ∧ (∀ (t : Nat) (r : CmdRef) (c : Cmd) (s : State), Ready 0x1302 r c s →
      let id := field c.payload 0 2
      let react := field c.payload 2 1
      let lull := if field c.payload 4 4 = 0 then 500 else field c.payload 4 4
      (srcExists id = false → id % 1024 ≠ 0x3FF →
        exec (.faultReactSet t r) s = .next (ended t s (complete c 0x22 0 [] (advance t s))))
      ∧ (srcExists id = true → (60000 < lull ∨ (bit react 0 = true ∧ isUnit id = false)) →
        exec (.faultReactSet t r) s = .next (ended t s (complete c 0x21 0 [] (advance t s))))
      ∧ (srcExists id = true → lull ≤ 60000 → (bit react 0 = false ∨ isUnit id = true) →
        exec (.faultReactSet t r) s = .next (ended t s (complete c 0x00 0 [] (modSrc id (fun q => { q with
          react := some react, limit := (if field c.payload 3 1 = 0xFF then 8 else field c.payload 3 1), lullMs := lull })
          (advance t s))))))
    ∧ (∀ (t : Nat) (r : CmdRef) (c : Cmd) (s : State), Ready 0x1303 r c s → exec (.faultSafeSet t r) s =
      .next (ended t s (complete c 0x00 0 [] { advance t s with flt := { s.flt with black := BitVec.ofNat 64 (field c.payload 0 8) } })))
    ∧ (∀ (t : Nat) (r : CmdRef) (c : Cmd) (s : State), Ready 0x1304 r c s →
      let id := field c.payload 0 2
      (srcExists id = false → exec (.faultCounters t r) s = .next (complete c 0x22 0 [] (advance t s)))
      ∧ (srcExists id = true → ∃ b : Bytes, exec (.faultCounters t r) s = .next (complete c 0x00 0 b (advance t s)) ∧ b.length = 32
        ∧ field b 0 4 = (srcOf s id).detections.toNat ∧ field b 4 4 = (srcOf s id).entryCount.toNat
        ∧ field b 8 4 = (srcOf s id).recoveries.toNat))
    ∧ (∀ (t : Nat) (r : CmdRef) (c : Cmd) (s : State), Ready 0x1305 r c s →
      let id := field c.payload 0 2
      (srcExists id = false → exec (.faultReturn t r) s = .next (settled t s (complete c 0x22 0 [] (advance t s))))
      ∧ (srcExists id = true → (srcOf s id).held = false →
        exec (.faultReturn t r) s = .next (settled t s (complete c 0x23 0 [] (advance t s))))
      ∧ (srcExists id = true → (srcOf s id).held = true → (srcOf s id).inFault = true →
        exec (.faultReturn t r) s = .next (settled t s (complete c 0x01 0 []
          (modSrc id (fun q => { q with held := false, released := true, entries := 0 }) (advance t s))))))
    ∧ ∀ (t : Nat) (r : CmdRef) (c : Cmd) (s : State), Ready 0x1306 r c s →
      let id := field c.payload 0 2
      (srcExists id = false → exec (.faultInject t r) s = .next (settled t s (complete c 0x22 0 [] (advance t s))))
      ∧ (srcExists id = true → keyAuthority c = false →
        exec (.faultInject t r) s = .next (settled t s (complete c 0x24 0 [] (advance t s))))
      ∧ (srcExists id = true → keyAuthority c = true →
        exec (.faultInject t r) s = .next (settled t s (raise id 0xFF [] (complete c 0x00 0 [] (advance t s))))))
  ∧ ((∀ (t id cause : Nat) (vs : List Int) (s : State), awake s = true →
      (srcExists id = true → exec (.faultDetection t id cause vs) s = .next (settled t s (raise id cause vs (advance t s))))
      ∧ (srcExists id = false → exec (.faultDetection t id cause vs) s = .next (settled t s (advance t s))))
    ∧ (∀ (t : Nat) (s : State), awake s = true →
      exec (.healthWordTimeout t) s = .next (settled t s (raise 0x1408 0 [5] (advance t s))))
    ∧ (∀ (t id : Nat) (s : State), awake s = true → ∃ s', exec (.faultSourceQuiet t id) s = .next (settled t s s')
      ∧ (khas s.flt.srcs id = true → (srcOf s' id).ok = true) ∧ ∀ k, k ≠ id → srcOf s' k = srcOf s k)
    ∧ (∀ (t id : Nat) (s : State), awake s = true →
      ((srcOf s id).inFault = false ∨ (srcOf s id).lullEnd = none ∨ (srcOf s id).returning = true) →
      exec (.lullExpiry t id) s = .next (settled t s (advance t s)))
    ∧ (∀ (t id e : Nat) (s : State), awake s = true → (srcOf s id).inFault = true → (srcOf s id).lullEnd = some e →
      e ≤ max s.now t → (srcOf s id).returning = false → (isUnit id = false ∨ (srcOf s id).held = true) → ∃ s',
      exec (.lullExpiry t id) s = .next (settled t s s') ∧ (srcOf s' id).inFault = false
        ∧ (srcOf s' id).recoveries = (srcOf s id).recoveries + 1 ∧ (srcOf s' id).held = (srcOf s id).held)
    ∧ ∀ (t id : Nat) (s : State), awake s = true →
      ((srcOf s id).returning = false → ∀ ok, exec (.returnStepDone t id ok) s = .next (settled t s (advance t s)))
      ∧ ((srcOf s id).returning = true → ∃ s', exec (.returnStepDone t id false) s = .next (settled t s s')
          ∧ (srcOf s' id).returning = false ∧ s'.flt.due = s.flt.due ++ [(id, 0xFE, [])]))
  ∧ ((∀ (id cause : Nat) (vs : List Int) (s : State), isUnit id = false →
      let s' := detect id cause vs s
      (srcOf s' id).sticky = true ∧ (srcOf s' id).detections = (srcOf s id).detections + 1 ∧ (srcOf s' id).inFault = true
        ∧ ((srcOf s id).inFault = true → (srcOf s' id).entries = (srcOf s id).entries ∧ (srcOf s' id).lullEnd = none)
        ∧ ((srcOf s id).inFault = false → (srcOf s' id).entries = (srcOf s id).entries + 1 ∧ (srcOf s' id).cause = cause
            ∧ (srcOf s' id).applied = reactOf s id ∧ (bit (reactOf s id) 1 = true → s.flt.safe = false →
                s'.flt.safe = true ∧ s'.flt.safeSource = id)))
    ∧ ∀ (id cause : Nat) (vs : List Int) (s : State), (srcOf s id).sticky = false → s.hif.intStat.getLsbD 17 = false →
      isUnit id = false → (detect id cause vs s).hif.intStat.getLsbD 17 = true)

/-- The UPDATE commands (R480 to R484, R486, R487, R492): out of range ends RANGE, and a condition of R481 ends STATE with its number
in DETAIL; UPDATE_BEGIN takes a slot that does not run, UPDATE_WRITE fills it in order, UPDATE_VERIFY leaves it verified or
rejected, UPDATE_ACTIVATE starts a load; the owner key guards UPDATE_LOCK, and four wrong keys in a row lock it for 60 s.
Completing, with the next state said: updateBegin, updateWrite, updateVerify, updateActivate, updateConfirm, updateStatus,
updateLock. -/
def Obligations.UpdateCommands : Prop :=
  (∀ (t : Nat) (r : CmdRef) (c : Cmd) (s : State), Ready 0x1601 r c s →
    let n := field c.payload 0 1
    let len := field c.payload 4 4
    let sound := n ≤ 1 ∧ 257 ≤ len ∧ len ≤ 2097152
    (¬ sound → exec (.updateBegin t r) s = .next (settled t s (complete c 0x21 0 [] (advance t s))))
    ∧ (sound → interlock false s ≠ 0 →
      exec (.updateBegin t r) s = .next (settled t s (complete c 0x23 (interlock false s) [] (advance t s))))
    ∧ (sound → interlock false s = 0 → n = s.upd.running →
      exec (.updateBegin t r) s = .next (settled t s (complete c 0x23 0 [] (advance t s))))
    ∧ (sound → interlock false s = 0 → n ≠ s.upd.running →
      exec (.updateBegin t r) s = .next (settled t s (complete c 0x00 0 [] (modUpd (fun u => { u with
        staging := some n, slots := kset u.slots n { st := 1, length := len } }) (advance t s))))))
  ∧ (∀ (t : Nat) (r : CmdRef) (c : Cmd) (s : State), Ready 0x1602 r c s →
    let o := field c.payload 0 4
    let n := field c.payload 4 2
    ((n = 0 ∨ 4080 < n) → exec (.updateWrite t r) s = .next (settled t s (complete c 0x21 0 [] (advance t s))))
    ∧ (1 ≤ n → n ≤ 4080 → interlock false s = 0 → s.upd.staging = none →
      exec (.updateWrite t r) s = .next (settled t s (complete c 0x23 0 [] (advance t s))))
    ∧ (∀ k, 1 ≤ n → n ≤ 4080 → interlock false s = 0 → s.upd.staging = some k →
      (o ≠ (slotOf s k).image.length ∨ (slotOf s k).length < o + n) →
      exec (.updateWrite t r) s = .next (settled t s (complete c 0x21 0 [] (advance t s))))
    ∧ (∀ k, 1 ≤ n → n ≤ 4080 → interlock false s = 0 → s.upd.staging = some k → o = (slotOf s k).image.length →
      o + n ≤ (slotOf s k).length → ∃ s', exec (.updateWrite t r) s = .next (settled t s (complete c 0x00 0 [] s'))
        ∧ (slotOf s' k).image = (slotOf s k).image ++ bytesAt c.payload 8 n
        ∧ ((slotOf s' k).st = 2 ↔ o + n = (slotOf s k).length)
        ∧ s'.upd.staging = (if o + n = (slotOf s k).length then none else some k) ∧ { s' with upd := s.upd } = advance t s))
  ∧ (∀ (t : Nat) (r : CmdRef) (c : Cmd) (s : State), Ready 0x1603 r c s →
    let n := field c.payload 0 1
    ((2 < n ∨ (n < 2 ∧ (slotOf s n).st = 0)) →
      exec (.updateVerify t r) s = .next (settled t s (complete c 0x22 0 [] (advance t s))))
    ∧ (n < 2 → (slotOf s n).st = 1 → exec (.updateVerify t r) s = .next (settled t s (complete c 0x23 0 [] (advance t s))))
    ∧ (n < 2 → 2 ≤ (slotOf s n).st → ∃ (s' : State) (b : Bytes), exec (.updateVerify t r) s = .next (settled t s
        (complete c (if slotFail s.upd n = 0 then 0x00 else 0x24) 0 b s')) ∧ b.length = 16 ∧ field b 9 1 = slotFail s.upd n % 256
        ∧ (slotOf s' n).st = (if slotFail s.upd n = 0 then 3 else 4) ∧ (slotOf s' n).image = (slotOf s n).image))
  ∧ (∀ (t : Nat) (r : CmdRef) (c : Cmd) (s : State), Ready 0x1604 r c s →
    let n := field c.payload 0 1
    let w := field c.payload 2 2
    let sound := n ≤ 1 ∧ (w = 0 ∨ (20 ≤ w ∧ w ≤ 3600))
    (¬ sound → exec (.updateActivate t r) s = .next (settled t s (complete c 0x21 0 [] (advance t s))))
    ∧ (sound → (slotOf s n).st ≠ 3 → exec (.updateActivate t r) s = .next (settled t s (complete c 0x22 0 [] (advance t s))))
    ∧ (sound → (slotOf s n).st = 3 → interlock false s ≠ 0 →
      exec (.updateActivate t r) s = .next (settled t s (complete c 0x23 (interlock false s) [] (advance t s))))
    ∧ (sound → (slotOf s n).st = 3 → interlock false s = 0 → statesMeet (runImage s) (slotImage s.upd n) = false →
      exec (.updateActivate t r) s = .next (settled t s (complete c 0x23 9 [] (advance t s))))
    ∧ (sound → (slotOf s n).st = 3 → interlock false s = 0 → statesMeet (runImage s) (slotImage s.upd n) = true → ∃ s' a,
      exec (.updateActivate t r) s = .next (settled t s s') ∧ (findCmd r s').isSome = true ∧ s'.upd.act = some a ∧ a.slot = n
        ∧ a.version = imgVersion (slotImage s.upd n) ∧ a.windowS = (if w = 0 then 60 else w) ∧ a.part = 1 - s.upd.part
        ∧ a.loadedAt = none ∧ a.openAt = none))
  ∧ (∀ (t : Nat) (r : CmdRef) (c : Cmd) (s : State), Ready 0x1605 r c s →
    (s.upd.act = none → exec (.updateConfirm t r) s = .next (complete c 0x23 0 [] (advance t s)))
    ∧ (∀ a, s.upd.act = some a → (a.openAt = none ∨ a.host = false) →
      exec (.updateConfirm t r) s = .next (complete c 0x23 0 [] (advance t s)))
    ∧ (∀ a, s.upd.act = some a → a.openAt.isSome = true → a.host = true → exec (.updateConfirm t r) s =
      .next (complete c 0x00 0 [] { advance t s with upd := { s.upd with act := some { a with confirmed := true } } })))
  ∧ (∀ (t : Nat) (r : CmdRef) (c : Cmd) (s : State), Ready 0x1606 r c s → ∃ b : Bytes,
    exec (.updateStatus t r) s = .next (complete c 0x00 0 b (advance t s)) ∧ b.length = 32
      ∧ field b 0 1 = s.upd.running % 256 ∧ field b 6 1 = interlock false s ∧ field b 20 4 = s.upd.fallbacks.toNat)
  ∧ ∀ (t : Nat) (r : CmdRef) (c : Cmd) (s : State), Ready 0x1607 r c s →
    (keyAuthority c = false → exec (.updateLock t r) s = .next (settled t s (complete c 0x24 0 [] (advance t s))))
    ∧ (∀ u, s.upd.lockout = some u → max s.now t < u →
      exec (.updateLock t r) s = .next (settled t s (complete c 0x24 0 [] (advance t s))))
    ∧ (keyAuthority c = true → s.upd.lockout = none → s.upd.keyHash = none → field c.payload 0 1 ≠ 2 →
      exec (.updateLock t r) s = .next (settled t s (complete c 0x23 0 [] (advance t s))))
    ∧ (keyAuthority c = true → s.upd.lockout = none → s.upd.keyHash = some (sha256 (bytesAt c.payload 8 32)) →
      field c.payload 0 1 ≤ 1 → ∃ s', exec (.updateLock t r) s = .next (settled t s (complete c 0x00 0 [] s'))
        ∧ s'.upd = { s.upd with lock := decide (field c.payload 0 1 = 0), wrong := 0 })
    ∧ (∀ h, keyAuthority c = true → s.upd.lockout = none → s.upd.keyHash = some h → sha256 (bytesAt c.payload 8 32) ≠ h →
      ∃ s', exec (.updateLock t r) s = .next (settled t s (complete c 0x24 0 [] s')) ∧ s'.upd.lock = s.upd.lock
        ∧ s'.upd.keyHash = s.upd.keyHash ∧ (s.upd.wrong < 3 → s'.upd.wrong = s.upd.wrong + 1 ∧ s'.upd.lockout = none)
        ∧ (3 ≤ s.upd.wrong → s'.upd.wrong = 0 ∧ s'.upd.lockout = some (max s.now t + 60000000000)))

/-- An update's events (R481, R482, R485 to R489): a verified load fills the free run partition, one that no longer verifies ends the
activation; a window is confirmed where R487 allows, and becomes the preferred image with MIN_SVN raised; one that expires falls
back, and the old image runs again; the pins are as debounced. Completing, with the next state said: updateLoadDone,
handoverBlockRead, updateConfirmation, healthWindowExpiry, fallbackBlockWritten, ownerKeyLockoutExpiry, interlockPinChange. -/
def Obligations.UpdateEvents : Prop :=
  (∀ (t : Nat) (s : State), awake s = true → s.upd.act = none →
    exec (.updateLoadDone t) s = .next (settled t s (advance t s))
    ∧ exec (.handoverBlockRead t) s = .next (settled t s (advance t s))
    ∧ exec (.updateConfirmation t) s = .next (settled t s (advance t s))
    ∧ exec (.healthWindowExpiry t) s = .next (settled t s (advance t s))
    ∧ ∀ b, exec (.fallbackBlockWritten t b) s = .next (settled t s (advance t s)))
  ∧ (∀ (t : Nat) (a : Activation) (s : State), awake s = true → s.upd.act = some a → a.loadedAt = none → a.openAt = none →
    ∃ s', exec (.updateLoadDone t) s = .next (settled t s s') ∧ s'.upd.running = s.upd.running
      ∧ (slotFail s.upd a.slot = 0 → s'.upd.act = some { a with loadedAt := some (max s.now t) }
          ∧ kget? s'.upd.runs a.part = some (slotImage s.upd a.slot))
      ∧ (slotFail s.upd a.slot ≠ 0 → s'.upd.act = none ∧ (slotOf s' a.slot).st = 4
          ∧ ∀ r, a.ref = some r → findCmd r s' = none))
  ∧ (∀ (t : Nat) (a : Activation) (s : State), awake s = true → s.upd.act = some a → a.openAt.isSome = true → ∃ s',
    exec (.handoverBlockRead t) s = .next (settled t s s') ∧ s'.upd.act = some { a with blockRead := true })
  ∧ (∀ (t : Nat) (a : Activation) (s : State), awake s = true → s.upd.act = some a →
    (mayConfirm (advance t s) a = false → exec (.updateConfirmation t) s = .next (settled t s (advance t s)))
    ∧ (mayConfirm (advance t s) a = true → max s.now t < windowEndsAt a → ∃ s',
      exec (.updateConfirmation t) s = .next (settled t s s') ∧ s'.upd.act = none ∧ s'.upd.preferred = a.slot
        ∧ s'.upd.minSvn = max s.upd.minSvn a.svn ∧ s'.upd.pendingFlag = false))
  ∧ (∀ (t : Nat) (a : Activation) (s : State), awake s = true → s.upd.act = some a →
    ((a.openAt = none ∨ max s.now t < windowEndsAt a) →
      exec (.healthWindowExpiry t) s = .next (settled t s (advance t s)))
    ∧ (a.openAt.isSome = true → windowEndsAt a ≤ max s.now t → a.fellAt = none → ∃ s',
      exec (.healthWindowExpiry t) s = .next (settled t s s')
        ∧ s'.upd.act = some { a with fellAt := some (max s.now t), cause := 1 }))
  ∧ (∀ (t f : Nat) (a : Activation) (s : State), awake s = true → s.upd.act = some a → a.fellAt = some f → a.written = false →
    (max s.now t ≤ f + 100000000 → s.mode.mode ≠ 0 → ∃ s', exec (.fallbackBlockWritten t true) s = .next (settled t s s')
      ∧ s'.upd.act = some { a with written := true })
    ∧ (f + 100000000 ≤ max s.now t → ∃ s', exec (.fallbackBlockWritten t false) s = .next (settled t s s')
      ∧ s'.upd.act = none ∧ s'.upd.running = a.oldSlot ∧ s'.upd.part = a.oldPart ∧ s'.upd.fallbacks = s.upd.fallbacks + 1
      ∧ s'.time.cues = [] ∧ s'.place.pins = [] ∧ s'.place.profile = 1))
  ∧ (∀ (t : Nat) (s : State), PinDriven s →
    (s.upd.lockout = none → exec (.ownerKeyLockoutExpiry t) s = .next (advance t s))
    ∧ (∀ u, s.upd.lockout = some u → max s.now t < u → exec (.ownerKeyLockoutExpiry t) s = .next (advance t s))
    ∧ (∀ u, s.upd.lockout = some u → u ≤ max s.now t →
      exec (.ownerKeyLockoutExpiry t) s = .next { advance t s with upd := { s.upd with lockout := none } }))
  ∧ ∀ (t : Nat) (high : Bool) (s : State),
    exec (.interlockPinChange t 0 high) s = .next (settled t s { advance t s with upd := { s.upd with motion := high } })
    ∧ exec (.interlockPinChange t 1 high) s = .next (settled t s { advance t s with upd := { s.upd with battLow := high } })
    ∧ ∃ s', exec (.interlockPinChange t 2 high) s = .next (settled t s s') ∧ s'.upd = { s.upd with ownerPin := high }

/-! ## Every command -/

/-- Every command of the table completes: a verb of the command set whose command is in flight under its opcode and has a thread, and
every event in every state, answers a next state and leaves the queue of waiting commands as it is. The two exceptions are a feed
level and a junction temperature beyond the absolute maxima of R508, beyond which no behaviour is given: they stop (the model's
choice, log 6). What each command leaves is said by the statement of its family. -/
def Obligations.EveryCommandCompletes : Prop :=
  -- the command path
  (∀ (t : Nat) (r : CmdRef) (c : Cmd) (s : State), ∀ e ∈ ([
      (0x0000, .sysNop), (0x0001, .sysIdent), (0x0101, .mbxAbort), (0x0102, .mbxInbandSet), (0x0103, .mbxKeySet)]
      : List (Nat × (Nat → CmdRef → Instr))),
    Ready e.1 r c s → ∃ s', exec (e.2 t r) s = .next s' ∧ s'.pending = s.pending)
  -- wall and placement
  ∧ (∀ (t : Nat) (r : CmdRef) (c : Cmd) (s : State), ∀ e ∈ ([
      (0x0201, .wallDefine), (0x0202, .wallActivate), (0x0203, .wallStatus), (0x0301, .placeProfile), (0x0302, .placePin),
      (0x0303, .placeUnpin), (0x0304, .placeReport)] : List (Nat × (Nat → CmdRef → Instr))),
    Ready e.1 r c s → ∃ s', exec (e.2 t r) s = .next s' ∧ s'.pending = s.pending)
  -- weave
  ∧ (∀ (t : Nat) (r : CmdRef) (c : Cmd) (s : State), ∀ e ∈ ([
      (0x0401, .weaveLoad), (0x0402, .weaveTable), (0x0403, .weaveParam), (0x0404, .weaveStatus), (0x0405, .weaveCounters)]
      : List (Nat × (Nat → CmdRef → Instr))),
    Ready e.1 r c s → ∃ s', exec (e.2 t r) s = .next s' ∧ s'.pending = s.pending)
  -- ingest
  ∧ (∀ (t : Nat) (r : CmdRef) (c : Cmd) (s : State), ∀ e ∈ ([
      (0x0501, .ingestVideoDefine), (0x0502, .ingestAudioDefine), (0x0503, .ingestTapDefine),
      (0x0504, .ingestSacnMapDefine), (0x0505, .ingestPlaneDefine), (0x0506, .ingestPlaneSubmit), (0x0507, .ingestRemove),
      (0x0508, .ingestCounters), (0x0509, .ingestTapRead)] : List (Nat × (Nat → CmdRef → Instr))),
    Ready e.1 r c s → ∃ s', exec (e.2 t r) s = .next s' ∧ s'.pending = s.pending)
  -- frame store
  ∧ (∀ (t : Nat) (r : CmdRef) (c : Cmd) (s : State), ∀ e ∈ ([
      (0x0601, .storeCorrLoad), (0x0602, .storeCorrPersist), (0x0603, .storeCorrRestore), (0x0604, .storeScrubSet),
      (0x0605, .storeStatus), (0x0606, .storeCounters), (0x0607, .storeInject)] : List (Nat × (Nat → CmdRef → Instr))),
    Ready e.1 r c s → ∃ s', exec (e.2 t r) s = .next s' ∧ s'.pending = s.pending)
  -- scheduling
  ∧ (∀ (t : Nat) (r : CmdRef) (c : Cmd) (s : State), ∀ e ∈ ([
      (0x0701, .schedStatus), (0x0702, .schedCounters), (0x0703, .schedTakeSet), (0x0704, .schedSpindle),
      (0x0705, .schedDrainSet), (0x0706, .schedClassSet), (0x0707, .schedThreads)] : List (Nat × (Nat → CmdRef → Instr))),
    Ready e.1 r c s → ∃ s', exec (e.2 t r) s = .next s' ∧ s'.pending = s.pending)
  -- mode
  ∧ (∀ (t : Nat) (r : CmdRef) (c : Cmd) (s : State), ∀ e ∈ ([
      (0x0801, .modeSet), (0x0802, .modeStatus), (0x0803, .modeCalmSet), (0x0804, .modeCalmExit)]
      : List (Nat × (Nat → CmdRef → Instr))),
    Ready e.1 r c s → ∃ s', exec (e.2 t r) s = .next s' ∧ s'.pending = s.pending)
  -- link and ports
  ∧ (∀ (t : Nat) (r : CmdRef) (c : Cmd) (s : State), ∀ e ∈ ([
      (0x0901, .linkStatus), (0x0902, .linkEnum), (0x0903, .linkTile), (0x0904, .linkCounters), (0x0905, .linkGenSet),
      (0x0A01, .portConfig), (0x0A02, .portStatus), (0x0A03, .portCounters)] : List (Nat × (Nat → CmdRef → Instr))),
    Ready e.1 r c s → ∃ s', exec (e.2 t r) s = .next s' ∧ s'.pending = s.pending)
  -- time and cues
  ∧ (∀ (t : Nat) (r : CmdRef) (c : Cmd) (s : State), ∀ e ∈ ([
      (0x0B01, .timePtpSet), (0x0B02, .timePtpPort), (0x0B03, .timeStatus), (0x0B04, .timeLock), (0x0B05, .timeTrigger),
      (0x0B06, .timeLtcSet), (0x0B07, .timeRtcSet), (0x0C01, .cueSchedule), (0x0C02, .cueCancel), (0x0C03, .cueStatus)]
      : List (Nat × (Nat → CmdRef → Instr))),
    Ready e.1 r c s → ∃ s', exec (e.2 t r) s = .next s' ∧ s'.pending = s.pending)
  -- health
  ∧ (∀ (t : Nat) (r : CmdRef) (c : Cmd) (s : State), ∀ e ∈ ([
      (0x0D01, .healthProbeSet), (0x0D02, .healthDefectRead), (0x0D03, .healthDefectClear), (0x0D04, .healthThermalSet),
      (0x0D05, .healthTile), (0x0D06, .healthZoneSet), (0x0D07, .healthSensorDefine), (0x0D08, .healthSensorReference),
      (0x0D09, .healthZoneRead), (0x0D0A, .healthSensorRead)] : List (Nat × (Nat → CmdRef → Instr))),
    Ready e.1 r c s → ∃ s', exec (e.2 t r) s = .next s' ∧ s'.pending = s.pending)
  -- fixtures
  ∧ (∀ (t : Nat) (r : CmdRef) (c : Cmd) (s : State), ∀ e ∈ ([
      (0x0E01, .fixOutputDefine), (0x0E02, .fixFixtureDefine), (0x0E03, .fixSet), (0x0E04, .fixSafeSet),
      (0x0E05, .fixConfig), (0x0E06, .fixRdm), (0x0E07, .fixRdmDiscover), (0x0E08, .fixRdmUids), (0x0E09, .fixCounters)]
      : List (Nat × (Nat → CmdRef → Instr))),
    Ready e.1 r c s → ∃ s', exec (e.2 t r) s = .next s' ∧ s'.pending = s.pending)
  -- Ezond Air
  ∧ (∀ (t : Nat) (r : CmdRef) (c : Cmd) (s : State), ∀ e ∈ ([
      (0x0F01, .airNetSet), (0x0F02, .airRadioDefine), (0x0F03, .airBandDefine), (0x0F04, .airRadioEnable),
      (0x0F05, .airCrowdDefine), (0x0F06, .airNodeAdd), (0x0F07, .airChmap), (0x0F08, .airSend), (0x0F09, .airRecv),
      (0x0F0A, .airStatus), (0x0F0B, .airNodeStatus), (0x0F0C, .airCounters)] : List (Nat × (Nat → CmdRef → Instr))),
    Ready e.1 r c s → ∃ s', exec (e.2 t r) s = .next s' ∧ s'.pending = s.pending)
  -- power
  ∧ (∀ (t : Nat) (r : CmdRef) (c : Cmd) (s : State), ∀ e ∈ ([
      (0x1001, .powerEnter), (0x1002, .powerExit), (0x1003, .powerFeedSet), (0x1004, .powerPaceSet),
      (0x1005, .powerWakeSet), (0x1006, .powerCmpSet), (0x1007, .powerStatus), (0x1008, .powerWakeReport)]
      : List (Nat × (Nat → CmdRef → Instr))),
    Ready e.1 r c s → ∃ s', exec (e.2 t r) s = .next s' ∧ s'.pending = s.pending)
  -- metering
  ∧ (∀ (t : Nat) (r : CmdRef) (c : Cmd) (s : State), ∀ e ∈ ([
      (0x1101, .meterInputSet), (0x1102, .meterCircuitSet), (0x1103, .meterRead), (0x1104, .meterMeasure),
      (0x1105, .meterHarmonics), (0x1106, .meterPulseSet), (0x1107, .meterSaveSet), (0x1108, .meterClear),
      (0x1109, .meterCoefSet), (0x110A, .meterCapSet), (0x110B, .meterCapStatus)] : List (Nat × (Nat → CmdRef → Instr))),
    Ready e.1 r c s → ∃ s', exec (e.2 t r) s = .next s' ∧ s'.pending = s.pending)
  -- twin
  ∧ (∀ (t : Nat) (r : CmdRef) (c : Cmd) (s : State), ∀ e ∈ ([
      (0x1201, .twinConfig), (0x1202, .twinStatus), (0x1203, .twinDrill), (0x1204, .twinCounters)]
      : List (Nat × (Nat → CmdRef → Instr))),
    Ready e.1 r c s → ∃ s', exec (e.2 t r) s = .next s' ∧ s'.pending = s.pending)
  -- faults
  ∧ (∀ (t : Nat) (r : CmdRef) (c : Cmd) (s : State), ∀ e ∈ ([
      (0x1301, .faultStatus), (0x1302, .faultReactSet), (0x1303, .faultSafeSet), (0x1304, .faultCounters),
      (0x1305, .faultReturn), (0x1306, .faultInject)] : List (Nat × (Nat → CmdRef → Instr))),
    Ready e.1 r c s → ∃ s', exec (e.2 t r) s = .next s' ∧ s'.pending = s.pending)
  -- calibration
  ∧ (∀ (t : Nat) (r : CmdRef) (c : Cmd) (s : State), ∀ e ∈ ([
      (0x1401, .calStatus), (0x1402, .calSet), (0x1403, .calRun), (0x1404, .calTrimRead), (0x1405, .calCounters),
      (0x1406, .calRestoreFactory)] : List (Nat × (Nat → CmdRef → Instr))),
    Ready e.1 r c s → ∃ s', exec (e.2 t r) s = .next s' ∧ s'.pending = s.pending)
  -- reel
  ∧ (∀ (t : Nat) (r : CmdRef) (c : Cmd) (s : State), ∀ e ∈ ([
      (0x1501, .reelStatus), (0x1502, .reelRead), (0x1503, .reelClear), (0x1504, .reelNote)]
      : List (Nat × (Nat → CmdRef → Instr))),
    Ready e.1 r c s → ∃ s', exec (e.2 t r) s = .next s' ∧ s'.pending = s.pending)
  -- update
  ∧ (∀ (t : Nat) (r : CmdRef) (c : Cmd) (s : State), ∀ e ∈ ([
      (0x1601, .updateBegin), (0x1602, .updateWrite), (0x1603, .updateVerify), (0x1604, .updateActivate),
      (0x1605, .updateConfirm), (0x1606, .updateStatus), (0x1607, .updateLock)] : List (Nat × (Nat → CmdRef → Instr))),
    Ready e.1 r c s → ∃ s', exec (e.2 t r) s = .next s' ∧ s'.pending = s.pending)
  -- reset and boot
  ∧ (∀ (t n : Nat) (b b' : Bool) (pc : PcieChange) (br : BootReport) (s : State),
    ∀ i ∈ ([
      .powerOn t b b', .resetNAssert t n, .pciePerst t b, .pcieLinkStateChange t pc, .bootStageDone t br] : List Instr),
    ∃ s', exec i s = .next s' ∧ s'.pending = s.pending)
  -- direct registers and rings
  ∧ (∀ (t n m k : Nat) (u : U32) (b : Bool) (s : State),
    ∀ i ∈ ([
      .mbxTailDoorbell t n m, .mbxRheadWrite t n m, .mbxEnable t n u, .mbxDisable t n u, .hifIntMaskWrite t u,
      .hifIntStatClear t u, .fltViolClear t u, .fltStickyClear t n u, .macHalfClear t n b u, .tsOvfClear t n u,
      .underrunClear t u, .reelCursorWrite t u, .reelWindowLoadDone t, .registerWrite t n u, .bar0AccessViolation t n b m k]
      : List Instr),
    ∃ s', exec i s = .next s' ∧ s'.pending = s.pending)
  -- the command path
  ∧ (∀ (t n m k : Nat) (y z : Bytes) (r : CmdRef) (dg : Datagram) (s : State),
    ∀ i ∈ ([
      .commandTake t n y z, .unsupported t r, .threadDispatch t n, .threadQuantumExpiry t n, .classFloorWindow t n m k,
      .responseWrite t n, .eventWrite t, .commandDeadline t r, .mailboxDrainTimeout t n, .tagMemoryExpiry t n m,
      .inbandDatagram t dg] : List Instr),
    ∃ s', exec i s = .next s' ∧ s'.pending = s.pending)
  -- ingest
  ∧ (∀ (t n : Nat) (y : Bytes) (s : State),
    ∀ i ∈ ([
      .planeCopyDone t n y] : List Instr),
    ∃ s', exec i s = .next s' ∧ s'.pending = s.pending)
  -- frame store
  ∧ (∀ (t n m : Nat) (x : Int) (s : State),
    ∀ i ∈ ([
      .corrPersistDone t n, .corrRestoreDone t n, .scrubStep t n m, .dramTempCross t n x] : List Instr),
    ∃ s', exec i s = .next s' ∧ s'.pending = s.pending)
  -- scheduling
  ∧ (∀ (t n m : Nat) (s : State),
    ∀ i ∈ ([
      .drainTimeout t n m] : List Instr),
    ∃ s', exec i s = .next s' ∧ s'.pending = s.pending)
  -- power
  ∧ (∀ (t n : Nat) (b : Bool) (q8 : U8) (u : U32) (s : State),
    ∀ i ∈ ([
      .powerEntryDone t, .feedLiveQualified t n, .carryReturnTimeout t, .lastGaspEnd t, .railOutOfRange t n,
      .junctionTrip t, .comparatorDebounced t n b, .rtcAlarm t, .gpioWakeEdge t n b, .pcieWake t, .linkActivityWake t n,
      .wakeStepDone t q8 u b, .wakeStepTimeout t, .wakeRepeat t] : List Instr),
    ∃ s', exec i s = .next s' ∧ s'.pending = s.pending)
  -- update
  ∧ (∀ (t n : Nat) (b : Bool) (s : State),
    ∀ i ∈ ([
      .updateLoadDone t, .handoverBlockRead t, .updateConfirmation t, .healthWindowExpiry t, .fallbackBlockWritten t b,
      .ownerKeyLockoutExpiry t, .interlockPinChange t n b] : List Instr),
    ∃ s', exec i s = .next s' ∧ s'.pending = s.pending)
  -- pace and fabric
  ∧ (∀ (t n : Nat) (w : U64) (b b' : Bool) (s : State),
    ∀ i ∈ ([
      .paceWindowEnd t n, .paceEvaluation t, .railSettled t, .bobbinWrite t n w b b', .bobbinRead t n b, .bobbinFlush t n]
      : List Instr),
    ∃ s', exec i s = .next s' ∧ s'.pending = s.pending)
  -- frames
  ∧ (∀ (t n : Nat) (b : Bool) (s : State),
    ∀ i ∈ ([
      .frameBoundary t, .placementLeadExpiry t, .sacnKeepalive t n, .commitCopySend t n, .skeinGuardExpiry t,
      .probeQueue t n, .takeIssue t n, .takeTimeout t n, .pixelComplete t n b, .hankComplete t n, .bankGate t n,
      .spindleStall t n] : List Instr),
    ∃ s', exec i s = .next s' ∧ s'.pending = s.pending)
  -- receive
  ∧ (∀ (t n m k : Nat) (vp : VideoPkt) (b b' b'' : Bool) (ap : AudioPkt) (sp : SacnPkt) (sy : SyncPkt) (u : U32) (cid : BitVec 128)
      (th : TileHdr) (w : U64) (rp : Report) (rr : Reply) (q : U16) (s : State),
    ∀ i ∈ ([
      .videoPacket t vp, .fcsVerdict t n b, .audioPacket t ap, .audioSampleDue t, .sacnDataPacket t sp,
      .sacnSyncPacket t n sy, .sacnSourceTimeout t n cid, .streamLostTimeout t n m, .igmpQuery t n u,
      .pauseFrame t n m k, .pauseQuantaExpiry t n, .frameTransmitStart t n, .ackRx t th u n, .nakRx t th u n w,
      .ackWaitExpiry t n, .reportRx t th rp, .replyRx t th rr, .discoverCollectEnd t n, .echoRx t th q n m,
      .measureRotation t n, .enumerationDone t n, .speedConfirmRx t th n, .speedConfirmTimeout t n, .lineRetrained t n,
      .lockChange t n b b' b'', .lockLossTimeout t n] : List Instr),
    ∃ s', exec i s = .next s' ∧ s'.pending = s.pending)
  -- time
  ∧ (∀ (t n : Nat) (an : Announce) (px : PtpExchange) (pt : PtpTx) (lw : LtcWord) (s : State),
    ∀ i ∈ ([
      .ptpAnnounceRx t an, .ptpEventRx t px, .ptpMessageTx t n pt, .announceTimeout t n, .ltcWord t lw, .ltcLossTimeout t,
      .rtcSecond t, .triggerFire t n, .cueFire t n, .cueCommandDone t n] : List Instr),
    ∃ s', exec i s = .next s' ∧ s'.pending = s.pending)
  -- health
  ∧ (∀ (t n : Nat) (ir : I2cResult) (s : State),
    ∀ i ∈ ([
      .detectProbeDue t n, .probeResultTimeout t n, .sensorSampleDue t n, .i2cTransactionDone t n ir, .sensorRetry t n,
      .tempStaleTimeout t n] : List Instr),
    ∃ s', exec i s = .next s' ∧ s'.pending = s.pending)
  -- fixtures
  ∧ (∀ (t n : Nat) (ra : RdmAnswer) (s : State),
    ∀ i ∈ ([
      .dmxFrameStart t n, .rdmRequestSend t n, .rdmResponse t n ra, .rdmResponseTimeout t n, .streamTerminatedSend t n]
      : List Instr),
    ∃ s', exec i s = .next s' ∧ s'.pending = s.pending)
  -- Ezond Air
  ∧ (∀ (t n m : Nat) (b : Bool) (au : AirUp) (w : U64) (s : State),
    ∀ i ∈ ([
      .superframeStart t, .beaconSend t n b, .recoveryBeaconSend t n b, .crowdSend t n m b, .anchorDownSend t n b,
      .upRx t au, .joinReqRx t n w, .resyncRx t au, .budgetBucketRoll t n m, .supervisionTimeout t n,
      .recoveryHoldExpiry t n] : List Instr),
    ∃ s', exec i s = .next s' ∧ s'.pending = s.pending)
  -- metering
  ∧ (∀ (t n : Nat) (ms : MeterSample) (ps : PowerSample) (wq : WindowQty) (b : Bool) (s : State),
    ∀ i ∈ ([
      .meterSample t ms, .meterPowerSample t ps, .meterWindowEnd t wq, .capCorrectionUpdate t, .capTargetCompute t,
      .meterSaveDue t, .meterSaveVerify t b, .pulseStart t n, .pulseEnd t n] : List Instr),
    ∃ s', exec i s = .next s' ∧ s'.pending = s.pending)
  -- twin
  ∧ (∀ (t : Nat) (he : Hello) (ds : DigestSeg) (u : U32) (b : Bool) (s : State),
    ∀ i ∈ ([
      .helloSend t, .helloRx t he, .twinLinkTimeout t, .digestSegmentRx t ds, .dackRx t u, .roleInRegistered t b,
      .heartbeatPulse t] : List Instr),
    ∃ s', exec i s = .next s' ∧ s'.pending = s.pending)
  -- faults
  ∧ (∀ (t n m : Nat) (xs : List Int) (b : Bool) (s : State),
    ∀ i ∈ ([
      .healthWordTimeout t, .faultDetection t n m xs, .lullExpiry t n, .returnStepDone t n b] : List Instr),
    ∃ s', exec i s = .next s' ∧ s'.pending = s.pending)
  -- calibration
  ∧ (∀ (t n m : Nat) (x x' : Int) (cr : List CalResult) (s : State),
    ∀ i ∈ ([
      .dieTempRead t x x', .calMeasurementDone t n cr, .calApplyStep t n, .calDiscardRetry t n m] : List Instr),
    ∃ s', exec i s = .next s' ∧ s'.pending = s.pending)
  -- reel
  ∧ (∀ (t : Nat) (b : Bool) (s : State),
    ∀ i ∈ ([
      .reelRecordWrite t b, .sectorSwitchDone t, .squallWrite t] : List Instr),
    ∃ s', exec i s = .next s' ∧ s'.pending = s.pending)
  -- the rest of the table
  ∧ (∀ (t n : Nat) (b b' : Bool) (fr : RxFrame) (y : Bytes) (s : State),
    ∀ i ∈ ([
      .resetNRelease t b, .feedBusBelow7v t b b', .faultSourceQuiet t n, .receivedFrame t fr, .corrLoadDone t n y,
      .weaveLoadDone t, .vmodFoldBack t n b] : List Instr),
    ∃ s', exec i s = .next s' ∧ s'.pending = s.pending)
  ∧ (∀ (t f : Nat) (mV : Int) (s : State),
    (-62000 ≤ mV → mV ≤ 72000 → ∃ s', exec (.feedLevelChange t f mV) s = .next s' ∧ s'.pending = s.pending)
    ∧ ((mV < -62000 ∨ 72000 < mV) → exec (.feedLevelChange t f mV) s = .fault .absoluteMaximum))
  ∧ ∀ (t : Nat) (x : Int) (s : State),
    (x ≤ 1250 → ∃ s', exec (.junctionTempChange t x) s = .next s' ∧ s'.pending = s.pending)
    ∧ (1250 < x → exec (.junctionTempChange t x) s = .fault .absoluteMaximum)
end

