-- ==== Sys2Proof/Laws/Map.lean ====
section
/-! SUPPORT. The laws of keyed tables: a read after a write, what a write leaves alone, and that every operation keeps the
canonical form. -/

namespace Sys2Proof.Machine

variable {α : Type}

/-! ## Reading after writing -/

theorem kget?_kset_same (m : KMap α) (k : Nat) (v : α) : kget? (kset m k v) k = some v := by
  induction m with
  | nil => simp [kset, kget?]
  | cons e r ih =>
    obtain ⟨k', v'⟩ := e
    simp only [kset]
    split
    · simp [kget?]
    · split
      · simp [kget?]
      · next h1 h2 => simp [kget?, Ne.symm h2, ih]

theorem kget?_kset_other (m : KMap α) (k j : Nat) (v : α) (h : j ≠ k) : kget? (kset m k v) j = kget? m j := by
  induction m with
  | nil => simp [kset, kget?, Ne.symm h]
  | cons e r ih =>
    obtain ⟨k', v'⟩ := e
    simp only [kset]
    split
    · simp [kget?, Ne.symm h]
    · split
      · next h2 => subst h2; simp [kget?, Ne.symm h]
      · simp only [kget?, ih]

@[simp] theorem kgetD_kset_same (m : KMap α) (k : Nat) (v d : α) : kgetD (kset m k v) k d = v := by
  simp [kgetD, kget?_kset_same]

theorem kgetD_kset_other (m : KMap α) (k j : Nat) (v d : α) (h : j ≠ k) : kgetD (kset m k v) j d = kgetD m j d := by
  simp [kgetD, kget?_kset_other m k j v h]

@[simp] theorem kgetD_kmod_same (m : KMap α) (k : Nat) (d : α) (f : α → α) : kgetD (kmod m k d f) k d = f (kgetD m k d) := by
  simp [kmod]

theorem kgetD_kmod_other (m : KMap α) (k j : Nat) (d d' : α) (f : α → α) (h : j ≠ k) :
    kgetD (kmod m k d f) j d' = kgetD m j d' := by
  simp [kmod, kgetD_kset_other m k j _ d' h]

@[simp] theorem kgetD_nil (k : Nat) (d : α) : kgetD [] k d = d := rfl

theorem kget?_kerase_same (m : KMap α) (k : Nat) : kget? (kerase m k) k = none := by
  induction m with
  | nil => rfl
  | cons e r ih =>
    obtain ⟨k', v'⟩ := e
    simp only [kerase]
    split
    · exact ih
    · next h => simp [kget?, h, ih]

theorem kget?_kerase_other (m : KMap α) (k j : Nat) (h : j ≠ k) : kget? (kerase m k) j = kget? m j := by
  induction m with
  | nil => rfl
  | cons e r ih =>
    obtain ⟨k', v'⟩ := e
    simp only [kerase]
    split
    · next h2 => subst h2; simp [kget?, Ne.symm h, ih]
    · simp only [kget?, ih]

theorem kgetD_kput_same [BEq α] [LawfulBEq α] (m : KMap α) (k : Nat) (d v : α) : kgetD (kput m k d v) k d = v := by
  unfold kput
  split
  · next h => simp [kgetD, kget?_kerase_same, eq_of_beq h]
  · simp

theorem kgetD_kput_other [BEq α] (m : KMap α) (k j : Nat) (d v : α) (h : j ≠ k) : kgetD (kput m k d v) j d = kgetD m j d := by
  unfold kput
  split
  · simp [kgetD, kget?_kerase_other m k j h]
  · exact kgetD_kset_other m k j v d h

/-! ## The canonical form -/

theorem kwfFrom_weaken {a b : Nat} (h : a ≤ b) (m : KMap α) (w : kwfFrom b m = true) : kwfFrom a m = true := by
  cases m with
  | nil => rfl
  | cons e r =>
    obtain ⟨k, v⟩ := e
    simp only [kwfFrom, Bool.and_eq_true, decide_eq_true_eq] at w ⊢
    exact ⟨by omega, w.2⟩

theorem kwf_of_kwfFrom {b : Nat} (m : KMap α) (w : kwfFrom b m = true) : kwf m = true := by
  cases m with
  | nil => rfl
  | cons e r =>
    obtain ⟨k, v⟩ := e
    simp only [kwfFrom, Bool.and_eq_true] at w
    exact w.2

theorem kwfFrom_kset {b : Nat} (m : KMap α) (k : Nat) (v : α) (hb : b < k) (w : kwfFrom b m = true) :
    kwfFrom b (kset m k v) = true := by
  induction m generalizing b with
  | nil => simp [kset, kwfFrom, hb]
  | cons e r ih =>
    obtain ⟨k', v'⟩ := e
    simp only [kwfFrom, Bool.and_eq_true, decide_eq_true_eq] at w
    simp only [kset]
    split
    · next h => simp [kwfFrom, hb, h, w.2]
    · split
      · next h => subst h; simp [kwfFrom, w.1, w.2]
      · next h1 h2 => simp only [kwfFrom, Bool.and_eq_true, decide_eq_true_eq]; exact ⟨w.1, ih (by omega) w.2⟩

theorem kwf_kset (m : KMap α) (k : Nat) (v : α) (w : kwf m = true) : kwf (kset m k v) = true := by
  cases m with
  | nil => rfl
  | cons e r =>
    obtain ⟨k', v'⟩ := e
    simp only [kwf] at w
    simp only [kset]
    split
    · next h => simp [kwf, kwfFrom, h, w]
    · split
      · next h => subst h; simpa [kwf] using w
      · next h1 h2 => simp only [kwf]; exact kwfFrom_kset r k v (by omega) w

theorem kwfFrom_kerase {b : Nat} (m : KMap α) (k : Nat) (w : kwfFrom b m = true) : kwfFrom b (kerase m k) = true := by
  induction m generalizing b with
  | nil => rfl
  | cons e r ih =>
    obtain ⟨k', v'⟩ := e
    simp only [kwfFrom, Bool.and_eq_true, decide_eq_true_eq] at w
    simp only [kerase]
    split
    · exact kwfFrom_weaken (Nat.le_of_lt w.1) _ (ih w.2)
    · simp only [kwfFrom, Bool.and_eq_true, decide_eq_true_eq]; exact ⟨w.1, ih w.2⟩

theorem kwf_kerase (m : KMap α) (k : Nat) (w : kwf m = true) : kwf (kerase m k) = true := by
  cases m with
  | nil => rfl
  | cons e r =>
    obtain ⟨k', v'⟩ := e
    simp only [kwf] at w
    simp only [kerase]
    split
    · exact kwf_of_kwfFrom _ (kwfFrom_kerase r k w)
    · exact kwfFrom_kerase r k w

theorem kwfFrom_filter {b : Nat} (p : Nat → α → Bool) (m : KMap α) (w : kwfFrom b m = true) :
    kwfFrom b (kfilter m p) = true := by
  induction m generalizing b with
  | nil => rfl
  | cons e r ih =>
    obtain ⟨k', v'⟩ := e
    simp only [kwfFrom, Bool.and_eq_true, decide_eq_true_eq] at w
    simp only [kfilter, List.filter_cons]
    split
    · simp only [kwfFrom, Bool.and_eq_true, decide_eq_true_eq]; exact ⟨w.1, ih w.2⟩
    · exact kwfFrom_weaken (Nat.le_of_lt w.1) _ (ih w.2)

theorem kwf_filter (p : Nat → α → Bool) (m : KMap α) (w : kwf m = true) : kwf (kfilter m p) = true := by
  cases m with
  | nil => rfl
  | cons e r =>
    obtain ⟨k', v'⟩ := e
    simp only [kwf] at w
    simp only [kfilter, List.filter_cons]
    split
    · exact kwfFrom_filter p r w
    · exact kwf_of_kwfFrom _ (kwfFrom_filter p r w)

/-- The entries that a write leaves are old entries or the one written. -/
theorem mem_kset (m : KMap α) (k : Nat) (v : α) (e : Nat × α) (h : e ∈ kset m k v) : e ∈ m ∨ e = (k, v) := by
  induction m with
  | nil => simp [kset] at h; exact .inr h
  | cons x r ih =>
    obtain ⟨k', v'⟩ := x
    simp only [kset] at h
    split at h
    · simp only [List.mem_cons] at h ⊢; tauto
    · split at h
      · simp only [List.mem_cons] at h ⊢; tauto
      · simp only [List.mem_cons] at h ⊢
        rcases h with h | h
        · tauto
        · rcases ih h with h | h <;> tauto

theorem mem_kerase (m : KMap α) (k : Nat) (e : Nat × α) (h : e ∈ kerase m k) : e ∈ m := by
  induction m with
  | nil => simp [kerase] at h
  | cons x r ih =>
    obtain ⟨k', v'⟩ := x
    simp only [kerase] at h
    split at h
    · exact List.mem_cons_of_mem _ (ih h)
    · simp only [List.mem_cons] at h ⊢
      rcases h with h | h
      · exact .inl h
      · exact .inr (ih h)

/-- A memory write keeps the canonical form: keys rise, and no entry equals what an unlisted one reads as. -/
theorem kmemWf_kput [BEq α] [LawfulBEq α] (d : α) (m : KMap α) (k : Nat) (v : α) (w : kmemWf d m = true) :
    kmemWf d (kput m k d v) = true := by
  simp only [kmemWf, Bool.and_eq_true, List.all_eq_true] at w ⊢
  unfold kput
  split
  · exact ⟨kwf_kerase m k w.1, fun e he => w.2 e (mem_kerase m k e he)⟩
  · next h =>
    refine ⟨kwf_kset m k v w.1, fun e he => ?_⟩
    rcases mem_kset m k v e he with he | he
    · exact w.2 e he
    · subst he; simpa using h

theorem kmemWf_filter [BEq α] (d : α) (p : Nat → α → Bool) (m : KMap α) (w : kmemWf d m = true) :
    kmemWf d (kfilter m p) = true := by
  simp only [kmemWf, Bool.and_eq_true, List.all_eq_true] at w ⊢
  refine ⟨kwf_filter p m w.1, fun e he => w.2 e ?_⟩
  simp only [kfilter, List.mem_filter] at he
  exact he.1

end Sys2Proof.Machine
end

