-- ==== Sys2Proof/Laws/State.lean ====
section
/-! SUPPORT. What each operation on the state leaves alone: one lemma per field per update, true by definition, so that no later
proof unfolds an update; then the same for the operations with cases, and what the wrappers of every meaning answer. -/

namespace Sys2Proof.Machine


/-! `advance` -/
@[simp] theorem advance_pending (t : Nat) (s : State) : (advance t s).pending = s.pending := rfl
@[simp] theorem advance_now (t : Nat) (s : State) : (advance t s).now = max s.now t := rfl
@[simp] theorem advance_bootAt (t : Nat) (s : State) : (advance t s).bootAt = s.bootAt := rfl
@[simp] theorem advance_freeCtr (t : Nat) (s : State) : (advance t s).freeCtr = s.freeCtr := rfl
@[simp] theorem advance_out (t : Nat) (s : State) : (advance t s).out = s.out := rfl
@[simp] theorem advance_faultLow (t : Nat) (s : State) : (advance t s).faultLow = s.faultLow := rfl
@[simp] theorem advance_hif (t : Nat) (s : State) : (advance t s).hif = s.hif := rfl
@[simp] theorem advance_mbx (t : Nat) (s : State) : (advance t s).mbx = s.mbx := rfl
@[simp] theorem advance_cmds (t : Nat) (s : State) : (advance t s).cmds = s.cmds := rfl
@[simp] theorem advance_fab (t : Nat) (s : State) : (advance t s).fab = s.fab := rfl
@[simp] theorem advance_wall (t : Nat) (s : State) : (advance t s).wall = s.wall := rfl
@[simp] theorem advance_place (t : Nat) (s : State) : (advance t s).place = s.place := rfl
@[simp] theorem advance_sched (t : Nat) (s : State) : (advance t s).sched = s.sched := rfl
@[simp] theorem advance_mode (t : Nat) (s : State) : (advance t s).mode = s.mode := rfl
@[simp] theorem advance_time (t : Nat) (s : State) : (advance t s).time = s.time := rfl
@[simp] theorem advance_flt (t : Nat) (s : State) : (advance t s).flt = s.flt := rfl
@[simp] theorem advance_reel (t : Nat) (s : State) : (advance t s).reel = s.reel := rfl
@[simp] theorem advance_ing (t : Nat) (s : State) : (advance t s).ing = s.ing := rfl
@[simp] theorem advance_store (t : Nat) (s : State) : (advance t s).store = s.store := rfl
@[simp] theorem advance_weave (t : Nat) (s : State) : (advance t s).weave = s.weave := rfl
@[simp] theorem advance_health (t : Nat) (s : State) : (advance t s).health = s.health := rfl
@[simp] theorem advance_link (t : Nat) (s : State) : (advance t s).link = s.link := rfl
@[simp] theorem advance_twin (t : Nat) (s : State) : (advance t s).twin = s.twin := rfl
@[simp] theorem advance_power (t : Nat) (s : State) : (advance t s).power = s.power := rfl
@[simp] theorem advance_fix (t : Nat) (s : State) : (advance t s).fix = s.fix := rfl
@[simp] theorem advance_air (t : Nat) (s : State) : (advance t s).air = s.air := rfl
@[simp] theorem advance_meter (t : Nat) (s : State) : (advance t s).meter = s.meter := rfl
@[simp] theorem advance_cal (t : Nat) (s : State) : (advance t s).cal = s.cal := rfl
@[simp] theorem advance_upd (t : Nat) (s : State) : (advance t s).upd = s.upd := rfl
@[simp] theorem advance_boot (t : Nat) (s : State) : (advance t s).boot = s.boot := rfl

/-! `put` -/
@[simp] theorem put_pending (o : Out) (s : State) : (put o s).pending = s.pending := rfl
@[simp] theorem put_now (o : Out) (s : State) : (put o s).now = s.now := rfl
@[simp] theorem put_bootAt (o : Out) (s : State) : (put o s).bootAt = s.bootAt := rfl
@[simp] theorem put_freeCtr (o : Out) (s : State) : (put o s).freeCtr = s.freeCtr := rfl
@[simp] theorem put_out (o : Out) (s : State) : (put o s).out = o :: s.out := rfl
@[simp] theorem put_faultLow (o : Out) (s : State) : (put o s).faultLow = s.faultLow := rfl
@[simp] theorem put_hif (o : Out) (s : State) : (put o s).hif = s.hif := rfl
@[simp] theorem put_mbx (o : Out) (s : State) : (put o s).mbx = s.mbx := rfl
@[simp] theorem put_cmds (o : Out) (s : State) : (put o s).cmds = s.cmds := rfl
@[simp] theorem put_fab (o : Out) (s : State) : (put o s).fab = s.fab := rfl
@[simp] theorem put_wall (o : Out) (s : State) : (put o s).wall = s.wall := rfl
@[simp] theorem put_place (o : Out) (s : State) : (put o s).place = s.place := rfl
@[simp] theorem put_sched (o : Out) (s : State) : (put o s).sched = s.sched := rfl
@[simp] theorem put_mode (o : Out) (s : State) : (put o s).mode = s.mode := rfl
@[simp] theorem put_time (o : Out) (s : State) : (put o s).time = s.time := rfl
@[simp] theorem put_flt (o : Out) (s : State) : (put o s).flt = s.flt := rfl
@[simp] theorem put_reel (o : Out) (s : State) : (put o s).reel = s.reel := rfl
@[simp] theorem put_ing (o : Out) (s : State) : (put o s).ing = s.ing := rfl
@[simp] theorem put_store (o : Out) (s : State) : (put o s).store = s.store := rfl
@[simp] theorem put_weave (o : Out) (s : State) : (put o s).weave = s.weave := rfl
@[simp] theorem put_health (o : Out) (s : State) : (put o s).health = s.health := rfl
@[simp] theorem put_link (o : Out) (s : State) : (put o s).link = s.link := rfl
@[simp] theorem put_twin (o : Out) (s : State) : (put o s).twin = s.twin := rfl
@[simp] theorem put_power (o : Out) (s : State) : (put o s).power = s.power := rfl
@[simp] theorem put_fix (o : Out) (s : State) : (put o s).fix = s.fix := rfl
@[simp] theorem put_air (o : Out) (s : State) : (put o s).air = s.air := rfl
@[simp] theorem put_meter (o : Out) (s : State) : (put o s).meter = s.meter := rfl
@[simp] theorem put_cal (o : Out) (s : State) : (put o s).cal = s.cal := rfl
@[simp] theorem put_upd (o : Out) (s : State) : (put o s).upd = s.upd := rfl
@[simp] theorem put_boot (o : Out) (s : State) : (put o s).boot = s.boot := rfl

/-! `modMbx` -/
@[simp] theorem modMbx_pending (n : Nat) (f : Mbx → Mbx) (s : State) : (modMbx n f s).pending = s.pending := rfl
@[simp] theorem modMbx_now (n : Nat) (f : Mbx → Mbx) (s : State) : (modMbx n f s).now = s.now := rfl
@[simp] theorem modMbx_bootAt (n : Nat) (f : Mbx → Mbx) (s : State) : (modMbx n f s).bootAt = s.bootAt := rfl
@[simp] theorem modMbx_freeCtr (n : Nat) (f : Mbx → Mbx) (s : State) : (modMbx n f s).freeCtr = s.freeCtr := rfl
@[simp] theorem modMbx_out (n : Nat) (f : Mbx → Mbx) (s : State) : (modMbx n f s).out = s.out := rfl
@[simp] theorem modMbx_faultLow (n : Nat) (f : Mbx → Mbx) (s : State) : (modMbx n f s).faultLow = s.faultLow := rfl
@[simp] theorem modMbx_hif (n : Nat) (f : Mbx → Mbx) (s : State) : (modMbx n f s).hif = s.hif := rfl
@[simp] theorem modMbx_mbx (n : Nat) (f : Mbx → Mbx) (s : State) : (modMbx n f s).mbx = kmod s.mbx n {} f := rfl
@[simp] theorem modMbx_cmds (n : Nat) (f : Mbx → Mbx) (s : State) : (modMbx n f s).cmds = s.cmds := rfl
@[simp] theorem modMbx_fab (n : Nat) (f : Mbx → Mbx) (s : State) : (modMbx n f s).fab = s.fab := rfl
@[simp] theorem modMbx_wall (n : Nat) (f : Mbx → Mbx) (s : State) : (modMbx n f s).wall = s.wall := rfl
@[simp] theorem modMbx_place (n : Nat) (f : Mbx → Mbx) (s : State) : (modMbx n f s).place = s.place := rfl
@[simp] theorem modMbx_sched (n : Nat) (f : Mbx → Mbx) (s : State) : (modMbx n f s).sched = s.sched := rfl
@[simp] theorem modMbx_mode (n : Nat) (f : Mbx → Mbx) (s : State) : (modMbx n f s).mode = s.mode := rfl
@[simp] theorem modMbx_time (n : Nat) (f : Mbx → Mbx) (s : State) : (modMbx n f s).time = s.time := rfl
@[simp] theorem modMbx_flt (n : Nat) (f : Mbx → Mbx) (s : State) : (modMbx n f s).flt = s.flt := rfl
@[simp] theorem modMbx_reel (n : Nat) (f : Mbx → Mbx) (s : State) : (modMbx n f s).reel = s.reel := rfl
@[simp] theorem modMbx_ing (n : Nat) (f : Mbx → Mbx) (s : State) : (modMbx n f s).ing = s.ing := rfl
@[simp] theorem modMbx_store (n : Nat) (f : Mbx → Mbx) (s : State) : (modMbx n f s).store = s.store := rfl
@[simp] theorem modMbx_weave (n : Nat) (f : Mbx → Mbx) (s : State) : (modMbx n f s).weave = s.weave := rfl
@[simp] theorem modMbx_health (n : Nat) (f : Mbx → Mbx) (s : State) : (modMbx n f s).health = s.health := rfl
@[simp] theorem modMbx_link (n : Nat) (f : Mbx → Mbx) (s : State) : (modMbx n f s).link = s.link := rfl
@[simp] theorem modMbx_twin (n : Nat) (f : Mbx → Mbx) (s : State) : (modMbx n f s).twin = s.twin := rfl
@[simp] theorem modMbx_power (n : Nat) (f : Mbx → Mbx) (s : State) : (modMbx n f s).power = s.power := rfl
@[simp] theorem modMbx_fix (n : Nat) (f : Mbx → Mbx) (s : State) : (modMbx n f s).fix = s.fix := rfl
@[simp] theorem modMbx_air (n : Nat) (f : Mbx → Mbx) (s : State) : (modMbx n f s).air = s.air := rfl
@[simp] theorem modMbx_meter (n : Nat) (f : Mbx → Mbx) (s : State) : (modMbx n f s).meter = s.meter := rfl
@[simp] theorem modMbx_cal (n : Nat) (f : Mbx → Mbx) (s : State) : (modMbx n f s).cal = s.cal := rfl
@[simp] theorem modMbx_upd (n : Nat) (f : Mbx → Mbx) (s : State) : (modMbx n f s).upd = s.upd := rfl
@[simp] theorem modMbx_boot (n : Nat) (f : Mbx → Mbx) (s : State) : (modMbx n f s).boot = s.boot := rfl

/-! `modCmd` -/
@[simp] theorem modCmd_pending (r : CmdRef) (f : Cmd → Cmd) (s : State) : (modCmd r f s).pending = s.pending := rfl
@[simp] theorem modCmd_now (r : CmdRef) (f : Cmd → Cmd) (s : State) : (modCmd r f s).now = s.now := rfl
@[simp] theorem modCmd_bootAt (r : CmdRef) (f : Cmd → Cmd) (s : State) : (modCmd r f s).bootAt = s.bootAt := rfl
@[simp] theorem modCmd_freeCtr (r : CmdRef) (f : Cmd → Cmd) (s : State) : (modCmd r f s).freeCtr = s.freeCtr := rfl
@[simp] theorem modCmd_out (r : CmdRef) (f : Cmd → Cmd) (s : State) : (modCmd r f s).out = s.out := rfl
@[simp] theorem modCmd_faultLow (r : CmdRef) (f : Cmd → Cmd) (s : State) : (modCmd r f s).faultLow = s.faultLow := rfl
@[simp] theorem modCmd_hif (r : CmdRef) (f : Cmd → Cmd) (s : State) : (modCmd r f s).hif = s.hif := rfl
@[simp] theorem modCmd_mbx (r : CmdRef) (f : Cmd → Cmd) (s : State) : (modCmd r f s).mbx = s.mbx := rfl
@[simp] theorem modCmd_cmds (r : CmdRef) (f : Cmd → Cmd) (s : State) : (modCmd r f s).cmds = modFirst (fun c => c.ref == r) f s.cmds := rfl
@[simp] theorem modCmd_fab (r : CmdRef) (f : Cmd → Cmd) (s : State) : (modCmd r f s).fab = s.fab := rfl
@[simp] theorem modCmd_wall (r : CmdRef) (f : Cmd → Cmd) (s : State) : (modCmd r f s).wall = s.wall := rfl
@[simp] theorem modCmd_place (r : CmdRef) (f : Cmd → Cmd) (s : State) : (modCmd r f s).place = s.place := rfl
@[simp] theorem modCmd_sched (r : CmdRef) (f : Cmd → Cmd) (s : State) : (modCmd r f s).sched = s.sched := rfl
@[simp] theorem modCmd_mode (r : CmdRef) (f : Cmd → Cmd) (s : State) : (modCmd r f s).mode = s.mode := rfl
@[simp] theorem modCmd_time (r : CmdRef) (f : Cmd → Cmd) (s : State) : (modCmd r f s).time = s.time := rfl
@[simp] theorem modCmd_flt (r : CmdRef) (f : Cmd → Cmd) (s : State) : (modCmd r f s).flt = s.flt := rfl
@[simp] theorem modCmd_reel (r : CmdRef) (f : Cmd → Cmd) (s : State) : (modCmd r f s).reel = s.reel := rfl
@[simp] theorem modCmd_ing (r : CmdRef) (f : Cmd → Cmd) (s : State) : (modCmd r f s).ing = s.ing := rfl
@[simp] theorem modCmd_store (r : CmdRef) (f : Cmd → Cmd) (s : State) : (modCmd r f s).store = s.store := rfl
@[simp] theorem modCmd_weave (r : CmdRef) (f : Cmd → Cmd) (s : State) : (modCmd r f s).weave = s.weave := rfl
@[simp] theorem modCmd_health (r : CmdRef) (f : Cmd → Cmd) (s : State) : (modCmd r f s).health = s.health := rfl
@[simp] theorem modCmd_link (r : CmdRef) (f : Cmd → Cmd) (s : State) : (modCmd r f s).link = s.link := rfl
@[simp] theorem modCmd_twin (r : CmdRef) (f : Cmd → Cmd) (s : State) : (modCmd r f s).twin = s.twin := rfl
@[simp] theorem modCmd_power (r : CmdRef) (f : Cmd → Cmd) (s : State) : (modCmd r f s).power = s.power := rfl
@[simp] theorem modCmd_fix (r : CmdRef) (f : Cmd → Cmd) (s : State) : (modCmd r f s).fix = s.fix := rfl
@[simp] theorem modCmd_air (r : CmdRef) (f : Cmd → Cmd) (s : State) : (modCmd r f s).air = s.air := rfl
@[simp] theorem modCmd_meter (r : CmdRef) (f : Cmd → Cmd) (s : State) : (modCmd r f s).meter = s.meter := rfl
@[simp] theorem modCmd_cal (r : CmdRef) (f : Cmd → Cmd) (s : State) : (modCmd r f s).cal = s.cal := rfl
@[simp] theorem modCmd_upd (r : CmdRef) (f : Cmd → Cmd) (s : State) : (modCmd r f s).upd = s.upd := rfl
@[simp] theorem modCmd_boot (r : CmdRef) (f : Cmd → Cmd) (s : State) : (modCmd r f s).boot = s.boot := rfl

/-! `emit` -/
@[simp] theorem emit_pending (code : Nat) (data : Bytes) (s : State) : (emit code data s).pending = s.pending := rfl
@[simp] theorem emit_now (code : Nat) (data : Bytes) (s : State) : (emit code data s).now = s.now := rfl
@[simp] theorem emit_bootAt (code : Nat) (data : Bytes) (s : State) : (emit code data s).bootAt = s.bootAt := rfl
@[simp] theorem emit_freeCtr (code : Nat) (data : Bytes) (s : State) : (emit code data s).freeCtr = s.freeCtr := rfl
@[simp] theorem emit_out (code : Nat) (data : Bytes) (s : State) : (emit code data s).out = s.out := rfl
@[simp] theorem emit_faultLow (code : Nat) (data : Bytes) (s : State) : (emit code data s).faultLow = s.faultLow := rfl
@[simp] theorem emit_mbx (code : Nat) (data : Bytes) (s : State) : (emit code data s).mbx = s.mbx := rfl
@[simp] theorem emit_cmds (code : Nat) (data : Bytes) (s : State) : (emit code data s).cmds = s.cmds := rfl
@[simp] theorem emit_fab (code : Nat) (data : Bytes) (s : State) : (emit code data s).fab = s.fab := rfl
@[simp] theorem emit_wall (code : Nat) (data : Bytes) (s : State) : (emit code data s).wall = s.wall := rfl
@[simp] theorem emit_place (code : Nat) (data : Bytes) (s : State) : (emit code data s).place = s.place := rfl
@[simp] theorem emit_sched (code : Nat) (data : Bytes) (s : State) : (emit code data s).sched = s.sched := rfl
@[simp] theorem emit_mode (code : Nat) (data : Bytes) (s : State) : (emit code data s).mode = s.mode := rfl
@[simp] theorem emit_time (code : Nat) (data : Bytes) (s : State) : (emit code data s).time = s.time := rfl
@[simp] theorem emit_flt (code : Nat) (data : Bytes) (s : State) : (emit code data s).flt = s.flt := rfl
@[simp] theorem emit_reel (code : Nat) (data : Bytes) (s : State) : (emit code data s).reel = s.reel := rfl
@[simp] theorem emit_ing (code : Nat) (data : Bytes) (s : State) : (emit code data s).ing = s.ing := rfl
@[simp] theorem emit_store (code : Nat) (data : Bytes) (s : State) : (emit code data s).store = s.store := rfl
@[simp] theorem emit_weave (code : Nat) (data : Bytes) (s : State) : (emit code data s).weave = s.weave := rfl
@[simp] theorem emit_health (code : Nat) (data : Bytes) (s : State) : (emit code data s).health = s.health := rfl
@[simp] theorem emit_link (code : Nat) (data : Bytes) (s : State) : (emit code data s).link = s.link := rfl
@[simp] theorem emit_twin (code : Nat) (data : Bytes) (s : State) : (emit code data s).twin = s.twin := rfl
@[simp] theorem emit_power (code : Nat) (data : Bytes) (s : State) : (emit code data s).power = s.power := rfl
@[simp] theorem emit_fix (code : Nat) (data : Bytes) (s : State) : (emit code data s).fix = s.fix := rfl
@[simp] theorem emit_air (code : Nat) (data : Bytes) (s : State) : (emit code data s).air = s.air := rfl
@[simp] theorem emit_meter (code : Nat) (data : Bytes) (s : State) : (emit code data s).meter = s.meter := rfl
@[simp] theorem emit_cal (code : Nat) (data : Bytes) (s : State) : (emit code data s).cal = s.cal := rfl
@[simp] theorem emit_upd (code : Nat) (data : Bytes) (s : State) : (emit code data s).upd = s.upd := rfl
@[simp] theorem emit_boot (code : Nat) (data : Bytes) (s : State) : (emit code data s).boot = s.boot := rfl

/-! `raise` -/
@[simp] theorem raise_pending (src cause : Nat) (vs : List Int) (s : State) : (raise src cause vs s).pending = s.pending := rfl
@[simp] theorem raise_now (src cause : Nat) (vs : List Int) (s : State) : (raise src cause vs s).now = s.now := rfl
@[simp] theorem raise_bootAt (src cause : Nat) (vs : List Int) (s : State) : (raise src cause vs s).bootAt = s.bootAt := rfl
@[simp] theorem raise_freeCtr (src cause : Nat) (vs : List Int) (s : State) : (raise src cause vs s).freeCtr = s.freeCtr := rfl
@[simp] theorem raise_out (src cause : Nat) (vs : List Int) (s : State) : (raise src cause vs s).out = s.out := rfl
@[simp] theorem raise_faultLow (src cause : Nat) (vs : List Int) (s : State) : (raise src cause vs s).faultLow = s.faultLow := rfl
@[simp] theorem raise_hif (src cause : Nat) (vs : List Int) (s : State) : (raise src cause vs s).hif = s.hif := rfl
@[simp] theorem raise_mbx (src cause : Nat) (vs : List Int) (s : State) : (raise src cause vs s).mbx = s.mbx := rfl
@[simp] theorem raise_cmds (src cause : Nat) (vs : List Int) (s : State) : (raise src cause vs s).cmds = s.cmds := rfl
@[simp] theorem raise_fab (src cause : Nat) (vs : List Int) (s : State) : (raise src cause vs s).fab = s.fab := rfl
@[simp] theorem raise_wall (src cause : Nat) (vs : List Int) (s : State) : (raise src cause vs s).wall = s.wall := rfl
@[simp] theorem raise_place (src cause : Nat) (vs : List Int) (s : State) : (raise src cause vs s).place = s.place := rfl
@[simp] theorem raise_sched (src cause : Nat) (vs : List Int) (s : State) : (raise src cause vs s).sched = s.sched := rfl
@[simp] theorem raise_mode (src cause : Nat) (vs : List Int) (s : State) : (raise src cause vs s).mode = s.mode := rfl
@[simp] theorem raise_time (src cause : Nat) (vs : List Int) (s : State) : (raise src cause vs s).time = s.time := rfl
@[simp] theorem raise_reel (src cause : Nat) (vs : List Int) (s : State) : (raise src cause vs s).reel = s.reel := rfl
@[simp] theorem raise_ing (src cause : Nat) (vs : List Int) (s : State) : (raise src cause vs s).ing = s.ing := rfl
@[simp] theorem raise_store (src cause : Nat) (vs : List Int) (s : State) : (raise src cause vs s).store = s.store := rfl
@[simp] theorem raise_weave (src cause : Nat) (vs : List Int) (s : State) : (raise src cause vs s).weave = s.weave := rfl
@[simp] theorem raise_health (src cause : Nat) (vs : List Int) (s : State) : (raise src cause vs s).health = s.health := rfl
@[simp] theorem raise_link (src cause : Nat) (vs : List Int) (s : State) : (raise src cause vs s).link = s.link := rfl
@[simp] theorem raise_twin (src cause : Nat) (vs : List Int) (s : State) : (raise src cause vs s).twin = s.twin := rfl
@[simp] theorem raise_power (src cause : Nat) (vs : List Int) (s : State) : (raise src cause vs s).power = s.power := rfl
@[simp] theorem raise_fix (src cause : Nat) (vs : List Int) (s : State) : (raise src cause vs s).fix = s.fix := rfl
@[simp] theorem raise_air (src cause : Nat) (vs : List Int) (s : State) : (raise src cause vs s).air = s.air := rfl
@[simp] theorem raise_meter (src cause : Nat) (vs : List Int) (s : State) : (raise src cause vs s).meter = s.meter := rfl
@[simp] theorem raise_cal (src cause : Nat) (vs : List Int) (s : State) : (raise src cause vs s).cal = s.cal := rfl
@[simp] theorem raise_upd (src cause : Nat) (vs : List Int) (s : State) : (raise src cause vs s).upd = s.upd := rfl
@[simp] theorem raise_boot (src cause : Nat) (vs : List Int) (s : State) : (raise src cause vs s).boot = s.boot := rfl

/-! `setWord` -/
@[simp] theorem setWord_pending (key : Nat) (w : Word64) (s : State) : (setWord key w s).pending = s.pending := rfl
@[simp] theorem setWord_now (key : Nat) (w : Word64) (s : State) : (setWord key w s).now = s.now := rfl
@[simp] theorem setWord_bootAt (key : Nat) (w : Word64) (s : State) : (setWord key w s).bootAt = s.bootAt := rfl
@[simp] theorem setWord_freeCtr (key : Nat) (w : Word64) (s : State) : (setWord key w s).freeCtr = s.freeCtr := rfl
@[simp] theorem setWord_out (key : Nat) (w : Word64) (s : State) : (setWord key w s).out = s.out := rfl
@[simp] theorem setWord_faultLow (key : Nat) (w : Word64) (s : State) : (setWord key w s).faultLow = s.faultLow := rfl
@[simp] theorem setWord_hif (key : Nat) (w : Word64) (s : State) : (setWord key w s).hif = s.hif := rfl
@[simp] theorem setWord_mbx (key : Nat) (w : Word64) (s : State) : (setWord key w s).mbx = s.mbx := rfl
@[simp] theorem setWord_cmds (key : Nat) (w : Word64) (s : State) : (setWord key w s).cmds = s.cmds := rfl
@[simp] theorem setWord_fab (key : Nat) (w : Word64) (s : State) : (setWord key w s).fab = s.fab := rfl
@[simp] theorem setWord_wall (key : Nat) (w : Word64) (s : State) : (setWord key w s).wall = s.wall := rfl
@[simp] theorem setWord_place (key : Nat) (w : Word64) (s : State) : (setWord key w s).place = s.place := rfl
@[simp] theorem setWord_sched (key : Nat) (w : Word64) (s : State) : (setWord key w s).sched = s.sched := rfl
@[simp] theorem setWord_mode (key : Nat) (w : Word64) (s : State) : (setWord key w s).mode = s.mode := rfl
@[simp] theorem setWord_time (key : Nat) (w : Word64) (s : State) : (setWord key w s).time = s.time := rfl
@[simp] theorem setWord_flt (key : Nat) (w : Word64) (s : State) : (setWord key w s).flt = s.flt := rfl
@[simp] theorem setWord_reel (key : Nat) (w : Word64) (s : State) : (setWord key w s).reel = s.reel := rfl
@[simp] theorem setWord_ing (key : Nat) (w : Word64) (s : State) : (setWord key w s).ing = s.ing := rfl
@[simp] theorem setWord_weave (key : Nat) (w : Word64) (s : State) : (setWord key w s).weave = s.weave := rfl
@[simp] theorem setWord_health (key : Nat) (w : Word64) (s : State) : (setWord key w s).health = s.health := rfl
@[simp] theorem setWord_link (key : Nat) (w : Word64) (s : State) : (setWord key w s).link = s.link := rfl
@[simp] theorem setWord_twin (key : Nat) (w : Word64) (s : State) : (setWord key w s).twin = s.twin := rfl
@[simp] theorem setWord_power (key : Nat) (w : Word64) (s : State) : (setWord key w s).power = s.power := rfl
@[simp] theorem setWord_fix (key : Nat) (w : Word64) (s : State) : (setWord key w s).fix = s.fix := rfl
@[simp] theorem setWord_air (key : Nat) (w : Word64) (s : State) : (setWord key w s).air = s.air := rfl
@[simp] theorem setWord_meter (key : Nat) (w : Word64) (s : State) : (setWord key w s).meter = s.meter := rfl
@[simp] theorem setWord_cal (key : Nat) (w : Word64) (s : State) : (setWord key w s).cal = s.cal := rfl
@[simp] theorem setWord_upd (key : Nat) (w : Word64) (s : State) : (setWord key w s).upd = s.upd := rfl
@[simp] theorem setWord_boot (key : Nat) (w : Word64) (s : State) : (setWord key w s).boot = s.boot := rfl

/-! `modBank` -/
@[simp] theorem modBank_pending (b : Nat) (f : FBank → FBank) (s : State) : (modBank b f s).pending = s.pending := rfl
@[simp] theorem modBank_now (b : Nat) (f : FBank → FBank) (s : State) : (modBank b f s).now = s.now := rfl
@[simp] theorem modBank_bootAt (b : Nat) (f : FBank → FBank) (s : State) : (modBank b f s).bootAt = s.bootAt := rfl
@[simp] theorem modBank_freeCtr (b : Nat) (f : FBank → FBank) (s : State) : (modBank b f s).freeCtr = s.freeCtr := rfl
@[simp] theorem modBank_out (b : Nat) (f : FBank → FBank) (s : State) : (modBank b f s).out = s.out := rfl
@[simp] theorem modBank_faultLow (b : Nat) (f : FBank → FBank) (s : State) : (modBank b f s).faultLow = s.faultLow := rfl
@[simp] theorem modBank_hif (b : Nat) (f : FBank → FBank) (s : State) : (modBank b f s).hif = s.hif := rfl
@[simp] theorem modBank_mbx (b : Nat) (f : FBank → FBank) (s : State) : (modBank b f s).mbx = s.mbx := rfl
@[simp] theorem modBank_cmds (b : Nat) (f : FBank → FBank) (s : State) : (modBank b f s).cmds = s.cmds := rfl
@[simp] theorem modBank_fab (b : Nat) (f : FBank → FBank) (s : State) : (modBank b f s).fab = s.fab := rfl
@[simp] theorem modBank_wall (b : Nat) (f : FBank → FBank) (s : State) : (modBank b f s).wall = s.wall := rfl
@[simp] theorem modBank_place (b : Nat) (f : FBank → FBank) (s : State) : (modBank b f s).place = s.place := rfl
@[simp] theorem modBank_sched (b : Nat) (f : FBank → FBank) (s : State) : (modBank b f s).sched = s.sched := rfl
@[simp] theorem modBank_mode (b : Nat) (f : FBank → FBank) (s : State) : (modBank b f s).mode = s.mode := rfl
@[simp] theorem modBank_time (b : Nat) (f : FBank → FBank) (s : State) : (modBank b f s).time = s.time := rfl
@[simp] theorem modBank_flt (b : Nat) (f : FBank → FBank) (s : State) : (modBank b f s).flt = s.flt := rfl
@[simp] theorem modBank_reel (b : Nat) (f : FBank → FBank) (s : State) : (modBank b f s).reel = s.reel := rfl
@[simp] theorem modBank_ing (b : Nat) (f : FBank → FBank) (s : State) : (modBank b f s).ing = s.ing := rfl
@[simp] theorem modBank_weave (b : Nat) (f : FBank → FBank) (s : State) : (modBank b f s).weave = s.weave := rfl
@[simp] theorem modBank_health (b : Nat) (f : FBank → FBank) (s : State) : (modBank b f s).health = s.health := rfl
@[simp] theorem modBank_link (b : Nat) (f : FBank → FBank) (s : State) : (modBank b f s).link = s.link := rfl
@[simp] theorem modBank_twin (b : Nat) (f : FBank → FBank) (s : State) : (modBank b f s).twin = s.twin := rfl
@[simp] theorem modBank_power (b : Nat) (f : FBank → FBank) (s : State) : (modBank b f s).power = s.power := rfl
@[simp] theorem modBank_fix (b : Nat) (f : FBank → FBank) (s : State) : (modBank b f s).fix = s.fix := rfl
@[simp] theorem modBank_air (b : Nat) (f : FBank → FBank) (s : State) : (modBank b f s).air = s.air := rfl
@[simp] theorem modBank_meter (b : Nat) (f : FBank → FBank) (s : State) : (modBank b f s).meter = s.meter := rfl
@[simp] theorem modBank_cal (b : Nat) (f : FBank → FBank) (s : State) : (modBank b f s).cal = s.cal := rfl
@[simp] theorem modBank_upd (b : Nat) (f : FBank → FBank) (s : State) : (modBank b f s).upd = s.upd := rfl
@[simp] theorem modBank_boot (b : Nat) (f : FBank → FBank) (s : State) : (modBank b f s).boot = s.boot := rfl

/-! `modCorr` -/
@[simp] theorem modCorr_pending (tile : Nat) (f : Corr → Corr) (s : State) : (modCorr tile f s).pending = s.pending := rfl
@[simp] theorem modCorr_now (tile : Nat) (f : Corr → Corr) (s : State) : (modCorr tile f s).now = s.now := rfl
@[simp] theorem modCorr_bootAt (tile : Nat) (f : Corr → Corr) (s : State) : (modCorr tile f s).bootAt = s.bootAt := rfl
@[simp] theorem modCorr_freeCtr (tile : Nat) (f : Corr → Corr) (s : State) : (modCorr tile f s).freeCtr = s.freeCtr := rfl
@[simp] theorem modCorr_out (tile : Nat) (f : Corr → Corr) (s : State) : (modCorr tile f s).out = s.out := rfl
@[simp] theorem modCorr_faultLow (tile : Nat) (f : Corr → Corr) (s : State) : (modCorr tile f s).faultLow = s.faultLow := rfl
@[simp] theorem modCorr_hif (tile : Nat) (f : Corr → Corr) (s : State) : (modCorr tile f s).hif = s.hif := rfl
@[simp] theorem modCorr_mbx (tile : Nat) (f : Corr → Corr) (s : State) : (modCorr tile f s).mbx = s.mbx := rfl
@[simp] theorem modCorr_cmds (tile : Nat) (f : Corr → Corr) (s : State) : (modCorr tile f s).cmds = s.cmds := rfl
@[simp] theorem modCorr_fab (tile : Nat) (f : Corr → Corr) (s : State) : (modCorr tile f s).fab = s.fab := rfl
@[simp] theorem modCorr_wall (tile : Nat) (f : Corr → Corr) (s : State) : (modCorr tile f s).wall = s.wall := rfl
@[simp] theorem modCorr_place (tile : Nat) (f : Corr → Corr) (s : State) : (modCorr tile f s).place = s.place := rfl
@[simp] theorem modCorr_sched (tile : Nat) (f : Corr → Corr) (s : State) : (modCorr tile f s).sched = s.sched := rfl
@[simp] theorem modCorr_mode (tile : Nat) (f : Corr → Corr) (s : State) : (modCorr tile f s).mode = s.mode := rfl
@[simp] theorem modCorr_time (tile : Nat) (f : Corr → Corr) (s : State) : (modCorr tile f s).time = s.time := rfl
@[simp] theorem modCorr_flt (tile : Nat) (f : Corr → Corr) (s : State) : (modCorr tile f s).flt = s.flt := rfl
@[simp] theorem modCorr_reel (tile : Nat) (f : Corr → Corr) (s : State) : (modCorr tile f s).reel = s.reel := rfl
@[simp] theorem modCorr_ing (tile : Nat) (f : Corr → Corr) (s : State) : (modCorr tile f s).ing = s.ing := rfl
@[simp] theorem modCorr_weave (tile : Nat) (f : Corr → Corr) (s : State) : (modCorr tile f s).weave = s.weave := rfl
@[simp] theorem modCorr_health (tile : Nat) (f : Corr → Corr) (s : State) : (modCorr tile f s).health = s.health := rfl
@[simp] theorem modCorr_link (tile : Nat) (f : Corr → Corr) (s : State) : (modCorr tile f s).link = s.link := rfl
@[simp] theorem modCorr_twin (tile : Nat) (f : Corr → Corr) (s : State) : (modCorr tile f s).twin = s.twin := rfl
@[simp] theorem modCorr_power (tile : Nat) (f : Corr → Corr) (s : State) : (modCorr tile f s).power = s.power := rfl
@[simp] theorem modCorr_fix (tile : Nat) (f : Corr → Corr) (s : State) : (modCorr tile f s).fix = s.fix := rfl
@[simp] theorem modCorr_air (tile : Nat) (f : Corr → Corr) (s : State) : (modCorr tile f s).air = s.air := rfl
@[simp] theorem modCorr_meter (tile : Nat) (f : Corr → Corr) (s : State) : (modCorr tile f s).meter = s.meter := rfl
@[simp] theorem modCorr_cal (tile : Nat) (f : Corr → Corr) (s : State) : (modCorr tile f s).cal = s.cal := rfl
@[simp] theorem modCorr_upd (tile : Nat) (f : Corr → Corr) (s : State) : (modCorr tile f s).upd = s.upd := rfl
@[simp] theorem modCorr_boot (tile : Nat) (f : Corr → Corr) (s : State) : (modCorr tile f s).boot = s.boot := rfl

/-! `modPort` -/
@[simp] theorem modPort_pending (p : Nat) (f : Port → Port) (s : State) : (modPort p f s).pending = s.pending := rfl
@[simp] theorem modPort_now (p : Nat) (f : Port → Port) (s : State) : (modPort p f s).now = s.now := rfl
@[simp] theorem modPort_bootAt (p : Nat) (f : Port → Port) (s : State) : (modPort p f s).bootAt = s.bootAt := rfl
@[simp] theorem modPort_freeCtr (p : Nat) (f : Port → Port) (s : State) : (modPort p f s).freeCtr = s.freeCtr := rfl
@[simp] theorem modPort_out (p : Nat) (f : Port → Port) (s : State) : (modPort p f s).out = s.out := rfl
@[simp] theorem modPort_faultLow (p : Nat) (f : Port → Port) (s : State) : (modPort p f s).faultLow = s.faultLow := rfl
@[simp] theorem modPort_hif (p : Nat) (f : Port → Port) (s : State) : (modPort p f s).hif = s.hif := rfl
@[simp] theorem modPort_mbx (p : Nat) (f : Port → Port) (s : State) : (modPort p f s).mbx = s.mbx := rfl
@[simp] theorem modPort_cmds (p : Nat) (f : Port → Port) (s : State) : (modPort p f s).cmds = s.cmds := rfl
@[simp] theorem modPort_fab (p : Nat) (f : Port → Port) (s : State) : (modPort p f s).fab = s.fab := rfl
@[simp] theorem modPort_wall (p : Nat) (f : Port → Port) (s : State) : (modPort p f s).wall = s.wall := rfl
@[simp] theorem modPort_place (p : Nat) (f : Port → Port) (s : State) : (modPort p f s).place = s.place := rfl
@[simp] theorem modPort_sched (p : Nat) (f : Port → Port) (s : State) : (modPort p f s).sched = s.sched := rfl
@[simp] theorem modPort_mode (p : Nat) (f : Port → Port) (s : State) : (modPort p f s).mode = s.mode := rfl
@[simp] theorem modPort_time (p : Nat) (f : Port → Port) (s : State) : (modPort p f s).time = s.time := rfl
@[simp] theorem modPort_flt (p : Nat) (f : Port → Port) (s : State) : (modPort p f s).flt = s.flt := rfl
@[simp] theorem modPort_reel (p : Nat) (f : Port → Port) (s : State) : (modPort p f s).reel = s.reel := rfl
@[simp] theorem modPort_ing (p : Nat) (f : Port → Port) (s : State) : (modPort p f s).ing = s.ing := rfl
@[simp] theorem modPort_store (p : Nat) (f : Port → Port) (s : State) : (modPort p f s).store = s.store := rfl
@[simp] theorem modPort_weave (p : Nat) (f : Port → Port) (s : State) : (modPort p f s).weave = s.weave := rfl
@[simp] theorem modPort_health (p : Nat) (f : Port → Port) (s : State) : (modPort p f s).health = s.health := rfl
@[simp] theorem modPort_twin (p : Nat) (f : Port → Port) (s : State) : (modPort p f s).twin = s.twin := rfl
@[simp] theorem modPort_power (p : Nat) (f : Port → Port) (s : State) : (modPort p f s).power = s.power := rfl
@[simp] theorem modPort_fix (p : Nat) (f : Port → Port) (s : State) : (modPort p f s).fix = s.fix := rfl
@[simp] theorem modPort_air (p : Nat) (f : Port → Port) (s : State) : (modPort p f s).air = s.air := rfl
@[simp] theorem modPort_meter (p : Nat) (f : Port → Port) (s : State) : (modPort p f s).meter = s.meter := rfl
@[simp] theorem modPort_cal (p : Nat) (f : Port → Port) (s : State) : (modPort p f s).cal = s.cal := rfl
@[simp] theorem modPort_upd (p : Nat) (f : Port → Port) (s : State) : (modPort p f s).upd = s.upd := rfl
@[simp] theorem modPort_boot (p : Nat) (f : Port → Port) (s : State) : (modPort p f s).boot = s.boot := rfl

/-! `modUpd` -/
@[simp] theorem modUpd_pending (f : Update → Update) (s : State) : (modUpd f s).pending = s.pending := rfl
@[simp] theorem modUpd_now (f : Update → Update) (s : State) : (modUpd f s).now = s.now := rfl
@[simp] theorem modUpd_bootAt (f : Update → Update) (s : State) : (modUpd f s).bootAt = s.bootAt := rfl
@[simp] theorem modUpd_freeCtr (f : Update → Update) (s : State) : (modUpd f s).freeCtr = s.freeCtr := rfl
@[simp] theorem modUpd_out (f : Update → Update) (s : State) : (modUpd f s).out = s.out := rfl
@[simp] theorem modUpd_faultLow (f : Update → Update) (s : State) : (modUpd f s).faultLow = s.faultLow := rfl
@[simp] theorem modUpd_hif (f : Update → Update) (s : State) : (modUpd f s).hif = s.hif := rfl
@[simp] theorem modUpd_mbx (f : Update → Update) (s : State) : (modUpd f s).mbx = s.mbx := rfl
@[simp] theorem modUpd_cmds (f : Update → Update) (s : State) : (modUpd f s).cmds = s.cmds := rfl
@[simp] theorem modUpd_fab (f : Update → Update) (s : State) : (modUpd f s).fab = s.fab := rfl
@[simp] theorem modUpd_wall (f : Update → Update) (s : State) : (modUpd f s).wall = s.wall := rfl
@[simp] theorem modUpd_place (f : Update → Update) (s : State) : (modUpd f s).place = s.place := rfl
@[simp] theorem modUpd_sched (f : Update → Update) (s : State) : (modUpd f s).sched = s.sched := rfl
@[simp] theorem modUpd_mode (f : Update → Update) (s : State) : (modUpd f s).mode = s.mode := rfl
@[simp] theorem modUpd_time (f : Update → Update) (s : State) : (modUpd f s).time = s.time := rfl
@[simp] theorem modUpd_flt (f : Update → Update) (s : State) : (modUpd f s).flt = s.flt := rfl
@[simp] theorem modUpd_reel (f : Update → Update) (s : State) : (modUpd f s).reel = s.reel := rfl
@[simp] theorem modUpd_ing (f : Update → Update) (s : State) : (modUpd f s).ing = s.ing := rfl
@[simp] theorem modUpd_store (f : Update → Update) (s : State) : (modUpd f s).store = s.store := rfl
@[simp] theorem modUpd_weave (f : Update → Update) (s : State) : (modUpd f s).weave = s.weave := rfl
@[simp] theorem modUpd_health (f : Update → Update) (s : State) : (modUpd f s).health = s.health := rfl
@[simp] theorem modUpd_link (f : Update → Update) (s : State) : (modUpd f s).link = s.link := rfl
@[simp] theorem modUpd_twin (f : Update → Update) (s : State) : (modUpd f s).twin = s.twin := rfl
@[simp] theorem modUpd_power (f : Update → Update) (s : State) : (modUpd f s).power = s.power := rfl
@[simp] theorem modUpd_fix (f : Update → Update) (s : State) : (modUpd f s).fix = s.fix := rfl
@[simp] theorem modUpd_air (f : Update → Update) (s : State) : (modUpd f s).air = s.air := rfl
@[simp] theorem modUpd_meter (f : Update → Update) (s : State) : (modUpd f s).meter = s.meter := rfl
@[simp] theorem modUpd_cal (f : Update → Update) (s : State) : (modUpd f s).cal = s.cal := rfl
@[simp] theorem modUpd_upd (f : Update → Update) (s : State) : (modUpd f s).upd = f s.upd := rfl
@[simp] theorem modUpd_boot (f : Update → Update) (s : State) : (modUpd f s).boot = s.boot := rfl

/-! `modSrc` -/
@[simp] theorem modSrc_pending (id : Nat) (f : FSrc → FSrc) (s : State) : (modSrc id f s).pending = s.pending := rfl
@[simp] theorem modSrc_now (id : Nat) (f : FSrc → FSrc) (s : State) : (modSrc id f s).now = s.now := rfl
@[simp] theorem modSrc_bootAt (id : Nat) (f : FSrc → FSrc) (s : State) : (modSrc id f s).bootAt = s.bootAt := rfl
@[simp] theorem modSrc_freeCtr (id : Nat) (f : FSrc → FSrc) (s : State) : (modSrc id f s).freeCtr = s.freeCtr := rfl
@[simp] theorem modSrc_out (id : Nat) (f : FSrc → FSrc) (s : State) : (modSrc id f s).out = s.out := rfl
@[simp] theorem modSrc_faultLow (id : Nat) (f : FSrc → FSrc) (s : State) : (modSrc id f s).faultLow = s.faultLow := rfl
@[simp] theorem modSrc_hif (id : Nat) (f : FSrc → FSrc) (s : State) : (modSrc id f s).hif = s.hif := rfl
@[simp] theorem modSrc_mbx (id : Nat) (f : FSrc → FSrc) (s : State) : (modSrc id f s).mbx = s.mbx := rfl
@[simp] theorem modSrc_cmds (id : Nat) (f : FSrc → FSrc) (s : State) : (modSrc id f s).cmds = s.cmds := rfl
@[simp] theorem modSrc_fab (id : Nat) (f : FSrc → FSrc) (s : State) : (modSrc id f s).fab = s.fab := rfl
@[simp] theorem modSrc_wall (id : Nat) (f : FSrc → FSrc) (s : State) : (modSrc id f s).wall = s.wall := rfl
@[simp] theorem modSrc_place (id : Nat) (f : FSrc → FSrc) (s : State) : (modSrc id f s).place = s.place := rfl
@[simp] theorem modSrc_sched (id : Nat) (f : FSrc → FSrc) (s : State) : (modSrc id f s).sched = s.sched := rfl
@[simp] theorem modSrc_mode (id : Nat) (f : FSrc → FSrc) (s : State) : (modSrc id f s).mode = s.mode := rfl
@[simp] theorem modSrc_time (id : Nat) (f : FSrc → FSrc) (s : State) : (modSrc id f s).time = s.time := rfl
@[simp] theorem modSrc_reel (id : Nat) (f : FSrc → FSrc) (s : State) : (modSrc id f s).reel = s.reel := rfl
@[simp] theorem modSrc_ing (id : Nat) (f : FSrc → FSrc) (s : State) : (modSrc id f s).ing = s.ing := rfl
@[simp] theorem modSrc_store (id : Nat) (f : FSrc → FSrc) (s : State) : (modSrc id f s).store = s.store := rfl
@[simp] theorem modSrc_weave (id : Nat) (f : FSrc → FSrc) (s : State) : (modSrc id f s).weave = s.weave := rfl
@[simp] theorem modSrc_health (id : Nat) (f : FSrc → FSrc) (s : State) : (modSrc id f s).health = s.health := rfl
@[simp] theorem modSrc_link (id : Nat) (f : FSrc → FSrc) (s : State) : (modSrc id f s).link = s.link := rfl
@[simp] theorem modSrc_twin (id : Nat) (f : FSrc → FSrc) (s : State) : (modSrc id f s).twin = s.twin := rfl
@[simp] theorem modSrc_power (id : Nat) (f : FSrc → FSrc) (s : State) : (modSrc id f s).power = s.power := rfl
@[simp] theorem modSrc_fix (id : Nat) (f : FSrc → FSrc) (s : State) : (modSrc id f s).fix = s.fix := rfl
@[simp] theorem modSrc_air (id : Nat) (f : FSrc → FSrc) (s : State) : (modSrc id f s).air = s.air := rfl
@[simp] theorem modSrc_meter (id : Nat) (f : FSrc → FSrc) (s : State) : (modSrc id f s).meter = s.meter := rfl
@[simp] theorem modSrc_cal (id : Nat) (f : FSrc → FSrc) (s : State) : (modSrc id f s).cal = s.cal := rfl
@[simp] theorem modSrc_upd (id : Nat) (f : FSrc → FSrc) (s : State) : (modSrc id f s).upd = s.upd := rfl
@[simp] theorem modSrc_boot (id : Nat) (f : FSrc → FSrc) (s : State) : (modSrc id f s).boot = s.boot := rfl

/-! `placeTrigger` -/
@[simp] theorem placeTrigger_pending (cause sub inst : Nat) (s : State) : (placeTrigger cause sub inst s).pending = s.pending := rfl
@[simp] theorem placeTrigger_now (cause sub inst : Nat) (s : State) : (placeTrigger cause sub inst s).now = s.now := rfl
@[simp] theorem placeTrigger_bootAt (cause sub inst : Nat) (s : State) : (placeTrigger cause sub inst s).bootAt = s.bootAt := rfl
@[simp] theorem placeTrigger_freeCtr (cause sub inst : Nat) (s : State) : (placeTrigger cause sub inst s).freeCtr = s.freeCtr := rfl
@[simp] theorem placeTrigger_out (cause sub inst : Nat) (s : State) : (placeTrigger cause sub inst s).out = s.out := rfl
@[simp] theorem placeTrigger_faultLow (cause sub inst : Nat) (s : State) : (placeTrigger cause sub inst s).faultLow = s.faultLow := rfl
@[simp] theorem placeTrigger_hif (cause sub inst : Nat) (s : State) : (placeTrigger cause sub inst s).hif = s.hif := rfl
@[simp] theorem placeTrigger_mbx (cause sub inst : Nat) (s : State) : (placeTrigger cause sub inst s).mbx = s.mbx := rfl
@[simp] theorem placeTrigger_cmds (cause sub inst : Nat) (s : State) : (placeTrigger cause sub inst s).cmds = s.cmds := rfl
@[simp] theorem placeTrigger_fab (cause sub inst : Nat) (s : State) : (placeTrigger cause sub inst s).fab = s.fab := rfl
@[simp] theorem placeTrigger_wall (cause sub inst : Nat) (s : State) : (placeTrigger cause sub inst s).wall = s.wall := rfl
@[simp] theorem placeTrigger_sched (cause sub inst : Nat) (s : State) : (placeTrigger cause sub inst s).sched = s.sched := rfl
@[simp] theorem placeTrigger_mode (cause sub inst : Nat) (s : State) : (placeTrigger cause sub inst s).mode = s.mode := rfl
@[simp] theorem placeTrigger_time (cause sub inst : Nat) (s : State) : (placeTrigger cause sub inst s).time = s.time := rfl
@[simp] theorem placeTrigger_flt (cause sub inst : Nat) (s : State) : (placeTrigger cause sub inst s).flt = s.flt := rfl
@[simp] theorem placeTrigger_reel (cause sub inst : Nat) (s : State) : (placeTrigger cause sub inst s).reel = s.reel := rfl
@[simp] theorem placeTrigger_ing (cause sub inst : Nat) (s : State) : (placeTrigger cause sub inst s).ing = s.ing := rfl
@[simp] theorem placeTrigger_store (cause sub inst : Nat) (s : State) : (placeTrigger cause sub inst s).store = s.store := rfl
@[simp] theorem placeTrigger_weave (cause sub inst : Nat) (s : State) : (placeTrigger cause sub inst s).weave = s.weave := rfl
@[simp] theorem placeTrigger_health (cause sub inst : Nat) (s : State) : (placeTrigger cause sub inst s).health = s.health := rfl
@[simp] theorem placeTrigger_link (cause sub inst : Nat) (s : State) : (placeTrigger cause sub inst s).link = s.link := rfl
@[simp] theorem placeTrigger_twin (cause sub inst : Nat) (s : State) : (placeTrigger cause sub inst s).twin = s.twin := rfl
@[simp] theorem placeTrigger_power (cause sub inst : Nat) (s : State) : (placeTrigger cause sub inst s).power = s.power := rfl
@[simp] theorem placeTrigger_fix (cause sub inst : Nat) (s : State) : (placeTrigger cause sub inst s).fix = s.fix := rfl
@[simp] theorem placeTrigger_air (cause sub inst : Nat) (s : State) : (placeTrigger cause sub inst s).air = s.air := rfl
@[simp] theorem placeTrigger_meter (cause sub inst : Nat) (s : State) : (placeTrigger cause sub inst s).meter = s.meter := rfl
@[simp] theorem placeTrigger_cal (cause sub inst : Nat) (s : State) : (placeTrigger cause sub inst s).cal = s.cal := rfl
@[simp] theorem placeTrigger_upd (cause sub inst : Nat) (s : State) : (placeTrigger cause sub inst s).upd = s.upd := rfl
@[simp] theorem placeTrigger_boot (cause sub inst : Nat) (s : State) : (placeTrigger cause sub inst s).boot = s.boot := rfl

/-! `modSp` -/
@[simp] theorem modSp_pending (i : Nat) (f : Spindle → Spindle) (s : State) : (modSp i f s).pending = s.pending := rfl
@[simp] theorem modSp_now (i : Nat) (f : Spindle → Spindle) (s : State) : (modSp i f s).now = s.now := rfl
@[simp] theorem modSp_bootAt (i : Nat) (f : Spindle → Spindle) (s : State) : (modSp i f s).bootAt = s.bootAt := rfl
@[simp] theorem modSp_freeCtr (i : Nat) (f : Spindle → Spindle) (s : State) : (modSp i f s).freeCtr = s.freeCtr := rfl
@[simp] theorem modSp_out (i : Nat) (f : Spindle → Spindle) (s : State) : (modSp i f s).out = s.out := rfl
@[simp] theorem modSp_faultLow (i : Nat) (f : Spindle → Spindle) (s : State) : (modSp i f s).faultLow = s.faultLow := rfl
@[simp] theorem modSp_hif (i : Nat) (f : Spindle → Spindle) (s : State) : (modSp i f s).hif = s.hif := rfl
@[simp] theorem modSp_mbx (i : Nat) (f : Spindle → Spindle) (s : State) : (modSp i f s).mbx = s.mbx := rfl
@[simp] theorem modSp_cmds (i : Nat) (f : Spindle → Spindle) (s : State) : (modSp i f s).cmds = s.cmds := rfl
@[simp] theorem modSp_fab (i : Nat) (f : Spindle → Spindle) (s : State) : (modSp i f s).fab = s.fab := rfl
@[simp] theorem modSp_wall (i : Nat) (f : Spindle → Spindle) (s : State) : (modSp i f s).wall = s.wall := rfl
@[simp] theorem modSp_place (i : Nat) (f : Spindle → Spindle) (s : State) : (modSp i f s).place = s.place := rfl
@[simp] theorem modSp_mode (i : Nat) (f : Spindle → Spindle) (s : State) : (modSp i f s).mode = s.mode := rfl
@[simp] theorem modSp_time (i : Nat) (f : Spindle → Spindle) (s : State) : (modSp i f s).time = s.time := rfl
@[simp] theorem modSp_flt (i : Nat) (f : Spindle → Spindle) (s : State) : (modSp i f s).flt = s.flt := rfl
@[simp] theorem modSp_reel (i : Nat) (f : Spindle → Spindle) (s : State) : (modSp i f s).reel = s.reel := rfl
@[simp] theorem modSp_ing (i : Nat) (f : Spindle → Spindle) (s : State) : (modSp i f s).ing = s.ing := rfl
@[simp] theorem modSp_store (i : Nat) (f : Spindle → Spindle) (s : State) : (modSp i f s).store = s.store := rfl
@[simp] theorem modSp_weave (i : Nat) (f : Spindle → Spindle) (s : State) : (modSp i f s).weave = s.weave := rfl
@[simp] theorem modSp_health (i : Nat) (f : Spindle → Spindle) (s : State) : (modSp i f s).health = s.health := rfl
@[simp] theorem modSp_link (i : Nat) (f : Spindle → Spindle) (s : State) : (modSp i f s).link = s.link := rfl
@[simp] theorem modSp_twin (i : Nat) (f : Spindle → Spindle) (s : State) : (modSp i f s).twin = s.twin := rfl
@[simp] theorem modSp_power (i : Nat) (f : Spindle → Spindle) (s : State) : (modSp i f s).power = s.power := rfl
@[simp] theorem modSp_fix (i : Nat) (f : Spindle → Spindle) (s : State) : (modSp i f s).fix = s.fix := rfl
@[simp] theorem modSp_air (i : Nat) (f : Spindle → Spindle) (s : State) : (modSp i f s).air = s.air := rfl
@[simp] theorem modSp_meter (i : Nat) (f : Spindle → Spindle) (s : State) : (modSp i f s).meter = s.meter := rfl
@[simp] theorem modSp_cal (i : Nat) (f : Spindle → Spindle) (s : State) : (modSp i f s).cal = s.cal := rfl
@[simp] theorem modSp_upd (i : Nat) (f : Spindle → Spindle) (s : State) : (modSp i f s).upd = s.upd := rfl
@[simp] theorem modSp_boot (i : Nat) (f : Spindle → Spindle) (s : State) : (modSp i f s).boot = s.boot := rfl

/-! `modSb` -/
@[simp] theorem modSb_pending (b : Nat) (f : SBank → SBank) (s : State) : (modSb b f s).pending = s.pending := rfl
@[simp] theorem modSb_now (b : Nat) (f : SBank → SBank) (s : State) : (modSb b f s).now = s.now := rfl
@[simp] theorem modSb_bootAt (b : Nat) (f : SBank → SBank) (s : State) : (modSb b f s).bootAt = s.bootAt := rfl
@[simp] theorem modSb_freeCtr (b : Nat) (f : SBank → SBank) (s : State) : (modSb b f s).freeCtr = s.freeCtr := rfl
@[simp] theorem modSb_out (b : Nat) (f : SBank → SBank) (s : State) : (modSb b f s).out = s.out := rfl
@[simp] theorem modSb_faultLow (b : Nat) (f : SBank → SBank) (s : State) : (modSb b f s).faultLow = s.faultLow := rfl
@[simp] theorem modSb_hif (b : Nat) (f : SBank → SBank) (s : State) : (modSb b f s).hif = s.hif := rfl
@[simp] theorem modSb_mbx (b : Nat) (f : SBank → SBank) (s : State) : (modSb b f s).mbx = s.mbx := rfl
@[simp] theorem modSb_cmds (b : Nat) (f : SBank → SBank) (s : State) : (modSb b f s).cmds = s.cmds := rfl
@[simp] theorem modSb_fab (b : Nat) (f : SBank → SBank) (s : State) : (modSb b f s).fab = s.fab := rfl
@[simp] theorem modSb_wall (b : Nat) (f : SBank → SBank) (s : State) : (modSb b f s).wall = s.wall := rfl
@[simp] theorem modSb_place (b : Nat) (f : SBank → SBank) (s : State) : (modSb b f s).place = s.place := rfl
@[simp] theorem modSb_mode (b : Nat) (f : SBank → SBank) (s : State) : (modSb b f s).mode = s.mode := rfl
@[simp] theorem modSb_time (b : Nat) (f : SBank → SBank) (s : State) : (modSb b f s).time = s.time := rfl
@[simp] theorem modSb_flt (b : Nat) (f : SBank → SBank) (s : State) : (modSb b f s).flt = s.flt := rfl
@[simp] theorem modSb_reel (b : Nat) (f : SBank → SBank) (s : State) : (modSb b f s).reel = s.reel := rfl
@[simp] theorem modSb_ing (b : Nat) (f : SBank → SBank) (s : State) : (modSb b f s).ing = s.ing := rfl
@[simp] theorem modSb_store (b : Nat) (f : SBank → SBank) (s : State) : (modSb b f s).store = s.store := rfl
@[simp] theorem modSb_weave (b : Nat) (f : SBank → SBank) (s : State) : (modSb b f s).weave = s.weave := rfl
@[simp] theorem modSb_health (b : Nat) (f : SBank → SBank) (s : State) : (modSb b f s).health = s.health := rfl
@[simp] theorem modSb_link (b : Nat) (f : SBank → SBank) (s : State) : (modSb b f s).link = s.link := rfl
@[simp] theorem modSb_twin (b : Nat) (f : SBank → SBank) (s : State) : (modSb b f s).twin = s.twin := rfl
@[simp] theorem modSb_power (b : Nat) (f : SBank → SBank) (s : State) : (modSb b f s).power = s.power := rfl
@[simp] theorem modSb_fix (b : Nat) (f : SBank → SBank) (s : State) : (modSb b f s).fix = s.fix := rfl
@[simp] theorem modSb_air (b : Nat) (f : SBank → SBank) (s : State) : (modSb b f s).air = s.air := rfl
@[simp] theorem modSb_meter (b : Nat) (f : SBank → SBank) (s : State) : (modSb b f s).meter = s.meter := rfl
@[simp] theorem modSb_cal (b : Nat) (f : SBank → SBank) (s : State) : (modSb b f s).cal = s.cal := rfl
@[simp] theorem modSb_upd (b : Nat) (f : SBank → SBank) (s : State) : (modSb b f s).upd = s.upd := rfl
@[simp] theorem modSb_boot (b : Nat) (f : SBank → SBank) (s : State) : (modSb b f s).boot = s.boot := rfl

/-! `modMeter` -/
@[simp] theorem modMeter_pending (f : Meter → Meter) (s : State) : (modMeter f s).pending = s.pending := rfl
@[simp] theorem modMeter_now (f : Meter → Meter) (s : State) : (modMeter f s).now = s.now := rfl
@[simp] theorem modMeter_bootAt (f : Meter → Meter) (s : State) : (modMeter f s).bootAt = s.bootAt := rfl
@[simp] theorem modMeter_freeCtr (f : Meter → Meter) (s : State) : (modMeter f s).freeCtr = s.freeCtr := rfl
@[simp] theorem modMeter_out (f : Meter → Meter) (s : State) : (modMeter f s).out = s.out := rfl
@[simp] theorem modMeter_faultLow (f : Meter → Meter) (s : State) : (modMeter f s).faultLow = s.faultLow := rfl
@[simp] theorem modMeter_hif (f : Meter → Meter) (s : State) : (modMeter f s).hif = s.hif := rfl
@[simp] theorem modMeter_mbx (f : Meter → Meter) (s : State) : (modMeter f s).mbx = s.mbx := rfl
@[simp] theorem modMeter_cmds (f : Meter → Meter) (s : State) : (modMeter f s).cmds = s.cmds := rfl
@[simp] theorem modMeter_fab (f : Meter → Meter) (s : State) : (modMeter f s).fab = s.fab := rfl
@[simp] theorem modMeter_wall (f : Meter → Meter) (s : State) : (modMeter f s).wall = s.wall := rfl
@[simp] theorem modMeter_place (f : Meter → Meter) (s : State) : (modMeter f s).place = s.place := rfl
@[simp] theorem modMeter_sched (f : Meter → Meter) (s : State) : (modMeter f s).sched = s.sched := rfl
@[simp] theorem modMeter_mode (f : Meter → Meter) (s : State) : (modMeter f s).mode = s.mode := rfl
@[simp] theorem modMeter_time (f : Meter → Meter) (s : State) : (modMeter f s).time = s.time := rfl
@[simp] theorem modMeter_flt (f : Meter → Meter) (s : State) : (modMeter f s).flt = s.flt := rfl
@[simp] theorem modMeter_reel (f : Meter → Meter) (s : State) : (modMeter f s).reel = s.reel := rfl
@[simp] theorem modMeter_ing (f : Meter → Meter) (s : State) : (modMeter f s).ing = s.ing := rfl
@[simp] theorem modMeter_store (f : Meter → Meter) (s : State) : (modMeter f s).store = s.store := rfl
@[simp] theorem modMeter_weave (f : Meter → Meter) (s : State) : (modMeter f s).weave = s.weave := rfl
@[simp] theorem modMeter_health (f : Meter → Meter) (s : State) : (modMeter f s).health = s.health := rfl
@[simp] theorem modMeter_link (f : Meter → Meter) (s : State) : (modMeter f s).link = s.link := rfl
@[simp] theorem modMeter_twin (f : Meter → Meter) (s : State) : (modMeter f s).twin = s.twin := rfl
@[simp] theorem modMeter_power (f : Meter → Meter) (s : State) : (modMeter f s).power = s.power := rfl
@[simp] theorem modMeter_fix (f : Meter → Meter) (s : State) : (modMeter f s).fix = s.fix := rfl
@[simp] theorem modMeter_air (f : Meter → Meter) (s : State) : (modMeter f s).air = s.air := rfl
@[simp] theorem modMeter_meter (f : Meter → Meter) (s : State) : (modMeter f s).meter = f s.meter := rfl
@[simp] theorem modMeter_cal (f : Meter → Meter) (s : State) : (modMeter f s).cal = s.cal := rfl
@[simp] theorem modMeter_upd (f : Meter → Meter) (s : State) : (modMeter f s).upd = s.upd := rfl
@[simp] theorem modMeter_boot (f : Meter → Meter) (s : State) : (modMeter f s).boot = s.boot := rfl

/-! `modPower` -/
@[simp] theorem modPower_pending (f : Power → Power) (s : State) : (modPower f s).pending = s.pending := rfl
@[simp] theorem modPower_now (f : Power → Power) (s : State) : (modPower f s).now = s.now := rfl
@[simp] theorem modPower_bootAt (f : Power → Power) (s : State) : (modPower f s).bootAt = s.bootAt := rfl
@[simp] theorem modPower_freeCtr (f : Power → Power) (s : State) : (modPower f s).freeCtr = s.freeCtr := rfl
@[simp] theorem modPower_out (f : Power → Power) (s : State) : (modPower f s).out = s.out := rfl
@[simp] theorem modPower_faultLow (f : Power → Power) (s : State) : (modPower f s).faultLow = s.faultLow := rfl
@[simp] theorem modPower_hif (f : Power → Power) (s : State) : (modPower f s).hif = s.hif := rfl
@[simp] theorem modPower_mbx (f : Power → Power) (s : State) : (modPower f s).mbx = s.mbx := rfl
@[simp] theorem modPower_cmds (f : Power → Power) (s : State) : (modPower f s).cmds = s.cmds := rfl
@[simp] theorem modPower_fab (f : Power → Power) (s : State) : (modPower f s).fab = s.fab := rfl
@[simp] theorem modPower_wall (f : Power → Power) (s : State) : (modPower f s).wall = s.wall := rfl
@[simp] theorem modPower_place (f : Power → Power) (s : State) : (modPower f s).place = s.place := rfl
@[simp] theorem modPower_sched (f : Power → Power) (s : State) : (modPower f s).sched = s.sched := rfl
@[simp] theorem modPower_mode (f : Power → Power) (s : State) : (modPower f s).mode = s.mode := rfl
@[simp] theorem modPower_time (f : Power → Power) (s : State) : (modPower f s).time = s.time := rfl
@[simp] theorem modPower_flt (f : Power → Power) (s : State) : (modPower f s).flt = s.flt := rfl
@[simp] theorem modPower_reel (f : Power → Power) (s : State) : (modPower f s).reel = s.reel := rfl
@[simp] theorem modPower_ing (f : Power → Power) (s : State) : (modPower f s).ing = s.ing := rfl
@[simp] theorem modPower_store (f : Power → Power) (s : State) : (modPower f s).store = s.store := rfl
@[simp] theorem modPower_weave (f : Power → Power) (s : State) : (modPower f s).weave = s.weave := rfl
@[simp] theorem modPower_health (f : Power → Power) (s : State) : (modPower f s).health = s.health := rfl
@[simp] theorem modPower_link (f : Power → Power) (s : State) : (modPower f s).link = s.link := rfl
@[simp] theorem modPower_twin (f : Power → Power) (s : State) : (modPower f s).twin = s.twin := rfl
@[simp] theorem modPower_power (f : Power → Power) (s : State) : (modPower f s).power = f s.power := rfl
@[simp] theorem modPower_fix (f : Power → Power) (s : State) : (modPower f s).fix = s.fix := rfl
@[simp] theorem modPower_air (f : Power → Power) (s : State) : (modPower f s).air = s.air := rfl
@[simp] theorem modPower_meter (f : Power → Power) (s : State) : (modPower f s).meter = s.meter := rfl
@[simp] theorem modPower_cal (f : Power → Power) (s : State) : (modPower f s).cal = s.cal := rfl
@[simp] theorem modPower_upd (f : Power → Power) (s : State) : (modPower f s).upd = s.upd := rfl
@[simp] theorem modPower_boot (f : Power → Power) (s : State) : (modPower f s).boot = s.boot := rfl

/-! `modTwin` -/
@[simp] theorem modTwin_pending (f : Twin → Twin) (s : State) : (modTwin f s).pending = s.pending := rfl
@[simp] theorem modTwin_now (f : Twin → Twin) (s : State) : (modTwin f s).now = s.now := rfl
@[simp] theorem modTwin_bootAt (f : Twin → Twin) (s : State) : (modTwin f s).bootAt = s.bootAt := rfl
@[simp] theorem modTwin_freeCtr (f : Twin → Twin) (s : State) : (modTwin f s).freeCtr = s.freeCtr := rfl
@[simp] theorem modTwin_out (f : Twin → Twin) (s : State) : (modTwin f s).out = s.out := rfl
@[simp] theorem modTwin_faultLow (f : Twin → Twin) (s : State) : (modTwin f s).faultLow = s.faultLow := rfl
@[simp] theorem modTwin_hif (f : Twin → Twin) (s : State) : (modTwin f s).hif = s.hif := rfl
@[simp] theorem modTwin_mbx (f : Twin → Twin) (s : State) : (modTwin f s).mbx = s.mbx := rfl
@[simp] theorem modTwin_cmds (f : Twin → Twin) (s : State) : (modTwin f s).cmds = s.cmds := rfl
@[simp] theorem modTwin_fab (f : Twin → Twin) (s : State) : (modTwin f s).fab = s.fab := rfl
@[simp] theorem modTwin_wall (f : Twin → Twin) (s : State) : (modTwin f s).wall = s.wall := rfl
@[simp] theorem modTwin_place (f : Twin → Twin) (s : State) : (modTwin f s).place = s.place := rfl
@[simp] theorem modTwin_sched (f : Twin → Twin) (s : State) : (modTwin f s).sched = s.sched := rfl
@[simp] theorem modTwin_mode (f : Twin → Twin) (s : State) : (modTwin f s).mode = s.mode := rfl
@[simp] theorem modTwin_time (f : Twin → Twin) (s : State) : (modTwin f s).time = s.time := rfl
@[simp] theorem modTwin_flt (f : Twin → Twin) (s : State) : (modTwin f s).flt = s.flt := rfl
@[simp] theorem modTwin_reel (f : Twin → Twin) (s : State) : (modTwin f s).reel = s.reel := rfl
@[simp] theorem modTwin_ing (f : Twin → Twin) (s : State) : (modTwin f s).ing = s.ing := rfl
@[simp] theorem modTwin_store (f : Twin → Twin) (s : State) : (modTwin f s).store = s.store := rfl
@[simp] theorem modTwin_weave (f : Twin → Twin) (s : State) : (modTwin f s).weave = s.weave := rfl
@[simp] theorem modTwin_health (f : Twin → Twin) (s : State) : (modTwin f s).health = s.health := rfl
@[simp] theorem modTwin_link (f : Twin → Twin) (s : State) : (modTwin f s).link = s.link := rfl
@[simp] theorem modTwin_twin (f : Twin → Twin) (s : State) : (modTwin f s).twin = f s.twin := rfl
@[simp] theorem modTwin_power (f : Twin → Twin) (s : State) : (modTwin f s).power = s.power := rfl
@[simp] theorem modTwin_fix (f : Twin → Twin) (s : State) : (modTwin f s).fix = s.fix := rfl
@[simp] theorem modTwin_air (f : Twin → Twin) (s : State) : (modTwin f s).air = s.air := rfl
@[simp] theorem modTwin_meter (f : Twin → Twin) (s : State) : (modTwin f s).meter = s.meter := rfl
@[simp] theorem modTwin_cal (f : Twin → Twin) (s : State) : (modTwin f s).cal = s.cal := rfl
@[simp] theorem modTwin_upd (f : Twin → Twin) (s : State) : (modTwin f s).upd = s.upd := rfl
@[simp] theorem modTwin_boot (f : Twin → Twin) (s : State) : (modTwin f s).boot = s.boot := rfl

/-! `modReel` -/
@[simp] theorem modReel_pending (f : Reel → Reel) (s : State) : (modReel f s).pending = s.pending := rfl
@[simp] theorem modReel_now (f : Reel → Reel) (s : State) : (modReel f s).now = s.now := rfl
@[simp] theorem modReel_bootAt (f : Reel → Reel) (s : State) : (modReel f s).bootAt = s.bootAt := rfl
@[simp] theorem modReel_freeCtr (f : Reel → Reel) (s : State) : (modReel f s).freeCtr = s.freeCtr := rfl
@[simp] theorem modReel_out (f : Reel → Reel) (s : State) : (modReel f s).out = s.out := rfl
@[simp] theorem modReel_faultLow (f : Reel → Reel) (s : State) : (modReel f s).faultLow = s.faultLow := rfl
@[simp] theorem modReel_hif (f : Reel → Reel) (s : State) : (modReel f s).hif = s.hif := rfl
@[simp] theorem modReel_mbx (f : Reel → Reel) (s : State) : (modReel f s).mbx = s.mbx := rfl
@[simp] theorem modReel_cmds (f : Reel → Reel) (s : State) : (modReel f s).cmds = s.cmds := rfl
@[simp] theorem modReel_fab (f : Reel → Reel) (s : State) : (modReel f s).fab = s.fab := rfl
@[simp] theorem modReel_wall (f : Reel → Reel) (s : State) : (modReel f s).wall = s.wall := rfl
@[simp] theorem modReel_place (f : Reel → Reel) (s : State) : (modReel f s).place = s.place := rfl
@[simp] theorem modReel_sched (f : Reel → Reel) (s : State) : (modReel f s).sched = s.sched := rfl
@[simp] theorem modReel_mode (f : Reel → Reel) (s : State) : (modReel f s).mode = s.mode := rfl
@[simp] theorem modReel_time (f : Reel → Reel) (s : State) : (modReel f s).time = s.time := rfl
@[simp] theorem modReel_flt (f : Reel → Reel) (s : State) : (modReel f s).flt = s.flt := rfl
@[simp] theorem modReel_reel (f : Reel → Reel) (s : State) : (modReel f s).reel = f s.reel := rfl
@[simp] theorem modReel_ing (f : Reel → Reel) (s : State) : (modReel f s).ing = s.ing := rfl
@[simp] theorem modReel_store (f : Reel → Reel) (s : State) : (modReel f s).store = s.store := rfl
@[simp] theorem modReel_weave (f : Reel → Reel) (s : State) : (modReel f s).weave = s.weave := rfl
@[simp] theorem modReel_health (f : Reel → Reel) (s : State) : (modReel f s).health = s.health := rfl
@[simp] theorem modReel_link (f : Reel → Reel) (s : State) : (modReel f s).link = s.link := rfl
@[simp] theorem modReel_twin (f : Reel → Reel) (s : State) : (modReel f s).twin = s.twin := rfl
@[simp] theorem modReel_power (f : Reel → Reel) (s : State) : (modReel f s).power = s.power := rfl
@[simp] theorem modReel_fix (f : Reel → Reel) (s : State) : (modReel f s).fix = s.fix := rfl
@[simp] theorem modReel_air (f : Reel → Reel) (s : State) : (modReel f s).air = s.air := rfl
@[simp] theorem modReel_meter (f : Reel → Reel) (s : State) : (modReel f s).meter = s.meter := rfl
@[simp] theorem modReel_cal (f : Reel → Reel) (s : State) : (modReel f s).cal = s.cal := rfl
@[simp] theorem modReel_upd (f : Reel → Reel) (s : State) : (modReel f s).upd = s.upd := rfl
@[simp] theorem modReel_boot (f : Reel → Reel) (s : State) : (modReel f s).boot = s.boot := rfl

/-! `modHealth` -/
@[simp] theorem modHealth_pending (f : Health → Health) (s : State) : (modHealth f s).pending = s.pending := rfl
@[simp] theorem modHealth_now (f : Health → Health) (s : State) : (modHealth f s).now = s.now := rfl
@[simp] theorem modHealth_bootAt (f : Health → Health) (s : State) : (modHealth f s).bootAt = s.bootAt := rfl
@[simp] theorem modHealth_freeCtr (f : Health → Health) (s : State) : (modHealth f s).freeCtr = s.freeCtr := rfl
@[simp] theorem modHealth_out (f : Health → Health) (s : State) : (modHealth f s).out = s.out := rfl
@[simp] theorem modHealth_faultLow (f : Health → Health) (s : State) : (modHealth f s).faultLow = s.faultLow := rfl
@[simp] theorem modHealth_hif (f : Health → Health) (s : State) : (modHealth f s).hif = s.hif := rfl
@[simp] theorem modHealth_mbx (f : Health → Health) (s : State) : (modHealth f s).mbx = s.mbx := rfl
@[simp] theorem modHealth_cmds (f : Health → Health) (s : State) : (modHealth f s).cmds = s.cmds := rfl
@[simp] theorem modHealth_fab (f : Health → Health) (s : State) : (modHealth f s).fab = s.fab := rfl
@[simp] theorem modHealth_wall (f : Health → Health) (s : State) : (modHealth f s).wall = s.wall := rfl
@[simp] theorem modHealth_place (f : Health → Health) (s : State) : (modHealth f s).place = s.place := rfl
@[simp] theorem modHealth_sched (f : Health → Health) (s : State) : (modHealth f s).sched = s.sched := rfl
@[simp] theorem modHealth_mode (f : Health → Health) (s : State) : (modHealth f s).mode = s.mode := rfl
@[simp] theorem modHealth_time (f : Health → Health) (s : State) : (modHealth f s).time = s.time := rfl
@[simp] theorem modHealth_flt (f : Health → Health) (s : State) : (modHealth f s).flt = s.flt := rfl
@[simp] theorem modHealth_reel (f : Health → Health) (s : State) : (modHealth f s).reel = s.reel := rfl
@[simp] theorem modHealth_ing (f : Health → Health) (s : State) : (modHealth f s).ing = s.ing := rfl
@[simp] theorem modHealth_store (f : Health → Health) (s : State) : (modHealth f s).store = s.store := rfl
@[simp] theorem modHealth_weave (f : Health → Health) (s : State) : (modHealth f s).weave = s.weave := rfl
@[simp] theorem modHealth_health (f : Health → Health) (s : State) : (modHealth f s).health = f s.health := rfl
@[simp] theorem modHealth_link (f : Health → Health) (s : State) : (modHealth f s).link = s.link := rfl
@[simp] theorem modHealth_twin (f : Health → Health) (s : State) : (modHealth f s).twin = s.twin := rfl
@[simp] theorem modHealth_power (f : Health → Health) (s : State) : (modHealth f s).power = s.power := rfl
@[simp] theorem modHealth_fix (f : Health → Health) (s : State) : (modHealth f s).fix = s.fix := rfl
@[simp] theorem modHealth_air (f : Health → Health) (s : State) : (modHealth f s).air = s.air := rfl
@[simp] theorem modHealth_meter (f : Health → Health) (s : State) : (modHealth f s).meter = s.meter := rfl
@[simp] theorem modHealth_cal (f : Health → Health) (s : State) : (modHealth f s).cal = s.cal := rfl
@[simp] theorem modHealth_upd (f : Health → Health) (s : State) : (modHealth f s).upd = s.upd := rfl
@[simp] theorem modHealth_boot (f : Health → Health) (s : State) : (modHealth f s).boot = s.boot := rfl

/-! `modTime` -/
@[simp] theorem modTime_pending (f : TimeSt → TimeSt) (s : State) : (modTime f s).pending = s.pending := rfl
@[simp] theorem modTime_now (f : TimeSt → TimeSt) (s : State) : (modTime f s).now = s.now := rfl
@[simp] theorem modTime_bootAt (f : TimeSt → TimeSt) (s : State) : (modTime f s).bootAt = s.bootAt := rfl
@[simp] theorem modTime_freeCtr (f : TimeSt → TimeSt) (s : State) : (modTime f s).freeCtr = s.freeCtr := rfl
@[simp] theorem modTime_out (f : TimeSt → TimeSt) (s : State) : (modTime f s).out = s.out := rfl
@[simp] theorem modTime_faultLow (f : TimeSt → TimeSt) (s : State) : (modTime f s).faultLow = s.faultLow := rfl
@[simp] theorem modTime_hif (f : TimeSt → TimeSt) (s : State) : (modTime f s).hif = s.hif := rfl
@[simp] theorem modTime_mbx (f : TimeSt → TimeSt) (s : State) : (modTime f s).mbx = s.mbx := rfl
@[simp] theorem modTime_cmds (f : TimeSt → TimeSt) (s : State) : (modTime f s).cmds = s.cmds := rfl
@[simp] theorem modTime_fab (f : TimeSt → TimeSt) (s : State) : (modTime f s).fab = s.fab := rfl
@[simp] theorem modTime_wall (f : TimeSt → TimeSt) (s : State) : (modTime f s).wall = s.wall := rfl
@[simp] theorem modTime_place (f : TimeSt → TimeSt) (s : State) : (modTime f s).place = s.place := rfl
@[simp] theorem modTime_sched (f : TimeSt → TimeSt) (s : State) : (modTime f s).sched = s.sched := rfl
@[simp] theorem modTime_mode (f : TimeSt → TimeSt) (s : State) : (modTime f s).mode = s.mode := rfl
@[simp] theorem modTime_time (f : TimeSt → TimeSt) (s : State) : (modTime f s).time = f s.time := rfl
@[simp] theorem modTime_flt (f : TimeSt → TimeSt) (s : State) : (modTime f s).flt = s.flt := rfl
@[simp] theorem modTime_reel (f : TimeSt → TimeSt) (s : State) : (modTime f s).reel = s.reel := rfl
@[simp] theorem modTime_ing (f : TimeSt → TimeSt) (s : State) : (modTime f s).ing = s.ing := rfl
@[simp] theorem modTime_store (f : TimeSt → TimeSt) (s : State) : (modTime f s).store = s.store := rfl
@[simp] theorem modTime_weave (f : TimeSt → TimeSt) (s : State) : (modTime f s).weave = s.weave := rfl
@[simp] theorem modTime_health (f : TimeSt → TimeSt) (s : State) : (modTime f s).health = s.health := rfl
@[simp] theorem modTime_link (f : TimeSt → TimeSt) (s : State) : (modTime f s).link = s.link := rfl
@[simp] theorem modTime_twin (f : TimeSt → TimeSt) (s : State) : (modTime f s).twin = s.twin := rfl
@[simp] theorem modTime_power (f : TimeSt → TimeSt) (s : State) : (modTime f s).power = s.power := rfl
@[simp] theorem modTime_fix (f : TimeSt → TimeSt) (s : State) : (modTime f s).fix = s.fix := rfl
@[simp] theorem modTime_air (f : TimeSt → TimeSt) (s : State) : (modTime f s).air = s.air := rfl
@[simp] theorem modTime_meter (f : TimeSt → TimeSt) (s : State) : (modTime f s).meter = s.meter := rfl
@[simp] theorem modTime_cal (f : TimeSt → TimeSt) (s : State) : (modTime f s).cal = s.cal := rfl
@[simp] theorem modTime_upd (f : TimeSt → TimeSt) (s : State) : (modTime f s).upd = s.upd := rfl
@[simp] theorem modTime_boot (f : TimeSt → TimeSt) (s : State) : (modTime f s).boot = s.boot := rfl

/-! `msixSend` -/
@[simp] theorem msixSend_pending (n : Nat) (s : State) : (msixSend n s).pending = s.pending := by
  unfold msixSend; split <;> rfl
@[simp] theorem msixSend_now (n : Nat) (s : State) : (msixSend n s).now = s.now := by
  unfold msixSend; split <;> rfl
@[simp] theorem msixSend_bootAt (n : Nat) (s : State) : (msixSend n s).bootAt = s.bootAt := by
  unfold msixSend; split <;> rfl
@[simp] theorem msixSend_freeCtr (n : Nat) (s : State) : (msixSend n s).freeCtr = s.freeCtr := by
  unfold msixSend; split <;> rfl
@[simp] theorem msixSend_faultLow (n : Nat) (s : State) : (msixSend n s).faultLow = s.faultLow := by
  unfold msixSend; split <;> rfl
@[simp] theorem msixSend_mbx (n : Nat) (s : State) : (msixSend n s).mbx = s.mbx := by
  unfold msixSend; split <;> rfl
@[simp] theorem msixSend_cmds (n : Nat) (s : State) : (msixSend n s).cmds = s.cmds := by
  unfold msixSend; split <;> rfl
@[simp] theorem msixSend_fab (n : Nat) (s : State) : (msixSend n s).fab = s.fab := by
  unfold msixSend; split <;> rfl
@[simp] theorem msixSend_wall (n : Nat) (s : State) : (msixSend n s).wall = s.wall := by
  unfold msixSend; split <;> rfl
@[simp] theorem msixSend_place (n : Nat) (s : State) : (msixSend n s).place = s.place := by
  unfold msixSend; split <;> rfl
@[simp] theorem msixSend_sched (n : Nat) (s : State) : (msixSend n s).sched = s.sched := by
  unfold msixSend; split <;> rfl
@[simp] theorem msixSend_mode (n : Nat) (s : State) : (msixSend n s).mode = s.mode := by
  unfold msixSend; split <;> rfl
@[simp] theorem msixSend_time (n : Nat) (s : State) : (msixSend n s).time = s.time := by
  unfold msixSend; split <;> rfl
@[simp] theorem msixSend_flt (n : Nat) (s : State) : (msixSend n s).flt = s.flt := by
  unfold msixSend; split <;> rfl
@[simp] theorem msixSend_reel (n : Nat) (s : State) : (msixSend n s).reel = s.reel := by
  unfold msixSend; split <;> rfl
@[simp] theorem msixSend_ing (n : Nat) (s : State) : (msixSend n s).ing = s.ing := by
  unfold msixSend; split <;> rfl
@[simp] theorem msixSend_store (n : Nat) (s : State) : (msixSend n s).store = s.store := by
  unfold msixSend; split <;> rfl
@[simp] theorem msixSend_weave (n : Nat) (s : State) : (msixSend n s).weave = s.weave := by
  unfold msixSend; split <;> rfl
@[simp] theorem msixSend_health (n : Nat) (s : State) : (msixSend n s).health = s.health := by
  unfold msixSend; split <;> rfl
@[simp] theorem msixSend_link (n : Nat) (s : State) : (msixSend n s).link = s.link := by
  unfold msixSend; split <;> rfl
@[simp] theorem msixSend_twin (n : Nat) (s : State) : (msixSend n s).twin = s.twin := by
  unfold msixSend; split <;> rfl
@[simp] theorem msixSend_power (n : Nat) (s : State) : (msixSend n s).power = s.power := by
  unfold msixSend; split <;> rfl
@[simp] theorem msixSend_fix (n : Nat) (s : State) : (msixSend n s).fix = s.fix := by
  unfold msixSend; split <;> rfl
@[simp] theorem msixSend_air (n : Nat) (s : State) : (msixSend n s).air = s.air := by
  unfold msixSend; split <;> rfl
@[simp] theorem msixSend_meter (n : Nat) (s : State) : (msixSend n s).meter = s.meter := by
  unfold msixSend; split <;> rfl
@[simp] theorem msixSend_cal (n : Nat) (s : State) : (msixSend n s).cal = s.cal := by
  unfold msixSend; split <;> rfl
@[simp] theorem msixSend_upd (n : Nat) (s : State) : (msixSend n s).upd = s.upd := by
  unfold msixSend; split <;> rfl
@[simp] theorem msixSend_boot (n : Nat) (s : State) : (msixSend n s).boot = s.boot := by
  unfold msixSend; split <;> rfl

/-! `setInt` -/
@[simp] theorem setInt_pending (n : Nat) (s : State) : (setInt n s).pending = s.pending := by
  unfold setInt; dsimp only; split
  · rfl
  · split <;> simp
@[simp] theorem setInt_now (n : Nat) (s : State) : (setInt n s).now = s.now := by
  unfold setInt; dsimp only; split
  · rfl
  · split <;> simp
@[simp] theorem setInt_bootAt (n : Nat) (s : State) : (setInt n s).bootAt = s.bootAt := by
  unfold setInt; dsimp only; split
  · rfl
  · split <;> simp
@[simp] theorem setInt_freeCtr (n : Nat) (s : State) : (setInt n s).freeCtr = s.freeCtr := by
  unfold setInt; dsimp only; split
  · rfl
  · split <;> simp
@[simp] theorem setInt_faultLow (n : Nat) (s : State) : (setInt n s).faultLow = s.faultLow := by
  unfold setInt; dsimp only; split
  · rfl
  · split <;> simp
@[simp] theorem setInt_mbx (n : Nat) (s : State) : (setInt n s).mbx = s.mbx := by
  unfold setInt; dsimp only; split
  · rfl
  · split <;> simp
@[simp] theorem setInt_cmds (n : Nat) (s : State) : (setInt n s).cmds = s.cmds := by
  unfold setInt; dsimp only; split
  · rfl
  · split <;> simp
@[simp] theorem setInt_fab (n : Nat) (s : State) : (setInt n s).fab = s.fab := by
  unfold setInt; dsimp only; split
  · rfl
  · split <;> simp
@[simp] theorem setInt_wall (n : Nat) (s : State) : (setInt n s).wall = s.wall := by
  unfold setInt; dsimp only; split
  · rfl
  · split <;> simp
@[simp] theorem setInt_place (n : Nat) (s : State) : (setInt n s).place = s.place := by
  unfold setInt; dsimp only; split
  · rfl
  · split <;> simp
@[simp] theorem setInt_sched (n : Nat) (s : State) : (setInt n s).sched = s.sched := by
  unfold setInt; dsimp only; split
  · rfl
  · split <;> simp
@[simp] theorem setInt_mode (n : Nat) (s : State) : (setInt n s).mode = s.mode := by
  unfold setInt; dsimp only; split
  · rfl
  · split <;> simp
@[simp] theorem setInt_time (n : Nat) (s : State) : (setInt n s).time = s.time := by
  unfold setInt; dsimp only; split
  · rfl
  · split <;> simp
@[simp] theorem setInt_flt (n : Nat) (s : State) : (setInt n s).flt = s.flt := by
  unfold setInt; dsimp only; split
  · rfl
  · split <;> simp
@[simp] theorem setInt_reel (n : Nat) (s : State) : (setInt n s).reel = s.reel := by
  unfold setInt; dsimp only; split
  · rfl
  · split <;> simp
@[simp] theorem setInt_ing (n : Nat) (s : State) : (setInt n s).ing = s.ing := by
  unfold setInt; dsimp only; split
  · rfl
  · split <;> simp
@[simp] theorem setInt_store (n : Nat) (s : State) : (setInt n s).store = s.store := by
  unfold setInt; dsimp only; split
  · rfl
  · split <;> simp
@[simp] theorem setInt_weave (n : Nat) (s : State) : (setInt n s).weave = s.weave := by
  unfold setInt; dsimp only; split
  · rfl
  · split <;> simp
@[simp] theorem setInt_health (n : Nat) (s : State) : (setInt n s).health = s.health := by
  unfold setInt; dsimp only; split
  · rfl
  · split <;> simp
@[simp] theorem setInt_link (n : Nat) (s : State) : (setInt n s).link = s.link := by
  unfold setInt; dsimp only; split
  · rfl
  · split <;> simp
@[simp] theorem setInt_twin (n : Nat) (s : State) : (setInt n s).twin = s.twin := by
  unfold setInt; dsimp only; split
  · rfl
  · split <;> simp
@[simp] theorem setInt_power (n : Nat) (s : State) : (setInt n s).power = s.power := by
  unfold setInt; dsimp only; split
  · rfl
  · split <;> simp
@[simp] theorem setInt_fix (n : Nat) (s : State) : (setInt n s).fix = s.fix := by
  unfold setInt; dsimp only; split
  · rfl
  · split <;> simp
@[simp] theorem setInt_air (n : Nat) (s : State) : (setInt n s).air = s.air := by
  unfold setInt; dsimp only; split
  · rfl
  · split <;> simp
@[simp] theorem setInt_meter (n : Nat) (s : State) : (setInt n s).meter = s.meter := by
  unfold setInt; dsimp only; split
  · rfl
  · split <;> simp
@[simp] theorem setInt_cal (n : Nat) (s : State) : (setInt n s).cal = s.cal := by
  unfold setInt; dsimp only; split
  · rfl
  · split <;> simp
@[simp] theorem setInt_upd (n : Nat) (s : State) : (setInt n s).upd = s.upd := by
  unfold setInt; dsimp only; split
  · rfl
  · split <;> simp
@[simp] theorem setInt_boot (n : Nat) (s : State) : (setInt n s).boot = s.boot := by
  unfold setInt; dsimp only; split
  · rfl
  · split <;> simp

/-! `aonWrite` -/
@[simp] theorem aonWrite_pending (r : RRec) (s : State) : (aonWrite r s).pending = s.pending := rfl
@[simp] theorem aonWrite_now (r : RRec) (s : State) : (aonWrite r s).now = s.now := rfl
@[simp] theorem aonWrite_bootAt (r : RRec) (s : State) : (aonWrite r s).bootAt = s.bootAt := rfl
@[simp] theorem aonWrite_freeCtr (r : RRec) (s : State) : (aonWrite r s).freeCtr = s.freeCtr := rfl
@[simp] theorem aonWrite_out (r : RRec) (s : State) : (aonWrite r s).out = s.out := rfl
@[simp] theorem aonWrite_faultLow (r : RRec) (s : State) : (aonWrite r s).faultLow = s.faultLow := rfl
@[simp] theorem aonWrite_hif (r : RRec) (s : State) : (aonWrite r s).hif = s.hif := rfl
@[simp] theorem aonWrite_mbx (r : RRec) (s : State) : (aonWrite r s).mbx = s.mbx := rfl
@[simp] theorem aonWrite_cmds (r : RRec) (s : State) : (aonWrite r s).cmds = s.cmds := rfl
@[simp] theorem aonWrite_fab (r : RRec) (s : State) : (aonWrite r s).fab = s.fab := rfl
@[simp] theorem aonWrite_wall (r : RRec) (s : State) : (aonWrite r s).wall = s.wall := rfl
@[simp] theorem aonWrite_place (r : RRec) (s : State) : (aonWrite r s).place = s.place := rfl
@[simp] theorem aonWrite_sched (r : RRec) (s : State) : (aonWrite r s).sched = s.sched := rfl
@[simp] theorem aonWrite_mode (r : RRec) (s : State) : (aonWrite r s).mode = s.mode := rfl
@[simp] theorem aonWrite_time (r : RRec) (s : State) : (aonWrite r s).time = s.time := rfl
@[simp] theorem aonWrite_flt (r : RRec) (s : State) : (aonWrite r s).flt = s.flt := rfl
@[simp] theorem aonWrite_ing (r : RRec) (s : State) : (aonWrite r s).ing = s.ing := rfl
@[simp] theorem aonWrite_store (r : RRec) (s : State) : (aonWrite r s).store = s.store := rfl
@[simp] theorem aonWrite_weave (r : RRec) (s : State) : (aonWrite r s).weave = s.weave := rfl
@[simp] theorem aonWrite_health (r : RRec) (s : State) : (aonWrite r s).health = s.health := rfl
@[simp] theorem aonWrite_link (r : RRec) (s : State) : (aonWrite r s).link = s.link := rfl
@[simp] theorem aonWrite_twin (r : RRec) (s : State) : (aonWrite r s).twin = s.twin := rfl
@[simp] theorem aonWrite_power (r : RRec) (s : State) : (aonWrite r s).power = s.power := rfl
@[simp] theorem aonWrite_fix (r : RRec) (s : State) : (aonWrite r s).fix = s.fix := rfl
@[simp] theorem aonWrite_air (r : RRec) (s : State) : (aonWrite r s).air = s.air := rfl
@[simp] theorem aonWrite_meter (r : RRec) (s : State) : (aonWrite r s).meter = s.meter := rfl
@[simp] theorem aonWrite_cal (r : RRec) (s : State) : (aonWrite r s).cal = s.cal := rfl
@[simp] theorem aonWrite_upd (r : RRec) (s : State) : (aonWrite r s).upd = s.upd := rfl
@[simp] theorem aonWrite_boot (r : RRec) (s : State) : (aonWrite r s).boot = s.boot := rfl

/-! `offerRec` -/
@[simp] theorem offerRec_pending (r : RRec) (s : State) : (offerRec r s).pending = s.pending := by
  unfold offerRec; repeat' split
  all_goals rfl
@[simp] theorem offerRec_now (r : RRec) (s : State) : (offerRec r s).now = s.now := by
  unfold offerRec; repeat' split
  all_goals rfl
@[simp] theorem offerRec_bootAt (r : RRec) (s : State) : (offerRec r s).bootAt = s.bootAt := by
  unfold offerRec; repeat' split
  all_goals rfl
@[simp] theorem offerRec_freeCtr (r : RRec) (s : State) : (offerRec r s).freeCtr = s.freeCtr := by
  unfold offerRec; repeat' split
  all_goals rfl
@[simp] theorem offerRec_out (r : RRec) (s : State) : (offerRec r s).out = s.out := by
  unfold offerRec; repeat' split
  all_goals rfl
@[simp] theorem offerRec_faultLow (r : RRec) (s : State) : (offerRec r s).faultLow = s.faultLow := by
  unfold offerRec; repeat' split
  all_goals rfl
@[simp] theorem offerRec_hif (r : RRec) (s : State) : (offerRec r s).hif = s.hif := by
  unfold offerRec; repeat' split
  all_goals rfl
@[simp] theorem offerRec_mbx (r : RRec) (s : State) : (offerRec r s).mbx = s.mbx := by
  unfold offerRec; repeat' split
  all_goals rfl
@[simp] theorem offerRec_cmds (r : RRec) (s : State) : (offerRec r s).cmds = s.cmds := by
  unfold offerRec; repeat' split
  all_goals rfl
@[simp] theorem offerRec_fab (r : RRec) (s : State) : (offerRec r s).fab = s.fab := by
  unfold offerRec; repeat' split
  all_goals rfl
@[simp] theorem offerRec_wall (r : RRec) (s : State) : (offerRec r s).wall = s.wall := by
  unfold offerRec; repeat' split
  all_goals rfl
@[simp] theorem offerRec_place (r : RRec) (s : State) : (offerRec r s).place = s.place := by
  unfold offerRec; repeat' split
  all_goals rfl
@[simp] theorem offerRec_sched (r : RRec) (s : State) : (offerRec r s).sched = s.sched := by
  unfold offerRec; repeat' split
  all_goals rfl
@[simp] theorem offerRec_mode (r : RRec) (s : State) : (offerRec r s).mode = s.mode := by
  unfold offerRec; repeat' split
  all_goals rfl
@[simp] theorem offerRec_time (r : RRec) (s : State) : (offerRec r s).time = s.time := by
  unfold offerRec; repeat' split
  all_goals rfl
@[simp] theorem offerRec_flt (r : RRec) (s : State) : (offerRec r s).flt = s.flt := by
  unfold offerRec; repeat' split
  all_goals rfl
@[simp] theorem offerRec_ing (r : RRec) (s : State) : (offerRec r s).ing = s.ing := by
  unfold offerRec; repeat' split
  all_goals rfl
@[simp] theorem offerRec_store (r : RRec) (s : State) : (offerRec r s).store = s.store := by
  unfold offerRec; repeat' split
  all_goals rfl
@[simp] theorem offerRec_weave (r : RRec) (s : State) : (offerRec r s).weave = s.weave := by
  unfold offerRec; repeat' split
  all_goals rfl
@[simp] theorem offerRec_health (r : RRec) (s : State) : (offerRec r s).health = s.health := by
  unfold offerRec; repeat' split
  all_goals rfl
@[simp] theorem offerRec_link (r : RRec) (s : State) : (offerRec r s).link = s.link := by
  unfold offerRec; repeat' split
  all_goals rfl
@[simp] theorem offerRec_twin (r : RRec) (s : State) : (offerRec r s).twin = s.twin := by
  unfold offerRec; repeat' split
  all_goals rfl
@[simp] theorem offerRec_power (r : RRec) (s : State) : (offerRec r s).power = s.power := by
  unfold offerRec; repeat' split
  all_goals rfl
@[simp] theorem offerRec_fix (r : RRec) (s : State) : (offerRec r s).fix = s.fix := by
  unfold offerRec; repeat' split
  all_goals rfl
@[simp] theorem offerRec_air (r : RRec) (s : State) : (offerRec r s).air = s.air := by
  unfold offerRec; repeat' split
  all_goals rfl
@[simp] theorem offerRec_meter (r : RRec) (s : State) : (offerRec r s).meter = s.meter := by
  unfold offerRec; repeat' split
  all_goals rfl
@[simp] theorem offerRec_cal (r : RRec) (s : State) : (offerRec r s).cal = s.cal := by
  unfold offerRec; repeat' split
  all_goals rfl
@[simp] theorem offerRec_upd (r : RRec) (s : State) : (offerRec r s).upd = s.upd := by
  unfold offerRec; repeat' split
  all_goals rfl
@[simp] theorem offerRec_boot (r : RRec) (s : State) : (offerRec r s).boot = s.boot := by
  unfold offerRec; repeat' split
  all_goals rfl

/-! `record` -/
@[simp] theorem record_pending (c src code : Nat) (d : Bytes) (s : State) : (record c src code d s).pending = s.pending := by
  simp [record]
@[simp] theorem record_now (c src code : Nat) (d : Bytes) (s : State) : (record c src code d s).now = s.now := by
  simp [record]
@[simp] theorem record_bootAt (c src code : Nat) (d : Bytes) (s : State) : (record c src code d s).bootAt = s.bootAt := by
  simp [record]
@[simp] theorem record_freeCtr (c src code : Nat) (d : Bytes) (s : State) : (record c src code d s).freeCtr = s.freeCtr := by
  simp [record]
@[simp] theorem record_out (c src code : Nat) (d : Bytes) (s : State) : (record c src code d s).out = s.out := by
  simp [record]
@[simp] theorem record_faultLow (c src code : Nat) (d : Bytes) (s : State) : (record c src code d s).faultLow = s.faultLow := by
  simp [record]
@[simp] theorem record_hif (c src code : Nat) (d : Bytes) (s : State) : (record c src code d s).hif = s.hif := by
  simp [record]
@[simp] theorem record_mbx (c src code : Nat) (d : Bytes) (s : State) : (record c src code d s).mbx = s.mbx := by
  simp [record]
@[simp] theorem record_cmds (c src code : Nat) (d : Bytes) (s : State) : (record c src code d s).cmds = s.cmds := by
  simp [record]
@[simp] theorem record_fab (c src code : Nat) (d : Bytes) (s : State) : (record c src code d s).fab = s.fab := by
  simp [record]
@[simp] theorem record_wall (c src code : Nat) (d : Bytes) (s : State) : (record c src code d s).wall = s.wall := by
  simp [record]
@[simp] theorem record_place (c src code : Nat) (d : Bytes) (s : State) : (record c src code d s).place = s.place := by
  simp [record]
@[simp] theorem record_sched (c src code : Nat) (d : Bytes) (s : State) : (record c src code d s).sched = s.sched := by
  simp [record]
@[simp] theorem record_mode (c src code : Nat) (d : Bytes) (s : State) : (record c src code d s).mode = s.mode := by
  simp [record]
@[simp] theorem record_time (c src code : Nat) (d : Bytes) (s : State) : (record c src code d s).time = s.time := by
  simp [record]
@[simp] theorem record_flt (c src code : Nat) (d : Bytes) (s : State) : (record c src code d s).flt = s.flt := by
  simp [record]
@[simp] theorem record_ing (c src code : Nat) (d : Bytes) (s : State) : (record c src code d s).ing = s.ing := by
  simp [record]
@[simp] theorem record_store (c src code : Nat) (d : Bytes) (s : State) : (record c src code d s).store = s.store := by
  simp [record]
@[simp] theorem record_weave (c src code : Nat) (d : Bytes) (s : State) : (record c src code d s).weave = s.weave := by
  simp [record]
@[simp] theorem record_health (c src code : Nat) (d : Bytes) (s : State) : (record c src code d s).health = s.health := by
  simp [record]
@[simp] theorem record_link (c src code : Nat) (d : Bytes) (s : State) : (record c src code d s).link = s.link := by
  simp [record]
@[simp] theorem record_twin (c src code : Nat) (d : Bytes) (s : State) : (record c src code d s).twin = s.twin := by
  simp [record]
@[simp] theorem record_power (c src code : Nat) (d : Bytes) (s : State) : (record c src code d s).power = s.power := by
  simp [record]
@[simp] theorem record_fix (c src code : Nat) (d : Bytes) (s : State) : (record c src code d s).fix = s.fix := by
  simp [record]
@[simp] theorem record_air (c src code : Nat) (d : Bytes) (s : State) : (record c src code d s).air = s.air := by
  simp [record]
@[simp] theorem record_meter (c src code : Nat) (d : Bytes) (s : State) : (record c src code d s).meter = s.meter := by
  simp [record]
@[simp] theorem record_cal (c src code : Nat) (d : Bytes) (s : State) : (record c src code d s).cal = s.cal := by
  simp [record]
@[simp] theorem record_upd (c src code : Nat) (d : Bytes) (s : State) : (record c src code d s).upd = s.upd := by
  simp [record]
@[simp] theorem record_boot (c src code : Nat) (d : Bytes) (s : State) : (record c src code d s).boot = s.boot := by
  simp [record]

/-! `violate` -/
@[simp] theorem violate_pending (k : Nat) (a : U32) (i : Bool) (m g : Nat) (s : State) : (violate k a i m g s).pending = s.pending := by
  unfold violate; simp only []; split <;> simp
@[simp] theorem violate_now (k : Nat) (a : U32) (i : Bool) (m g : Nat) (s : State) : (violate k a i m g s).now = s.now := by
  unfold violate; simp only []; split <;> simp
@[simp] theorem violate_bootAt (k : Nat) (a : U32) (i : Bool) (m g : Nat) (s : State) : (violate k a i m g s).bootAt = s.bootAt := by
  unfold violate; simp only []; split <;> simp
@[simp] theorem violate_freeCtr (k : Nat) (a : U32) (i : Bool) (m g : Nat) (s : State) : (violate k a i m g s).freeCtr = s.freeCtr := by
  unfold violate; simp only []; split <;> simp
@[simp] theorem violate_faultLow (k : Nat) (a : U32) (i : Bool) (m g : Nat) (s : State) : (violate k a i m g s).faultLow = s.faultLow := by
  unfold violate; simp only []; split <;> simp
@[simp] theorem violate_mbx (k : Nat) (a : U32) (i : Bool) (m g : Nat) (s : State) : (violate k a i m g s).mbx = s.mbx := by
  unfold violate; simp only []; split <;> simp
@[simp] theorem violate_cmds (k : Nat) (a : U32) (i : Bool) (m g : Nat) (s : State) : (violate k a i m g s).cmds = s.cmds := by
  unfold violate; simp only []; split <;> simp
@[simp] theorem violate_fab (k : Nat) (a : U32) (i : Bool) (m g : Nat) (s : State) : (violate k a i m g s).fab = s.fab := by
  unfold violate; simp only []; split <;> simp
@[simp] theorem violate_wall (k : Nat) (a : U32) (i : Bool) (m g : Nat) (s : State) : (violate k a i m g s).wall = s.wall := by
  unfold violate; simp only []; split <;> simp
@[simp] theorem violate_place (k : Nat) (a : U32) (i : Bool) (m g : Nat) (s : State) : (violate k a i m g s).place = s.place := by
  unfold violate; simp only []; split <;> simp
@[simp] theorem violate_sched (k : Nat) (a : U32) (i : Bool) (m g : Nat) (s : State) : (violate k a i m g s).sched = s.sched := by
  unfold violate; simp only []; split <;> simp
@[simp] theorem violate_mode (k : Nat) (a : U32) (i : Bool) (m g : Nat) (s : State) : (violate k a i m g s).mode = s.mode := by
  unfold violate; simp only []; split <;> simp
@[simp] theorem violate_time (k : Nat) (a : U32) (i : Bool) (m g : Nat) (s : State) : (violate k a i m g s).time = s.time := by
  unfold violate; simp only []; split <;> simp
@[simp] theorem violate_flt (k : Nat) (a : U32) (i : Bool) (m g : Nat) (s : State) : (violate k a i m g s).flt = s.flt := by
  unfold violate; simp only []; split <;> simp
@[simp] theorem violate_ing (k : Nat) (a : U32) (i : Bool) (m g : Nat) (s : State) : (violate k a i m g s).ing = s.ing := by
  unfold violate; simp only []; split <;> simp
@[simp] theorem violate_store (k : Nat) (a : U32) (i : Bool) (m g : Nat) (s : State) : (violate k a i m g s).store = s.store := by
  unfold violate; simp only []; split <;> simp
@[simp] theorem violate_weave (k : Nat) (a : U32) (i : Bool) (m g : Nat) (s : State) : (violate k a i m g s).weave = s.weave := by
  unfold violate; simp only []; split <;> simp
@[simp] theorem violate_health (k : Nat) (a : U32) (i : Bool) (m g : Nat) (s : State) : (violate k a i m g s).health = s.health := by
  unfold violate; simp only []; split <;> simp
@[simp] theorem violate_link (k : Nat) (a : U32) (i : Bool) (m g : Nat) (s : State) : (violate k a i m g s).link = s.link := by
  unfold violate; simp only []; split <;> simp
@[simp] theorem violate_twin (k : Nat) (a : U32) (i : Bool) (m g : Nat) (s : State) : (violate k a i m g s).twin = s.twin := by
  unfold violate; simp only []; split <;> simp
@[simp] theorem violate_power (k : Nat) (a : U32) (i : Bool) (m g : Nat) (s : State) : (violate k a i m g s).power = s.power := by
  unfold violate; simp only []; split <;> simp
@[simp] theorem violate_fix (k : Nat) (a : U32) (i : Bool) (m g : Nat) (s : State) : (violate k a i m g s).fix = s.fix := by
  unfold violate; simp only []; split <;> simp
@[simp] theorem violate_air (k : Nat) (a : U32) (i : Bool) (m g : Nat) (s : State) : (violate k a i m g s).air = s.air := by
  unfold violate; simp only []; split <;> simp
@[simp] theorem violate_meter (k : Nat) (a : U32) (i : Bool) (m g : Nat) (s : State) : (violate k a i m g s).meter = s.meter := by
  unfold violate; simp only []; split <;> simp
@[simp] theorem violate_cal (k : Nat) (a : U32) (i : Bool) (m g : Nat) (s : State) : (violate k a i m g s).cal = s.cal := by
  unfold violate; simp only []; split <;> simp
@[simp] theorem violate_upd (k : Nat) (a : U32) (i : Bool) (m g : Nat) (s : State) : (violate k a i m g s).upd = s.upd := by
  unfold violate; simp only []; split <;> simp
@[simp] theorem violate_boot (k : Nat) (a : U32) (i : Bool) (m g : Nat) (s : State) : (violate k a i m g s).boot = s.boot := by
  unfold violate; simp only []; split <;> simp

/-! `freeThread` -/
@[simp] theorem freeThread_pending (c : Cmd) (s : State) : (freeThread c s).pending = s.pending := by
  unfold freeThread; split <;> rfl
@[simp] theorem freeThread_now (c : Cmd) (s : State) : (freeThread c s).now = s.now := by
  unfold freeThread; split <;> rfl
@[simp] theorem freeThread_bootAt (c : Cmd) (s : State) : (freeThread c s).bootAt = s.bootAt := by
  unfold freeThread; split <;> rfl
@[simp] theorem freeThread_freeCtr (c : Cmd) (s : State) : (freeThread c s).freeCtr = s.freeCtr := by
  unfold freeThread; split <;> rfl
@[simp] theorem freeThread_out (c : Cmd) (s : State) : (freeThread c s).out = s.out := by
  unfold freeThread; split <;> rfl
@[simp] theorem freeThread_faultLow (c : Cmd) (s : State) : (freeThread c s).faultLow = s.faultLow := by
  unfold freeThread; split <;> rfl
@[simp] theorem freeThread_hif (c : Cmd) (s : State) : (freeThread c s).hif = s.hif := by
  unfold freeThread; split <;> rfl
@[simp] theorem freeThread_mbx (c : Cmd) (s : State) : (freeThread c s).mbx = s.mbx := by
  unfold freeThread; split <;> rfl
@[simp] theorem freeThread_cmds (c : Cmd) (s : State) : (freeThread c s).cmds = s.cmds := by
  unfold freeThread; split <;> rfl
@[simp] theorem freeThread_fab (c : Cmd) (s : State) : (freeThread c s).fab = s.fab := by
  unfold freeThread; split <;> rfl
@[simp] theorem freeThread_wall (c : Cmd) (s : State) : (freeThread c s).wall = s.wall := by
  unfold freeThread; split <;> rfl
@[simp] theorem freeThread_place (c : Cmd) (s : State) : (freeThread c s).place = s.place := by
  unfold freeThread; split <;> rfl
@[simp] theorem freeThread_mode (c : Cmd) (s : State) : (freeThread c s).mode = s.mode := by
  unfold freeThread; split <;> rfl
@[simp] theorem freeThread_time (c : Cmd) (s : State) : (freeThread c s).time = s.time := by
  unfold freeThread; split <;> rfl
@[simp] theorem freeThread_flt (c : Cmd) (s : State) : (freeThread c s).flt = s.flt := by
  unfold freeThread; split <;> rfl
@[simp] theorem freeThread_reel (c : Cmd) (s : State) : (freeThread c s).reel = s.reel := by
  unfold freeThread; split <;> rfl
@[simp] theorem freeThread_ing (c : Cmd) (s : State) : (freeThread c s).ing = s.ing := by
  unfold freeThread; split <;> rfl
@[simp] theorem freeThread_store (c : Cmd) (s : State) : (freeThread c s).store = s.store := by
  unfold freeThread; split <;> rfl
@[simp] theorem freeThread_weave (c : Cmd) (s : State) : (freeThread c s).weave = s.weave := by
  unfold freeThread; split <;> rfl
@[simp] theorem freeThread_health (c : Cmd) (s : State) : (freeThread c s).health = s.health := by
  unfold freeThread; split <;> rfl
@[simp] theorem freeThread_link (c : Cmd) (s : State) : (freeThread c s).link = s.link := by
  unfold freeThread; split <;> rfl
@[simp] theorem freeThread_twin (c : Cmd) (s : State) : (freeThread c s).twin = s.twin := by
  unfold freeThread; split <;> rfl
@[simp] theorem freeThread_power (c : Cmd) (s : State) : (freeThread c s).power = s.power := by
  unfold freeThread; split <;> rfl
@[simp] theorem freeThread_fix (c : Cmd) (s : State) : (freeThread c s).fix = s.fix := by
  unfold freeThread; split <;> rfl
@[simp] theorem freeThread_air (c : Cmd) (s : State) : (freeThread c s).air = s.air := by
  unfold freeThread; split <;> rfl
@[simp] theorem freeThread_meter (c : Cmd) (s : State) : (freeThread c s).meter = s.meter := by
  unfold freeThread; split <;> rfl
@[simp] theorem freeThread_cal (c : Cmd) (s : State) : (freeThread c s).cal = s.cal := by
  unfold freeThread; split <;> rfl
@[simp] theorem freeThread_upd (c : Cmd) (s : State) : (freeThread c s).upd = s.upd := by
  unfold freeThread; split <;> rfl
@[simp] theorem freeThread_boot (c : Cmd) (s : State) : (freeThread c s).boot = s.boot := by
  unfold freeThread; split <;> rfl

/-! `complete` -/
@[simp] theorem complete_pending (c : Cmd) (st d : Nat) (p : Bytes) (s : State) : (complete c st d p s).pending = s.pending := by
  unfold complete; simp only []; split <;> simp
@[simp] theorem complete_now (c : Cmd) (st d : Nat) (p : Bytes) (s : State) : (complete c st d p s).now = s.now := by
  unfold complete; simp only []; split <;> simp
@[simp] theorem complete_bootAt (c : Cmd) (st d : Nat) (p : Bytes) (s : State) : (complete c st d p s).bootAt = s.bootAt := by
  unfold complete; simp only []; split <;> simp
@[simp] theorem complete_freeCtr (c : Cmd) (st d : Nat) (p : Bytes) (s : State) : (complete c st d p s).freeCtr = s.freeCtr := by
  unfold complete; simp only []; split <;> simp
@[simp] theorem complete_out (c : Cmd) (st d : Nat) (p : Bytes) (s : State) : (complete c st d p s).out = s.out := by
  unfold complete; simp only []; split <;> simp
@[simp] theorem complete_faultLow (c : Cmd) (st d : Nat) (p : Bytes) (s : State) : (complete c st d p s).faultLow = s.faultLow := by
  unfold complete; simp only []; split <;> simp
@[simp] theorem complete_hif (c : Cmd) (st d : Nat) (p : Bytes) (s : State) : (complete c st d p s).hif = s.hif := by
  unfold complete; simp only []; split <;> simp
@[simp] theorem complete_fab (c : Cmd) (st d : Nat) (p : Bytes) (s : State) : (complete c st d p s).fab = s.fab := by
  unfold complete; simp only []; split <;> simp
@[simp] theorem complete_wall (c : Cmd) (st d : Nat) (p : Bytes) (s : State) : (complete c st d p s).wall = s.wall := by
  unfold complete; simp only []; split <;> simp
@[simp] theorem complete_place (c : Cmd) (st d : Nat) (p : Bytes) (s : State) : (complete c st d p s).place = s.place := by
  unfold complete; simp only []; split <;> simp
@[simp] theorem complete_mode (c : Cmd) (st d : Nat) (p : Bytes) (s : State) : (complete c st d p s).mode = s.mode := by
  unfold complete; simp only []; split <;> simp
@[simp] theorem complete_flt (c : Cmd) (st d : Nat) (p : Bytes) (s : State) : (complete c st d p s).flt = s.flt := by
  unfold complete; simp only []; split <;> simp
@[simp] theorem complete_reel (c : Cmd) (st d : Nat) (p : Bytes) (s : State) : (complete c st d p s).reel = s.reel := by
  unfold complete; simp only []; split <;> simp
@[simp] theorem complete_ing (c : Cmd) (st d : Nat) (p : Bytes) (s : State) : (complete c st d p s).ing = s.ing := by
  unfold complete; simp only []; split <;> simp
@[simp] theorem complete_store (c : Cmd) (st d : Nat) (p : Bytes) (s : State) : (complete c st d p s).store = s.store := by
  unfold complete; simp only []; split <;> simp
@[simp] theorem complete_weave (c : Cmd) (st d : Nat) (p : Bytes) (s : State) : (complete c st d p s).weave = s.weave := by
  unfold complete; simp only []; split <;> simp
@[simp] theorem complete_health (c : Cmd) (st d : Nat) (p : Bytes) (s : State) : (complete c st d p s).health = s.health := by
  unfold complete; simp only []; split <;> simp
@[simp] theorem complete_link (c : Cmd) (st d : Nat) (p : Bytes) (s : State) : (complete c st d p s).link = s.link := by
  unfold complete; simp only []; split <;> simp
@[simp] theorem complete_twin (c : Cmd) (st d : Nat) (p : Bytes) (s : State) : (complete c st d p s).twin = s.twin := by
  unfold complete; simp only []; split <;> simp
@[simp] theorem complete_power (c : Cmd) (st d : Nat) (p : Bytes) (s : State) : (complete c st d p s).power = s.power := by
  unfold complete; simp only []; split <;> simp
@[simp] theorem complete_fix (c : Cmd) (st d : Nat) (p : Bytes) (s : State) : (complete c st d p s).fix = s.fix := by
  unfold complete; simp only []; split <;> simp
@[simp] theorem complete_air (c : Cmd) (st d : Nat) (p : Bytes) (s : State) : (complete c st d p s).air = s.air := by
  unfold complete; simp only []; split <;> simp
@[simp] theorem complete_meter (c : Cmd) (st d : Nat) (p : Bytes) (s : State) : (complete c st d p s).meter = s.meter := by
  unfold complete; simp only []; split <;> simp
@[simp] theorem complete_cal (c : Cmd) (st d : Nat) (p : Bytes) (s : State) : (complete c st d p s).cal = s.cal := by
  unfold complete; simp only []; split <;> simp
@[simp] theorem complete_upd (c : Cmd) (st d : Nat) (p : Bytes) (s : State) : (complete c st d p s).upd = s.upd := by
  unfold complete; simp only []; split <;> simp
@[simp] theorem complete_boot (c : Cmd) (st d : Nat) (p : Bytes) (s : State) : (complete c st d p s).boot = s.boot := by
  unfold complete; simp only []; split <;> simp

/-! `done` -/
@[simp] theorem done_pending (c : Cmd) (st : Nat) (s : State) : (done c st s).pending = s.pending := by
  simp [done]
@[simp] theorem done_now (c : Cmd) (st : Nat) (s : State) : (done c st s).now = s.now := by
  simp [done]
@[simp] theorem done_bootAt (c : Cmd) (st : Nat) (s : State) : (done c st s).bootAt = s.bootAt := by
  simp [done]
@[simp] theorem done_freeCtr (c : Cmd) (st : Nat) (s : State) : (done c st s).freeCtr = s.freeCtr := by
  simp [done]
@[simp] theorem done_out (c : Cmd) (st : Nat) (s : State) : (done c st s).out = s.out := by
  simp [done]
@[simp] theorem done_faultLow (c : Cmd) (st : Nat) (s : State) : (done c st s).faultLow = s.faultLow := by
  simp [done]
@[simp] theorem done_hif (c : Cmd) (st : Nat) (s : State) : (done c st s).hif = s.hif := by
  simp [done]
@[simp] theorem done_fab (c : Cmd) (st : Nat) (s : State) : (done c st s).fab = s.fab := by
  simp [done]
@[simp] theorem done_wall (c : Cmd) (st : Nat) (s : State) : (done c st s).wall = s.wall := by
  simp [done]
@[simp] theorem done_place (c : Cmd) (st : Nat) (s : State) : (done c st s).place = s.place := by
  simp [done]
@[simp] theorem done_mode (c : Cmd) (st : Nat) (s : State) : (done c st s).mode = s.mode := by
  simp [done]
@[simp] theorem done_flt (c : Cmd) (st : Nat) (s : State) : (done c st s).flt = s.flt := by
  simp [done]
@[simp] theorem done_reel (c : Cmd) (st : Nat) (s : State) : (done c st s).reel = s.reel := by
  simp [done]
@[simp] theorem done_ing (c : Cmd) (st : Nat) (s : State) : (done c st s).ing = s.ing := by
  simp [done]
@[simp] theorem done_store (c : Cmd) (st : Nat) (s : State) : (done c st s).store = s.store := by
  simp [done]
@[simp] theorem done_weave (c : Cmd) (st : Nat) (s : State) : (done c st s).weave = s.weave := by
  simp [done]
@[simp] theorem done_health (c : Cmd) (st : Nat) (s : State) : (done c st s).health = s.health := by
  simp [done]
@[simp] theorem done_link (c : Cmd) (st : Nat) (s : State) : (done c st s).link = s.link := by
  simp [done]
@[simp] theorem done_twin (c : Cmd) (st : Nat) (s : State) : (done c st s).twin = s.twin := by
  simp [done]
@[simp] theorem done_power (c : Cmd) (st : Nat) (s : State) : (done c st s).power = s.power := by
  simp [done]
@[simp] theorem done_fix (c : Cmd) (st : Nat) (s : State) : (done c st s).fix = s.fix := by
  simp [done]
@[simp] theorem done_air (c : Cmd) (st : Nat) (s : State) : (done c st s).air = s.air := by
  simp [done]
@[simp] theorem done_meter (c : Cmd) (st : Nat) (s : State) : (done c st s).meter = s.meter := by
  simp [done]
@[simp] theorem done_cal (c : Cmd) (st : Nat) (s : State) : (done c st s).cal = s.cal := by
  simp [done]
@[simp] theorem done_upd (c : Cmd) (st : Nat) (s : State) : (done c st s).upd = s.upd := by
  simp [done]
@[simp] theorem done_boot (c : Cmd) (st : Nat) (s : State) : (done c st s).boot = s.boot := by
  simp [done]

/-! `reply` -/
@[simp] theorem reply_pending (c : Cmd) (p : Bytes) (s : State) : (reply c p s).pending = s.pending := by
  simp [reply]
@[simp] theorem reply_now (c : Cmd) (p : Bytes) (s : State) : (reply c p s).now = s.now := by
  simp [reply]
@[simp] theorem reply_bootAt (c : Cmd) (p : Bytes) (s : State) : (reply c p s).bootAt = s.bootAt := by
  simp [reply]
@[simp] theorem reply_freeCtr (c : Cmd) (p : Bytes) (s : State) : (reply c p s).freeCtr = s.freeCtr := by
  simp [reply]
@[simp] theorem reply_out (c : Cmd) (p : Bytes) (s : State) : (reply c p s).out = s.out := by
  simp [reply]
@[simp] theorem reply_faultLow (c : Cmd) (p : Bytes) (s : State) : (reply c p s).faultLow = s.faultLow := by
  simp [reply]
@[simp] theorem reply_hif (c : Cmd) (p : Bytes) (s : State) : (reply c p s).hif = s.hif := by
  simp [reply]
@[simp] theorem reply_fab (c : Cmd) (p : Bytes) (s : State) : (reply c p s).fab = s.fab := by
  simp [reply]
@[simp] theorem reply_wall (c : Cmd) (p : Bytes) (s : State) : (reply c p s).wall = s.wall := by
  simp [reply]
@[simp] theorem reply_place (c : Cmd) (p : Bytes) (s : State) : (reply c p s).place = s.place := by
  simp [reply]
@[simp] theorem reply_mode (c : Cmd) (p : Bytes) (s : State) : (reply c p s).mode = s.mode := by
  simp [reply]
@[simp] theorem reply_flt (c : Cmd) (p : Bytes) (s : State) : (reply c p s).flt = s.flt := by
  simp [reply]
@[simp] theorem reply_reel (c : Cmd) (p : Bytes) (s : State) : (reply c p s).reel = s.reel := by
  simp [reply]
@[simp] theorem reply_ing (c : Cmd) (p : Bytes) (s : State) : (reply c p s).ing = s.ing := by
  simp [reply]
@[simp] theorem reply_store (c : Cmd) (p : Bytes) (s : State) : (reply c p s).store = s.store := by
  simp [reply]
@[simp] theorem reply_weave (c : Cmd) (p : Bytes) (s : State) : (reply c p s).weave = s.weave := by
  simp [reply]
@[simp] theorem reply_health (c : Cmd) (p : Bytes) (s : State) : (reply c p s).health = s.health := by
  simp [reply]
@[simp] theorem reply_link (c : Cmd) (p : Bytes) (s : State) : (reply c p s).link = s.link := by
  simp [reply]
@[simp] theorem reply_twin (c : Cmd) (p : Bytes) (s : State) : (reply c p s).twin = s.twin := by
  simp [reply]
@[simp] theorem reply_power (c : Cmd) (p : Bytes) (s : State) : (reply c p s).power = s.power := by
  simp [reply]
@[simp] theorem reply_fix (c : Cmd) (p : Bytes) (s : State) : (reply c p s).fix = s.fix := by
  simp [reply]
@[simp] theorem reply_air (c : Cmd) (p : Bytes) (s : State) : (reply c p s).air = s.air := by
  simp [reply]
@[simp] theorem reply_meter (c : Cmd) (p : Bytes) (s : State) : (reply c p s).meter = s.meter := by
  simp [reply]
@[simp] theorem reply_cal (c : Cmd) (p : Bytes) (s : State) : (reply c p s).cal = s.cal := by
  simp [reply]
@[simp] theorem reply_upd (c : Cmd) (p : Bytes) (s : State) : (reply c p s).upd = s.upd := by
  simp [reply]
@[simp] theorem reply_boot (c : Cmd) (p : Bytes) (s : State) : (reply c p s).boot = s.boot := by
  simp [reply]

/-! `finish` -/
@[simp] theorem finish_pending (r : CmdRef) (st d : Nat) (p : Bytes) (s : State) : (finish r st d p s).pending = s.pending := by
  unfold finish; split <;> simp
@[simp] theorem finish_now (r : CmdRef) (st d : Nat) (p : Bytes) (s : State) : (finish r st d p s).now = s.now := by
  unfold finish; split <;> simp
@[simp] theorem finish_bootAt (r : CmdRef) (st d : Nat) (p : Bytes) (s : State) : (finish r st d p s).bootAt = s.bootAt := by
  unfold finish; split <;> simp
@[simp] theorem finish_freeCtr (r : CmdRef) (st d : Nat) (p : Bytes) (s : State) : (finish r st d p s).freeCtr = s.freeCtr := by
  unfold finish; split <;> simp
@[simp] theorem finish_out (r : CmdRef) (st d : Nat) (p : Bytes) (s : State) : (finish r st d p s).out = s.out := by
  unfold finish; split <;> simp
@[simp] theorem finish_faultLow (r : CmdRef) (st d : Nat) (p : Bytes) (s : State) : (finish r st d p s).faultLow = s.faultLow := by
  unfold finish; split <;> simp
@[simp] theorem finish_hif (r : CmdRef) (st d : Nat) (p : Bytes) (s : State) : (finish r st d p s).hif = s.hif := by
  unfold finish; split <;> simp
@[simp] theorem finish_fab (r : CmdRef) (st d : Nat) (p : Bytes) (s : State) : (finish r st d p s).fab = s.fab := by
  unfold finish; split <;> simp
@[simp] theorem finish_wall (r : CmdRef) (st d : Nat) (p : Bytes) (s : State) : (finish r st d p s).wall = s.wall := by
  unfold finish; split <;> simp
@[simp] theorem finish_place (r : CmdRef) (st d : Nat) (p : Bytes) (s : State) : (finish r st d p s).place = s.place := by
  unfold finish; split <;> simp
@[simp] theorem finish_mode (r : CmdRef) (st d : Nat) (p : Bytes) (s : State) : (finish r st d p s).mode = s.mode := by
  unfold finish; split <;> simp
@[simp] theorem finish_flt (r : CmdRef) (st d : Nat) (p : Bytes) (s : State) : (finish r st d p s).flt = s.flt := by
  unfold finish; split <;> simp
@[simp] theorem finish_reel (r : CmdRef) (st d : Nat) (p : Bytes) (s : State) : (finish r st d p s).reel = s.reel := by
  unfold finish; split <;> simp
@[simp] theorem finish_ing (r : CmdRef) (st d : Nat) (p : Bytes) (s : State) : (finish r st d p s).ing = s.ing := by
  unfold finish; split <;> simp
@[simp] theorem finish_store (r : CmdRef) (st d : Nat) (p : Bytes) (s : State) : (finish r st d p s).store = s.store := by
  unfold finish; split <;> simp
@[simp] theorem finish_weave (r : CmdRef) (st d : Nat) (p : Bytes) (s : State) : (finish r st d p s).weave = s.weave := by
  unfold finish; split <;> simp
@[simp] theorem finish_health (r : CmdRef) (st d : Nat) (p : Bytes) (s : State) : (finish r st d p s).health = s.health := by
  unfold finish; split <;> simp
@[simp] theorem finish_link (r : CmdRef) (st d : Nat) (p : Bytes) (s : State) : (finish r st d p s).link = s.link := by
  unfold finish; split <;> simp
@[simp] theorem finish_twin (r : CmdRef) (st d : Nat) (p : Bytes) (s : State) : (finish r st d p s).twin = s.twin := by
  unfold finish; split <;> simp
@[simp] theorem finish_power (r : CmdRef) (st d : Nat) (p : Bytes) (s : State) : (finish r st d p s).power = s.power := by
  unfold finish; split <;> simp
@[simp] theorem finish_fix (r : CmdRef) (st d : Nat) (p : Bytes) (s : State) : (finish r st d p s).fix = s.fix := by
  unfold finish; split <;> simp
@[simp] theorem finish_air (r : CmdRef) (st d : Nat) (p : Bytes) (s : State) : (finish r st d p s).air = s.air := by
  unfold finish; split <;> simp
@[simp] theorem finish_meter (r : CmdRef) (st d : Nat) (p : Bytes) (s : State) : (finish r st d p s).meter = s.meter := by
  unfold finish; split <;> simp
@[simp] theorem finish_cal (r : CmdRef) (st d : Nat) (p : Bytes) (s : State) : (finish r st d p s).cal = s.cal := by
  unfold finish; split <;> simp
@[simp] theorem finish_upd (r : CmdRef) (st d : Nat) (p : Bytes) (s : State) : (finish r st d p s).upd = s.upd := by
  unfold finish; split <;> simp
@[simp] theorem finish_boot (r : CmdRef) (st d : Nat) (p : Bytes) (s : State) : (finish r st d p s).boot = s.boot := by
  unfold finish; split <;> simp

/-! `drivePin` -/
@[simp] theorem drivePin_pending  (s : State) : (drivePin  s).pending = s.pending := by
  unfold drivePin; split <;> rfl
@[simp] theorem drivePin_now  (s : State) : (drivePin  s).now = s.now := by
  unfold drivePin; split <;> rfl
@[simp] theorem drivePin_bootAt  (s : State) : (drivePin  s).bootAt = s.bootAt := by
  unfold drivePin; split <;> rfl
@[simp] theorem drivePin_freeCtr  (s : State) : (drivePin  s).freeCtr = s.freeCtr := by
  unfold drivePin; split <;> rfl
@[simp] theorem drivePin_hif  (s : State) : (drivePin  s).hif = s.hif := by
  unfold drivePin; split <;> rfl
@[simp] theorem drivePin_mbx  (s : State) : (drivePin  s).mbx = s.mbx := by
  unfold drivePin; split <;> rfl
@[simp] theorem drivePin_cmds  (s : State) : (drivePin  s).cmds = s.cmds := by
  unfold drivePin; split <;> rfl
@[simp] theorem drivePin_fab  (s : State) : (drivePin  s).fab = s.fab := by
  unfold drivePin; split <;> rfl
@[simp] theorem drivePin_wall  (s : State) : (drivePin  s).wall = s.wall := by
  unfold drivePin; split <;> rfl
@[simp] theorem drivePin_place  (s : State) : (drivePin  s).place = s.place := by
  unfold drivePin; split <;> rfl
@[simp] theorem drivePin_sched  (s : State) : (drivePin  s).sched = s.sched := by
  unfold drivePin; split <;> rfl
@[simp] theorem drivePin_mode  (s : State) : (drivePin  s).mode = s.mode := by
  unfold drivePin; split <;> rfl
@[simp] theorem drivePin_time  (s : State) : (drivePin  s).time = s.time := by
  unfold drivePin; split <;> rfl
@[simp] theorem drivePin_flt  (s : State) : (drivePin  s).flt = s.flt := by
  unfold drivePin; split <;> rfl
@[simp] theorem drivePin_reel  (s : State) : (drivePin  s).reel = s.reel := by
  unfold drivePin; split <;> rfl
@[simp] theorem drivePin_ing  (s : State) : (drivePin  s).ing = s.ing := by
  unfold drivePin; split <;> rfl
@[simp] theorem drivePin_store  (s : State) : (drivePin  s).store = s.store := by
  unfold drivePin; split <;> rfl
@[simp] theorem drivePin_weave  (s : State) : (drivePin  s).weave = s.weave := by
  unfold drivePin; split <;> rfl
@[simp] theorem drivePin_health  (s : State) : (drivePin  s).health = s.health := by
  unfold drivePin; split <;> rfl
@[simp] theorem drivePin_link  (s : State) : (drivePin  s).link = s.link := by
  unfold drivePin; split <;> rfl
@[simp] theorem drivePin_twin  (s : State) : (drivePin  s).twin = s.twin := by
  unfold drivePin; split <;> rfl
@[simp] theorem drivePin_power  (s : State) : (drivePin  s).power = s.power := by
  unfold drivePin; split <;> rfl
@[simp] theorem drivePin_fix  (s : State) : (drivePin  s).fix = s.fix := by
  unfold drivePin; split <;> rfl
@[simp] theorem drivePin_air  (s : State) : (drivePin  s).air = s.air := by
  unfold drivePin; split <;> rfl
@[simp] theorem drivePin_meter  (s : State) : (drivePin  s).meter = s.meter := by
  unfold drivePin; split <;> rfl
@[simp] theorem drivePin_cal  (s : State) : (drivePin  s).cal = s.cal := by
  unfold drivePin; split <;> rfl
@[simp] theorem drivePin_upd  (s : State) : (drivePin  s).upd = s.upd := by
  unfold drivePin; split <;> rfl
@[simp] theorem drivePin_boot  (s : State) : (drivePin  s).boot = s.boot := by
  unfold drivePin; split <;> rfl

/-! ## The wrappers of every meaning -/

@[simp] theorem awake_advance (t : Nat) (s : State) : awake (advance t s) = awake s := rfl
@[simp] theorem faultN_advance (t : Nat) (s : State) : faultN (advance t s) = faultN s := rfl
@[simp] theorem findCmd_advance (r : CmdRef) (t : Nat) (s : State) : findCmd r (advance t s) = findCmd r s := rfl
@[simp] theorem mbxOf_advance (t : Nat) (s : State) (n : Nat) : mbxOf (advance t s) n = mbxOf s n := rfl
@[simp] theorem modeOn_advance (t : Nat) (s : State) : modeOn (advance t s) = modeOn s := rfl

/-- FAULT_N depends on the collector, the power unit and boot only. -/
theorem faultN_congr {s s' : State} (hf : s'.flt = s.flt) (hp : s'.power = s.power) (hb : s'.boot = s.boot) :
    faultN s' = faultN s := by
  simp [faultN, hf, hp, hb]

/-- The command that a reference finds has that reference. -/
theorem findCmd_ref {r : CmdRef} {s : State} {c : Cmd} (h : findCmd r s = some c) : c.ref = r := by
  have := List.find?_some h
  simpa using this

/-- FAULT_N is driven as R435 says after every command that leaves through `leave`. -/
theorem leave_pin (s0 s : State) : (leave s0 s).faultLow = faultN (leave s0 s) := by
  unfold leave drivePin
  split
  · next h => simpa using h
  · rfl

@[simp] theorem leave_pending (s0 s : State) : (leave s0 s).pending = s0.pending := by
  simp [leave]

/-- A command that leaves the queue, the collector, the power unit and boot alone needs no drive of FAULT_N. -/
theorem leave_eq {s0 s : State} (hq : s.pending = s0.pending) (hl : s.faultLow = faultN s) : leave s0 s = s := by
  have h : ({ s with pending := s0.pending } : State) = s := by rw [← hq]
  unfold leave
  rw [h]
  simp [drivePin, hl]

theorem happens_awake {t : Nat} {s : State} {f : State → State} (h : awake s = true) :
    happens t s f = .next (leave (advance t s) (f (advance t s))) := by
  simp [happens, h]

theorem happens_asleep {t : Nat} {s : State} {f : State → State} (h : awake s = false) :
    happens t s f = .next (advance t s) := by
  simp [happens, h]

theorem occurs_awake {t : Nat} {s : State} {f : State → State} (h : awake s = true) :
    occurs t s f = .next (leave (advance t s) (settle (f (advance t s)))) := by
  simp [occurs, h]

theorem occurs_asleep {t : Nat} {s : State} {f : State → State} (h : awake s = false) :
    occurs t s f = .next (advance t s) := by
  simp [occurs, h]

theorem verb_runs {op t : Nat} {r : CmdRef} {s : State} {f : Cmd → State → State} {c : Cmd}
    (hc : findCmd r s = some c) (ho : c.opcode = op) (hk : c.core.isSome = true) :
    verb op t r s f = .next (leave (advance t s) (f c (advance t s))) := by
  simp [verb, hc, ho, hk]

theorem verbF_runs {op t : Nat} {r : CmdRef} {s : State} {f : Cmd → State → State} {c : Cmd}
    (hc : findCmd r s = some c) (ho : c.opcode = op) (hk : c.core.isSome = true) :
    verbF op t r s f = .next (leave (advance t s) (settle (f c (advance t s)))) := by
  simp [verbF, hc, ho, hk]

/-- A verb whose effect leaves the queue, the collector, the power unit, boot and the line alone: its next state is its
effect. -/
theorem verb_plain {op t : Nat} {r : CmdRef} {s : State} {f : Cmd → State → State} {c : Cmd}
    (hc : findCmd r s = some c) (ho : c.opcode = op) (hk : c.core.isSome = true) (hp : s.faultLow = faultN s)
    (hq : (f c (advance t s)).pending = s.pending) (hl : (f c (advance t s)).faultLow = s.faultLow)
    (hf : (f c (advance t s)).flt = s.flt) (hw : (f c (advance t s)).power = s.power)
    (hb : (f c (advance t s)).boot = s.boot) :
    verb op t r s f = .next (f c (advance t s)) := by
  rw [verb_runs hc ho hk, leave_eq]
  · simpa using hq
  · rw [hl, hp, faultN_congr hf hw hb]

theorem verb_pin {op t : Nat} {r : CmdRef} {s s' : State} {f : Cmd → State → State} (hp : s.faultLow = faultN s)
    (h : verb op t r s f = .next s') : s'.faultLow = faultN s' := by
  unfold verb at h
  dsimp only at h
  split at h
  · split at h
    · cases h; exact leave_pin _ _
    · cases h; exact hp
  · cases h; exact hp

theorem verbF_pin {op t : Nat} {r : CmdRef} {s s' : State} {f : Cmd → State → State} (hp : s.faultLow = faultN s)
    (h : verbF op t r s f = .next s') : s'.faultLow = faultN s' := by
  unfold verbF at h
  dsimp only at h
  split at h
  · split at h
    · cases h; exact leave_pin _ _
    · cases h; exact hp
  · cases h; exact hp

theorem happens_pin {t : Nat} {s s' : State} {f : State → State} (hp : s.faultLow = faultN s)
    (h : happens t s f = .next s') : s'.faultLow = faultN s' := by
  unfold happens at h
  dsimp only at h
  split at h
  · cases h; exact leave_pin _ _
  · cases h; exact hp

theorem occurs_pin {t : Nat} {s s' : State} {f : State → State} (hp : s.faultLow = faultN s)
    (h : occurs t s f = .next s') : s'.faultLow = faultN s' := by
  unfold occurs at h
  dsimp only at h
  split at h
  · cases h; exact leave_pin _ _
  · cases h; exact hp

theorem always_pin {t : Nat} {s s' : State} {f : State → State} (h : always t s f = .next s') :
    s'.faultLow = faultN s' := by
  cases h; exact leave_pin _ _

theorem alwaysF_pin {t : Nat} {s s' : State} {f : State → State} (h : alwaysF t s f = .next s') :
    s'.faultLow = faultN s' := by
  cases h; exact leave_pin _ _

theorem verb_pending {op t : Nat} {r : CmdRef} {s s' : State} {f : Cmd → State → State}
    (h : verb op t r s f = .next s') : s'.pending = s.pending := by
  unfold verb at h
  dsimp only at h
  split at h
  · split at h <;> · cases h; simp
  · cases h; simp

theorem verbF_pending {op t : Nat} {r : CmdRef} {s s' : State} {f : Cmd → State → State}
    (h : verbF op t r s f = .next s') : s'.pending = s.pending := by
  unfold verbF at h
  dsimp only at h
  split at h
  · split at h <;> · cases h; simp
  · cases h; simp

theorem happens_pending {t : Nat} {s s' : State} {f : State → State} (h : happens t s f = .next s') :
    s'.pending = s.pending := by
  unfold happens at h
  dsimp only at h
  split at h <;> · cases h; simp

theorem occurs_pending {t : Nat} {s s' : State} {f : State → State} (h : occurs t s f = .next s') :
    s'.pending = s.pending := by
  unfold occurs at h
  dsimp only at h
  split at h <;> · cases h; simp

theorem always_pending {t : Nat} {s s' : State} {f : State → State} (h : always t s f = .next s') :
    s'.pending = s.pending := by
  cases h; simp

theorem alwaysF_pending {t : Nat} {s s' : State} {f : State → State} (h : alwaysF t s f = .next s') :
    s'.pending = s.pending := by
  cases h; simp

end Sys2Proof.Machine
end

