-- ==== Sys2Proof/Laws/Runs.lean ====
section
/-! SUPPORT. What a command that runs answers, as one equation for each kind of meaning: its effect `z`, as the statements name
it. -/

namespace Sys2Proof.Safety

open Sys2Proof.Machine

/-- A verb whose effect leaves the collector, the power unit, boot, the line and the queue alone answers its effect. -/
theorem ready_plain {op t : Nat} {r : CmdRef} {s z : State} {f : Cmd → State → State} {c : Cmd} (h : Ready op r c s)
    (e : f c (advance t s) = z) (h1 : z.pending = s.pending) (h2 : z.faultLow = s.faultLow) (h3 : z.flt = s.flt)
    (h4 : z.power = s.power) (h5 : z.boot = s.boot) : verb op t r s f = .next z := by
  obtain ⟨hc, ho, hk, hp⟩ := h
  subst e
  exact verb_plain hc ho hk hp h1 h2 h3 h4 h5

theorem ready_ended {op t : Nat} {r : CmdRef} {s z : State} {f : Cmd → State → State} {c : Cmd} (h : Ready op r c s)
    (e : f c (advance t s) = z) : verb op t r s f = .next (ended t s z) := by
  obtain ⟨hc, ho, hk, hp⟩ := h
  subst e
  exact verb_runs hc ho hk

theorem ready_settled {op t : Nat} {r : CmdRef} {s z : State} {f : Cmd → State → State} {c : Cmd} (h : Ready op r c s)
    (e : f c (advance t s) = z) : verbF op t r s f = .next (settled t s z) := by
  obtain ⟨hc, ho, hk, hp⟩ := h
  subst e
  exact verbF_runs hc ho hk

/-- The reference of a command that is ready is its own. -/
theorem ready_ref {op : Nat} {r : CmdRef} {c : Cmd} {s : State} (h : Ready op r c s) : c.ref = r := findCmd_ref h.1

/-- An event whose effect leaves the collector, the power unit, boot, the line and the queue alone answers its effect. -/
theorem happens_plain {t : Nat} {s z : State} {f : State → State} (ha : awake s = true) (hp : PinDriven s)
    (e : f (advance t s) = z) (h1 : z.pending = s.pending) (h2 : z.faultLow = s.faultLow) (h3 : z.flt = s.flt)
    (h4 : z.power = s.power) (h5 : z.boot = s.boot) : happens t s f = .next z := by
  subst e
  rw [happens_awake ha, leave_eq (s0 := advance t s) (by simpa using h1)]
  rw [h2, faultN_congr h3 h4 h5]; exact hp

theorem always_plain {t : Nat} {s z : State} {f : State → State} (hp : PinDriven s)
    (e : f (advance t s) = z) (h1 : z.pending = s.pending) (h2 : z.faultLow = s.faultLow) (h3 : z.flt = s.flt)
    (h4 : z.power = s.power) (h5 : z.boot = s.boot) : always t s f = .next z := by
  subst e
  unfold always
  dsimp only
  rw [leave_eq (s0 := advance t s) (by simpa using h1)]
  rw [h2, faultN_congr h3 h4 h5]; exact hp

theorem occurs_settled {t : Nat} {s z : State} {f : State → State} (ha : awake s = true)
    (e : f (advance t s) = z) : occurs t s f = .next (settled t s z) := by
  subst e
  exact occurs_awake ha

end Sys2Proof.Safety
end

