-- ==== Sys2Proof/Laws/Store.lean ====
section
/-! SUPPORT. The frame store's memory: every operation on it keeps the one canonical form, and what a read gives after a
write. -/

namespace Sys2Proof.Machine

/-- The frame store's memory is in its canonical form. -/
abbrev StoreWf (s : State) : Prop := kmemWf {} s.store.words = true

theorem wordAt_setWord_same (key : Nat) (w : Word64) (s : State) : wordAt (setWord key w s) key = w :=
  kgetD_kput_same s.store.words key {} w

theorem wordAt_setWord_other (key j : Nat) (w : Word64) (s : State) (h : j ≠ key) :
    wordAt (setWord key w s) j = wordAt s j :=
  kgetD_kput_other s.store.words key j {} w h

theorem setWord_wf (key : Nat) (w : Word64) (s : State) (h : StoreWf s) : StoreWf (setWord key w s) :=
  kmemWf_kput {} s.store.words key w h

theorem modBank_wf (b : Nat) (f : FBank → FBank) (s : State) (h : StoreWf s) : StoreWf (modBank b f s) := h

theorem storeWrite_wf (key data : Nat) (s : State) (h : StoreWf s) : StoreWf (storeWrite key data s) := by
  unfold storeWrite
  dsimp only
  split
  · exact setWord_wf _ _ _ h
  · split
    · exact h
    · split
      · exact setWord_wf _ _ _ h
      · exact setWord_wf _ _ _ (modBank_wf _ _ _ h)

theorem correctable_wf (b key : Nat) (i : Bool) (s : State) (h : StoreWf s) : StoreWf (correctable b key i s) := by
  unfold correctable
  dsimp only
  split <;> exact h

theorem uncorrectable_wf (b key : Nat) (i : Bool) (s : State) (h : StoreWf s) : StoreWf (uncorrectable b key i s) := by
  unfold uncorrectable
  dsimp only
  split
  · exact h
  · split <;> exact h

theorem storeRead_wf (key : Nat) (s : State) (h : StoreWf s) : StoreWf (storeRead key s).2.2 := by
  unfold storeRead
  dsimp only
  split
  · exact h
  · split
    · exact correctable_wf _ _ _ _ (setWord_wf _ _ _ h)
    · exact uncorrectable_wf _ _ _ _ h

theorem invalidate_wf (key : Nat) (s : State) (h : StoreWf s) : StoreWf (invalidate key s) := setWord_wf _ _ _ h

theorem dropObject_wf (kind obj copy : Nat) (s : State) (h : StoreWf s) : StoreWf (dropObject kind obj copy s) := by
  have e : (dropObject kind obj copy s).store.words = kfilter s.store.words fun k _ =>
      !(decide (wordKey kind obj copy 0 ≤ k) && decide (k < wordKey kind obj copy 0 + 2 ^ 28)) := rfl
  rw [StoreWf, e]
  exact kmemWf_filter _ _ _ h

theorem moveObject_wf (kind obj src dst : Nat) (s : State) (h : StoreWf s) : StoreWf (moveObject kind obj src dst s) := by
  unfold moveObject forEach
  dsimp only
  have : ∀ (l : List (Nat × Word64)) (z : State), StoreWf z →
      StoreWf (l.foldl (fun z e => setWord (wordKey kind obj dst (e.1 - wordKey kind obj src 0)) e.2 z) z) := by
    intro l
    induction l with
    | nil => exact fun z hz => hz
    | cons e l ih => exact fun z hz => ih _ (setWord_wf _ _ _ hz)
  exact this _ _ (dropObject_wf _ _ _ _ (dropObject_wf _ _ _ _ h))

theorem reset_wf : StoreWf State.reset := by decide

end Sys2Proof.Machine
end

