-- ==== Sys2Proof/Tests/Slice0.lean ====
section
/-! SUPPORT. Tests: the well-formedness checks, one command or event of each family on small states, and for every statement of
Obligations.lean the states and operands that meet its hypotheses, clause by clause. -/

open Sys2Proof Sys2Proof.Machine Sys2Proof.Safety

namespace Sys2Proof.Tests

set_option Elab.async false

/-! ## Small states -/

/-- A payload from (offset, length, value). -/
def put1 (b : Bytes) (e : Nat × Nat × Nat) : Bytes :=
  let v := leN e.2.1 e.2.2
  let b := b ++ zeros (e.1 + e.2.1 - b.length)
  b.take e.1 ++ v ++ b.drop (e.1 + e.2.1)
def pl (l : List (Nat × Nat × Nat)) : Bytes := l.foldl put1 []

/-- The machine after its boot stages, with its mailboxes served, in pixel service on feed A with four spindles. -/
def up : State :=
  { State.reset with
    boot := { State.reset.boot with stage := 4 }
    hif := { State.reset.hif with ready := true }
    fab := { State.reset.fab with svcLevel := 2, svcFinal := true }
    store := { State.reset.store with up := 2 ^ 32 - 1 }
    sched := { State.reset.sched with coresUp := 255, spindles := (List.range 4).map fun i => (i, { svc := .up }) }
    power := { State.reset.power with feedA := { State.reset.power.feedA with live := true } } }

/-- The state with one command, of tag 7 on mailbox 1, that runs on core 0. -/
def on (op : Nat) (p : Bytes) (s : State := up) : State :=
  { s with cmds := [{ ref := .mbx 1 7, opcode := op, payload := p, core := some 0, phase := .thread }] }

/-- The `k`-th command in flight. -/
def cmdAt (k : Nat) (s : State) : Cmd := s.cmds.getD k { ref := .mbx 0 0, opcode := 0 }
def cmd0 (s : State) : Cmd := cmdAt 0 s

def mode6 (s : State := up) : State := { s with mode := { s.mode with mode := 6, n := 10, counter := 100 } }
def tile0 (n : Nat) : TileRec :=
  { tile := n, chain := 0, pos := n + 1, w := 16, h := 8, cx := 16 * n, cy := 0, rot := 0, low := false, pitch := 2000, coef := 0,
    px := 0, py := 0, pz := 0 }
/-- A wall of one ringed chain of two tiles of 16 × 8, on ports 4 and 5. -/
def wimg : WallImg :=
  { canvasW := 32, canvasH := 8, chains := [{ chain := 0, tiles := 2, format := 0, portA := 4, portB := 5, fs := 0 }],
    tiles := [tile0 0, tile0 1], srcs := [], crc := 5 }
def chp (q : Port) : Port := { q with enabled := true, role := 2, lock := true, speed := 2, signal := true }
/-- That wall in force, its chain enumerated, and a placement that splits it. -/
def walled (s : State := up) : State :=
  { s with wall := { s.wall with active := some wimg }
           link := { s.link with ports := [(4, chp {}), (5, chp {})], chains := [(0, { state := 2 })],
                                 tiles := [(0, { state := 1 }), (1, { state := 1 })] }
           place := { s.place with inForce := { s.place.inForce with
             split := [(0, 1)], runs := [{ chain := 0, first := 1, last := 2, bank := 0 }], woven := [(0, 0, 1), (1, 0, 1)] } } }
/-- A weave of three nodes. -/
def wv : Weave :=
  { id := 9, nodes := [
    { kind := 2, shed := false, a := 255, b := 255, params := pl [(0,4,200000),(4,4,100000),(8,4,50000),(12,1,255),(27,1,0)] },
    { kind := 7, shed := false, a := 0, b := 0, params := pl [(0,2,100),(27,1,0)] },
    { kind := 0x18, shed := false, a := 1, b := 255, params := zeros 28 }] }
/-- That weave in force on that wall. -/
def wov (s : State := walled) : State :=
  { s with weave := { s.weave with active := some wv }, fab := { s.fab with svcLevel := 2 }, store := { s.store with up := 2 ^ 32 - 1 } }
def sps (f : Nat → Spindle) (s : State) : State :=
  { s with sched := { s.sched with spindles := (List.range 32).map fun i => (i, f i) } }


namespace WA
def mb (n : Nat) (f : Mbx → Mbx) (s : State := up) : State := modMbx n f s
def c1 : Cmd := { ref := .mbx 1 7, opcode := 0x0401, phase := .async }
def wA1 : State := mb 1 (fun m => { m with enable := true, tail := 5, head := 65535 }) { up with hif := { up.hif with viol := 0x80000000 } }
def wA2 : State := mb 1 (fun m => { m with enable := true, tail := 5, head := 3, rtail := 7, rhead := 2 })
def wA3 : State := mb 1 fun m => { m with draining := true }
def wA4 : State := { mb 1 (fun m => { m with enable := true, size := 0 }) with cmds := [c1] }
def wA5 : State := { up with fab := { up.fab with bobSel := 6144, bobbins := [(6144, { underrun := true }), (6145, { underrun := true })] } }
def wA6 : State := { up with reel := { up.reel with loading := true, loaded := [[1],[2]] } }
end WA

namespace WB
def mb (n : Nat) (f : Mbx → Mbx) (s : State := up) : State := modMbx n f s
def en (m : Mbx) : Mbx := { m with enable := true, tail := 5 }
def c1 : Cmd := { ref := .mbx 1 7, opcode := 0x0401, phase := .async }
def qq : Cmd := { ref := .cue 3 0, opcode := 0x0401, phase := .thread }
def c2 : Cmd := { ref := .mbx 2 9, opcode := 1, payload := [1], phase := .thread, core := some 3 }
def onA (n tag : Nat) (l : List Cmd) (s : State := up) : State := { s with cmds := { ref := .mbx 1 8, opcode := 0x0101, payload := pl [(0,1,n),(2,2,tag),(7,1,0)], phase := .thread, core := some 0 } :: l }
def r1 : CRec := { tag := 1, opcode := 0, status := 0, payload := [1,2,3], respLen := 2 }
def ev : Ev := { code := 1, data := zeros 16, time := 0, source := 2 }
def inb (k : Nat) (s : State) : State := { s with cmds := s.cmds.map fun c => { c with inband := some { key := k, secret := [], seq := 1, port := 1, ip := 1, udp := 1 } } }
def hk (s : State) : State := { s with hif := { s.hif with keys := [(1, List.replicate 32 5#8)], keySeq := [(1, 44)] } }
def sv (s : State := up) : State := { (hk s) with hif := { (hk s).hif with inband := true, inbEnabled := true, inbPort := 6, inbUdp := 99, inbIp := 1, inbKeys := 2 }, link := { s.link with ports := [(6, { enabled := true, role := 1 })] } }
def w (k p o : Nat) : Cmd := { ref := .mbx 1 k, opcode := 0, phase := .waiting, prio := p, order := o }
def wB1 : State := mb 1 en
def wB2 : State := { { up with cmds := [w 1 8 0, w 2 9 1] } with sched := { { up with cmds := [w 1 8 0, w 2 9 1] }.sched with coresUp := 255 } }
def wB3 : State := { { up with now := 300000, cmds := [{ w 1 8 0 with phase := .thread, core := some 0 }, w 2 8 1] } with sched := { { up with now := 300000, cmds := [{ w 1 8 0 with phase := .thread, core := some 0 }, w 2 8 1] }.sched with coresUp := 255 } }
def wB4 : State := { { up with cmds := [{ w 1 8 0 with phase := .thread, core := some 0 }, w 2 9 1] } with sched := { { up with cmds := [{ w 1 8 0 with phase := .thread, core := some 0 }, w 2 9 1] }.sched with coresUp := 255 } }
def wB5 : State := mb 1 (fun m => { en m with recs := [r1, { r1 with tag := 2 }] })
def wB6 : State := mb 1 (fun m => { en m with recs := [r1], rtail := 16 })
def wB7 : State := mb 1 (fun m => { en m with recs := [{ r1 with after := some (2, 5) }] }) (mb 2 (fun m => { en m with recs := [{ r1 with tag := 5 }] }))
def wB8 : State := mb 0 en { up with hif := { up.hif with evq := [ev, ev] } }
def wB9 : State := on 0 [1,2]
def wB10 : State := on 1 []
def wB11 : State := on 0x7777 [1]
def wB12 : State := onA 1 7 [c1]
def wB13 : State := onA 1 9 [c1] (mb 1 fun m => { m with tags := [(9, 1000)] })
def wB14 : State := onA 1 8 [c1]
def wB15 : State := { up with cmds := [{ c1 with deadline := some 1000 }, { c2 with deadline := some 1001 }, qq] }
def wB16 : State := { mb 1 (fun m => { m with draining := true }) with cmds := [c1, { c1 with ref := .mbx 1 9 }, c2], sched := { up.sched with drains := [{ function := 1, inst := 1 }, { function := 0xFF, inst := 1, expires := 1000 }] } }
def wB17 : State := mb 1 (fun m => { m with tags := [(9, 1000), (5, 1001)] })
def wB18 : State := on 0x0103 (pl [(0,1,1),(4,4,77),(35,1,0)])
def wB19 : State := inb 1 (on 0x0103 (pl [(0,1,1),(4,4,77),(35,1,0)]))
def wB20 : State := on 0x0102 (pl [(0,1,1),(1,1,63),(2,2,99),(4,4,0x0A000001),(8,1,2),(15,1,0)]) (hk up)
def wB21 : State := sv
def vB1 : Bytes :=
  ([0x00#8, 0x00#8, 0x07#8, 0x00#8, 0x04#8] ++ List.replicate 20 0x00#8 ++ [0x10#8] ++ List.replicate 6 0x00#8 ++ [0x40#8] ++ List.replicate 31 0x00#8)
def vB2 : Cmd :=
  { ref := CmdRef.mbx 1 7, opcode := 1025, ordered := false, deadline := none, payload := [], respAddr := 0x0000000000000000#64, respLen := 0, inband := none, order := 0, base := 8, prio := 8, turn := 0, since := 0, phase := Phase.async, core := none, takenAt := 0 }
def vB3 : Cmd :=
  { ref := CmdRef.cue 3 0, opcode := 1025, ordered := false, deadline := none, payload := [], respAddr := 0x0000000000000000#64, respLen := 0, inband := none, order := 0, base := 8, prio := 8, turn := 0, since := 0, phase := Phase.thread, core := none, takenAt := 0 }
def vB4 : CRec :=
  { tag := 1, opcode := 0, status := 0, detail := 0x0000000000000000#64, payload := [0x01#8, 0x02#8, 0x03#8], respAddr := 0x0000000000000000#64, respLen := 2, inband := none, time := 0, after := none }
def vB5 : List CRec :=
  [{ tag := 2, opcode := 0, status := 0, detail := 0x0000000000000000#64, payload := [0x01#8, 0x02#8, 0x03#8], respAddr := 0x0000000000000000#64, respLen := 2, inband := none, time := 0, after := none }]
def vB6 : CRec :=
  { tag := 1, opcode := 0, status := 0, detail := 0x0000000000000000#64, payload := [0x01#8, 0x02#8, 0x03#8], respAddr := 0x0000000000000000#64, respLen := 2, inband := none, time := 0, after := some (2, 5) }
def vB7 : CRec :=
  { tag := 5, opcode := 0, status := 0, detail := 0x0000000000000000#64, payload := [0x01#8, 0x02#8, 0x03#8], respAddr := 0x0000000000000000#64, respLen := 2, inband := none, time := 0, after := none }
def vB8 : Ev :=
  { code := 1, data := (List.replicate 16 0x00#8), time := 0, source := 2 }
def vB9 : List Ev :=
  [{ code := 1, data := (List.replicate 16 0x00#8), time := 0, source := 2 }]
def vB10 : Datagram :=
  { port := 6, dstIp := 0x00000001#32, udpPort := 99, srcIp := 0x00000002#32, srcUdp := 3, fragment := false, payload := ([0x01#8, 0x01#8, 0x00#8, 0x00#8, 0x2d#8] ++ List.replicate 9 0x00#8 ++ [0x03#8] ++ List.replicate 13 0x00#8 ++ [0x16#8, 0xc0#8, 0x2a#8, 0x59#8, 0xdb#8, 0x0a#8, 0x09#8, 0xe5#8, 0xab#8, 0x40#8, 0x55#8, 0x51#8, 0x7a#8, 0xac#8, 0x97#8, 0x75#8, 0xd3#8, 0xef#8, 0x7b#8, 0x15#8, 0x88#8, 0x8c#8, 0x9d#8, 0xb3#8, 0x82#8, 0x5a#8, 0x38#8, 0x05#8, 0x21#8, 0xe4#8, 0xa4#8, 0xde#8]) }
end WB

namespace WC
def chB (id n a b : Nat) : Bytes := pl [(0,1,id),(1,1,n),(2,1,0),(4,1,a),(5,1,b),(15,1,0)]
def tlB (id c p x : Nat) : Bytes := pl [(0,2,id),(2,1,c),(3,1,p),(4,2,16),(6,2,8),(8,4,x),(18,2,2000),(39,1,0)]
def img (crc : Nat) (chs tls srs : List Bytes) : Bytes :=
  let n := 32 + 16 * chs.length + 40 * tls.length + 24 * srs.length
  let b := pl [(0,4,0x314C5250),(4,2,1),(6,2,tls.length),(8,1,chs.length),(10,2,srs.length),(12,4,32),(16,4,8),(20,4,n),(31,1,0)] ++ chs.flatten ++ tls.flatten ++ srs.flatten
  put1 b (24, 4, crc)
def im1 : Bytes := img 3121807144 [chB 0 2 4 5] [tlB 0 0 1 0, tlB 1 0 2 16] []
def stg (b : Bytes) (s : State := up) : State := { s with wall := { s.wall with staged := b, stagedTotal := b.length } }
def frag (o t : Nat) (d : Bytes) : Bytes := pl [(0,4,o),(4,4,t),(15,1,0)] ++ d
def pn (k c f l o t : Nat) : List (Nat×Nat×Nat) := [(0,1,k),(1,1,c),(2,1,f),(3,1,l),(4,2,o),(6,2,t),(15,1,0)]
def pinned (s : State := walled) : State := { s with place := { s.place with pins := [{ num := 3, kind := 0, chain := 0, first := 1, last := 1, object := 0, target := 2 }] } }
def due (s : State) : State := placeTrigger 1 0 0 s
def wC1 : State := on 0x0201 (frag 0 im1.length im1) up
def wC2 : State := on 0x0201 (frag 0 100 []) up
def wC3 : State := on 0x0203 [] up
def wC4 : State := on 0x0202 [] (stg im1 { up with wall := { up.wall with pending := some (wimg, true) } })
def wC5 : State := on 0x0202 [] (stg (im1.set 0 0))
def wC6 : State := on 0x0202 [] (stg (im1.set 24 0))
def wC7 : State := on 0x0202 [] (stg im1)
def wC8 : State := on 0x0301 (pl [(0,1,4)])
def wC9 : State := on 0x0301 (pl [(0,1,1)])
def wC10 : State := on 0x0301 (pl [(0,1,0)])
def wC11 : State := on 0x0302 (pl (pn 0 0 1 2 0 3)) walled
def wC12 : State := on 0x0303 (pl [(0,2,3)]) pinned
def wC13 : State := on 0x0303 (pl [(0,2,3)]) walled
def wC14 : State := on 0x0304 (pl [])
def wC15 : State := due up
def wC16 : State := { up with place := { up.place with pendProfile := some 0 } }
def vC1 : WallImg :=
  { canvasW := 32, canvasH := 8, chains := [{ chain := 0, tiles := 2, format := 0, portA := 4, portB := 5, fs := 0 }], tiles := [{ tile := 0, chain := 0, pos := 1, w := 16, h := 8, cx := 0, cy := 0, rot := 0, low := false, pitch := 2000, coef := 0, px := 0, py := 0, pz := 0 }, { tile := 1, chain := 0, pos := 2, w := 16, h := 8, cx := 16, cy := 0, rot := 0, low := false, pitch := 2000, coef := 0, px := 0, py := 0, pz := 0 }], srcs := [], crc := 0x00000005#32 }
theorem im1_zeroed : im1.take 24 ++ zeros 4 ++ im1.drop 28 =
    ([80, 82, 76, 49, 1, 0, 2, 0, 1, 0, 0, 0, 32, 0, 0, 0, 8, 0, 0, 0, 128, 0, 0, 0, 0, 0, 0, 0, 0, 0, 0, 0, 0, 2,
      0, 0, 4, 5, 0, 0, 0, 0, 0, 0, 0, 0, 0, 0, 0, 0, 0, 1, 16, 0, 8, 0, 0, 0, 0, 0, 0, 0, 0, 0, 0, 0, 208, 7, 0, 0,
      0, 0, 0, 0, 0, 0, 0, 0, 0, 0, 0, 0, 0, 0, 0, 0, 0, 0, 1, 0, 0, 2, 16, 0, 8, 0, 16, 0, 0, 0, 0, 0, 0, 0, 0, 0,
      208, 7, 0, 0, 0, 0, 0, 0, 0, 0, 0, 0, 0, 0, 0, 0, 0, 0, 0, 0, 0, 0] : Bytes) := by
  decide +kernel
theorem crc_im1 : wallCrc im1 = 3121807144#32 := by
  rw [wallCrc, im1_zeroed]
  simp [crc32, crcByte, crcBit]
theorem crc_bad : wallCrc (im1.set 24 0) = 3121807144#32 :=
  (congrArg crc32 (by decide +kernel :
    (im1.set 24 0).take 24 ++ zeros 4 ++ (im1.set 24 0).drop 28 = im1.take 24 ++ zeros 4 ++ im1.drop 28)).trans crc_im1
end WC

namespace WD
def n0 : Node := wv.nodes.headD { kind := 0, shed := false, a := 0, b := 0, params := [] }
def we (f : WeaveSt → WeaveSt) (s : State := wov) : State := { s with weave := f s.weave }
def npay (l : List Node) (id : Nat := 9) : Bytes := padTo 16 (pl [(0,2,id),(2,1,l.length),(15,1,0)]) ++ l.flatMap fun n => leN 1 n.kind ++ leN 1 (b2n n.shed) ++ leN 1 n.a ++ leN 1 n.b ++ padTo 28 n.params
def good : Bytes := npay wv.nodes
def m6 (s : State) : State := mode6 s
def onc (s : State) : State := { s with cmds := [{ ref := .mbx 1 7, opcode := 0x0401, phase := .async }] }
def pp (e : List (Nat×Nat×Nat) := []) : List (Nat×Nat×Nat) := [(0,2,9),(12,1,1),(16,1,1),(20,2,77),(47,1,0)] ++ e
def pq1 : ParamWait := { ref := .mbx 1 7, order := 0, timed := false, weaveId := 9, epoch := 0, at_ := 5, late := 0, grace := 0, entries := [(1, pl [(0,2,3),(27,1,0)])] }
def vd (e : List (Nat×Nat×Nat) := []) : List (Nat×Nat×Nat) := [(0,2,5),(2,1,2),(3,1,1),(4,1,239),(12,2,5000),(14,1,10),(16,2,1920),(18,2,1080),(24,1,0)] ++ e
def ad (e : List (Nat×Nat×Nat) := []) : List (Nat×Nat×Nat) := [(0,1,3),(1,1,2),(2,1,8),(3,1,56),(12,2,5004),(17,1,0),(19,1,0)] ++ e
def mp (e : List (Nat×Nat×Nat) := []) : List (Nat×Nat×Nat) := [(0,2,5),(2,1,255),(3,1,3),(4,2,10),(8,2,16),(10,2,8),(15,1,0)] ++ e
def hp (e : List (Nat×Nat×Nat) := []) : List (Nat×Nat×Nat) := [(0,2,5),(2,1,1),(3,1,0),(6,2,16),(8,2,8),(15,1,0)] ++ e
def ing (f : Ingest → Ingest) (s : State := wov) : State := { s with ing := f s.ing }
def vid (p : Nat) : Video := { port := p, sampling := 0, group := 0, filterIp := 0, udp := 5000, depth := 10, bt2020 := false, pq := false, full := false, bpm := false, w := 16, h := 8, nits := 100, thresh := 0 }
def aud : Audio := { port := 2, channels := 2, first := 0, group := 0, filterIp := 0, udp := 5004, ptime := 0, offsetUs := 1000 }
def pm : PMap := { port := 255, channels := 3, firstUniv := 10, sync := 7, w := 200, h := 1, serpentine := false, transfer := 0, gamma := 0 }
def hpl : HPlane := { layout := 0, transfer := 0, gamma := 0, w := 4, h := 2 }
def sbm : Submit := { ref := .mbx 1 7, when_ := 0, epoch := 0, policy := 0, grace := 0, addr := 0, stride := 16 }
def pls (f : HPlane → HPlane) (s : State := wov) : State := ing (fun i => { i with planes := [(5, f hpl)] }) s
def p2 (s : State) : State := { s with link := { s.link with ports := (2, { enabled := true, role := 1 }) :: (3, { enabled := true, role := 1 }) :: s.link.ports } }
def cutv : Video := { vid 2 with verdict := some (1, 2, false), verdictLen := 100, opened := true }
def wD1 : State := on 0x0401 good (we fun w => { w with pend := some wv })
def wD2 : State := on 0x0401 good wov
def wD3 : State := on 0x0401 (npay []) wov
def wD4 : State := onc (we fun w => { w with building := some (.mbx 1 7, wv) })
def wD5 : State := onc (we (fun w => { w with building := some (.mbx 1 7, wv), active := none }) (m6 wov))
def wD6 : State := on 0x0402 (pl [(4,2,2),(8,4,5),(31,1,1)]) (we (fun w => { w with active := some { wv with nodes := { n0 with kind := 0x0B, params := zeros 28 } :: wv.nodes.drop 1 } }))
def wD7 : State := on 0x0402 (pl [(0,1,15),(2,2,1024),(4,2,1),(8,4,5),(12,4,6),(16,4,7)]) wov
def wD8 : State := on 0x0404 (pl [])
def wD9 : State := on 0x0405 (pl []) wov
def wD10 : State := on 0x0405 (pl [])
def wD11 : State := on 0x0403 (pl pp) wov
def wD12 : State := on 0x0403 (pl pp) (m6 wov)
def wD13 : State := on 0x0403 (pl pp) (we (fun w => { w with params := List.replicate 16 pq1 }) (m6 wov))
def wD14 : State := on 0x0501 (pl vd) wov
def wD15 : State := on 0x0502 (pl ad) wov
def wD16 : State := on 0x0503 (pl [(0,1,31),(1,1,255)]) wov
def wD17 : State := on 0x0505 (pl hp) wov
def wD18 : State := on 0x0504 (pl mp) wov
def wD19 : State := on 0x0507 (pl [(0,1,2),(2,2,5)]) (ing (fun i => { i with maps := [(5, pm)], videos := [(5, vid 3)] }))
def wD20 : State := on 0x0507 (pl [(2,2,5)]) wov
def wD21 : State := on 0x0508 (pl [(2,2,5)]) (ing (fun i => { i with videos := [(5, { vid 3 with cnt := { packets := 7, frames := 9 } })] }))
def wD22 : State := on 0x0509 (pl []) wov
def wD23 : State := on 0x0506 (pl [(0,2,5),(16,4,64)]) (pls id)
def wD24 : State := on 0x0506 (pl [(0,2,5),(16,4,64)]) (pls fun h => { h with sub := some sbm })
def wD25 : State := on 0x0506 (pl [(0,2,6),(16,4,64)]) (pls id)
def wD26 : State := p2 wov
def wD27 : State := p2 (ing (fun i => { i with videos := [(5, vid 2)] }))
def wD28 : State := p2 (ing (fun i => { i with videos := [(5, { vid 2 with lost := false, opened := true, seq := some 4, ts := some 9000 })], audios := [(1, aud)] }))
def wD29 : State := p2 (ing (fun i => { i with videos := [(5, { vid 2 with lost := false, lastAt := 50 })] }))
def wD30 : State := p2 (ing (fun i => { i with maps := [(5, { pm with port := 2, univs := [(0, { wait := some { slots := [5] } }), (1, { pend := some { slots := [4] } })] })], univs := [(univKey 10 2, { srcs := [{ cid := 77, prio := 100, seq := 2, lastAt := 50, data := { slots := [9] } }] })] }))
def wD31 : State := p2 (ing (fun i => { i with videos := [(5, cutv)] }))
def vD1 : Weave :=
  { id := 9, nodes := [{ kind := 2, shed := false, a := 255, b := 255, params := ([0x40#8, 0x0d#8, 0x03#8, 0x00#8, 0xa0#8, 0x86#8, 0x01#8, 0x00#8, 0x50#8, 0xc3#8, 0x00#8, 0x00#8, 0xff#8] ++ List.replicate 15 0x00#8) }, { kind := 7, shed := false, a := 0, b := 0, params := ([0x64#8] ++ List.replicate 27 0x00#8) }, { kind := 24, shed := false, a := 1, b := 255, params := (List.replicate 28 0x00#8) }] }
def vD2 : Nat × NodeSt :=
  (0, { ramp := 0, lastVal := none, sat := 0x0000000000000000#64, nan := 0x00000000#32, paramPoison := 0x00000000#32, invalidIn := 0x00000000#32, poisonIn := 0x00000000#32, excluded := 0x00000000#32 })
def vD3 : ParamWait :=
  { ref := CmdRef.mbx 1 7, order := 0, weaveId := 9, timed := false, epoch := 0x00000000#32, at_ := 5, late := 0, grace := 0, entries := [(1, ([0x03#8] ++ List.replicate 27 0x00#8))] }
def vD4 : IngCnt :=
  { packets := 0x0000000000000007#64, bytes := 0x0000000000000000#64, seqGaps := 0x00000000#32, late := 0x00000000#32, rollbacks := 0x00000000#32, rollbackPx := 0x00000000#32, gapPx := 0x00000000#32, frames := 0x00000009#32, incomplete := 0x00000000#32, skipped := 0x00000000#32, repeated := 0x00000000#32, unmatched := 0x00000000#32, poison := 0x00000000#32 }
def vD5 : HPlane :=
  { layout := 0, transfer := 0, gamma := 0, w := 4, h := 2, front := 0, hasFront := false, pend := none, sub := none, cnt := { packets := 0x0000000000000000#64, bytes := 0x0000000000000000#64, seqGaps := 0x00000000#32, late := 0x00000000#32, rollbacks := 0x00000000#32, rollbackPx := 0x00000000#32, gapPx := 0x00000000#32, frames := 0x00000000#32, incomplete := 0x00000000#32, skipped := 0x00000000#32, repeated := 0x00000000#32, unmatched := 0x00000000#32, poison := 0x00000000#32 } }
def vD6 : HPlane :=
  { layout := 0, transfer := 0, gamma := 0, w := 4, h := 2, front := 0, hasFront := false, pend := none, sub := some { ref := CmdRef.mbx 1 7, when_ := 0, epoch := 0x00000000#32, policy := 0, grace := 0, addr := 0x0000000000000000#64, stride := 16, copied := false, timed := false }, cnt := { packets := 0x0000000000000000#64, bytes := 0x0000000000000000#64, seqGaps := 0x00000000#32, late := 0x00000000#32, rollbacks := 0x00000000#32, rollbackPx := 0x00000000#32, gapPx := 0x00000000#32, frames := 0x00000000#32, incomplete := 0x00000000#32, skipped := 0x00000000#32, repeated := 0x00000000#32, unmatched := 0x00000000#32, poison := 0x00000000#32 } }
def vD7 : Submit :=
  { ref := CmdRef.mbx 1 7, when_ := 0, epoch := 0x00000000#32, policy := 0, grace := 0, addr := 0x0000000000000000#64, stride := 16, copied := false, timed := false }
def vD8 : VideoPkt :=
  { port := 2, group := 0x00000000#32, udpPort := 5000, srcIp := 0x00000001#32, seq := 0x0005#16, ts := 0x00002328#32, marker := false, row := 0, offset := 0, pixels := [(1, 2, 3), (4, 5, 6)], bytes := 100, cut := false, poison := 0 }
def vD9 : Video :=
  { port := 2, sampling := 0, group := 0x00000000#32, filterIp := 0x00000000#32, udp := 5000, depth := 10, bt2020 := false, pq := false, full := false, bpm := false, w := 16, h := 8, nits := 100, thresh := 0, seq := none, ts := none, prevTs := none, opened := false, next := 0, gaps := 0, verdict := none, verdictLen := 0, verdictPoison := false, front := 0, hasFront := false, frontCrc := 0x00000000#32, woven := false, read := false, lost := true, lastAt := 0, cnt := { packets := 0x0000000000000000#64, bytes := 0x0000000000000000#64, seqGaps := 0x00000000#32, late := 0x00000000#32, rollbacks := 0x00000000#32, rollbackPx := 0x00000000#32, gapPx := 0x00000000#32, frames := 0x00000000#32, incomplete := 0x00000000#32, skipped := 0x00000000#32, repeated := 0x00000000#32, unmatched := 0x00000000#32, poison := 0x00000000#32 } }
def vD10 : AudioPkt :=
  { port := 2, group := 0x00000000#32, udpPort := 5004, srcIp := 0x00000001#32, seq := 0x0004#16, rtpTime := 48, samples := [[1, 2], [3, 4]], bytes := 90, poison := 0 }
def vD11 : Audio :=
  { port := 2, channels := 2, first := 0, group := 0x00000000#32, filterIp := 0x00000000#32, udp := 5004, ptime := 0, offsetUs := 1000, seq := none, queue := [], lost := true, lastAt := 0, cnt := { packets := 0x0000000000000000#64, bytes := 0x0000000000000000#64, seqGaps := 0x00000000#32, late := 0x00000000#32, rollbacks := 0x00000000#32, rollbackPx := 0x00000000#32, gapPx := 0x00000000#32, frames := 0x00000000#32, incomplete := 0x00000000#32, skipped := 0x00000000#32, repeated := 0x00000000#32, unmatched := 0x00000000#32, poison := 0x00000000#32 } }
def vD12 : Video :=
  { port := 2, sampling := 0, group := 0x00000000#32, filterIp := 0x00000000#32, udp := 5000, depth := 10, bt2020 := false, pq := false, full := false, bpm := false, w := 16, h := 8, nits := 100, thresh := 0, seq := some 0x0004#16, ts := some 0x00002328#32, prevTs := none, opened := true, next := 0, gaps := 0, verdict := none, verdictLen := 0, verdictPoison := false, front := 0, hasFront := false, frontCrc := 0x00000000#32, woven := false, read := false, lost := false, lastAt := 0, cnt := { packets := 0x0000000000000000#64, bytes := 0x0000000000000000#64, seqGaps := 0x00000000#32, late := 0x00000000#32, rollbacks := 0x00000000#32, rollbackPx := 0x00000000#32, gapPx := 0x00000000#32, frames := 0x00000000#32, incomplete := 0x00000000#32, skipped := 0x00000000#32, repeated := 0x00000000#32, unmatched := 0x00000000#32, poison := 0x00000000#32 } }
def vD13 : Video :=
  { port := 2, sampling := 0, group := 0x00000000#32, filterIp := 0x00000000#32, udp := 5000, depth := 10, bt2020 := false, pq := false, full := false, bpm := false, w := 16, h := 8, nits := 100, thresh := 0, seq := none, ts := none, prevTs := none, opened := false, next := 0, gaps := 0, verdict := none, verdictLen := 0, verdictPoison := false, front := 0, hasFront := false, frontCrc := 0x00000000#32, woven := false, read := false, lost := false, lastAt := 50, cnt := { packets := 0x0000000000000000#64, bytes := 0x0000000000000000#64, seqGaps := 0x00000000#32, late := 0x00000000#32, rollbacks := 0x00000000#32, rollbackPx := 0x00000000#32, gapPx := 0x00000000#32, frames := 0x00000000#32, incomplete := 0x00000000#32, skipped := 0x00000000#32, repeated := 0x00000000#32, unmatched := 0x00000000#32, poison := 0x00000000#32 } }
def vD14 : USrc :=
  { cid := 0x0000000000000000000000000000004d#128, prio := 100, seq := 0x02#8, lastAt := 50, data := { slots := [0x09#8], poison := false } }
def vD15 : SacnPkt :=
  { port := 2, dst := 0x00000001#32, udpPort := 5568, univ := 10, cid := 0x0000000000000000000000000000004d#128, prio := 100, seq := 0x03#8, startCode := 0x00#8, preview := true, terminated := false, discovery := false, data := [0x01#8, 0x02#8, 0x03#8], bytes := 130, poison := 0 }
def vD16 : SacnPkt :=
  { port := 2, dst := 0x00000001#32, udpPort := 5568, univ := 11, cid := 0x0000000000000000000000000000004d#128, prio := 100, seq := 0x03#8, startCode := 0x00#8, preview := false, terminated := false, discovery := false, data := [0x01#8, 0x02#8, 0x03#8], bytes := 130, poison := 0 }
def vD17 : Video :=
  { port := 2, sampling := 0, group := 0x00000000#32, filterIp := 0x00000000#32, udp := 5000, depth := 10, bt2020 := false, pq := false, full := false, bpm := false, w := 16, h := 8, nits := 100, thresh := 0, seq := none, ts := none, prevTs := none, opened := true, next := 0, gaps := 0, verdict := some (1, 2, false), verdictLen := 100, verdictPoison := false, front := 0, hasFront := false, frontCrc := 0x00000000#32, woven := false, read := false, lost := true, lastAt := 0, cnt := { packets := 0x0000000000000000#64, bytes := 0x0000000000000000#64, seqGaps := 0x00000000#32, late := 0x00000000#32, rollbacks := 0x00000000#32, rollbackPx := 0x00000000#32, gapPx := 0x00000000#32, frames := 0x00000000#32, incomplete := 0x00000000#32, skipped := 0x00000000#32, repeated := 0x00000000#32, unmatched := 0x00000000#32, poison := 0x00000000#32 } }
end WD

namespace WE
def st (f : StoreSt → StoreSt) (s : State := wov) : State := { s with store := f s.store }
def pw (s : State) : State := { s with place := { s.place with inForce := { s.place.inForce with woven := [(0, (3, 7))] } } }
def k0 := wordKey 0 0 0 5
def k1 := wordKey 0 0 1 5
def kc := wordKey 2 1 0 2
def fl : FlashCorr := { px := 128, record := 0, data := List.replicate 1024 5, crc := crc32 (List.replicate 1024 5), offset := 131072 }
def co (c : Corr) (s : State := wov) : State := st (fun x => { x with corr := [(1, c)], flash := [(1, fl)] }) s
/-- The wall with tiles of one pixel. -/
def cp (r : Bool) : CorrCopy := { record := 0, bank := 2, ref := if r then none else some (.mbx 1 7) }
def hk (i : Nat) : Hank := { tile := i % 2, epoch := 77, first := 0, count := 4 }
def sp1 : State := sps (fun i => { svc := if i = 5 then .disabled else .up, hank := if i = 1 then some (hk 1) else none, prefetch := if i = 1 then [hk 0] else [], draining := i == 9 }) wov
def bk (f : SBank → SBank) (s : State := sp1) : State := { s with sched := { s.sched with banks := [(0, f {})] }, place := { s.place with inForce := { s.place.inForce with powered := [0, 1] } } }
def bb (f : Bobbin → Bobbin) : State := { up with fab := { up.fab with bobbins := [(6144, f {}), (20480, f {}), (10240, f {})] } }
def bw (n : Nat) (e : Bool) (p : Bool := false) : BWord := { word := BitVec.ofNat 64 n, poison := p, eoi := e }
def fb (f : Fab → Fab) (s : State := bk (fun b => { b with remaining := 900 }) (sps (fun i => { svc := .up }) (wov (walled mode6)))) : State := { s with fab := f { s.fab with frozen := false } }
def wE1 : State := st (fun x => { x with up := 2^32 - 1 - 2^7 }) (pw wov)
def wE2 : State := st (fun x => { x with words := [(k0, { data := 7, err := 1, injected := true }), (k1, { data := 9, err := 2, injected := true })] }) (pw wov)
def wE3 : State := on 0x0604 (pl [(0,4,10)])
def wE4 : State := on 0x0604 (pl [(0,4,9)])
def wE5 : State := on 0x0605 (pl []) wov
def wE6 : State := on 0x0606 (pl [(0,1,7)]) wov
def wE7 : State := on 0x0606 (pl [(0,1,32)]) wov
def wE8 : State := on 0x0607 (pl [(0,1,3),(1,1,1)]) wov
def wE9 : State := on 0x0607 (pl [(0,1,7),(1,1,2)]) (st (fun x => { x with up := 2^32 - 1 - 2^7 }) (pw wov))
def wE10 : State := st (fun x => { x with words := [(k0, { data := 7, err := 2 })], banks := [(3, { armed := [1,2] })] }) (pw wov)
def wE11 : State := on 0x0601 (pl [(0,2,1),(16,4,1024)]) (st (fun x => { x with up := 1 }) wov)
def wE12 : State := on 0x0601 (pl [(0,2,1),(16,4,1024)]) (co { load := some (cp false) })
def wE13 : State := on 0x0603 (pl [(0,2,1)]) (st (fun x => { x with up := 1 }) wov)
def wE14 : State := on 0x0601 (pl [(0,2,1),(16,4,1024)]) (co { rest := some (cp true) })
def wE15 : State := on 0x0602 (pl [(0,2,1)]) (co { present := true, bank := 4 })
def wE16 : State := on 0x0602 (pl [(0,2,0xFFFF)]) (st (fun x => { x with up := 1 }) wov)
def wE17 : State := on 0x0601 (pl [(0,2,1),(16,4,1024)]) (co { present := true, persisting := true })
def wE18 : State := st (fun x => { x with scrubFrom := 5 }) wov
def wE19 : State := st (fun x => { x with words := [(k0, { data := 7 }), (k1, { data := 9, err := 1 }), (kc, { data := 3 })] }) (pw wov)
def wE20 : State := on 0x0703 (pl [])
def wE21 : State := on 0x0703 (pl [(0,4,10000),(4,4,10000)])
def wE22 : State := on 0x0703 (pl [(0,4,10000),(4,4,10000)]) mode6
def wE23 : State := on 0x0705 (pl [(4,4,5)])
def wE24 : State := on 0x0705 (pl [(4,4,1001)])
def wE25 : State := on 0x0706 (pl [(0,1,1),(1,1,6)])
def wE26 : State := on 0x0706 (pl [(0,1,16),(1,1,8)])
def wE27 : State := on 0x0701 (pl [])
def wE28 : State := on 0x0702 (pl [])
def wE29 : State := on 0x0702 (pl [(0,1,16)])
def wE30 : State := on 0x0707 (pl [])
def wE31 : State := on 0x0704 (pl []) sp1
def wE32 : State := on 0x0704 (pl [(0,1,1),(2,2,5)]) sp1
def wE33 : State := on 0x0704 (pl [(2,2,256)]) sp1
def wE34 : State := bk fun b => { b with ready := [hk 0, hk 1] }
def wE35 : State := bk id
def wE36 : State := bk (fun b => { b with takes := [2] }) (sps (fun i => { svc := .up, blocked := if i = 2 then some 100 else none }) wov)
def wE37 : State := bk (fun b => { b with idleSince := some 100 }) (sps (fun i => { svc := .up, idle := true }) wov)
def wE38 : State := bk (fun b => { b with idleSince := some 100 }) { sp1 with place := { sp1.place with profile := 3 } }
def wE39 : State := bb fun b => { b with words := [bw 1 false, bw 2 true true] }
def wE40 : State := bb fun b => { b with words := List.replicate 63 (bw 1 true) ++ [bw 2 false] }
def wE41 : State := bb fun b => { b with words := [bw 1 true], thresh := 1, underrun := true }
def wE42 : State := fb id
def wE43 : State := fb fun f => { f with vcore := 1000 }
def vE1 : WallImg :=
  { canvasW := 32, canvasH := 8, chains := [{ chain := 0, tiles := 2, format := 0, portA := 4, portB := 5, fs := 0 }], tiles := [{ tile := 0, chain := 0, pos := 1, w := 16, h := 8, cx := 0, cy := 0, rot := 0, low := false, pitch := 2000, coef := 0, px := 0, py := 0, pz := 0 }, { tile := 1, chain := 0, pos := 2, w := 16, h := 8, cx := 16, cy := 0, rot := 0, low := false, pitch := 2000, coef := 0, px := 0, py := 0, pz := 0 }], srcs := [], crc := 0x00000005#32 }
def vE2 : TileRec :=
  { tile := 1, chain := 0, pos := 2, w := 16, h := 8, cx := 16, cy := 0, rot := 0, low := false, pitch := 2000, coef := 0, px := 0, py := 0, pz := 0 }
def vE3 : Hank :=
  { tile := 0, epoch := 0x0000004d#32, first := 0, count := 4, poison := false, go := none }
def vE4 : List Hank :=
  [{ tile := 1, epoch := 0x0000004d#32, first := 0, count := 4, poison := false, go := none }]
end WE

namespace WF
def mo (f : ModeSt → ModeSt) (s : State := mode6) : State := { s with mode := f s.mode }
def pe : ModePend := { mode := 3, phase := 5, slots := 7, bc := 50, ref := some (.mbx 1 7), status := 0, detail := 0 }
def ms (m : Nat) (e : List (Nat×Nat×Nat) := []) := [(0,1,m),(31,1,0)] ++ e
def act : State := wov (walled (mode6))
def sent : State := { act with link := { act.link with sending := true, epoch := 77 }, mode := { act.mode with weaving := true } }
def hk (i : Nat) : Hank := { tile := i % 2, epoch := 77, first := 0, count := 4 }
def spn : State := sps (fun i => { svc := .up, hank := if i = 1 then none else some (hk i), done := if i = 2 then 4 else if i = 3 then 2 else 0, prefetch := if i % 4 = 2 then [hk 1, hk 0] else [], pxStart := 100 }) sent
def onc (s : State) : State := { s with cmds := [{ ref := .mbx 1 7, opcode := 1 }] }
def drs : State := sps (fun i => { svc := .up, draining := i == 2 }) { wov with sched := { wov.sched with drains := [{ function := 0, inst := 2, expires := 100 }] } }
def dr (f n : Nat) (s : State) : State := { s with sched := { s.sched with drains := [{ function := f, inst := n, expires := 100 }] } }
def txf (k : TxKind) : TxFrame := { kind := k, body := [1], len := 60 }
def prt (n : Nat) (f : Port → Port) (s : State := walled) : State := { s with link := { s.link with ports := kset s.link.ports n (f (portOf s n)) } }
def rl (h : Nat) : Reply := { hop := h, maxVer := 2, formats := 7, vendor := 1, model := 2, serial := 9, width := 16, height := 8, speeds := 7, latF := [1,2,3,4], latR := [1,2,3,4] }
def ch (f : ChainLink → ChainLink) (s : State := walled) : State := { s with link := { s.link with chains := [(0, f { state := 1 })] } }
def wF1 : State := beginWeave 77 (wov (walled mode6))
def wF2 : State := beginWeave 77 up
def wF3 : State := spn
def wF4 : State := sent
def wF5 : State := on 0x0801 (pl (ms 0))
def wF6 : State := on 0x0801 (pl (ms 3)) (mo (fun m => { m with pending := some pe }))
def wF7 : State := on 0x0801 (pl (ms 6)) mode6
def wF8 : State := on 0x0801 (pl (ms 3))
def wF9 : State := on 0x0802 (pl [])
def wF10 : State := on 0x0803 (pl [(0,1,2)])
def wF11 : State := on 0x0803 (pl [])
def wF12 : State := on 0x0804 (pl []) (mo (fun m => { m with calm := true }))
def wF13 : State := on 0x0804 (pl [])
def wF14 : State := { up with mode := { up.mode with pending := some pe } }
def wF15 : State := mo (fun m => { m with pending := some { pe with bc := nextBoundary mode6 } })
def wF16 : State := dr 0 1 spn
def wF17 : State := dr 2 1 up
def wF18 : State := dr 3 10 up
def wF19 : State := dr 4 1 up
def wF20 : State := dr 1 2 (onc (prt 2 fun q => { q with enabled := false, role := 1, off := some (.mbx 1 7), queue := [txf .hello, txf .hello] }))
def wF21 : State := drs
def wF22 : State := ch (fun c => { c with phase := 2, foundA := [(1, rl 1), (2, rl 2)], foundB := [(1, rl 1), (2, rl 2)], sampA := [(1, [5,6]), (2, [7])], sampB := [(1, [5]), (2, [8])] })
def wF23 : State := ch (fun c => { c with phase := 1, began := 100 })
def vF1 : Skein :=
  { tile := 0, idx := 0, first := 0, npx := 128, acks := [], closed := false, sends := 0, dropped := false }
def vF2 : Hank :=
  { tile := 0, epoch := 0x0000004d#32, first := 0, count := 4, poison := false, go := none }
def vF3 : WallImg :=
  { canvasW := 32, canvasH := 8, chains := [{ chain := 0, tiles := 2, format := 0, portA := 4, portB := 5, fs := 0 }], tiles := [{ tile := 0, chain := 0, pos := 1, w := 16, h := 8, cx := 0, cy := 0, rot := 0, low := false, pitch := 2000, coef := 0, px := 0, py := 0, pz := 0 }, { tile := 1, chain := 0, pos := 2, w := 16, h := 8, cx := 16, cy := 0, rot := 0, low := false, pitch := 2000, coef := 0, px := 0, py := 0, pz := 0 }], srcs := [], crc := 0x00000005#32 }
def vF4 : Weave :=
  { id := 9, nodes := [{ kind := 2, shed := false, a := 255, b := 255, params := ([0x40#8, 0x0d#8, 0x03#8, 0x00#8, 0xa0#8, 0x86#8, 0x01#8, 0x00#8, 0x50#8, 0xc3#8, 0x00#8, 0x00#8, 0xff#8] ++ List.replicate 15 0x00#8) }, { kind := 7, shed := false, a := 0, b := 0, params := ([0x64#8] ++ List.replicate 27 0x00#8) }, { kind := 24, shed := false, a := 1, b := 255, params := (List.replicate 28 0x00#8) }] }
def vF5 : TileRec :=
  { tile := 0, chain := 0, pos := 1, w := 16, h := 8, cx := 0, cy := 0, rot := 0, low := false, pitch := 2000, coef := 0, px := 0, py := 0, pz := 0 }
def vF6 : Hank :=
  { tile := 1, epoch := 0x0000004d#32, first := 0, count := 4, poison := false, go := none }
def vF7 : List Hank :=
  [{ tile := 0, epoch := 0x0000004d#32, first := 0, count := 4, poison := false, go := none }]
def vF8 : ModePend :=
  { mode := 3, phase := 5, slots := 0x00000007#32, bc := 50, ref := some (CmdRef.mbx 1 7), status := 0, detail := 0 }
def vF9 : ModePend :=
  { mode := 3, phase := 5, slots := 0x00000007#32, bc := 166666667, ref := some (CmdRef.mbx 1 7), status := 0, detail := 0 }
def vF10 : ChainRec :=
  { chain := 0, tiles := 2, format := 0, portA := 4, portB := 5, fs := 0 }
end WF

namespace WG
def li (f : LinkSt → LinkSt) (s : State := walled) : State := { s with link := f s.link }
def prt (n : Nat) (f : Port → Port) (s : State := walled) : State := li (fun l => { l with ports := kset l.ports n (f (portOf s n)) }) s
def ch (f : ChainLink → ChainLink) (s : State := walled) : State := li (fun l => { l with chains := [(0, f { state := 2, foundA := [(1, rl)], foundB := [(1, rl)] })] }) s
where rl : Reply := { hop := 1, maxVer := 2, formats := 7, vendor := 1, model := 2, serial := 9, width := 16, height := 8, speeds := 7, latF := [1,2,3,4], latR := [1,2,3,4] }
def fr (k : TxKind) (n : Nat := 64) : TxFrame := { kind := k, epoch := 3, body := [1,2], len := n }
def sk (i : Nat) (n : Nat := 0) : Skein := { tile := i, idx := 0, first := 0, npx := 128, sends := n }
def snd (s : State := walled) : State := li (fun l => { l with epoch := 3, commitAt := 8000000, sending := true, skeins := [sk 0, sk 1 2], tiles := [(0, { state := 1, offA := some 64 }), (1, { state := 1 })] }) { s with fab := { s.fab with svcLevel := 2 } }
def rq (f : SpeedReq → SpeedReq := id) : SpeedReq := f { dest := 1, at_ := 900000, askedAt := 100, need := [1,2] }
def sp (f : SpeedReq → SpeedReq) (s : State := snd) : State := prt 4 (fun q => { q with req := some (rq f) }) s
def pc (p en sp : Nat) (e : List (Nat×Nat×Nat) := []) := [(0,1,p),(1,1,en),(2,1,sp),(15,1,0)] ++ e
def std (f : Port → Port := id) : State := prt 2 (fun q => f { q with enabled := true, role := 1, lock := true, pauseHonour := true })
def lo (p a : Nat) (s : State) : State := { s with flt := { s.flt with lockLostAt := [(p, a)] } }
def wG1 : State := on 0x0901 (pl []) walled
def wG2 : State := on 0x0901 (pl [])
def wG3 : State := on 0x0902 (pl []) walled
def wG4 : State := on 0x0902 (pl []) (ch (fun c => { c with phase := 1 }))
def wG5 : State := on 0x0902 (pl [])
def wG6 : State := on 0x0903 (pl []) walled
def wG7 : State := on 0x0903 (pl [])
def wG8 : State := on 0x0904 (pl []) walled
def wG9 : State := on 0x0904 (pl [(0,1,64)]) walled
def wG10 : State := on 0x0905 (pl [(0,1,63),(1,1,2)]) walled
def wG11 : State := on 0x0905 (pl [(0,1,64),(1,1,1)]) walled
def wG12 : State := on 0x0A01 (pl (pc 64 1 0)) walled
def wG13 : State := on 0x0A01 (pl (pc 2 1 0)) (prt 2 (fun q => { q with off := some (.mbx 1 2) }))
def wG14 : State := on 0x0A01 (pl (pc 2 0 0)) walled
def wG15 : State := on 0x0A01 (pl (pc 2 1 0)) walled
def wG16 : State := on 0x0A02 (pl []) walled
def wG17 : State := on 0x0A02 (pl [(0,1,65)]) walled
def wG18 : State := on 0x0A03 (pl []) walled
def wG19 : State := on 0x0A03 (pl [(0,1,65)]) walled
def wG20 : State := prt 4 (fun q => { q with queue := [fr .wake, fr (.safe 2)] }) snd
def wG21 : State := prt 4 (fun q => { q with queue := [fr .measure], busyUntil := 1000 }) snd
def wG22 : State := snd
def wG23 : State := li (fun l => { l with tiles := [(0, { state := 1, waitFrom := some 100, offA := some 640 }), (1, { state := 1, waitFrom := some 100, polled := true })] }) snd
def wG24 : State := ch id
def wG25 : State := prt 4 (fun q => { q with retired := true }) (ch id)
def wG26 : State := sp id
def wG27 : State := prt 2 (fun q => { q with enabled := true, role := 1, req := some (rq fun q => { q with retrain := true, agreed := true }) }) up
def wG28 : State := std
def wG29 : State := std fun q => { q with pausedUntil := 500 }
def wG30 : State := lo 2 100 (std fun q => { q with lock := false })
def wG31 : State := { std with fab := { std.fab with bobbins := [(8 * 1024 + 2, { words := List.replicate 2048 { word := 0, poison := false, eoi := true } })] } }
def wG32 : State := std fun q => { q with retired := true }
def vG1 : ChainRec :=
  { chain := 0, tiles := 2, format := 0, portA := 4, portB := 5, fs := 0 }
def vG2 : WallImg :=
  { canvasW := 32, canvasH := 8, chains := [{ chain := 0, tiles := 2, format := 0, portA := 4, portB := 5, fs := 0 }], tiles := [{ tile := 0, chain := 0, pos := 1, w := 16, h := 8, cx := 0, cy := 0, rot := 0, low := false, pitch := 2000, coef := 0, px := 0, py := 0, pz := 0 }, { tile := 1, chain := 0, pos := 2, w := 16, h := 8, cx := 16, cy := 0, rot := 0, low := false, pitch := 2000, coef := 0, px := 0, py := 0, pz := 0 }], srcs := [], crc := 0x00000005#32 }
def vG3 : TileRec :=
  { tile := 0, chain := 0, pos := 1, w := 16, h := 8, cx := 0, cy := 0, rot := 0, low := false, pitch := 2000, coef := 0, px := 0, py := 0, pz := 0 }
def vG4 : TxFrame :=
  { kind := TxKind.safe 2, epoch := 0x00000003#32, tsId := none, cast := Cast.multi, head := [], body := [0x01#8, 0x02#8], len := 64 }
def vG5 : List TxFrame :=
  [{ kind := TxKind.wake, epoch := 0x00000003#32, tsId := none, cast := Cast.multi, head := [], body := [0x01#8, 0x02#8], len := 64 }]
def vG6 : TxFrame :=
  { kind := TxKind.skein 0 0 false, epoch := 0x00000003#32, tsId := none, cast := Cast.multi, head := [], body := [0x01#8, 0x02#8], len := 64 }
def vG7 : TileHdr :=
  { port := 4, chain := 0, toEnd := 0, gen := 0x0003#16, hop := 1, len := 40 }
def vG8 : SpeedReq :=
  { dest := 1, at_ := 900000, askedAt := 100, need := [1, 2], got := [], agreed := false, rises := false, retrain := false }
def vG9 : SpeedReq :=
  { dest := 1, at_ := 900000, askedAt := 100, need := [1, 2], got := [], agreed := true, rises := false, retrain := true }
def vG10 : RxFrame :=
  { port := 2, len := 100, cast := Cast.uni, err := some (RxErr.symbol), ez := some 3, ptp := false, pause := false, video := false }
def vG11 : RxFrame :=
  { port := 2, len := 100, cast := Cast.uni, err := none, ez := none, ptp := false, pause := false, video := false }
end WG

namespace WH
def ti (f : TimeSt → TimeSt) (s : State := up) : State := { s with time := f s.time }
def stdp (s : State := up) : State := { s with link := { s.link with ports := [(2, { enabled := true, role := 1, lock := true }), (3, { enabled := true, role := 1, lock := true })] } }
def tset (e : List (Nat×Nat×Nat) := []) := [(2,1,127),(3,1,1),(4,1,2),(5,1,253),(6,1,254),(7,1,253),(8,1,3),(15,1,0)] ++ e
def ptp (f : TimeSt → TimeSt := id) : State := ti (fun t => f { t with ports := [(2, { asym := 640 }), (3, { oneStep := true })], slavePort := 2, state := 1 }) (stdp)
def an (p d c : Nat) : Announce := { port := p, domain := d, gmId := 77, prio1 := c, clockClass := 6, accuracy := 33, variance := 100, prio2 := 1, steps := 0, srcId := 9, utcOffset := 37 }
def tr (f : TTrig → TTrig) : TTrig := f { kind := 0, target := 4, action := 0, policy := 0, grace := 0, base := 0, at_ := 0, offset := 0, period := 0, next := 500 }
def hdr (op len : Nat) : Bytes := pl [(0,2,op),(4,2,len),(15,1,0)]
def cueP (n cnt at_ : Nat) (l : List (Bytes × Bytes)) : Bytes := put1 (pl [(0,2,n),(8,8,at_),(20,1,cnt),(23,1,0)]) (0,2,n) ++ l.flatMap fun e => e.1 ++ padTo ((e.2.length + 7) / 8 * 8) e.2
def cuq (f : Cue → Cue := id) : Cue := f { policy := 0, when_ := 0, grace := 0, at_ := 500, leadUs := 0, cmds := [(hdr 0x0001 0, []), (hdr 0x0B05 0, [1,2])], bytes := 32 }
def cs (f : Cue → Cue := id) (s : State := up) : State := ti (fun t => { t with cues := [(3, cuq f)] }) s
def okc := [(hdr 0x0001 0, ([] : Bytes))]
def wH1 : State := on 0x0B01 (pl (tset [(0,1,2)]))
def wH2 : State := on 0x0B01 (pl tset)
def wH3 : State := on 0x0B01 (pl (tset [(0,1,1),(5,1,0),(6,1,1),(7,1,0)]))
def wH4 : State := on 0x0B02 (pl [(0,1,2),(1,1,1),(2,1,1),(4,4,64000000)]) stdp
def wH5 : State := on 0x0B02 (pl [(0,1,2),(1,1,1),(2,1,1),(4,4,64000000)])
def wH6 : State := on 0x0B02 (pl [(0,1,3)])
def wH7 : State := on 0x0B02 (pl [(0,1,64)])
def wH8 : State := on 0x0B03 (pl [])
def wH9 : State := on 0x0B04 (pl [(0,1,3)])
def wH10 : State := on 0x0B04 (pl [])
def wH11 : State := on 0x0B04 (pl [(0,1,1)]) mode6
def wH12 : State := on 0x0B04 (pl []) mode6
def wH13 : State := stdp
def wH14 : State := ptp (fun t => { t with tsWait := [{ id := 4, port := 2, kind := .delayReq }, { id := 5, port := 2, kind := .sync }, { id := 9, port := 2, kind := .delayReq, at_ := some 200 }] })
def wH15 : State := ptp
def wH16 : State := ptp fun t => { t with ports := [(2, { best := some (an 2 127 1), count := 2, heardAt := 5 })] }
def wH17 : State := on 0x0B06 (pl [(0,1,1),(1,1,5)])
def wH18 : State := on 0x0B06 (pl [])
def wH19 : State := ti fun t => { t with ltcOn := true, ltcRate := 2, ltcState := 1, ltcRun := 1, ltcPrev := some 0x01020304 }
def wH20 : State := on 0x0B06 (pl []) (ti fun t => { t with ltcOn := true, ltcRate := 2, ltcState := 2 })
def wH21 : State := on 0x0B07 (pl [])
def wH22 : State := on 0x0B07 (pl [(0,1,1),(8,8,2^48)])
def wH23 : State := on 0x0B07 (pl [(0,1,1),(8,8,2^48-1),(2,2,37)]) (ptp fun t => { t with state := 2 })
def wH24 : State := on 0x0B07 (pl [(0,1,1),(8,8,2^48-1),(2,2,37)])
def wH25 : State := on 0x0B07 (pl [(0,1,2),(4,4,7)])
def wH26 : State := on 0x0C01 (cueP 4 1 2000 [(pl [(0,2,1),(12,4,9)], [])])
def wH27 : State := on 0x0C01 (cueP 512 1 2000 okc)
def wH28 : State := on 0x0C01 (cueP 3 1 2000 okc) (cs)
def wH29 : State := on 0x0C01 (cueP 4 1 2000 okc) (ti (fun t => { t with cues := (List.range 512).map fun i => (i + 5, cuq) }) up)
def wH30 : State := on 0x0C01 (cueP 4 1 2000 okc)
def wH31 : State := on 0x0C03 (pl [])
def wH32 : State := on 0x0C03 (pl [(0,2,512)])
def wH33 : State := on 0x0C02 (pl [(0,2,0xFFFF)])
def wH34 : State := on 0x0C02 (pl [])
def wH35 : State := on 0x0C02 (pl [(0,2,3)]) (cs fun q => { q with state := 2 })
def wH36 : State := on 0x0C02 (pl [(0,2,3)]) cs
def wH37 : State := on 0x0B05 (pl [(0,1,48)])
def wH38 : State := on 0x0B05 (pl [(0,1,1),(1,1,0xFF)])
def wH39 : State := on 0x0B05 (pl [(0,1,47),(8,8,1001)])
def wH40 : State := on 0x0B05 (pl [(0,1,47),(8,8,1001)]) (ti fun t => { t with trigs := [(2, tr id)] })
def wH41 : State := cs
def wH42 : State := cs (fun q => { q with when_ := 1, at_ := 12 }) mode6
def wH43 : State := cs (fun q => { q with state := 2 })
def wH44 : State := cs (fun q => { q with state := 2, idx := 1 })
def wH45 : State := { cs (fun q => { q with state := 2 }) with cmds := [{ ref := .cue 3 0, opcode := 1, phase := .thread }] }
def vH1 : Announce :=
  { port := 2, domain := 127, gmId := 0x000000000000004d#64, prio1 := 1, clockClass := 6, accuracy := 33, variance := 100, prio2 := 1, steps := 0, srcId := 0x0000000000000009#64, utcOffset := 37 }
def vH2 : List TsWait :=
  [{ id := 4, port := 2, kind := PtpTx.delayReq, at_ := none }, { id := 5, port := 2, kind := PtpTx.sync, at_ := none }]
def vH3 : PtpPort :=
  { oneStep := false, asym := 640, best := none, heardAt := 0, count := 0 }
def vH4 : PtpPort :=
  { oneStep := false, asym := 0, best := some { port := 2, domain := 127, gmId := 0x000000000000004d#64, prio1 := 1, clockClass := 6, accuracy := 33, variance := 100, prio2 := 1, steps := 0, srcId := 0x0000000000000009#64, utcOffset := 37 }, heardAt := 5, count := 2 }
def vH5 : Cue :=
  { policy := 0, when_ := 0, grace := 0, at_ := 500, leadUs := 0, cmds := [(([0x01#8] ++ List.replicate 15 0x00#8), []), (([0x05#8, 0x0b#8] ++ List.replicate 14 0x00#8), [0x01#8, 0x02#8])], bytes := 32, state := 2, idx := 0, lateness := 0, late := false, failed := none, held := false, from_ := none }
def vH6 : Cue :=
  { policy := 0, when_ := 0, grace := 0, at_ := 500, leadUs := 0, cmds := [(([0x01#8] ++ List.replicate 15 0x00#8), []), (([0x05#8, 0x0b#8] ++ List.replicate 14 0x00#8), [0x01#8, 0x02#8])], bytes := 32, state := 1, idx := 0, lateness := 0, late := false, failed := none, held := false, from_ := none }
def vH7 : TTrig :=
  { kind := 0, target := 4, action := 0, base := 0, policy := 0, at_ := 0, offset := 0, period := 0, grace := 0, next := 500, inst := 0x00000000#32, missed := 0x00000000#32, fired := false, spent := false }
def vH8 : Cue :=
  { policy := 0, when_ := 1, grace := 0, at_ := 12, leadUs := 0, cmds := [(([0x01#8] ++ List.replicate 15 0x00#8), []), (([0x05#8, 0x0b#8] ++ List.replicate 14 0x00#8), [0x01#8, 0x02#8])], bytes := 32, state := 1, idx := 0, lateness := 0, late := false, failed := none, held := false, from_ := none }
def vH9 : Bytes :=
  ([0x01#8] ++ List.replicate 15 0x00#8)
def vH10 : List (Bytes × Bytes) :=
  [(([0x05#8, 0x0b#8] ++ List.replicate 14 0x00#8), [0x01#8, 0x02#8])]
def vH11 : Bytes :=
  ([0x05#8, 0x0b#8] ++ List.replicate 14 0x00#8)
def vH12 : Cue :=
  { policy := 0, when_ := 0, grace := 0, at_ := 500, leadUs := 0, cmds := [(([0x01#8] ++ List.replicate 15 0x00#8), []), (([0x05#8, 0x0b#8] ++ List.replicate 14 0x00#8), [0x01#8, 0x02#8])], bytes := 32, state := 2, idx := 1, lateness := 0, late := false, failed := none, held := false, from_ := none }
end WH

namespace WI
def hl (f : Health → Health) (s : State := walled) : State := { s with health := f s.health }
def th (a b d h dep st : Nat) := [(0,2,a),(2,2,b),(4,2,d),(6,2,h),(8,4,2^32-dep),(12,2,st)]
def zo (a b z : Nat) := [(0,2,a),(2,2,b),(4,1,z)]
def hz : State := hl (fun h => { h with zones := [(3, 5), (7, 9)], due := [4], nextDetect := [(4, 5)], defects := [(chanKey 0 3 1, 2), (chanKey 1 5 2, 1)] })
def sn : Sensor := { bus := 0, addr := 0x20, zone := 3, tile := 0, pixels := [1,2], fmt := 0, intNs := 10000000, code := 5, start := [1], readReg := 2, sel := 0x24, samples := 4, periodS := 10 }
def hs (f : Sensor → Sensor) (s : State := walled) : State := hl (fun h => { h with sensors := [(2, f sn)] }) s
def sdef (n : Nat) (e : List (Nat×Nat×Nat) := []) := [(0,1,n),(1,1,1),(2,1,0x77),(3,1,63),(4,2,1),(6,1,2),(8,4,2000),(12,4,262143),(16,1,8),(18,1,0x24),(19,1,64),(28,2,3600),(32,2,127),(34,2,0),(63,1,0)] ++ e
def pr (s : State) : State := { s with link := { s.link with sending := true }, fab := { s.fab with svcLevel := 2 }, health := { s.health with probeOn := true, due := [4, 5], nextDetect := [(4, 100), (5, 900)] } }
def rn (k n st : Nat) (s : State := walled) : State := hl (fun h => { h with runs := [(k, (st, n))] }) s
def rl (f : Reel → Reel) (s : State := up) : State := { s with reel := f s.reel }
def rr (c n : Nat) : RRec := { cls := c, source := 3, code := 0x82, time := 5, data := List.replicate n 7 }
def st3 (q : Nat) : RStored := { seq := BitVec.ofNat 32 q, sector := 0, bytes := recBytes (rr (q % 3) 8) (BitVec.ofNat 32 q) }
def full3 : State := rl fun r => { r with first := 5, next := 9, recs := [st3 5, st3 6, st3 7, st3 8], offset := 300 }
def setc (f : Cmd → Cmd) (s : State) : State := { s with cmds := s.cmds.map f }
def cl (f : Cal → Cal) (s : State := { up with hif := { up.hif with readyEver := true } }) : State := { s with cal := f s.cal }
def cd (i n : Nat) (q : CalInst) (k : CalItem := {}) : State := cl fun c => { c with insts := [(1024 * i + n, q)], items := [(i, k)] }
def lr : TrimRec := { seq := 4, temp := 5, data := padTo 48 (pl [(0,1,60),(1,1,60)]) }
def wI1 : State := on 0x0D01 (pl [(0,1,1),(2,2,3600)])
def wI2 : State := on 0x0D01 (pl [(0,1,2)])
def wI3 : State := on 0x0D04 (pl (th 0 1 2 1 65536 2))
def wI4 : State := on 0x0D04 (pl (th 5 5 9 1 1 2))
def wI5 : State := on 0x0D06 (pl (zo 4 3 1))
def wI6 : State := on 0x0D06 (pl (zo 2 4 1))
def wI7 : State := on 0x0D02 (pl []) walled
def wI8 : State := on 0x0D02 (pl [])
def wI9 : State := on 0x0D03 (pl [(0,2,0xFFFF),(2,2,0xFFFF),(4,1,255)]) hz
def wI10 : State := on 0x0D03 (pl [(0,2,0xFFFF),(2,2,0xFFFF),(4,1,255)])
def wI11 : State := on 0x0D05 (pl []) hz
def wI12 : State := on 0x0D05 (pl [])
def wI13 : State := on 0x0D08 (pl [(0,1,2)])
def wI14 : State := on 0x0D08 (pl [(0,1,2)]) (hs id)
def wI15 : State := on 0x0D08 (pl [(0,1,2)]) (hs fun q => { q with failed := true })
def wI16 : State := on 0x0D09 (pl [])
def wI17 : State := on 0x0D09 (pl [(0,1,64)])
def wI18 : State := on 0x0D0A (pl [(0,1,2)])
def wI19 : State := on 0x0D0A (pl [(0,1,16)])
def wI20 : State := on 0x0D07 (pl (sdef 16))
def wI21 : State := on 0x0D07 (pl (sdef 2 [(6,1,0)]))
def wI22 : State := on 0x0D07 (pl (sdef 0))
def wI23 : State := on 0x0D07 (pl (sdef 0)) walled
def wI24 : State := pr walled
def wI25 : State := { pr walled with flt := { walled.flt with safe := true } }
def wI26 : State := { walled with health := { walled.health with waits := [(1, { pseq := 3, deadline := 1000 })] } }
def wI27 : State := chanReported 0 { pixel := 3, channel := 1, st := 2 } (rn (chanKey 0 5 0) 2 1)
def wI28 : State := rn (chanKey 0 5 0) 2 1
def wI29 : State := hs id
def wI30 : State := hs (fun q => { q with sampling := true, due := some 999, began := some 1 })
def wI31 : State := hs (fun q => { q with failed := true, due := some 99, fails := 3 })
def wI32 : State := on 0x1501 (pl [])
def wI33 : State := (setc fun c => { c with respLen := 4096 }) (on 0x1502 (pl [(0,4,5),(4,2,255)]))
def wI34 : State := (setc fun c => { c with respLen := 4096 }) (on 0x1502 (pl [(0,4,5),(4,2,255)]) full3)
def wI35 : State := (setc fun c => { c with inband := some { secret := [], key := 2, seq := 1, port := 1, ip := 3, udp := 4 } }) (on 0x1503 (pl [(0,4,6)]) full3)
def wI36 : State := on 0x1503 (pl [(0,4,6)]) full3
def wI37 : State := on 0x1504 (pl [(0,1,0),(7,1,0)])
def wI38 : State := on 0x1504 (pl [(0,1,5),(8,5,77)]) (rl (fun r => { r with staging := List.replicate 64 (rr 1 4) }))
def wI39 : State := on 0x1504 (pl [(0,1,5),(8,5,77)])
def wI40 : State := rl (fun r => { r with staging := List.replicate 64 (rr 1 4) })
def wI41 : State := rl (fun r => { r with staging := [rr 1 8], next := 7, spares := 0 })
def wI42 : State := rl (fun r => { r with staging := [rr 1 8], next := 7, tally := true, spares := 0 })
def wI43 : State := rl (fun r => { r with switching := true, failedRec := some (rr 1 8), staging := [rr 2 3] })
def wI44 : State := rl (fun r => { r with staging := [rr 1 8], squall := [{ source := 1, code := 2, cls := 3, count := 4 }] })
def wI45 : State := on 0x1401 (pl [])
def wI46 : State := on 0x1402 (pl [])
def wI47 : State := on 0x1402 (pl [(2,2,19)])
def wI48 : State := on 0x1403 (pl [])
def wI49 : State := on 0x1403 (pl [(0,1,2)]) (cd 1 3 {} { phase := 2 })
def wI50 : State := on 0x1403 (pl [(0,1,2)])
def wI51 : State := on 0x1404 (pl [])
def wI52 : State := on 0x1404 (pl [(0,1,1),(2,2,69)])
def wI53 : State := on 0x1405 (pl [])
def wI54 : State := on 0x1405 (pl [(0,1,5)])
def wI55 : State := (setc fun c => { c with inband := some { secret := [], key := 2, seq := 1, port := 1, ip := 3, udp := 4 } }) (on 0x1406 (pl [(0,1,6)]))
def wI56 : State := on 0x1406 (pl [(0,1,1),(2,2,3)]) (cd 1 3 {} { phase := 3 })
def wI57 : State := on 0x1406 (pl [(0,1,1),(2,2,3)])
def wI58 : State := cl (fun c => { c with enable := 0, insts := (List.range 5).flatMap fun i => (List.range (instCount i)).map fun n => (1024 * i + n, { due := false }) })
def wI59 : State := cl id
def wI60 : State := cd 1 3 { live := some lr } { phase := 2, insts := [3] }
def wI61 : State := cd 2 1 { live := some lr } { phase := 3, insts := [1], targets := [(1, padTo 48 [5,6])], temp := 77 }
def wI62 : State := cd 1 3 { live := some lr, discardAt := some 50 }
def vI1 : Sensor :=
  { bus := 0, addr := 32, zone := 3, tile := 0, pixels := [1, 2], fmt := 0, intNs := 10000000, code := 5, start := [0x01#8], readReg := 2, sel := 36, samples := 4, periodS := 10, ref := none, wantRef := false, firstAfter := false, e := none, cand := none, sampling := false, began := none, cycle := 0, sub := 0, lit := [0, 0, 0], dark := [0, 0, 0], cycleLit := [0, 0, 0], cycleDark := [0, 0, 0], fullScale := false, cycleFull := false, due := none, fails := 0, failed := false, blocked := false, failedAt := 0, accepted := 0x00000000#32, discarded := 0x00000000#32, i2cFail := 0x00000000#32 }
def vI2 : Sensor :=
  { bus := 0, addr := 32, zone := 3, tile := 0, pixels := [1, 2], fmt := 0, intNs := 10000000, code := 5, start := [0x01#8], readReg := 2, sel := 36, samples := 4, periodS := 10, ref := none, wantRef := false, firstAfter := false, e := none, cand := none, sampling := false, began := none, cycle := 0, sub := 0, lit := [0, 0, 0], dark := [0, 0, 0], cycleLit := [0, 0, 0], cycleDark := [0, 0, 0], fullScale := false, cycleFull := false, due := none, fails := 0, failed := true, blocked := false, failedAt := 0, accepted := 0x00000000#32, discarded := 0x00000000#32, i2cFail := 0x00000000#32 }
def vI3 : WallImg :=
  { canvasW := 32, canvasH := 8, chains := [{ chain := 0, tiles := 2, format := 0, portA := 4, portB := 5, fs := 0 }], tiles := [{ tile := 0, chain := 0, pos := 1, w := 16, h := 8, cx := 0, cy := 0, rot := 0, low := false, pitch := 2000, coef := 0, px := 0, py := 0, pz := 0 }, { tile := 1, chain := 0, pos := 2, w := 16, h := 8, cx := 16, cy := 0, rot := 0, low := false, pitch := 2000, coef := 0, px := 0, py := 0, pz := 0 }], srcs := [], crc := 0x00000005#32 }
def vI4 : TileRec :=
  { tile := 1, chain := 0, pos := 2, w := 16, h := 8, cx := 16, cy := 0, rot := 0, low := false, pitch := 2000, coef := 0, px := 0, py := 0, pz := 0 }
def vI5 : ChainRec :=
  { chain := 0, tiles := 2, format := 0, portA := 4, portB := 5, fs := 0 }
def vI6 : TileHdr :=
  { port := 4, chain := 0, toEnd := 0, gen := 0x0003#16, hop := 1, len := 40 }
def vI7 : TileRec :=
  { tile := 0, chain := 0, pos := 1, w := 16, h := 8, cx := 0, cy := 0, rot := 0, low := false, pitch := 2000, coef := 0, px := 0, py := 0, pz := 0 }
def vI8 : Health :=
  { probeOn := false, periodS := 10, pseq := [], due := [], nextDetect := [], probed := [], waits := [], defects := [], woven := [], mapFull := 0x00000000#32, runs := [], tiles := [], tStart := 700, tFull := 850, tCut := 900, depth := -16384, hyst := 20, staleS := 10, zones := [], sensors := [] }
def vI9 : Sensor :=
  { bus := 0, addr := 32, zone := 3, tile := 0, pixels := [1, 2], fmt := 0, intNs := 10000000, code := 5, start := [0x01#8], readReg := 2, sel := 36, samples := 4, periodS := 10, ref := none, wantRef := false, firstAfter := false, e := none, cand := none, sampling := true, began := some 1, cycle := 0, sub := 0, lit := [0, 0, 0], dark := [0, 0, 0], cycleLit := [0, 0, 0], cycleDark := [0, 0, 0], fullScale := false, cycleFull := false, due := some 999, fails := 0, failed := false, blocked := false, failedAt := 0, accepted := 0x00000000#32, discarded := 0x00000000#32, i2cFail := 0x00000000#32 }
def vI10 : Sensor :=
  { bus := 0, addr := 32, zone := 3, tile := 0, pixels := [1, 2], fmt := 0, intNs := 10000000, code := 5, start := [0x01#8], readReg := 2, sel := 36, samples := 4, periodS := 10, ref := none, wantRef := false, firstAfter := false, e := none, cand := none, sampling := false, began := none, cycle := 0, sub := 0, lit := [0, 0, 0], dark := [0, 0, 0], cycleLit := [0, 0, 0], cycleDark := [0, 0, 0], fullScale := false, cycleFull := false, due := some 99, fails := 3, failed := true, blocked := false, failedAt := 0, accepted := 0x00000000#32, discarded := 0x00000000#32, i2cFail := 0x00000000#32 }
def vI11 : RRec :=
  { cls := 1, flags := 0, source := 3, code := 130, orig := 0x00000000#32, time := 5, data := [0x07#8, 0x07#8, 0x07#8, 0x07#8] }
def vI12 : List RRec :=
  [{ cls := 1, flags := 0, source := 3, code := 130, orig := 0x00000000#32, time := 5, data := [0x07#8, 0x07#8, 0x07#8, 0x07#8] }, { cls := 1, flags := 0, source := 3, code := 130, orig := 0x00000000#32, time := 5, data := [0x07#8, 0x07#8, 0x07#8, 0x07#8] }, { cls := 1, flags := 0, source := 3, code := 130, orig := 0x00000000#32, time := 5, data := [0x07#8, 0x07#8, 0x07#8, 0x07#8] }, { cls := 1, flags := 0, source := 3, code := 130, orig := 0x00000000#32, time := 5, data := [0x07#8, 0x07#8, 0x07#8, 0x07#8] }, { cls := 1, flags := 0, source := 3, code := 130, orig := 0x00000000#32, time := 5, data := [0x07#8, 0x07#8, 0x07#8, 0x07#8] }, { cls := 1, flags := 0, source := 3, code := 130, orig := 0x00000000#32, time := 5, data := [0x07#8, 0x07#8, 0x07#8, 0x07#8] }, { cls := 1, flags := 0, source := 3, code := 130, orig := 0x00000000#32, time := 5, data := [0x07#8, 0x07#8, 0x07#8, 0x07#8] }, { cls := 1, flags := 0, source := 3, code := 130, orig := 0x00000000#32, time := 5, data := [0x07#8, 0x07#8, 0x07#8, 0x07#8] }, { cls := 1, flags := 0, source := 3, code := 130, orig := 0x00000000#32, time := 5, data := [0x07#8, 0x07#8, 0x07#8, 0x07#8] }, { cls := 1, flags := 0, source := 3, code := 130, orig := 0x00000000#32, time := 5, data := [0x07#8, 0x07#8, 0x07#8, 0x07#8] }, { cls := 1, flags := 0, source := 3, code := 130, orig := 0x00000000#32, time := 5, data := [0x07#8, 0x07#8, 0x07#8, 0x07#8] }, { cls := 1, flags := 0, source := 3, code := 130, orig := 0x00000000#32, time := 5, data := [0x07#8, 0x07#8, 0x07#8, 0x07#8] }, { cls := 1, flags := 0, source := 3, code := 130, orig := 0x00000000#32, time := 5, data := [0x07#8, 0x07#8, 0x07#8, 0x07#8] }, { cls := 1, flags := 0, source := 3, code := 130, orig := 0x00000000#32, time := 5, data := [0x07#8, 0x07#8, 0x07#8, 0x07#8] }, { cls := 1, flags := 0, source := 3, code := 130, orig := 0x00000000#32, time := 5, data := [0x07#8, 0x07#8, 0x07#8, 0x07#8] }, { cls := 1, flags := 0, source := 3, code := 130, orig := 0x00000000#32, time := 5, data := [0x07#8, 0x07#8, 0x07#8, 0x07#8] }, { cls := 1, flags := 0, source := 3, code := 130, orig := 0x00000000#32, time := 5, data := [0x07#8, 0x07#8, 0x07#8, 0x07#8] }, { cls := 1, flags := 0, source := 3, code := 130, orig := 0x00000000#32, time := 5, data := [0x07#8, 0x07#8, 0x07#8, 0x07#8] }, { cls := 1, flags := 0, source := 3, code := 130, orig := 0x00000000#32, time := 5, data := [0x07#8, 0x07#8, 0x07#8, 0x07#8] }, { cls := 1, flags := 0, source := 3, code := 130, orig := 0x00000000#32, time := 5, data := [0x07#8, 0x07#8, 0x07#8, 0x07#8] }, { cls := 1, flags := 0, source := 3, code := 130, orig := 0x00000000#32, time := 5, data := [0x07#8, 0x07#8, 0x07#8, 0x07#8] }, { cls := 1, flags := 0, source := 3, code := 130, orig := 0x00000000#32, time := 5, data := [0x07#8, 0x07#8, 0x07#8, 0x07#8] }, { cls := 1, flags := 0, source := 3, code := 130, orig := 0x00000000#32, time := 5, data := [0x07#8, 0x07#8, 0x07#8, 0x07#8] }, { cls := 1, flags := 0, source := 3, code := 130, orig := 0x00000000#32, time := 5, data := [0x07#8, 0x07#8, 0x07#8, 0x07#8] }, { cls := 1, flags := 0, source := 3, code := 130, orig := 0x00000000#32, time := 5, data := [0x07#8, 0x07#8, 0x07#8, 0x07#8] }, { cls := 1, flags := 0, source := 3, code := 130, orig := 0x00000000#32, time := 5, data := [0x07#8, 0x07#8, 0x07#8, 0x07#8] }, { cls := 1, flags := 0, source := 3, code := 130, orig := 0x00000000#32, time := 5, data := [0x07#8, 0x07#8, 0x07#8, 0x07#8] }, { cls := 1, flags := 0, source := 3, code := 130, orig := 0x00000000#32, time := 5, data := [0x07#8, 0x07#8, 0x07#8, 0x07#8] }, { cls := 1, flags := 0, source := 3, code := 130, orig := 0x00000000#32, time := 5, data := [0x07#8, 0x07#8, 0x07#8, 0x07#8] }, { cls := 1, flags := 0, source := 3, code := 130, orig := 0x00000000#32, time := 5, data := [0x07#8, 0x07#8, 0x07#8, 0x07#8] }, { cls := 1, flags := 0, source := 3, code := 130, orig := 0x00000000#32, time := 5, data := [0x07#8, 0x07#8, 0x07#8, 0x07#8] }, { cls := 1, flags := 0, source := 3, code := 130, orig := 0x00000000#32, time := 5, data := [0x07#8, 0x07#8, 0x07#8, 0x07#8] }, { cls := 1, flags := 0, source := 3, code := 130, orig := 0x00000000#32, time := 5, data := [0x07#8, 0x07#8, 0x07#8, 0x07#8] }, { cls := 1, flags := 0, source := 3, code := 130, orig := 0x00000000#32, time := 5, data := [0x07#8, 0x07#8, 0x07#8, 0x07#8] }, { cls := 1, flags := 0, source := 3, code := 130, orig := 0x00000000#32, time := 5, data := [0x07#8, 0x07#8, 0x07#8, 0x07#8] }, { cls := 1, flags := 0, source := 3, code := 130, orig := 0x00000000#32, time := 5, data := [0x07#8, 0x07#8, 0x07#8, 0x07#8] }, { cls := 1, flags := 0, source := 3, code := 130, orig := 0x00000000#32, time := 5, data := [0x07#8, 0x07#8, 0x07#8, 0x07#8] }, { cls := 1, flags := 0, source := 3, code := 130, orig := 0x00000000#32, time := 5, data := [0x07#8, 0x07#8, 0x07#8, 0x07#8] }, { cls := 1, flags := 0, source := 3, code := 130, orig := 0x00000000#32, time := 5, data := [0x07#8, 0x07#8, 0x07#8, 0x07#8] }, { cls := 1, flags := 0, source := 3, code := 130, orig := 0x00000000#32, time := 5, data := [0x07#8, 0x07#8, 0x07#8, 0x07#8] }, { cls := 1, flags := 0, source := 3, code := 130, orig := 0x00000000#32, time := 5, data := [0x07#8, 0x07#8, 0x07#8, 0x07#8] }, { cls := 1, flags := 0, source := 3, code := 130, orig := 0x00000000#32, time := 5, data := [0x07#8, 0x07#8, 0x07#8, 0x07#8] }, { cls := 1, flags := 0, source := 3, code := 130, orig := 0x00000000#32, time := 5, data := [0x07#8, 0x07#8, 0x07#8, 0x07#8] }, { cls := 1, flags := 0, source := 3, code := 130, orig := 0x00000000#32, time := 5, data := [0x07#8, 0x07#8, 0x07#8, 0x07#8] }, { cls := 1, flags := 0, source := 3, code := 130, orig := 0x00000000#32, time := 5, data := [0x07#8, 0x07#8, 0x07#8, 0x07#8] }, { cls := 1, flags := 0, source := 3, code := 130, orig := 0x00000000#32, time := 5, data := [0x07#8, 0x07#8, 0x07#8, 0x07#8] }, { cls := 1, flags := 0, source := 3, code := 130, orig := 0x00000000#32, time := 5, data := [0x07#8, 0x07#8, 0x07#8, 0x07#8] }, { cls := 1, flags := 0, source := 3, code := 130, orig := 0x00000000#32, time := 5, data := [0x07#8, 0x07#8, 0x07#8, 0x07#8] }, { cls := 1, flags := 0, source := 3, code := 130, orig := 0x00000000#32, time := 5, data := [0x07#8, 0x07#8, 0x07#8, 0x07#8] }, { cls := 1, flags := 0, source := 3, code := 130, orig := 0x00000000#32, time := 5, data := [0x07#8, 0x07#8, 0x07#8, 0x07#8] }, { cls := 1, flags := 0, source := 3, code := 130, orig := 0x00000000#32, time := 5, data := [0x07#8, 0x07#8, 0x07#8, 0x07#8] }, { cls := 1, flags := 0, source := 3, code := 130, orig := 0x00000000#32, time := 5, data := [0x07#8, 0x07#8, 0x07#8, 0x07#8] }, { cls := 1, flags := 0, source := 3, code := 130, orig := 0x00000000#32, time := 5, data := [0x07#8, 0x07#8, 0x07#8, 0x07#8] }, { cls := 1, flags := 0, source := 3, code := 130, orig := 0x00000000#32, time := 5, data := [0x07#8, 0x07#8, 0x07#8, 0x07#8] }, { cls := 1, flags := 0, source := 3, code := 130, orig := 0x00000000#32, time := 5, data := [0x07#8, 0x07#8, 0x07#8, 0x07#8] }, { cls := 1, flags := 0, source := 3, code := 130, orig := 0x00000000#32, time := 5, data := [0x07#8, 0x07#8, 0x07#8, 0x07#8] }, { cls := 1, flags := 0, source := 3, code := 130, orig := 0x00000000#32, time := 5, data := [0x07#8, 0x07#8, 0x07#8, 0x07#8] }, { cls := 1, flags := 0, source := 3, code := 130, orig := 0x00000000#32, time := 5, data := [0x07#8, 0x07#8, 0x07#8, 0x07#8] }, { cls := 1, flags := 0, source := 3, code := 130, orig := 0x00000000#32, time := 5, data := [0x07#8, 0x07#8, 0x07#8, 0x07#8] }, { cls := 1, flags := 0, source := 3, code := 130, orig := 0x00000000#32, time := 5, data := [0x07#8, 0x07#8, 0x07#8, 0x07#8] }, { cls := 1, flags := 0, source := 3, code := 130, orig := 0x00000000#32, time := 5, data := [0x07#8, 0x07#8, 0x07#8, 0x07#8] }, { cls := 1, flags := 0, source := 3, code := 130, orig := 0x00000000#32, time := 5, data := [0x07#8, 0x07#8, 0x07#8, 0x07#8] }, { cls := 1, flags := 0, source := 3, code := 130, orig := 0x00000000#32, time := 5, data := [0x07#8, 0x07#8, 0x07#8, 0x07#8] }]
def vI13 : RRec :=
  { cls := 1, flags := 0, source := 3, code := 130, orig := 0x00000000#32, time := 5, data := (List.replicate 8 0x07#8) }
def vI14 : CalResult :=
  { inst := 3, data := [0x3d#8, 0x3c#8], clipped := false, inl := 3, cellPpm := [3000] }
def vI15 : Bytes :=
  ([0x05#8, 0x06#8] ++ List.replicate 46 0x00#8)
end WI

namespace WJ
def me (f : Meter → Meter) (s : State := up) : State := { s with meter := f s.meter }
def rdy : State := { up with hif := { up.hif with ready := true, readyEver := true } }
def me0 : State := me (fun m => { m with circuits := [(0, { enable := true }), (3, { gain := 4 })], acc := [(0, 5), (7, 9), (44, 3)], pulses := [(2, { owed := 2, widthMs := 30 }), (3, { until_ := some 777, low := true })], slots := [(0, { seq := 4, time := 1, cal := 2, acc := [], rems := [], g := 3, good := true })], newest := some 0, coefs := [(5, { idle := 1, k0 := 2, k1 := 3, k2 := 4 })] }) rdy
def ps : List PowerSample := [{ circuit := 0, p := 1000, q := -5, s := 2000, ns := 1000000 },{ circuit := 9, p := -1000, q := 5, s := 2000, ns := 999 },{ circuit := 3, p := -1000, q := 5, s := 2000, ns := 999 }]
def capw : State := mode6 (me (fun m => { m with cap := { enable := true, circuits := 1, capW := 5 } }) { me0 with weave := { me0.weave with active := some { id := 1, nodes := [{ kind := 0x17, shed := false, a := 0, b := 0, params := zeros 32 }] } }, fab := { me0.fab with svcLevel := 2 } })
def wk (f : ModeSt → ModeSt) (s : State) : State := { s with mode := f s.mode }
def cw : State := wk (fun m => { m with weaving := true }) capw
def po (f : Power → Power) (s : State := up) : State := { s with power := f s.power }
def trg : State := { up with time := { up.time with trigs := [(0, { kind := 3, target := 4, action := 0, policy := 0, grace := 0, base := 0, at_ := 0, offset := 0, period := 0, next := 0 })] } }
def fv (l a b c : Nat) := [(0,2,l),(2,2,a),(4,2,b),(6,2,c)]
def dark : State := { rdy with power := { rdy.power with feedA := {} } }
def lv (f : Feed → Feed) : Feed := f { mV := 48000, live := true, aboveAt := some 0, goodAt := some 0 }
def both : State := po (fun p => { p with feedA := lv id, feedB := lv id }) rdy
def src (n st : Nat) : State := po (fun p => { p with sources := n, st := st, gpioMask := 3, gpioEdge := 1, linkPorts := 5, cmps := [{ enable := true }, {}, { enable := true, output := true }] }) { rdy with link := { rdy.link with ports := [(0, { role := 1, enabled := true }), (2, { role := 2 })] }, time := { rdy.time with alarm := some 1000 } }
def cu : Cue := { policy := 0, when_ := 0, grace := 0, at_ := 0, leadUs := 0, cmds := [], bytes := 0, state := 2 }
def en (d : Nat) (ps : Bool) (s : State := rdy) : State := po (fun p => { p with entry := some { ref := none, dest := d, dark := false, passed := ps } }) s
def wke (k st : Nat) (f : Power → Power := id) : State := po (fun p => f { p with wake := some k, st := st, wakeAt := 100, wakeFrom := st, wakeCause := 5, sources := 8 }) rdy
def rich : State := on 0 [] { (me0 : State) with store := { me0.store with words := [(3, { data := 1 })] }, reel := { me0.reel with next := 5 }, boot := { me0.boot with low := true } }
def bo (n : Nat) (f : Boot → Boot := id) (s : State := both) : State := { s with boot := f { s.boot with stage := n }, hif := { s.hif with ready := false } }
def wJ1 : State := on 0x1101 (pl [(0,1,3),(1,1,1),(4,4,4000000000)])
def wJ2 : State := on 0x1101 (pl [(0,1,4),(4,4,1)])
def wJ3 : State := on 0x1102 (pl [(0,1,7),(1,1,1),(2,1,3),(3,1,3),(4,4,1)])
def wJ4 : State := on 0x1102 (pl [(0,1,8),(4,4,1)])
def wJ5 : State := on 0x1106 (pl [(0,1,7),(1,1,5),(4,4,1000),(8,2,1000),(10,1,1)])
def wJ6 : State := on 0x1106 (pl [(0,1,7),(1,1,5),(4,4,999)])
def wJ7 : State := on 0x1107 (pl [])
def wJ8 : State := on 0x1107 (pl [(0,2,3601)])
def wJ9 : State := { (on 0x1108 (pl []) me0) with cmds := (on 0x1108 (pl []) me0).cmds.map fun c => { c with inband := some { secret := [], key := 2, seq := 1, port := 1, ip := 3, udp := 4 } } }
def wJ10 : State := on 0x1108 (pl [(0,1,10)])
def wJ11 : State := on 0x1108 (pl [])
def wJ12 : State := on 0x1109 (pl [(0,2,1),(8,2,1023),(12,4,7),(16,4,8),(20,4,9),(24,4,10)])
def wJ13 : State := on 0x110A (pl [(0,1,1),(2,2,5),(4,4,1),(8,2,10)]) (let s := mode6 (me fun m => { m with cap := { enable := true }, capDone := true }); { s with mode := { s.mode with weaving := true } })
def wJ14 : State := on 0x110A (pl [(0,1,1),(4,4,1)])
def wJ15 : State := on 0x1103 (pl [(0,1,10)])
def wJ16 : State := on 0x1103 (pl [])
def wJ17 : State := on 0x1104 (pl [])
def wJ18 : State := on 0x1104 (pl [(0,1,10)])
def wJ19 : State := on 0x1105 (pl [(0,1,7),(1,1,1)])
def wJ20 : State := on 0x1105 (pl [(0,1,8)])
def wJ21 : State := on 0x110B (pl [])
def wJ22 : State := me0
def wJ23 : State := me (fun m => { m with saveNow := true }) me0
def wJ24 : State := on 0 [] (me (fun m => { m with saving := some 0, saveRefs := [.mbx 1 7], clearRefs := [.mbx 2 7] }) me0)
def wJ25 : State := cw
def wJ26 : State := rdy
def wJ27 : State := on 0x1003 (pl [(0,1,3)])
def wJ28 : State := on 0x1003 (pl []) dark
def wJ29 : State := on 0x1004 (pl (fv 0 0 0 0)) mode6
def wJ30 : State := on 0x1004 (pl (fv 0 0 0 0))
def wJ31 : State := on 0x1004 (pl (fv 60 159 40 0))
def wJ32 : State := on 0x1005 (pl [(0,2,255),(4,4,16),(8,4,16),(12,8,77)]) trg
def wJ33 : State := on 0x1005 (pl [(0,2,255),(4,4,16),(8,4,16),(12,8,77)])
def wJ34 : State := on 0x1006 (pl [(0,1,3)])
def wJ35 : State := on 0x1006 (pl [(0,1,2),(1,1,1),(2,1,9),(3,1,1),(4,1,3),(5,1,7)])
def wJ36 : State := on 0x1007 (pl [])
def wJ37 : State := on 0x1008 (pl [])
def wJ38 : State := both
def wJ39 : State := po (fun p => { p with feedB := { (lv id) with live := false, aboveAt := some 100 } }) rdy
def wJ40 : State := po (fun p => { p with feedB := lv id }) dark
def wJ41 : State := on 0 [] (po (fun p => { p with gasp := some 5 }) rdy)
def wJ42 : State := dark
def wJ43 : State := po (fun p => { p with st := 7 }) rdy
def wJ44 : State := src 0 0
def wJ45 : State := src 0 2
def wJ46 : State := po (fun p => { p with entry := some { ref := none, dest := 2, dark := false } }) (src 0 0)
def wJ47 : State := on 0x1001 (pl [(0,1,0)]) rdy
def wJ48 : State := on 0x1001 (pl [(0,1,3)]) (en 3 false)
def wJ49 : State := on 0x1001 (pl [(0,1,3)]) { mode6 rdy with time := { rdy.time with cues := [(0, cu)] } }
def wJ50 : State := on 0x1001 (pl [(0,1,3)]) (mode6 rdy)
def wJ51 : State := on 0x1002 (pl []) (en 3 false)
def wJ52 : State := on 0x1002 (pl []) (po (fun p => { p with st := 2, sources := 3 }) rdy)
def wJ53 : State := on 0x1002 (pl []) rdy
def wJ54 : State := en 3 true
def wJ55 : State := wke 1 3
def wJ56 : State := wke 8 3
def wJ57 : State := wke 8 4 (fun p => { p with attempts := 8 })
def wJ58 : State := po (fun p => { p with failing := true, wakeAt := 100, st := 4, attempts := 3 }) rdy
def wJ59 : State := rich
def wJ60 : State := bo 0
def wJ61 : State := bo 1
def wJ62 : State := bo 2
def wJ63 : State := bo 3
def wJ64 : State := bo 0 (fun b => { b with low := true })
def vJ1 : MeterSample :=
  { coarse := (List.replicate 8 300), fine := (List.replicate 8 960) }
def vJ2 : Pulse :=
  { qty := 0, circuits := 0, uwh := 0, widthMs := 30, low := false, rem := 0, owed := 2, until_ := none, rest := 0, overAt := none }
def vJ3 : Pulse :=
  { qty := 0, circuits := 0, uwh := 0, widthMs := 30, low := true, rem := 0, owed := 0, until_ := some 777, rest := 0, overAt := none }
def vJ4 : WindowQty :=
  { circuit := 0, vrms := 9999, irms := 1, p := 2, q := -3, s := 4, pf := 5, freq := 6, thdV := 7, thdI := 8, h1V := 9, h1I := 1, harmV := [1, 2], harmI := (List.replicate 70 3) }
def vJ5 : SaveSlot :=
  { seq := 4, time := 1, cal := 2, acc := [], rems := [], g := 3, good := true }
def vJ6 : Feed :=
  { mV := 0, live := true, low := false, ov := false, aboveAt := none, goodAt := none, lowMv := 10000, lossMv := 8500 }
def vJ7 : Cmp :=
  { enable := true, code := 0, falling := false, hyst := 0, debounce := 0, output := false }
def vJ8 : BootReport :=
  { stack0 := true, stack1 := true, coresOk := 0xff#8, spindlesOk := 0xfffffffffffffffffffffffffffffffffffffffffffffffffffffffffffffffb#256, missed := none, rtcHeld := false, trimOne := [], trimNone := [], bank7Ok := true }
end WJ

namespace WK
def tw (f : Twin → Twin) (s : State := up) : State := { s with twin := f s.twin }
def he (c hb : Nat) (calm : Bool := false) (r : Nat := 1) : Hello := { cgen := BitVec.ofNat 16 c, side := 1, role := r, hbCode := hb, calm, serial := 9, counter := 5, fingerprint := 3, drillEpoch := 0 }
def prt (n : Nat) (f : Port → Port) (s : State) : State := { s with link := { s.link with ports := kset s.link.ports n (f (portOf s n)) } }
def txf : TxFrame := { kind := .dack, body := [1], len := 60 }
def twp (s : State) : State := prt 64 (fun p => { p with enabled := true, role := 3 }) s
def act : State := twp (prt 3 (fun p => { p with role := 2, queue := [txf] }) (tw (fun k => { k with enabled := true, role := 1, roleIn := true, linkUp := true, partner := some (he 3 2), lastHello := some 0 }) mode6))
def dis : State := tw (fun k => { k with enabled := true, role := 0, partner := some (he 3 4), lastHello := some 0, linkUp := true }) up
def drl : Drill := { epoch := 3, swapAt := 100, check := 2, revert := true }
def calm (s : State) : State := { s with mode := { s.mode with calm := true } }
def od (f : OutDef → OutDef) : OutDef := f { port := 2, keep := false, align := false, rdm := true, univ := 5, slots := 24, dest := 0, prio := 100, rate := 44, sync := 0, base := 0, breakUs := 176, mabUs := 16, gapUs := 0 }
def fx (f : Fix → Fix) (s : State := up) : State := { s with fix := f s.fix }
def outb : Output := { d := od id, data := [1,2,3], seq := 7 }
def job (n : Nat) : RdmJob := .host (.mbx 1 7) (BitVec.ofNat 48 n) 0x20 1 0 [9]
def fxa : State := prt 2 (fun p => { p with enabled := true, role := 1 }) (fx fun x => { x with outs := [(10, outb), (4096, { outb with d := od fun d => { d with port := 0, univ := 0 } }), (4097, { outb with redef := some none }), (4098, { outb with d := od fun d => { d with rdm := false } })], dmx := [(0, { queue := [job 5] }), (2, { uids := [7, 8], queue := [job 5] }) ] })
def odp (o : Nat) (fl : Nat := 0) : List (Nat × Nat × Nat) := [(0,2,o),(2,1,2),(3,1,fl),(4,2,9),(6,2,512)]
def dmp (o : Nat) (fl : Nat := 0) : List (Nat × Nat × Nat) := [(0,2,o),(3,1,fl),(6,2,512)]
def full : State := fx (fun x => { x with outs := [(4096, { outb with d := od fun d => { d with port := 0, univ := 0 } })], dmx := [(0, { queue := List.replicate 16 (job 5), disc := some { todo := [.unmute] } })] })
def fd (i lay : Nat) (e : List (Nat × Nat × Nat) := []) (fst : Nat := 1) : List (Nat × Nat × Nat) := let o := 8+32*i; [(o,4,i),(o+4,2,10),(o+6,2,fst),(o+8,1,lay),(o+9,1,8),(o+10,1,4),(o+20,2,1),(o+22,2,1)] ++ e
def fix0 : FixDef := { out := 10, first := 1, layout := 4, bits := 8, nch := 4, layer := 0, x := 0, y := 0, w := 0, h := 0, dim := 0, transfer := 0, gamma := 0 }
def fxb : State := fx (fun x => { x with fixtures := [(0, { d := fix0, vals := [0,0,0,0], shown := [0,0,0,0] }), (7, { d := { fix0 with first := 9, layout := 1 }, vals := [0,0,0], shown := [0,0,0] })] }) fxa
def fxc : State := fx (fun x => { x with setq := List.replicate 511 (0,0,0) }) (mode6 fxb)
def evt (s : State) : State := fx (fun x => { x with outs := [(10, { outb with lastAt := some 100 }), (11, { outb with terms := 2, termAt := 5000, lastAt := some 0 }), (12, { outb with terms := 1, termAt := 5000 }), (13, { outb with terms := 3, termAt := 0, redef := some none })] ++ (x.outs.filter (decide <| 4095 < ·.1)) }) s
def wK1 : State := on 0x1201 (pl [(0,1,1),(1,1,0),(2,2,99)])
def wK2 : State := on 0x1201 (pl [(0,1,1),(1,1,0),(2,2,100)]) (tw (fun k => { k with drill := some drl }) act)
def wK3 : State := on 0x1201 (pl [(0,1,1),(1,1,0),(2,2,100)]) act
def wK4 : State := on 0x1201 (pl [(0,1,1),(1,1,0),(2,2,100)])
def wK5 : State := on 0x1201 (pl [(0,1,0),(1,1,0)]) act
def wK6 : State := on 0x1202 (pl [])
def wK7 : State := on 0x1204 (pl [])
def wK8 : State := on 0x1203 (pl [(0,1,2)])
def wK9 : State := on 0x1203 (pl [(0,1,0xFF)])
def wK10 : State := on 0x1203 (pl [(0,1,0xFF)]) act
def wK11 : State := act
def wK12 : State := dis
def wK13 : State := tw (fun k => { k with rxEpoch := 5, nsegs := [0], segs := [(0, [1])] }) dis
def wK14 : State := tw (fun k => { k with sent := [(4, 7, 8), (5, 3, 9)], defJ := [{ seq := 2, tile := 1, pixel := 1, chan := 0, st := 1 }, { seq := 3, tile := 1, pixel := 1, chan := 0, st := 1 }, { seq := 9, tile := 1, pixel := 1, chan := 0, st := 1 }] }) act
def wK15 : State := on 0x0E01 (pl (odp 4104))
def wK16 : State := on 0x0E01 (pl (odp 10 2))
def wK17 : State := on 0x0E01 (pl (odp 4103))
def wK18 : State := on 0x0E01 (pl (odp 10))
def wK19 : State := on 0x0E01 (pl (odp 11)) fxa
def wK20 : State := on 0x0E01 (pl (dmp 4097 2)) fxa
def wK21 : State := on 0x0E01 (pl (dmp 4096 2)) fxa
def wK22 : State := on 0x0E06 (pl [(0,1,0),(1,1,0x20),(12,1,232)])
def wK23 : State := on 0x0E06 (pl [(0,1,0),(1,1,0x20),(2,2,5),(4,6,77),(12,1,231)])
def wK24 : State := on 0x0E06 (pl [(0,1,0),(1,1,0x20),(2,2,5),(4,6,77),(12,1,231)]) full
def wK25 : State := on 0x0E06 (pl [(0,1,0),(1,1,0x20),(2,2,5),(4,6,77),(12,1,231)]) fxa
def wK26 : State := on 0x0E07 (pl [(0,1,8)])
def wK27 : State := on 0x0E07 (pl [(0,1,0),(1,1,1)])
def wK28 : State := on 0x0E07 (pl [(0,1,0),(1,1,1)]) fxa
def wK29 : State := on 0x0E08 (pl [(0,1,8)])
def wK30 : State := on 0x0E08 (pl [(0,1,2)])
def wK31 : State := on 0x0E09 (pl [(0,2,4104)])
def wK32 : State := on 0x0E09 (pl [(0,2,10)]) fxa
def wK33 : State := on 0x0E09 (pl [(0,2,10)])
def wK34 : State := on 0x0E02 (pl [(0,2,0)])
def wK35 : State := on 0x0E02 (pl ([(0,2,1)]++fd 0 4))
def wK36 : State := on 0x0E02 (pl ([(0,2,1)]++fd 0 4)) (mode6 fxa)
def wK37 : State := on 0x0E03 (pl [(0,2,0)]) fxb
def wK38 : State := on 0x0E03 (pl [(0,2,1),(8,4,0),(12,1,3),(14,2,255)]) (mode6 fxb)
def wK39 : State := on 0x0E03 (pl [(0,2,2),(8,4,0),(16,4,0)]) fxc
def wK40 : State := on 0x0E03 (pl [(0,2,1),(8,4,0),(12,1,3),(14,2,255)]) (mode6 up)
def wK41 : State := on 0x0E04 (pl [(0,2,0)]) fxb
def wK42 : State := on 0x0E04 (pl [(0,2,1),(8,4,8),(12,1,2)]) fxb
def wK43 : State := on 0x0E04 (pl [(0,2,1),(8,4,0),(12,1,1)]) fxb
def wK44 : State := on 0x0E05 (pl [(0,16,0)]) fxb
def wK45 : State := mode6 (evt fxa)
def wK46 : State := { mode6 (evt fxa) with now := 5000000000 }
def wK47 : State := fxa
def wK48 : State := on 0 [] (fx (fun x => { x with dmx := [(0, { cur := some (job 6), reqEnd := 500 })] }) full)
def wK49 : State := on 0 [] (fx (fun x => { x with dmx := [(0, { cur := some (job 6), reqEnd := 500, tries := 3 })] }) full)
def wK50 : State := fx (fun x => { x with dmx := [(0, { cur := some (.branch 0 5), reqEnd := 500, disc := some { todo := [.branch 0 5, .branch 7 8] } })] }) full
def vK1 : Hello :=
  { cgen := 0x0003#16, side := 1, role := 1, hbCode := 2, calm := false, serial := 0x00000009#32, counter := 5, fingerprint := 0x00000003#32, drillEpoch := 0x00000000#32 }
def vK2 : DigestSeg :=
  { cgen := 0x0003#16, epoch := 0x00000005#32, seg := 1, nseg := 3, offset := 8960, data := (List.replicate 10 0x01#8) }
def vK3 : DigestSeg :=
  { cgen := 0x0003#16, epoch := 0x00000005#32, seg := 0, nseg := 1, offset := 0, data := (List.replicate 10 0x01#8) }
def vK4 : Output :=
  { d := { port := 2, keep := false, align := false, rdm := true, univ := 5, slots := 24, dest := 0x00000000#32, prio := 100, rate := 44, sync := 0, base := 0, breakUs := 176, mabUs := 16, gapUs := 0 }, st := 1, seq := 0x07#8, data := [0x01#8, 0x02#8, 0x03#8], lastData := [], lastAt := none, left := 0, due := false, sent := false, redef := some none, asleep := 0, ref := none, terms := 0, termAt := 0, packets := 0x0000000000000000#64, skipped := 0x00000000#32, held := 0x00000000#32, rdmTx := 0x00000000#32, rdmTimeout := 0x00000000#32, rdmChecksum := 0x00000000#32, collisions := 0x00000000#32 }
def vK5 : Output :=
  { d := { port := 0, keep := false, align := false, rdm := true, univ := 0, slots := 24, dest := 0x00000000#32, prio := 100, rate := 44, sync := 0, base := 0, breakUs := 176, mabUs := 16, gapUs := 0 }, st := 1, seq := 0x07#8, data := [0x01#8, 0x02#8, 0x03#8], lastData := [], lastAt := none, left := 0, due := false, sent := false, redef := none, asleep := 0, ref := none, terms := 0, termAt := 0, packets := 0x0000000000000000#64, skipped := 0x00000000#32, held := 0x00000000#32, rdmTx := 0x00000000#32, rdmTimeout := 0x00000000#32, rdmChecksum := 0x00000000#32, collisions := 0x00000000#32 }
def vK6 : Output :=
  { d := { port := 2, keep := false, align := false, rdm := true, univ := 5, slots := 24, dest := 0x00000000#32, prio := 100, rate := 44, sync := 0, base := 0, breakUs := 176, mabUs := 16, gapUs := 0 }, st := 1, seq := 0x07#8, data := [0x01#8, 0x02#8, 0x03#8], lastData := [], lastAt := none, left := 0, due := false, sent := false, redef := none, asleep := 0, ref := none, terms := 0, termAt := 0, packets := 0x0000000000000000#64, skipped := 0x00000000#32, held := 0x00000000#32, rdmTx := 0x00000000#32, rdmTimeout := 0x00000000#32, rdmChecksum := 0x00000000#32, collisions := 0x00000000#32 }
def vK7 : List (Nat × Option FixDef) :=
  [(0, some { out := 10, first := 1, layout := 4, bits := 8, nch := 4, layer := 0, x := 0, y := 0, w := 1, h := 1, dim := 0, transfer := 0, gamma := 0 })]
def vK8 : Fixture :=
  { d := { out := 10, first := 1, layout := 4, bits := 8, nch := 4, layer := 0, x := 0, y := 0, w := 0, h := 0, dim := 0, transfer := 0, gamma := 0 }, vals := [0, 0, 0, 0], shown := [0, 0, 0, 0], safeMode := 0, safeVals := [] }
def vK9 : Output :=
  { d := { port := 2, keep := false, align := false, rdm := true, univ := 5, slots := 24, dest := 0x00000000#32, prio := 100, rate := 44, sync := 0, base := 0, breakUs := 176, mabUs := 16, gapUs := 0 }, st := 1, seq := 0x07#8, data := [0x01#8, 0x02#8, 0x03#8], lastData := [], lastAt := some 100, left := 0, due := false, sent := false, redef := none, asleep := 0, ref := none, terms := 0, termAt := 0, packets := 0x0000000000000000#64, skipped := 0x00000000#32, held := 0x00000000#32, rdmTx := 0x00000000#32, rdmTimeout := 0x00000000#32, rdmChecksum := 0x00000000#32, collisions := 0x00000000#32 }
def vK10 : Output :=
  { d := { port := 2, keep := false, align := false, rdm := true, univ := 5, slots := 24, dest := 0x00000000#32, prio := 100, rate := 44, sync := 0, base := 0, breakUs := 176, mabUs := 16, gapUs := 0 }, st := 1, seq := 0x07#8, data := [0x01#8, 0x02#8, 0x03#8], lastData := [], lastAt := some 0, left := 0, due := false, sent := false, redef := none, asleep := 0, ref := none, terms := 2, termAt := 5000, packets := 0x0000000000000000#64, skipped := 0x00000000#32, held := 0x00000000#32, rdmTx := 0x00000000#32, rdmTimeout := 0x00000000#32, rdmChecksum := 0x00000000#32, collisions := 0x00000000#32 }
def vK11 : Output :=
  { d := { port := 2, keep := false, align := false, rdm := true, univ := 5, slots := 24, dest := 0x00000000#32, prio := 100, rate := 44, sync := 0, base := 0, breakUs := 176, mabUs := 16, gapUs := 0 }, st := 1, seq := 0x07#8, data := [0x01#8, 0x02#8, 0x03#8], lastData := [], lastAt := none, left := 0, due := false, sent := false, redef := none, asleep := 0, ref := none, terms := 1, termAt := 5000, packets := 0x0000000000000000#64, skipped := 0x00000000#32, held := 0x00000000#32, rdmTx := 0x00000000#32, rdmTimeout := 0x00000000#32, rdmChecksum := 0x00000000#32, collisions := 0x00000000#32 }
def vK12 : Disc :=
  { todo := [RdmJob.branch 0 5, RdmJob.branch 7 8], added := 0, removed := 0, collisions := 0 }
end WK

namespace WL1
def air (f : Air → Air) (s : State := up) : State := { s with air := f s.air }
def net : Bytes := pl [(0,2,77),(2,2,5000),(4,2,64),(12,2,10)]
def rcfg : Bytes := pl [(0,1,1),(2,2,8000),(4,4,1000000),(16,2,10),(18,1,4),(27,1,1),(34,1,0),(35,1,3),(36,1,1),(37,1,2),(38,1,1),(39,1,4),(40,1,0)]
def bcfg (b lbt : Nat) : Bytes := pl [(0,1,1),(1,1,b),(2,1,lbt),(3,1,4),(4,2,100),(8,1,1)]
def rad : Radio := { cfg := rcfg, bands := [(0, { cfg := bcfg 0 0, buckets := [(0, 100)] }), (1, { cfg := bcfg 1 1 })] }
def nd : ANode := { cfg := pl [(0,2,5),(2,1,1),(3,1,0),(4,8,0xABCD),(12,2,10),(14,1,1),(15,1,0),(16,2,1000),(18,2,0xFFFF),(24,2,3),(26,1,2)], chmap := 3 }
def withNet (s : State := up) : State := air (fun a => { a with net := some net, radios := [(1, rad)] }) s
def manyQ (n : Nat) : ANode := { nd with conn := true, queue := List.replicate n (CmdRef.mbx 3 1, [1,2]) }
def on1 (s : State) : State := air (fun a => { a with radios := [(1, { rad with st := 1, tx := 4, beaconSkip := 2 })] }) s
def wL11 : State := on 0x0F01 (pl [(2,2,499),(4,2,8)])
def wL12 : State := on 0x0F01 (pl [(2,2,500),(4,2,8)])
def wL13 : State := on 0x0F02 (put1 rcfg (0,1,4))
def wL14 : State := { (on 0x0F02 (pl [])) with cmds := (on 0x0F02 (pl [])).cmds.map fun c => { c with payload := rcfg } }
def wL15 : State := on 0x0F02 rcfg (air (fun a => { a with radios := [(1, { rad with st := 1 })] }))
def wL16 : State := on 0x0F03 (put1 (bcfg 0 1) (6,2,1001))
def wL17 : State := on 0x0F03 (bcfg 0 0) (air (fun a => { a with radios := [(1, { rad with st := 1 })] }))
def wL18 : State := on 0x0F03 (bcfg 0 0)
def wL19 : State := on 0x0F04 (pl [(0,1,1),(1,1,2)])
def wL110 : State := on 0x0F04 (pl [(0,1,1),(1,1,1)])
def wL111 : State := on 0x0F04 (pl [(0,1,1),(1,1,1)]) withNet
def wL112 : State := on 0x0F04 (pl [(0,1,1),(1,1,0)])
def wL113 : State := on 0x0F04 (pl [(0,1,1),(1,1,0)]) (air (fun a => { a with radios := [(1, { rad with st := 1 })], nodes := [(5, nd)] }) withNet)
def wL114 : State := on 0x0F04 (pl [(0,1,1),(1,1,0)]) (air (fun a => { a with radios := [(1, { rad with st := 1 })], nodes := [(5, { nd with conn := true, queue := [(.mbx 2 2, [1])] }), (6, { nd with conn := true})] }) withNet)
def wL115 : State := on 0x0F05 (pl [(0,1,64)])
def wL116 : State := on 0x0F05 (pl [(0,1,63),(2,1,0xFF)])
def wL117 : State := on 0x0F05 (pl [(0,1,3),(1,1,15),(2,1,1),(3,1,1),(4,2,100),(6,2,1000),(16,2,10),(18,2,2)])
def wL118 : State := on 0x0F05 (pl [(0,1,3),(1,1,15),(2,1,1),(3,1,1),(4,2,100),(6,2,1000),(16,2,10),(18,2,2)]) (air fun a => { a with blocks := [(3, pl [(4,2,100),(16,2,5),(18,2,1)]), (4, pl [(4,2,111),(16,2,5),(18,2,1)])] })
def wL119 : State := on 0x0F06 (put1 nd.cfg (27,1,1)) up
def wL120 : State := on 0x0F06 (put1 nd.cfg (27,1,1)) (air (fun a => { a with nodes := [(5, nd), (7, nd)] }) withNet)
def wL121 : State := on 0x0F06 (put1 nd.cfg (27,1,1)) (air (fun a => { a with nodes := [(5, { nd with conn := true })] }) withNet)
def wL122 : State := on 0x0F06 (put1 nd.cfg (27,1,0)) up
def wL123 : State := on 0x0F06 (put1 (put1 nd.cfg (27,1,0)) (16,2,2000)) withNet
def wL124 : State := on 0x0F07 (pl [(0,1,1),(1,1,0),(2,2,16)]) (air (fun a => { a with nodes := [(3, { nd with conn := true }), (5, nd), (7, { nd with cfg := put1 nd.cfg (2,1,0) }), (9, { nd with cfg := put1 nd.cfg (3,1,1) })] }) withNet)
def wL125 : State := on 0x0F07 (pl [(0,1,1),(1,1,0),(2,2,5)]) (air (fun a => { a with nodes := [(3, { nd with conn := true }), (5, nd), (7, { nd with cfg := put1 nd.cfg (2,1,0) }), (9, { nd with cfg := put1 nd.cfg (3,1,1) })] }) withNet)
def wL126 : State := on 0x0F08 (pl [(0,2,5),(2,1,0)]) (air (fun a => { a with nodes := [(5, manyQ 0)] }) (on1 withNet))
def wL127 : State := on 0x0F08 (pl [(0,2,5),(2,1,1),(8,2,0x3344)]) (air (fun a => { a with nodes := [(5, manyQ 0)] }) withNet)
def wL128 : State := on 0x0F08 (pl [(0,2,5),(2,1,1),(8,2,0x3344)]) (air (fun a => { a with nodes := [(5, manyQ 1024)] }) (on1 withNet))
def wL129 : State := on 0x0F08 (pl [(0,2,5),(2,1,1),(8,2,0x3344)]) (air (fun a => { a with nodes := [(5, manyQ 0)] }) (on1 withNet))
def wL130 : State := on 0x0F09 (pl [])
def wL131 : State := on 0x0F0A (pl [(0,1,4)])
def wL132 : State := on 0x0F0A (pl [(0,1,1)])
def wL133 : State := on 0x0F0B (pl [(0,2,5)])
def wL134 : State := on 0x0F0B (pl [(0,2,5)]) (air (fun a => { a with nodes := [(5, { nd with state := 3 })] }) withNet)
def wL135 : State := on 0x0F0C (pl [(0,1,4)]) (on1 withNet)
def wL136 : State := on 0x0F0C (pl [(0,1,1)]) (on1 withNet)
def vL11 : ANode :=
  { cfg := ([0x05#8, 0x00#8, 0x01#8, 0x00#8, 0xcd#8, 0xab#8] ++ List.replicate 6 0x00#8 ++ [0x0a#8, 0x00#8, 0x01#8, 0x00#8, 0xe8#8, 0x03#8, 0xff#8, 0xff#8, 0x00#8, 0x00#8, 0x00#8, 0x00#8, 0x03#8, 0x00#8, 0x02#8]), state := 0, conn := false, firstSf := 0, chmap := 3, mapPend := none, mapAcked := true, release := false, sn := false, nesn := false, down := none, queue := [], anchor := none, missed := 0, lostSync := false, scanning := false, lastContact := 0, resends := 0x00000000#32, crcErr := 0x00000000#32 }
def vL12 : ANode :=
  { cfg := ([0x05#8, 0x00#8, 0x01#8, 0x00#8, 0xcd#8, 0xab#8] ++ List.replicate 6 0x00#8 ++ [0x0a#8, 0x00#8, 0x01#8, 0x00#8, 0xe8#8, 0x03#8, 0xff#8, 0xff#8, 0x00#8, 0x00#8, 0x00#8, 0x00#8, 0x03#8, 0x00#8, 0x02#8]), state := 0, conn := true, firstSf := 0, chmap := 3, mapPend := none, mapAcked := true, release := false, sn := false, nesn := false, down := none, queue := [], anchor := none, missed := 0, lostSync := false, scanning := false, lastContact := 0, resends := 0x00000000#32, crcErr := 0x00000000#32 }
def vL13 : ANode :=
  { cfg := ([0x05#8, 0x00#8, 0x01#8, 0x00#8, 0xcd#8, 0xab#8] ++ List.replicate 6 0x00#8 ++ [0x0a#8, 0x00#8, 0x01#8, 0x00#8, 0xe8#8, 0x03#8, 0xff#8, 0xff#8, 0x00#8, 0x00#8, 0x00#8, 0x00#8, 0x03#8, 0x00#8, 0x02#8]), state := 3, conn := false, firstSf := 0, chmap := 3, mapPend := none, mapAcked := true, release := false, sn := false, nesn := false, down := none, queue := [], anchor := none, missed := 0, lostSync := false, scanning := false, lastContact := 0, resends := 0x00000000#32, crcErr := 0x00000000#32 }
end WL1

namespace WL2
def air (f : Air → Air) (s : State := up) : State := { s with air := f s.air }
def net : Bytes := pl [(0,2,77),(2,2,5000),(4,2,64),(12,2,10)]
def rcfg : Bytes := pl [(0,1,1),(2,2,8000),(4,4,1000000),(16,2,10),(18,1,4),(27,1,1),(34,1,0),(35,1,3),(36,1,1),(37,1,2),(38,1,1),(39,1,4),(40,1,0)]
def bcfg (b lbt : Nat) : Bytes := pl [(0,1,1),(1,1,b),(2,1,lbt),(3,1,4),(4,2,100),(8,1,1)]
def rad : Radio := { cfg := rcfg, st := 1, recovery := true, bands := [(0, { cfg := bcfg 0 0, buckets := [(0, 100)] }), (1, { cfg := bcfg 1 1 })] }
def nd : ANode := { cfg := pl [(0,2,5),(2,1,1),(3,1,0),(4,8,0xABCD),(12,2,10),(14,1,1),(15,1,0),(16,2,1000),(18,2,0xFFFF),(24,2,3),(26,1,2)], chmap := 3, conn := true }
def withNet (s : State := up) : State := air (fun a => { a with net := some net, radios := [(1, rad)] }) s
def at0 (k : Nat) (s : State) : State := air (fun a => { a with k := some k }) { s with now := k * 320000000 + 1250000 }
def blk : Bytes := pl [(0,1,2),(4,2,100),(16,2,5),(18,2,1)]
def base : State := air (fun a => { a with blocks := [(2, blk)], nodes := [(5, nd)] }) (at0 0 withNet)
def starve (s : State) : State := air (fun a => { a with radios := kmap a.radios fun _ r => { r with bands := kmap r.bands fun _ b => { b with buckets := [(0, 3600000000000)] } } }) s
def q1 (f : ANode → ANode) : State := air (fun a => { a with nodes := [(5, f nd)] }) base
def dn : Down := { kind := 1, body := [1], ref := some (.mbx 1 7), resends := 0 }
def cm (s : State) : State := { s with cmds := [{ ref := .mbx 1 7, opcode := 0x0F08, payload := [], core := none, phase := .async }] }
def wL21 : State := withNet
def wL22 : State := base
def wL23 : State := starve base
def wL24 : State := { base with flt := { base.flt with safe := true } }
def wL25 : State := on 0 [] (q1 fun q => { q with queue := [(.mbx 1 7, [9,8,7]), (.mbx 2 7, [1])] })
def wL26 : State := q1 fun q => { q with anchor := some 0 }
def wL27 : State := cm (q1 fun q => { q with anchor := some 0, down := some dn })
def wL28 : State := q1 fun q => { q with conn := false }
def wL29 : State := q1 fun q => { q with release := true }
def wL210 : State := air (fun a => { a with radios := [(1, { rad with holdUntil := some 5000000 })] }) base
def vL21 : Bytes :=
  ([0x02#8, 0x00#8, 0x00#8, 0x00#8, 0x64#8] ++ List.replicate 11 0x00#8 ++ [0x05#8, 0x00#8, 0x01#8, 0x00#8])
def vL22 : ANode :=
  { cfg := ([0x05#8, 0x00#8, 0x01#8, 0x00#8, 0xcd#8, 0xab#8] ++ List.replicate 6 0x00#8 ++ [0x0a#8, 0x00#8, 0x01#8, 0x00#8, 0xe8#8, 0x03#8, 0xff#8, 0xff#8, 0x00#8, 0x00#8, 0x00#8, 0x00#8, 0x03#8, 0x00#8, 0x02#8]), state := 0, conn := true, firstSf := 0, chmap := 3, mapPend := none, mapAcked := true, release := false, sn := false, nesn := false, down := none, queue := [], anchor := none, missed := 0, lostSync := false, scanning := false, lastContact := 0, resends := 0x00000000#32, crcErr := 0x00000000#32 }
def vL23 : ANode :=
  { cfg := ([0x05#8, 0x00#8, 0x01#8, 0x00#8, 0xcd#8, 0xab#8] ++ List.replicate 6 0x00#8 ++ [0x0a#8, 0x00#8, 0x01#8, 0x00#8, 0xe8#8, 0x03#8, 0xff#8, 0xff#8, 0x00#8, 0x00#8, 0x00#8, 0x00#8, 0x03#8, 0x00#8, 0x02#8]), state := 0, conn := true, firstSf := 0, chmap := 3, mapPend := none, mapAcked := true, release := false, sn := false, nesn := false, down := none, queue := [(CmdRef.mbx 1 7, [0x09#8, 0x08#8, 0x07#8]), (CmdRef.mbx 2 7, [0x01#8])], anchor := none, missed := 0, lostSync := false, scanning := false, lastContact := 0, resends := 0x00000000#32, crcErr := 0x00000000#32 }
def vL24 : AirUp :=
  { radio := 1, node := 5, event := 0x0000#16, sn := false, nesn := false, kind := 1, body := [0x01#8, 0x02#8, 0x03#8], crcOk := false }
def vL25 : AirUp :=
  { radio := 1, node := 5, event := 0x0000#16, sn := false, nesn := false, kind := 1, body := [0x01#8, 0x02#8, 0x03#8], crcOk := true }
def vL26 : ANode :=
  { cfg := ([0x05#8, 0x00#8, 0x01#8, 0x00#8, 0xcd#8, 0xab#8] ++ List.replicate 6 0x00#8 ++ [0x0a#8, 0x00#8, 0x01#8, 0x00#8, 0xe8#8, 0x03#8, 0xff#8, 0xff#8, 0x00#8, 0x00#8, 0x00#8, 0x00#8, 0x03#8, 0x00#8, 0x02#8]), state := 0, conn := true, firstSf := 0, chmap := 3, mapPend := none, mapAcked := true, release := false, sn := false, nesn := false, down := none, queue := [], anchor := some 0, missed := 0, lostSync := false, scanning := false, lastContact := 0, resends := 0x00000000#32, crcErr := 0x00000000#32 }
def vL27 : AirUp :=
  { radio := 1, node := 5, event := 0x0000#16, sn := false, nesn := true, kind := 0, body := [0x01#8, 0x02#8, 0x03#8], crcOk := true }
def vL28 : ANode :=
  { cfg := ([0x05#8, 0x00#8, 0x01#8, 0x00#8, 0xcd#8, 0xab#8] ++ List.replicate 6 0x00#8 ++ [0x0a#8, 0x00#8, 0x01#8, 0x00#8, 0xe8#8, 0x03#8, 0xff#8, 0xff#8, 0x00#8, 0x00#8, 0x00#8, 0x00#8, 0x03#8, 0x00#8, 0x02#8]), state := 0, conn := true, firstSf := 0, chmap := 3, mapPend := none, mapAcked := true, release := false, sn := false, nesn := false, down := some { kind := 1, body := [0x01#8], ref := some (CmdRef.mbx 1 7), resends := 0, acked := false }, queue := [], anchor := some 0, missed := 0, lostSync := false, scanning := false, lastContact := 0, resends := 0x00000000#32, crcErr := 0x00000000#32 }
def vL29 : Down :=
  { kind := 1, body := [0x01#8], ref := some (CmdRef.mbx 1 7), resends := 0, acked := false }
def vL210 : ANode :=
  { cfg := ([0x05#8, 0x00#8, 0x01#8, 0x00#8, 0xcd#8, 0xab#8] ++ List.replicate 6 0x00#8 ++ [0x0a#8, 0x00#8, 0x01#8, 0x00#8, 0xe8#8, 0x03#8, 0xff#8, 0xff#8, 0x00#8, 0x00#8, 0x00#8, 0x00#8, 0x03#8, 0x00#8, 0x02#8]), state := 0, conn := false, firstSf := 0, chmap := 3, mapPend := none, mapAcked := true, release := false, sn := false, nesn := false, down := none, queue := [], anchor := none, missed := 0, lostSync := false, scanning := false, lastContact := 0, resends := 0x00000000#32, crcErr := 0x00000000#32 }
def vL211 : ANode :=
  { cfg := ([0x05#8, 0x00#8, 0x01#8, 0x00#8, 0xcd#8, 0xab#8] ++ List.replicate 6 0x00#8 ++ [0x0a#8, 0x00#8, 0x01#8, 0x00#8, 0xe8#8, 0x03#8, 0xff#8, 0xff#8, 0x00#8, 0x00#8, 0x00#8, 0x00#8, 0x03#8, 0x00#8, 0x02#8]), state := 0, conn := true, firstSf := 0, chmap := 3, mapPend := none, mapAcked := true, release := true, sn := false, nesn := false, down := none, queue := [], anchor := none, missed := 0, lostSync := false, scanning := false, lastContact := 0, resends := 0x00000000#32, crcErr := 0x00000000#32 }
def vL212 : Band :=
  { cfg := [0x01#8, 0x00#8, 0x00#8, 0x04#8, 0x64#8, 0x00#8, 0x00#8, 0x00#8, 0x01#8], buckets := [(0, 100)] }
end WL2

namespace WM1
def srcs (l : List (Nat × FSrc)) (s : State := up) : State := { s with flt := { s.flt with srcs := l } }
def wM11 : State := on 0x1301 (pl [])
def wM12 : State := on 0x1302 (pl [(0,2,0x9999)])
def wM13 : State := on 0x1302 (pl [(0,2,0x400),(2,1,1)])
def wM14 : State := on 0x1302 (pl [(0,2,0x1400),(2,1,1),(3,1,255),(4,4,60000)])
def wM15 : State := on 0x1303 (pl [(0,8,77)])
def wM16 : State := on 0x1304 (pl [(0,2,0x9999)])
def wM17 : State := on 0x1304 (pl [(0,2,0x400)])
def wM18 : State := on 0x1305 (pl [(0,2,0x9999)])
def wM19 : State := on 0x1305 (pl [(0,2,0x400)])
def wM110 : State := on 0x1305 (pl [(0,2,0x1400)]) (srcs [(0x1400, { held := true, inFault := true })])
def wM111 : State := on 0x1306 (pl [(0,2,0x9999)])
def wM112 : State := { (on 0x1306 (pl [(0,2,0x400)])) with cmds := (on 0x1306 (pl [(0,2,0x400)])).cmds.map fun c => { c with inband := some { secret := [], key := 1, ip := 0, udp := 0, port := 0, seq := 0 } } }
def wM113 : State := on 0x1306 (pl [(0,2,0x1400)])
end WM1

namespace WM2
def srcs (l : List (Nat × FSrc)) (s : State := up) : State := { s with flt := { s.flt with srcs := l } }
def upd (f : Update → Update) (s : State := up) : State := { s with upd := f s.upd }
def img : Bytes := pl [(8,4,77),(12,4,3),(16,4,100),(20,2,1),(22,2,1),(300,1,0)]
def cores (s : State := up) : State := { s with sched := { s.sched with coresUp := 255 } }
def act0 : Activation := { ref := some (.mbx 1 7), slot := 0, version := 5, svn := 6, windowS := 60, host := true }
def h0 : Bytes := sha256 (zeros 32)
def open1 : Activation := { act0 with openAt := some 5, loadedAt := some 1 }
def wM21 : State := srcs [(0x1400, { inFault := true, held := true, lullEnd := some 0 })]
def wM22 : State := srcs [(0x1400, { returning := true })]
def wM23 : State := srcs [(0x400, { inFault := true, lullEnd := some 500, entries := 3 })]
def wM24 : State := on 0x1601 (pl [(0,1,2),(4,4,300)]) cores
def wM25 : State := on 0x1601 (pl [(0,1,1),(4,4,257)]) (cores (upd fun u => { u with motion := true }))
def wM26 : State := on 0x1601 (pl [(0,1,0),(4,4,2097152)]) (cores (upd fun u => { u with running := 0 }))
def wM27 : State := on 0x1601 (pl [(0,1,1),(4,4,257)]) cores
def wM28 : State := on 0x1602 (pl [(0,4,0),(4,2,0)]) cores
def wM29 : State := on 0x1602 (pl [(0,4,0),(4,2,1),(8,1,5)]) cores
def wM210 : State := on 0x1602 (pl [(0,4,0),(4,2,1),(8,1,5)]) (cores (upd fun u => { u with staging := some 0, slots := [(0, { st := 1, length := 10, image := [1,2,3] })] }))
def wM211 : State := on 0x1602 (pl [(0,4,0),(4,2,1),(8,1,5)]) (cores (upd fun u => { u with staging := some 0, slots := [(0, { st := 1, length := 10, image := [] })] }))
def wM212 : State := on 0x1603 (pl [(0,1,3)])
def wM213 : State := on 0x1603 (pl [(0,1,0)]) (upd fun u => { u with slots := [(0, { st := 1 }), (1, { st := 2, image := img })] })
def wM214 : State := on 0x1603 (pl [(0,1,1)]) (upd fun u => { u with slots := [(0, { st := 1 }), (1, { st := 2, image := img })] })
def wM215 : State := on 0x1604 (pl [(0,1,2)]) cores
def wM216 : State := on 0x1604 (pl [(0,1,0)]) cores
def wM217 : State := on 0x1604 (pl [(0,1,1),(2,2,20)]) (cores (upd fun u => { u with motion := true, slots := [(1, { st := 3, image := img })] }))
def wM218 : State := on 0x1604 (pl [(0,1,1),(2,2,20)]) (cores (upd fun u => { u with slots := [(1, { st := 3, image := img })], runs := [(0, [])] }))
def wM219 : State := on 0x1604 (pl [(0,1,1),(2,2,20)]) (cores (upd fun u => { u with slots := [(1, { st := 3, image := img })], runs := [(0, img)] }))
def wM220 : State := on 0x1605 (pl [])
def wM221 : State := on 0x1605 (pl []) (upd fun u => { u with act := some act0 })
def wM222 : State := on 0x1605 (pl []) (upd fun u => { u with act := some { act0 with openAt := some 5 } })
def wM223 : State := on 0x1606 (pl [])
def wM224 : State := { (on 0x1607 (pl [(0,1,0)])) with cmds := (on 0x1607 (pl [(0,1,0)])).cmds.map fun c => { c with inband := some { secret := [], key := 1, ip := 0, udp := 0, port := 0, seq := 0 } } }
def wM225 : State := on 0x1607 (pl [(0,1,0)]) (upd fun u => { u with lockout := some 999 })
def wM226 : State := on 0x1607 (pl [(0,1,0)])
def wM227 : State := on 0x1607 (pl [(0,1,0)]) (upd fun u => { u with keyHash := some h0, lock := true })
def wM228 : State := on 0x1607 (pl [(0,1,0),(8,1,1)]) (upd fun u => { u with keyHash := some h0, lock := true })
def wM229 : State := upd fun u => { u with act := some act0 }
def wM230 : State := upd fun u => { u with act := some { act0 with openAt := some 0, windowS := 20 }}
def wM231 : State := upd (fun u => { u with act := some { open1 with openAt := some 0, windowS := 11, confirmed := true } })
def wM232 : State := upd fun u => { u with act := some { open1 with host := false, windowS := 1, openAt := some 0 } }
def wM233 : State := mode6 (upd fun u => { u with act := some { open1 with fellAt := some 3 } })
def wM234 : State := upd fun u => { u with act := some { open1 with fellAt := some 0, oldSlot := 1, oldPart := 1 } }
def wM235 : State := upd fun u => { u with lockout := some 500 }
def vM21 : Activation :=
  { ref := some (CmdRef.mbx 1 7), slot := 0, version := 5, svn := 6, windowS := 60, host := true, part := 0, oldSlot := 2, oldPart := 0, loadedAt := none, openAt := none, level := 0, blockRead := false, confirmed := false, fellAt := none, cause := 0, written := false }
def vM22 : Activation :=
  { ref := some (CmdRef.mbx 1 7), slot := 0, version := 5, svn := 6, windowS := 60, host := true, part := 0, oldSlot := 2, oldPart := 0, loadedAt := none, openAt := some 5, level := 0, blockRead := false, confirmed := false, fellAt := none, cause := 0, written := false }
def vM23 : Bytes :=
  [0x66#8, 0x68#8, 0x7a#8, 0xad#8, 0xf8#8, 0x62#8, 0xbd#8, 0x77#8, 0x6c#8, 0x8f#8, 0xc1#8, 0x8b#8, 0x8e#8, 0x9f#8, 0x8e#8, 0x20#8, 0x08#8, 0x97#8, 0x14#8, 0x85#8, 0x6e#8, 0xe2#8, 0x33#8, 0xb3#8, 0x90#8, 0x2a#8, 0x59#8, 0x1d#8, 0x0d#8, 0x5f#8, 0x29#8, 0x25#8]
def vM24 : Activation :=
  { ref := some (CmdRef.mbx 1 7), slot := 0, version := 5, svn := 6, windowS := 20, host := true, part := 0, oldSlot := 2, oldPart := 0, loadedAt := none, openAt := some 0, level := 0, blockRead := false, confirmed := false, fellAt := none, cause := 0, written := false }
def vM25 : Activation :=
  { ref := some (CmdRef.mbx 1 7), slot := 0, version := 5, svn := 6, windowS := 11, host := true, part := 0, oldSlot := 2, oldPart := 0, loadedAt := some 1, openAt := some 0, level := 0, blockRead := false, confirmed := true, fellAt := none, cause := 0, written := false }
def vM26 : Activation :=
  { ref := some (CmdRef.mbx 1 7), slot := 0, version := 5, svn := 6, windowS := 1, host := false, part := 0, oldSlot := 2, oldPart := 0, loadedAt := some 1, openAt := some 0, level := 0, blockRead := false, confirmed := false, fellAt := none, cause := 0, written := false }
def vM27 : Activation :=
  { ref := some (CmdRef.mbx 1 7), slot := 0, version := 5, svn := 6, windowS := 60, host := true, part := 0, oldSlot := 2, oldPart := 0, loadedAt := some 1, openAt := some 5, level := 0, blockRead := false, confirmed := false, fellAt := some 3, cause := 0, written := false }
def vM28 : Activation :=
  { ref := some (CmdRef.mbx 1 7), slot := 0, version := 5, svn := 6, windowS := 60, host := true, part := 0, oldSlot := 1, oldPart := 1, loadedAt := some 1, openAt := some 5, level := 0, blockRead := false, confirmed := false, fellAt := some 0, cause := 0, written := false }
end WM2

open WA in
theorem witness_InterruptRegisters :
    (∃ (s : State), awake s = true ∧ PinDriven s) :=
  ⟨up, by decide +kernel⟩

open WA in
theorem witness_MailboxRegisters :
    (∃ (n v : Nat) (s : State),
      awake s = true ∧
        PinDriven s ∧
          1 ≤ n ∧
            n < 16 ∧
              v < 65536 ∧
                mbxUnassigned n 20 s = false ∧
                  (mbxOf s n).enable = true ∧ (BitVec.ofNat 16 v - (mbxOf s n).head).toNat ≤ ringSize (mbxOf s n))
    ∧ (∃ (n : Nat) (s : State), awake s = true ∧ PinDriven s ∧ 1 ≤ n ∧ n < 16 ∧ mbxUnassigned n 20 s = false ∧ (mbxOf s n).enable = false)
    ∧ (∃ (n v : Nat) (s : State),
      awake s = true ∧
        PinDriven s ∧
          1 ≤ n ∧
            n < 16 ∧
              v < 65536 ∧
                mbxUnassigned n 20 s = false ∧
                  (mbxOf s n).enable = true ∧ ringSize (mbxOf s n) < (BitVec.ofNat 16 v - (mbxOf s n).head).toNat)
    ∧ (∃ (n v : Nat) (s : State),
      awake s = true ∧
        PinDriven s ∧
          1 ≤ n ∧
            n < 16 ∧
              v < 65536 ∧
                mbxUnassigned n 32 s = false ∧
                  (BitVec.ofNat 16 v - (mbxOf s n).rhead).toNat ≤ BitVec.toNat ((mbxOf s n).rtail - (mbxOf s n).rhead))
    ∧ (∃ (n : Nat) (v : U32) (s : State),
      awake s = true ∧
        PinDriven s ∧
          1 ≤ n ∧
            n < 16 ∧
              BitVec.toNat v % 16 < 9 ∧
                mbxUnassigned n 16 s = false ∧ (mbxOf s n).enable = false ∧ (mbxOf s n).draining = false)
    ∧ (∃ (n : Nat) (s : State),
      awake s = true ∧
        PinDriven s ∧
          1 ≤ n ∧ n < 16 ∧ mbxUnassigned n 16 s = false ∧ (mbxOf s n).enable = false ∧ (mbxOf s n).draining = true)
    ∧ (∃ (n : Nat) (v : U32) (s : State),
      awake s = true ∧
        PinDriven s ∧
          1 ≤ n ∧
            n < 16 ∧
              BitVec.toNat v % 16 = (mbxOf s n).size ∧
                (mbxOf s n).size < 9 ∧ mbxUnassigned n 16 s = false ∧ (mbxOf s n).enable = true ∧ inFlight s n ≠ []) :=
  ⟨⟨1, 0, wA1, by decide +kernel⟩,
   ⟨1, up, by decide +kernel⟩,
   ⟨1, 0, wA2, by decide +kernel⟩,
   ⟨1, 0, up, by decide +kernel⟩,
   ⟨1, 0x00000000#32, up, by decide +kernel⟩,
   ⟨1, wA3, by decide +kernel⟩,
   ⟨1, 0x00000000#32, wA4, by decide +kernel⟩⟩

open WA in
theorem witness_WriteOneToClear :
    (∃ (s : State), awake s = true ∧ PinDriven s)
    ∧ (∃ (k : Nat) (s : State), awake s = true ∧ k < 13)
    ∧ (∃ (p : Nat) (v : U32) (s : State), awake s = true ∧ PinDriven s ∧ p < 64 ∧ BitVec.getLsbD v 31 = true)
    ∧ (∃ (p : Nat) (s : State), awake s = true ∧ PinDriven s ∧ p < 64) :=
  ⟨⟨up, by decide +kernel⟩,
   ⟨0, up, by decide +kernel⟩,
   ⟨0, 0x80000000#32, up, by decide +kernel⟩,
   ⟨0, up, by decide +kernel⟩⟩

open WA in
theorem witness_UnderrunClear :
    (∃ (v : U32) (s : State), awake s = true ∧ PinDriven s ∧ BitVec.getLsbD v 1 = true ∧ bobStat s ≠ 0)
    ∧ (∃ (w v : U32) (s : State), awake s = true ∧ PinDriven s ∧ BitVec.getLsbD v 1 = true ∧ (bobDef (BitVec.toNat w % 65536)).isSome = true) :=
  ⟨⟨0x00000002#32, wA5, by decide +kernel⟩,
   ⟨0x00011801#32, 0x00000002#32, up, by decide +kernel⟩⟩

open WA in
theorem witness_Bar0Violation :
    (∃ (off size be : Nat) (s : State), awake s = true ∧ PinDriven s ∧ (size ≠ 4 ∨ off % 4 ≠ 0 ∨ be ≠ 15 ∨ regExists s off = false)) :=
  ⟨0, 0, 0, up, by decide +kernel⟩

open WA in
theorem witness_RegisterAccess :
    (∃ (off : Nat) (s : State), off < bar2Base ∧ regExists s off = false)
    ∧ (∃ (off : Nat) (s : State),
      awake s = true ∧
        PinDriven s ∧ off ∈ [0, 4, 8, 12, 16, 256, 268, 2112, 2120, 2100, 4096, 8192, 8200, 12288, 16384, 32768, 36864])
    ∧ (∃ (n : Nat) (v : U32) (s : State), awake s = true ∧ PinDriven s ∧ n < 32 ∧ BitVec.getLsbD v 0 = false)
    ∧ (∃ (s : State), awake s = true ∧ PinDriven s)
    ∧ (∃ (n : Nat) (s : State),
      awake s = true ∧
        PinDriven s ∧
          1 ≤ n ∧ n < 16 ∧ mbxUnassigned n 0 s = false ∧ (mbxOf s n).enable = false ∧ (mbxOf s n).draining = false)
    ∧ (∃ (s : State), awake s = true ∧ PinDriven s ∧ s.reel.loading = true) :=
  ⟨⟨1, up, by decide +kernel⟩,
   ⟨0, up, by decide +kernel⟩,
   ⟨0, 0x00000000#32, up, by decide +kernel⟩,
   ⟨up, by decide +kernel⟩,
   ⟨1, up, by decide +kernel⟩,
   ⟨wA6, by decide +kernel⟩⟩

open WB in
theorem witness_CommandIntake :
    (∃ (n : Nat) (entry : Bytes) (s : State), awake s = true ∧ PinDriven s ∧ 1 ≤ n ∧ n < 16 ∧ List.length entry = 64 ∧ mayTake n s = true)
    ∧ (∃ (core : Nat) (c : Cmd) (s : State),
      awake s = true ∧
        PinDriven s ∧
          core < 8 ∧
            s.sched.coresUp.testBit core = true ∧ s.hif.ready = true ∧ bestCmd s core = some c ∧ onCore s core = none)
    ∧ (∃ (t core : Nat) (c d : Cmd) (s : State),
      awake s = true ∧
        PinDriven s ∧ onCore s core = some d ∧ bestCmd s core = some c ∧ d.prio ≤ c.prio ∧ d.since + 200000 ≤ max s.now t)
    ∧ (∃ (t core : Nat) (d : Cmd) (s : State), awake s = true ∧ PinDriven s ∧ onCore s core = some d ∧ max s.now t < d.since + 200000)
    ∧ (∃ (b : Nat) (c : Cmd) (s : State),
      awake s = true ∧
        PinDriven s ∧
          (sortBy (fun c => c.order)
                  (List.filter
                    (fun c =>
                      mayStart s c &&
                        match c.ref with
                        | CmdRef.mbx n tag => true
                        | x => false)
                    s.cmds)).head? =
              some c ∧
            b * 10 < (setBits 8 s.sched.coresUp).length * 10000000 ∧ backgroundThreads s = 0) :=
  ⟨⟨1, vB1, wB1, by decide +kernel⟩,
   ⟨0, cmdAt 1 wB2, wB2, by decide +kernel⟩,
   ⟨0, 0, cmdAt 1 wB3, cmd0 wB3, wB3, by decide +kernel⟩,
   ⟨0, 0, cmd0 wB4, wB4, by decide +kernel⟩,
   ⟨0, cmdAt 1 wB3, wB3, by decide +kernel⟩⟩

open WB in
theorem witness_CommandCompletion :
    (∃ (c : Cmd) (n tag : Nat), c.ref = CmdRef.mbx n tag ∧ ∃ (k : Nat), k ≠ n)
    ∧ (∃ (c : Cmd) (q i : Nat), c.ref = CmdRef.cue q i)
    ∧ (∃ (n : Nat) (r : CRec) (rest : List CRec) (s : State),
      awake s = true ∧
        PinDriven s ∧
          1 ≤ n ∧
            n < 16 ∧
              (mbxOf s n).recs = r :: rest ∧
                r.inband = none ∧ r.after = none ∧ ringRoom (mbxOf s n) = true ∧ (mbxOf s n).draining = false)
    ∧ (∃ (n : Nat) (s : State),
      awake s = true ∧
        PinDriven s ∧
          1 ≤ n ∧ n < 16 ∧ (∀ (r : CRec), r ∈ (mbxOf s n).recs → r.inband = none) ∧ ringRoom (mbxOf s n) = false)
    ∧ (∃ (n k tag : Nat) (r q : CRec) (rest : List CRec) (s : State),
      awake s = true ∧
        PinDriven s ∧
          1 ≤ n ∧ n < 16 ∧ (mbxOf s n).recs = r :: rest ∧ r.after = some (k, tag) ∧ q ∈ (mbxOf s k).recs ∧ q.tag = tag)
    ∧ (∃ (e : Ev) (rest : List Ev) (s : State),
      awake s = true ∧
        PinDriven s ∧
          s.hif.evq = e :: rest ∧ s.hif.lostCount = 0 ∧ (mbxOf s 0).enable = true ∧ ringRoom (mbxOf s 0) = true) :=
  ⟨⟨vB2, 1, 7, by decide +kernel, 2, by decide +kernel⟩,
   ⟨vB3, 3, 0, by decide +kernel⟩,
   ⟨1, vB4, vB5, wB5, by decide +kernel⟩,
   ⟨1, wB6, by decide +kernel⟩,
   ⟨1, 2, 5, vB6, vB7, [], wB7, by decide +kernel⟩,
   ⟨vB8, vB9, wB8, by decide +kernel⟩⟩

open WB in
theorem witness_SystemCommands :
    (∃ (r : CmdRef) (c : Cmd) (s : State), Ready 0x0000 r c s)
    ∧ (∃ (r : CmdRef) (c : Cmd) (s : State), Ready 0x0001 r c s)
    ∧ (∃ (op : Nat) (r : CmdRef) (c : Cmd) (s : State), awake s = true ∧ Ready op r c s ∧ layoutOf op c.payload = none)
    ∧ (∃ (n tag : Nat) (r : CmdRef) (c : Cmd) (s : State),
      Ready 0x0101 r c s ∧
        field c.payload 0 1 = n ∧
          field c.payload 2 2 = tag ∧ CmdRef.mbx n tag ≠ r ∧ (findCmd (CmdRef.mbx n tag) s).isSome = true)
    ∧ (∃ (t n tag u : Nat) (r : CmdRef) (c : Cmd) (s : State),
      Ready 0x0101 r c s ∧
        field c.payload 0 1 = n ∧
          field c.payload 2 2 = tag ∧
            CmdRef.mbx n tag ≠ r ∧
              findCmd (CmdRef.mbx n tag) s = none ∧ kget? (mbxOf s n).tags tag = some u ∧ max s.now t < u)
    ∧ (∃ (r : CmdRef) (c : Cmd) (s : State), Ready 0x0101 r c s ∧ CmdRef.mbx (field c.payload 0 1) (field c.payload 2 2) = r)
    ∧ (∃ (r : CmdRef) (c : Cmd) (s : State), findCmd r s = some c ∧ s.upd.act = none ∧ ∃ (n tag : Nat), r = CmdRef.mbx n tag)
    ∧ (∃ (t d : Nat) (r : CmdRef) (c : Cmd) (s : State), awake s = true ∧ findCmd r s = some c ∧ c.deadline = some d ∧ d ≤ max s.now t)
    ∧ (∃ (t d : Nat) (r : CmdRef) (c : Cmd) (s : State), awake s = true ∧ PinDriven s ∧ findCmd r s = some c ∧ c.deadline = some d ∧ max s.now t < d)
    ∧ (∃ (t n : Nat) (d : Drain) (s : State),
      awake s = true ∧
        n < 16 ∧ List.find? (fun d => d.function == 255 && d.inst == n) s.sched.drains = some d ∧ d.expires ≤ max s.now t)
    ∧ (∃ (t n tag u : Nat) (s : State), awake s = true ∧ PinDriven s ∧ n < 16 ∧ kget? (mbxOf s n).tags tag = some u ∧ u ≤ max s.now t) :=
  ⟨⟨CmdRef.mbx 1 7, cmd0 wB9, wB9, by decide +kernel⟩,
   ⟨CmdRef.mbx 1 7, cmd0 wB10, wB10, by decide +kernel⟩,
   ⟨30583, CmdRef.mbx 1 7, cmd0 wB11, wB11, by decide +kernel⟩,
   ⟨1, 7, CmdRef.mbx 1 8, cmd0 wB12, wB12, by decide +kernel⟩,
   ⟨0, 1, 9, 1000, CmdRef.mbx 1 8, cmd0 wB13, wB13, by decide +kernel⟩,
   ⟨CmdRef.mbx 1 8, cmd0 wB14, wB14, by decide +kernel⟩,
   ⟨CmdRef.mbx 1 8, cmd0 wB12, wB12, by decide +kernel, by decide +kernel, 1, 8, by decide +kernel⟩,
   ⟨1000, 1000, CmdRef.mbx 1 7, cmd0 wB15, wB15, by decide +kernel⟩,
   ⟨0, 1000, CmdRef.mbx 1 7, cmd0 wB15, wB15, by decide +kernel⟩,
   ⟨1000, 1, { function := 255, inst := 1, aborted := 0, expires := 1000 }, wB16, by decide +kernel⟩,
   ⟨1000, 1, 9, 1000, wB17, by decide +kernel⟩⟩

open WB in
theorem witness_InbandMailbox :
    (∃ (r : CmdRef) (c : Cmd) (s : State), Ready 0x0103 r c s ∧ keyAuthority c = true ∧ field c.payload 0 1 ≤ 3)
    ∧ (∃ (r : CmdRef) (c : Cmd) (s : State), Ready 0x0103 r c s ∧ keyAuthority c = false)
    ∧ (∃ (r : CmdRef) (c : Cmd) (s : State),
      Ready 0x0102 r c s ∧
        keyAuthority c = true ∧
          field c.payload 0 1 = 1 ∧
            field c.payload 1 1 ≤ 63 ∧
              field c.payload 2 2 ≠ 0 ∧
                field c.payload 4 4 ≠ 0 ∧
                  (mbxOf s 15).enable = false ∧
                    ((setBits 4 (field c.payload 8 1 % 16)).all fun k => List.isEmpty (kgetD s.hif.keys k [])) = false)
    ∧ (∃ (d : Datagram) (s : State),
      awake s = true ∧
        PinDriven s ∧
          Receives s d.port (udpLen (List.length d.payload)) false ∧
            s.hif.inband = true ∧
              s.hif.inbEnabled = true ∧
                s.hif.ready = true ∧ d.port = s.hif.inbPort ∧ d.dstIp = s.hif.inbIp ∧ d.udpPort = s.hif.inbUdp) :=
  ⟨⟨CmdRef.mbx 1 7, cmd0 wB18, wB18, by decide +kernel⟩,
   ⟨CmdRef.mbx 1 7, cmd0 wB19, wB19, by decide +kernel⟩,
   ⟨CmdRef.mbx 1 7, cmd0 wB20, wB20, by decide +kernel⟩,
   ⟨vB10, wB21, by decide +kernel⟩⟩

open WC in
theorem witness_WallCommands :
    (∃ (r : CmdRef) (c : Cmd) (s : State),
      Ready 0x0201 r c s ∧
        let o : Nat := field c.payload 0 4;
        let total : Nat := field c.payload 4 4;
        let data : List U8 := List.drop 16 c.payload;
        let good : Prop :=
          32 ≤ total ∧
            total ≤ 353312 ∧
              data ≠ [] ∧
                data.length ≤ 4080 ∧
                  o + data.length ≤ total ∧ (o = 0 ∨ o = List.length s.wall.staged ∧ total = s.wall.stagedTotal);
        good)
    ∧ (∃ (r : CmdRef) (c : Cmd) (s : State),
      Ready 0x0201 r c s ∧
        let o : Nat := field c.payload 0 4;
        let total : Nat := field c.payload 4 4;
        let data : List U8 := List.drop 16 c.payload;
        let good : Prop :=
          32 ≤ total ∧
            total ≤ 353312 ∧
              data ≠ [] ∧
                data.length ≤ 4080 ∧
                  o + data.length ≤ total ∧ (o = 0 ∨ o = List.length s.wall.staged ∧ total = s.wall.stagedTotal);
        ¬good)
    ∧ (∃ (r : CmdRef) (c : Cmd) (s : State), Ready 0x0203 r c s)
    ∧ (∃ (s : State), s.wall.active = none ∧ s.wall.pending = none)
    ∧ (∃ (r : CmdRef) (c : Cmd) (s : State), Ready 0x0202 r c s ∧ changePending s = true)
    ∧ (∃ (r : CmdRef) (c : Cmd) (s : State),
      Ready 0x0202 r c s ∧
        let b : Bytes := s.wall.staged;
        ∃ (o : Nat), changePending s = false ∧ b ≠ [] ∧ List.length b = s.wall.stagedTotal ∧ headBad b s.wall.stagedTotal = some o)
    ∧ (∃ (r : CmdRef) (c : Cmd) (s : State),
      Ready 0x0202 r c s ∧
        let b : Bytes := s.wall.staged;
        let w : WallImg := parseWall b;
        changePending s = false ∧
          b ≠ [] ∧ List.length b = s.wall.stagedTotal ∧ headBad b s.wall.stagedTotal = none ∧ wallCrc b ≠ w.crc)
    ∧ (∃ (t : Nat) (r : CmdRef) (c : Cmd) (s : State),
      Ready 0x0202 r c s ∧
        let b : Bytes := s.wall.staged;
        let w : WallImg := parseWall b;
        let keep : Bool := bit (field c.payload 0 1) 0;
        let pins : List Pin := if keep = true then List.filter (pinKept w) s.place.pins else [];
        changePending s = false ∧
          b ≠ [] ∧
            List.length b = s.wall.stagedTotal ∧
              headBad b s.wall.stagedTotal = none ∧
                wallCrc b = w.crc ∧
                  imageBad b w = none ∧
                    sourceMissing s w = none ∧
                      (wallPorts w).any (portServes s) = false ∧ wallRulesBad w s.place.profile pins (advance t s) = none) :=
  ⟨⟨CmdRef.mbx 1 7, cmd0 wC1, wC1, by decide +kernel⟩,
   ⟨CmdRef.mbx 1 7, cmd0 wC2, wC2, by decide +kernel⟩,
   ⟨CmdRef.mbx 1 7, cmd0 wC3, wC3, by decide +kernel⟩,
   ⟨wC1, by decide +kernel⟩,
   ⟨CmdRef.mbx 1 7, cmd0 wC4, wC4, by decide +kernel⟩,
   ⟨CmdRef.mbx 1 7, cmd0 wC5, wC5, by decide +kernel, 0, by decide +kernel⟩,
   ⟨CmdRef.mbx 1 7, cmd0 wC6, wC6, by decide +kernel, by decide +kernel, by decide +kernel, by decide +kernel, by decide +kernel, fun h => absurd (crc_bad.symm.trans h) (by decide +kernel)⟩,
   ⟨0, CmdRef.mbx 1 7, cmd0 wC7, wC7, by decide +kernel, by decide +kernel, by decide +kernel, by decide +kernel, by decide +kernel, crc_im1.trans (by decide +kernel), by decide +kernel⟩⟩

open WC in
theorem witness_PlacementCommands :
    (∃ (r : CmdRef) (c : Cmd) (s : State),
      Ready 0x0301 r c s ∧
        let p : Nat := field c.payload 0 1;
        3 < p)
    ∧ (∃ (r : CmdRef) (c : Cmd) (s : State),
      Ready 0x0301 r c s ∧
        let p : Nat := field c.payload 0 1;
        p ≤ 3 ∧ changePending s = false ∧ p = s.place.profile)
    ∧ (∃ (t : Nat) (r : CmdRef) (c : Cmd) (s : State),
      Ready 0x0301 r c s ∧
        let p : Nat := field c.payload 0 1;
        p ≤ 3 ∧
          changePending s = false ∧
            p ≠ s.place.profile ∧
              (p = 3 → modeN s.mode.mode ≤ 1) ∧
                s.wall.active = none ∧ admits none s.weave.active s.mode.mode p (advance t s) = true)
    ∧ (∃ (t : Nat) (r : CmdRef) (c : Cmd) (s : State) (w : WallImg),
      Ready 0x0302 r c s ∧
        s.wall.active = some w ∧
          let q : Pin := parsePin c.payload (freePin s) (s.place.gen + if s.place.triggers.isEmpty = true then 1 else 2);
          q.kind = 0 ∧
            pinAbsent w q = false ∧
              s.place.pins.length < 256 ∧
                pinOverlaps s q = false ∧
                  q.target ≤ 15 ∧
                    buffersFit (advance t s) w s.place.profile (s.place.pins ++ [q]) = true ∧ s.place.profile ≠ 2)
    ∧ (∃ (r : CmdRef) (c : Cmd) (s : State),
      Ready 0x0303 r c s ∧
        let n : Nat := field c.payload 0 2;
        n = 65535 ∨ (s.place.pins.any fun p => p.num == n) = true)
    ∧ (∃ (r : CmdRef) (c : Cmd) (s : State),
      Ready 0x0303 r c s ∧
        let n : Nat := field c.payload 0 2;
        n ≠ 65535 ∧ (s.place.pins.any fun p => p.num == n) = false)
    ∧ (∃ (r : CmdRef) (c : Cmd) (s : State), Ready 0x0304 r c s)
    ∧ (∃ (t d : Nat) (s : State),
      awake s = true ∧ s.mode.mode = 0 ∧ s.mode.pending = none ∧ placeDueAt (advance t s) = some d ∧ d ≤ max s.now t)
    ∧ (∃ (t d : Nat) (s : State),
      awake s = true ∧ s.mode.mode = 0 ∧ s.mode.pending = none ∧ placeDueAt (advance t s) = some d ∧ max s.now t < d)
    ∧ (∃ (p : Nat) (s : State), s.place.pendProfile = some p) :=
  ⟨⟨CmdRef.mbx 1 7, cmd0 wC8, wC8, by decide +kernel⟩,
   ⟨CmdRef.mbx 1 7, cmd0 wC9, wC9, by decide +kernel⟩,
   ⟨0, CmdRef.mbx 1 7, cmd0 wC10, wC10, by decide +kernel⟩,
   ⟨0, CmdRef.mbx 1 7, cmd0 wC11, wC11, vC1, by decide +kernel⟩,
   ⟨CmdRef.mbx 1 7, cmd0 wC12, wC12, by decide +kernel⟩,
   ⟨CmdRef.mbx 1 7, cmd0 wC13, wC13, by decide +kernel⟩,
   ⟨CmdRef.mbx 1 7, cmd0 wC14, wC14, by decide +kernel⟩,
   ⟨8000000, 8000000, wC15, by decide +kernel⟩,
   ⟨0, 8000000, wC15, by decide +kernel⟩,
   ⟨0, wC16, by decide +kernel⟩⟩

open WD in
theorem witness_WeaveLoadRefused :
    (∃ (r : CmdRef) (c : Cmd) (s : State), Ready 0x0401 r c s ∧ (s.weave.pend ≠ none ∨ s.place.pendProfile ≠ none ∨ s.wall.pending ≠ none)) :=
  ⟨CmdRef.mbx 1 7, cmd0 wD1, wD1, by decide +kernel⟩

open WD in
theorem witness_WeaveCommands :
    (∃ (t : Nat) (r : CmdRef) (c : Cmd) (s : State),
      Ready 0x0401 r c s ∧
        s.weave.pend = none ∧
          s.weave.building = none ∧
            s.place.pendProfile = none ∧ s.wall.pending = none ∧ weaveBad c.payload (advance t s) = none)
    ∧ (∃ (t : Nat) (r : CmdRef) (c : Cmd) (s : State),
      Ready 0x0401 r c s ∧
        s.weave.pend = none ∧
          s.weave.building = none ∧
            s.place.pendProfile = none ∧ s.wall.pending = none ∧ ∃ (st d : Nat), weaveBad c.payload (advance t s) = some (st, d))
    ∧ (∃ (r : CmdRef) (c : Cmd) (w : Weave) (s : State), awake s = true ∧ s.weave.building = some (r, w) ∧ findCmd r s = some c ∧ s.mode.mode = 0)
    ∧ (∃ (r : CmdRef) (c : Cmd) (w : Weave) (s : State),
      awake s = true ∧ s.weave.building = some (r, w) ∧ findCmd r s = some c ∧ s.mode.mode ≠ 0 ∧ s.wall.active ≠ none)
    ∧ (∃ (w : Weave) (s : State) (e : Nat × NodeSt), e ∈ (weaveInForce w s).weave.nodes)
    ∧ (∃ (r : CmdRef) (c : Cmd) (s : State),
      Ready 0x0402 r c s ∧
        let k : Nat := field c.payload 0 1;
        let first : Nat := field c.payload 2 2;
        let n : Nat := field c.payload 4 2;
        k ≤ 15 ∧ first ≤ 1024 ∧ n ≠ 0 ∧ n ≤ 340 ∧ first + n ≤ 1025 ∧ tableInUse s k = true)
    ∧ (∃ (r : CmdRef) (c : Cmd) (s : State),
      Ready 0x0402 r c s ∧
        let k : Nat := field c.payload 0 1;
        let first : Nat := field c.payload 2 2;
        let n : Nat := field c.payload 4 2;
        k ≤ 15 ∧ first ≤ 1024 ∧ n ≠ 0 ∧ n ≤ 340 ∧ first + n ≤ 1025 ∧ tableInUse s k = false)
    ∧ (∃ (r : CmdRef) (c : Cmd) (s : State), Ready 0x0404 r c s)
    ∧ (∃ (r : CmdRef) (c : Cmd) (s : State), Ready 0x0405 r c s ∧ ∃ (w : Weave), s.weave.active = some w ∧ field c.payload 0 1 < w.nodes.length)
    ∧ (∃ (r : CmdRef) (c : Cmd) (s : State), Ready 0x0405 r c s ∧ s.weave.active = none)
    ∧ (∃ (t : Nat) (r : CmdRef) (c : Cmd) (w : Weave) (s : State),
      Ready 0x0403 r c s ∧
        s.weave.active = some w ∧
          s.weave.pend = none ∧
            field c.payload 0 2 = w.id ∧
              field c.payload 2 1 ≤ 1 ∧
                field c.payload 3 1 = 0 ∧
                  field c.payload 12 1 ≠ 0 ∧
                    field c.payload 12 1 ≤ 16 ∧
                      paramEntriesBad w c.payload (field c.payload 12 1) (advance t s) = none ∧ s.mode.mode = 0)
    ∧ (∃ (t : Nat) (r : CmdRef) (c : Cmd) (w : Weave) (s : State),
      Ready 0x0403 r c s ∧
        s.weave.active = some w ∧
          s.weave.pend = none ∧
            field c.payload 0 2 = w.id ∧
              field c.payload 2 1 ≤ 1 ∧
                field c.payload 3 1 = 0 ∧
                  field c.payload 12 1 ≠ 0 ∧
                    field c.payload 12 1 ≤ 16 ∧
                      paramEntriesBad w c.payload (field c.payload 12 1) (advance t s) = none ∧
                        s.mode.mode ≠ 0 ∧ s.weave.params.length < 16)
    ∧ (∃ (t : Nat) (r : CmdRef) (c : Cmd) (w : Weave) (s : State),
      Ready 0x0403 r c s ∧
        s.weave.active = some w ∧
          s.weave.pend = none ∧
            field c.payload 0 2 = w.id ∧
              field c.payload 2 1 ≤ 1 ∧
                field c.payload 3 1 = 0 ∧
                  field c.payload 12 1 ≠ 0 ∧
                    field c.payload 12 1 ≤ 16 ∧
                      paramEntriesBad w c.payload (field c.payload 12 1) (advance t s) = none ∧
                        s.mode.mode ≠ 0 ∧ 16 ≤ s.weave.params.length)
    ∧ (∃ (q : ParamWait) (c : Cmd) (w : Weave) (s : State), s.weave.active = some w ∧ w.id = q.weaveId ∧ findCmd q.ref s = some c) :=
  ⟨⟨0, CmdRef.mbx 1 7, cmd0 wD2, wD2, by decide +kernel⟩,
   ⟨0, CmdRef.mbx 1 7, cmd0 wD3, wD3, by decide +kernel, by decide +kernel, by decide +kernel, by decide +kernel, by decide +kernel, 33, 2, by decide +kernel⟩,
   ⟨CmdRef.mbx 1 7, cmd0 wD4, vD1, wD4, by decide +kernel⟩,
   ⟨CmdRef.mbx 1 7, cmd0 wD5, vD1, wD5, by decide +kernel⟩,
   ⟨vD1, wD2, vD2, by decide +kernel⟩,
   ⟨CmdRef.mbx 1 7, cmd0 wD6, wD6, by decide +kernel⟩,
   ⟨CmdRef.mbx 1 7, cmd0 wD7, wD7, by decide +kernel⟩,
   ⟨CmdRef.mbx 1 7, cmd0 wD8, wD8, by decide +kernel⟩,
   ⟨CmdRef.mbx 1 7, cmd0 wD9, wD9, by decide +kernel, vD1, by decide +kernel⟩,
   ⟨CmdRef.mbx 1 7, cmd0 wD10, wD10, by decide +kernel⟩,
   ⟨0, CmdRef.mbx 1 7, cmd0 wD11, vD1, wD11, by decide +kernel⟩,
   ⟨0, CmdRef.mbx 1 7, cmd0 wD12, vD1, wD12, by decide +kernel⟩,
   ⟨0, CmdRef.mbx 1 7, cmd0 wD13, vD1, wD13, by decide +kernel⟩,
   ⟨vD3, cmd0 wD11, vD1, wD11, by decide +kernel⟩⟩

open WF in
theorem witness_WeaveWork :
    (∃ (e : U32) (s : State),
      let s' : State := beginWeave e s;
      ∃ (k : Skein), k ∈ s'.link.skeins)
    ∧ (∃ (s : State) (b : Nat), b < 16 ∧ sbankUp s b = true)
    ∧ (∃ (i : Nat) (h : Hank) (w : WallImg) (v : Weave) (q : TileRec) (s : State),
      awake s = true ∧
        (spOf s i).hank = some h ∧
          (spOf s i).done < h.count ∧ s.wall.active = some w ∧ s.weave.active = some v ∧ tileOf w h.tile = some q)
    ∧ (∃ (i : Nat) (s : State), awake s = true ∧ (spOf s i).hank = none)
    ∧ (∃ (i : Nat) (h k : Hank) (rest : List Hank) (s : State),
      awake s = true ∧
        (spOf s i).hank = some h ∧
          h.count ≠ 0 ∧ h.count ≤ (spOf s i).done ∧ (spOf s i).draining = false ∧ (spOf s i).prefetch = k :: rest)
    ∧ (∃ (i : Nat) (h : Hank) (s : State), awake s = true ∧ (spOf s i).hank = some h ∧ (spOf s i).done < h.count)
    ∧ (∃ (t i : Nat) (h : Hank) (s : State),
      awake s = true ∧
        (spOf s i).hank = some h ∧ (spOf s i).done < h.count ∧ (spOf s i).pxStart + 10000 ≤ max s.now t ∧ spUp s i = true)
    ∧ (∃ (t i : Nat) (h : Hank) (s : State), awake s = true ∧ (spOf s i).hank = some h ∧ max s.now t < (spOf s i).pxStart + 10000) :=
  ⟨⟨0x0000004d#32, wF1, vF1, by decide +kernel⟩,
   ⟨wF2, 0, by decide +kernel⟩,
   ⟨0, vF2, vF3, vF4, vF5, wF3, by decide +kernel⟩,
   ⟨0, wF4, by decide +kernel⟩,
   ⟨2, vF2, vF6, vF7, wF3, by decide +kernel⟩,
   ⟨0, vF2, wF3, by decide +kernel⟩,
   ⟨10100, 0, vF2, wF3, by decide +kernel⟩,
   ⟨0, 0, vF2, wF3, by decide +kernel⟩⟩

open WD in
theorem witness_IngestCommands :
    (∃ (r : CmdRef) (c : Cmd) (s : State),
      Ready 0x0501 r c s ∧
        let p : Bytes := c.payload;
        let fmt : Nat := field p 15 1;
        field p 0 2 ≤ 1023 ∧
          field p 2 1 ≤ 63 ∧
            field p 3 1 ≤ 2 ∧
              field p 14 1 ∈ [8, 10, 12] ∧
                fmt % 16 ≤ 1 ∧
                  fmt / 16 % 4 ≤ 1 ∧
                    1 ≤ field p 16 2 ∧
                      field p 16 2 ≤ 8192 ∧
                        1 ≤ field p 18 2 ∧
                          field p 18 2 ≤ 8192 ∧
                            field p 16 2 * field p 18 2 ≤ 33554432 ∧
                              field p 20 2 = 0 ∧
                                field p 22 2 = 0 ∧
                                  (khas s.ing.videos (field p 0 2) = true ∨ List.length s.ing.videos < 32) ∧
                                    sourceInWall s 0 (field p 0 2) = false ∧ isChainPort s (field p 2 1) = false)
    ∧ (∃ (r : CmdRef) (c : Cmd) (s : State),
      Ready 0x0502 r c s ∧
        let p : Bytes := c.payload;
        field p 0 1 ≤ 15 ∧
          field p 1 1 ≤ 63 ∧
            1 ≤ field p 2 1 ∧
              field p 2 1 ≤ 8 ∧
                field p 3 1 + field p 2 1 ≤ 64 ∧
                  field p 14 1 ≤ 1 ∧
                    field p 16 2 = 0 ∧ s.ing.audios = [] ∧ isChainPort s (field p 1 1) = false ∧ field p 4 1 = 0)
    ∧ (∃ (r : CmdRef) (c : Cmd) (s : State), Ready 0x0503 r c s ∧ field c.payload 0 1 ≤ 31 ∧ field c.payload 1 1 = 255)
    ∧ (∃ (r : CmdRef) (c : Cmd) (s : State),
      Ready 0x0505 r c s ∧
        let p : Bytes := c.payload;
        let v : HPlane :=
          { layout := field p 2 1, transfer := field p 3 1, gamma := field p 4 2, w := field p 6 2, h := field p 8 2 };
        field p 0 2 ≤ 1023 ∧
          v.layout ≤ 3 ∧
            v.transfer ≤ 2 ∧
              v.transfer ≠ 1 ∧
                v.gamma = 0 ∧
                  1 ≤ v.w ∧
                    v.w ≤ 16384 ∧
                      1 ≤ v.h ∧
                        v.h ≤ 16384 ∧
                          v.w * v.h * layoutBytes v.layout ≤ 234881024 ∧
                            kget? s.ing.planes (field p 0 2) = none ∧ List.length s.ing.planes < 64)
    ∧ (∃ (r : CmdRef) (c : Cmd) (s : State), Ready 0x0504 r c s)
    ∧ (∃ (r : CmdRef) (c : Cmd) (s : State),
      Ready 0x0507 r c s ∧
        field c.payload 0 1 = 2 ∧
          khas s.ing.maps (field c.payload 2 2) = true ∧ sourceInWall s 2 (field c.payload 2 2) = false)
    ∧ (∃ (r : CmdRef) (c : Cmd) (s : State), Ready 0x0507 r c s ∧ field c.payload 0 1 = 0 ∧ kget? s.ing.videos (field c.payload 2 2) = none)
    ∧ (∃ (r : CmdRef) (c : Cmd) (k : IngCnt) (s : State), Ready 0x0508 r c s ∧ ingestCnt s (field c.payload 0 1) (field c.payload 2 2) = some k)
    ∧ (∃ (r : CmdRef) (c : Cmd) (s : State), Ready 0x0509 r c s) :=
  ⟨⟨CmdRef.mbx 1 7, cmd0 wD14, wD14, by decide +kernel⟩,
   ⟨CmdRef.mbx 1 7, cmd0 wD15, wD15, by decide +kernel⟩,
   ⟨CmdRef.mbx 1 7, cmd0 wD16, wD16, by decide +kernel⟩,
   ⟨CmdRef.mbx 1 7, cmd0 wD17, wD17, by decide +kernel⟩,
   ⟨CmdRef.mbx 1 7, cmd0 wD18, wD18, by decide +kernel⟩,
   ⟨CmdRef.mbx 1 7, cmd0 wD19, wD19, by decide +kernel⟩,
   ⟨CmdRef.mbx 1 7, cmd0 wD20, wD20, by decide +kernel⟩,
   ⟨CmdRef.mbx 1 7, cmd0 wD21, vD4, wD21, by decide +kernel⟩,
   ⟨CmdRef.mbx 1 7, cmd0 wD22, wD22, by decide +kernel⟩⟩

open WD in
theorem witness_IngestStreams :
    (∃ (r : CmdRef) (c : Cmd) (v : HPlane) (s : State),
      Ready 0x0506 r c s ∧
        let p : Bytes := c.payload;
        kget? s.ing.planes (field p 0 2) = some v ∧
          field p 2 1 ≤ 1 ∧
            field p 3 1 = 0 ∧
              field p 8 8 % 4 = 0 ∧ field p 16 4 % 4 = 0 ∧ v.w * layoutBytes v.layout ≤ field p 16 4 ∧ v.sub = none)
    ∧ (∃ (r : CmdRef) (c : Cmd) (v : HPlane) (s : State),
      Ready 0x0506 r c s ∧
        let p : Bytes := c.payload;
        kget? s.ing.planes (field p 0 2) = some v ∧
          field p 2 1 ≤ 1 ∧
            field p 3 1 = 0 ∧
              field p 8 8 % 4 = 0 ∧ field p 16 4 % 4 = 0 ∧ v.w * layoutBytes v.layout ≤ field p 16 4 ∧ v.sub ≠ none)
    ∧ (∃ (r : CmdRef) (c : Cmd) (s : State), Ready 0x0506 r c s ∧ kget? s.ing.planes (field c.payload 0 2) = none)
    ∧ (∃ (id : Nat) (c : Cmd) (v : HPlane) (q : Submit) (s : State),
      awake s = true ∧
        s.mode.mode = 0 ∧
          kget? s.ing.planes id = some v ∧ v.sub = some q ∧ q.copied = false ∧ q.when_ = 0 ∧ findCmd q.ref s = some c)
    ∧ (∃ (p : VideoPkt) (s : State), awake s = true ∧ Receives s p.port p.bytes true ∧ p.cut = false ∧ findVideo s p = none)
    ∧ (∃ (p : VideoPkt) (id : Nat) (v : Video) (s : State),
      awake s = true ∧
        Receives s p.port p.bytes true ∧
          p.cut = false ∧
            findVideo s p = some (id, v) ∧
              v.opened = false ∧ v.prevTs = none ∧ v.seq = none ∧ p.marker = false ∧ kget? s.ing.videos id = some v)
    ∧ (∃ (p : AudioPkt) (s : State), awake s = true ∧ Receives s p.port p.bytes false ∧ s.ing.audios = [])
    ∧ (∃ (s : State), awake s = true ∧ s.ing.audios = [] ∧ s.ing.taps = [])
    ∧ (∃ (id : Nat) (a : Audio) (s : State), awake s = true ∧ s.ing.audios = [(id, a)] ∧ kwf s.ing.chans = true)
    ∧ (∃ (t id : Nat) (v : Video) (s : State),
      awake s = true ∧
        kget? s.ing.videos id = some v ∧ v.lost = false ∧ s.time.lockSource = 0 ∧ v.lastAt + 100000000 ≤ max s.now t)
    ∧ (∃ (t id : Nat) (v : Video) (s : State),
      awake s = true ∧
        kget? s.ing.videos id = some v ∧ v.lost = false ∧ s.time.lockSource = 0 ∧ max s.now t < v.lastAt + 100000000)
    ∧ (∃ (t u k : Nat) (cid : BitVec 128) (q : USrc) (s : State),
      awake s = true ∧
        List.find? (fun q => q.cid == cid) (univOf s u k).srcs = some q ∧
          k < 256 ∧
            (∀ (j : Nat), j < 256 → j ≠ k → List.find? (fun q => q.cid == cid) (univOf s u j).srcs = none) ∧
              q.lastAt + 2500000000 ≤ max s.now t)
    ∧ (∃ (t u k : Nat) (cid : BitVec 128) (q : USrc) (s : State),
      awake s = true ∧
        List.find? (fun q => q.cid == cid) (univOf s u k).srcs = some q ∧
          k < 256 ∧
            (∀ (j : Nat), j < 256 → j ≠ k → List.find? (fun q => q.cid == cid) (univOf s u j).srcs = none) ∧
              max s.now t < q.lastAt + 2500000000)
    ∧ (∃ (p : SacnPkt) (s : State), awake s = true ∧ Receives s p.port p.bytes false ∧ p.preview = true)
    ∧ (∃ (k : Nat) (p : SacnPkt) (s : State),
      awake s = true ∧
        Receives s p.port p.bytes false ∧
          scopesOf s p.univ p.port = [k] ∧
            sacnAddressed p.dst p.udpPort p.univ = true ∧
              p.startCode = 0 ∧
                p.discovery = false ∧
                  p.preview = false ∧
                    p.terminated = false ∧
                      kget? s.ing.univs (univKey p.univ k) = none ∧ (List.map (fun x => x.fst) s.ing.maps).Nodup)
    ∧ (∃ (port udp univ : Nat) (dst : U32) (s : State),
      awake s = true ∧ Receives s port syncFrameLen false ∧ sacnAddressed dst udp univ = true ∧ univ ≠ 0)
    ∧ (∃ (port : Nat) (s : State), awake s = true ∧ Receives s port 64 false ∧ s.ing.videos = [] ∧ s.ing.audios = [])
    ∧ (∃ (port id first count : Nat) (marker : Bool) (v : Video) (s : State),
      awake s = true ∧
        port < 64 ∧
          List.find? (fun e => e.snd.port == port && e.snd.verdict.isSome) s.ing.videos = some (id, v) ∧
            kget? s.ing.videos id = some v ∧ v.verdict = some (first, count, marker))
    ∧ (∃ (port : Nat) (s : State), awake s = true ∧ List.find? (fun e => e.snd.port == port && e.snd.verdict.isSome) s.ing.videos = none) :=
  ⟨⟨CmdRef.mbx 1 7, cmd0 wD23, vD5, wD23, by decide +kernel⟩,
   ⟨CmdRef.mbx 1 7, cmd0 wD24, vD6, wD24, by decide +kernel⟩,
   ⟨CmdRef.mbx 1 7, cmd0 wD25, wD25, by decide +kernel⟩,
   ⟨5, cmd0 wD24, vD6, vD7, wD24, by decide +kernel⟩,
   ⟨vD8, wD26, by decide +kernel⟩,
   ⟨vD8, 5, vD9, wD27, by decide +kernel⟩,
   ⟨vD10, wD26, by decide +kernel⟩,
   ⟨wD26, by decide +kernel⟩,
   ⟨1, vD11, wD28, by decide +kernel⟩,
   ⟨100000049, 5, vD12, wD28, by decide +kernel⟩,
   ⟨0, 5, vD13, wD29, by decide +kernel⟩,
   ⟨2500000050, 10, 2, 0x0000000000000000000000000000004d#128, vD14, wD30, by decide +kernel⟩,
   ⟨0, 10, 2, 0x0000000000000000000000000000004d#128, vD14, wD30, by decide +kernel⟩,
   ⟨vD15, wD26, by decide +kernel⟩,
   ⟨2, vD16, wD30, by decide +kernel⟩,
   ⟨2, 5568, 1, 0x00000000#32, wD26, by decide +kernel⟩,
   ⟨2, wD26, by decide +kernel⟩,
   ⟨2, 5, 1, 2, false, vD17, wD31, by decide +kernel⟩,
   ⟨0, wD26, by decide +kernel⟩⟩

open WE in
theorem witness_StoreMemory :
    (∃ (key j : Nat), j ≠ key)
    ∧ (∃ (key b : Nat) (s : State), bankOfKey s key = some b ∧ bankUp s b = false)
    ∧ (∃ (key data : Nat) (s : State),
      data < 2 ^ 64 ∧ ∀ (b : Nat), bankOfKey s key = some b → bankUp s b = true ∧ (kgetD s.store.banks b { }).armed = [])
    ∧ (∃ (key : Nat) (s : State), (wordAt s key).err = 1)
    ∧ (∃ (src dst i : Nat) (s : State), kmemWf { } s.store.words = true ∧ src ≠ dst ∧ i < 2 ^ 28) :=
  ⟨⟨0, 1, by decide +kernel⟩,
   ⟨268435461, 7, wE1, by decide +kernel⟩,
   ⟨0, 0, wov, by decide +kernel⟩,
   ⟨5, wE2, by decide +kernel⟩,
   ⟨0, 1, 0, wov, by decide +kernel⟩⟩

open WE in
theorem witness_StoreCommands :
    (∃ (r : CmdRef) (c : Cmd) (s : State),
      Ready 0x0604 r c s ∧
        let v : Nat := field c.payload 0 4;
        10 ≤ v ∧ v ≤ 3600)
    ∧ (∃ (r : CmdRef) (c : Cmd) (s : State),
      Ready 0x0604 r c s ∧
        let v : Nat := field c.payload 0 4;
        v < 10 ∨ 3600 < v)
    ∧ (∃ (r : CmdRef) (c : Cmd) (s : State), Ready 0x0605 r c s)
    ∧ (∃ (r : CmdRef) (c : Cmd) (s : State), Ready 0x0606 r c s ∧ field c.payload 0 1 ≤ 31)
    ∧ (∃ (r : CmdRef) (c : Cmd) (s : State), Ready 0x0606 r c s ∧ 31 < field c.payload 0 1)
    ∧ (∃ (s : State), awake s = true ∧ PinDriven s)
    ∧ (∃ (r : CmdRef) (c : Cmd) (s : State),
      Ready 0x0607 r c s ∧
        let b : Nat := field c.payload 0 1;
        let n : Nat := field c.payload 1 1;
        b ≤ 31 ∧ 1 ≤ n ∧ n ≤ 2 ∧ bankUp s b = true)
    ∧ (∃ (r : CmdRef) (c : Cmd) (s : State),
      Ready 0x0607 r c s ∧
        let b : Nat := field c.payload 0 1;
        let n : Nat := field c.payload 1 1;
        b ≤ 31 ∧ 1 ≤ n ∧ n ≤ 2 ∧ bankUp s b = false)
    ∧ (∃ (key b n : Nat) (rest : List Nat) (s : State), bankOfKey s key = some b ∧ bankUp s b = true ∧ (kgetD s.store.banks b { }).armed = n :: rest)
    ∧ (∃ (key b : Nat) (w : Word64) (s : State), wordAt s key = w ∧ w.err = 1 ∧ w.injected = true ∧ bankOfKey s key = some b)
    ∧ (∃ (key b : Nat) (w : Word64) (s : State), wordAt s key = w ∧ w.err = 2 ∧ w.injected = true ∧ bankOfKey s key = some b) :=
  ⟨⟨CmdRef.mbx 1 7, cmd0 wE3, wE3, by decide +kernel⟩,
   ⟨CmdRef.mbx 1 7, cmd0 wE4, wE4, by decide +kernel⟩,
   ⟨CmdRef.mbx 1 7, cmd0 wE5, wE5, by decide +kernel⟩,
   ⟨CmdRef.mbx 1 7, cmd0 wE6, wE6, by decide +kernel⟩,
   ⟨CmdRef.mbx 1 7, cmd0 wE7, wE7, by decide +kernel⟩,
   ⟨wE3, by decide +kernel⟩,
   ⟨CmdRef.mbx 1 7, cmd0 wE8, wE8, by decide +kernel⟩,
   ⟨CmdRef.mbx 1 7, cmd0 wE9, wE9, by decide +kernel⟩,
   ⟨0, 3, 1, [2], wE10, by decide +kernel⟩,
   ⟨5, 3, { data := 0x0000000000000007#64, err := 1, injected := true }, wE2, by decide +kernel⟩,
   ⟨268435461, 7, { data := 0x0000000000000009#64, err := 2, injected := true }, wE2, by decide +kernel⟩⟩

open WE in
theorem witness_Corrections :
    (∃ (b : Nat) (r : CmdRef) (c : Cmd) (w : WallImg) (q : TileRec) (s : State),
      Ready 0x0601 r c s ∧
        s.wall.active = some w ∧
          let p : Bytes := c.payload;
          let tile : Nat := field p 0 2;
          let record : Nat := field p 2 1;
          tileOf w tile = some q ∧
            record ≤ 1 ∧
              field p 16 4 = 8 * corrWords record (tilePx q) ∧
                field p 8 8 % 8 = 0 ∧
                  (corrOf s tile).load = none ∧ (corrOf s tile).rest = none ∧ corrBank s tile (field p 16 4) = some b)
    ∧ (∃ (tile : Nat) (r : CmdRef) (c : Cmd) (q : TileRec) (p : CorrCopy) (s : State),
      awake s = true ∧ (corrOf s tile).load = some p ∧ p.ref = some r ∧ findCmd r s = some c ∧ activeTile s tile = some q)
    ∧ (∃ (r : CmdRef) (c : Cmd) (s : State),
      Ready 0x0603 r c s ∧
        let tile : Nat := field c.payload 0 2;
        let l : List Nat := if tile = 65535 then List.map (fun q => q.tile) (wallTiles s) else [tile];
        (tile = 65535 ∨ (activeTile s tile).isSome = true) ∧
          l ≠ [] ∧ ∀ (i : Nat), i ∈ l → (corrOf s i).persisting = false ∧ (corrOf s i).rest = none)
    ∧ (∃ (tile : Nat) (p : CorrCopy) (f : FlashCorr) (s : State),
      awake s = true ∧
        (corrOf s tile).rest = some p ∧
          firstTile (fun k => k.rest.isSome) tile s = true ∧ kget? s.store.flash tile = some f)
    ∧ (∃ (r : CmdRef) (c : Cmd) (s : State),
      Ready 0x0602 r c s ∧
        let tile : Nat := field c.payload 0 2;
        tile ≠ 65535 ∧
          (activeTile s tile).isSome = true ∧
            (corrOf s tile).present = true ∧ (corrOf s tile).persisting = false ∧ (corrOf s tile).rest = none)
    ∧ (∃ (r : CmdRef) (c : Cmd) (s : State),
      Ready 0x0602 r c s ∧
        field c.payload 0 2 = 65535 ∧
          s.wall.active.isSome = true ∧ (List.any s.store.corr fun e => e.snd.persisting || e.snd.rest.isSome) = false)
    ∧ (∃ (tile : Nat) (q : TileRec) (s : State),
      awake s = true ∧
        PinDriven s ∧
          (corrOf s tile).persisting = true ∧
            firstTile (fun k => k.persisting) tile s = true ∧ (corrOf s tile).present = true ∧ activeTile s tile = some q)
    ∧ (∃ (t : Nat) (s : State), awake s = true ∧ s.store.scrubAt = 0 ∧ max s.now t < s.store.scrubFrom)
    ∧ (let here : State → Nat × Word64 → Bool := fun s e =>
      decide (s.store.scrubAt ≤ e.fst) &&
        match bankOfKey s e.fst with
        | some b => bankUp s b
        | none => false;
    ∃ (t key : Nat) (w : Word64) (s : State),
      awake s = true ∧
        (s.store.scrubAt = 0 → s.store.scrubFrom ≤ max s.now t) ∧
          List.find? (here s) s.store.words = some (key, w) ∧ wordAt s key = w ∧ w.err = 0)
    ∧ (let here : State → Nat × Word64 → Bool := fun s e =>
      decide (s.store.scrubAt ≤ e.fst) &&
        match bankOfKey s e.fst with
        | some b => bankUp s b
        | none => false;
    ∃ (t key b err : Nat) (w : Word64) (s : State),
      awake s = true ∧
        (s.store.scrubAt = 0 → s.store.scrubFrom ≤ max s.now t) ∧
          List.find? (here s) s.store.words = some (key, w) ∧
            wordAt s key = w ∧ bankOfKey s key = some b ∧ w.err + err = 1)
    ∧ (let here : State → Nat × Word64 → Bool := fun s e =>
      decide (s.store.scrubAt ≤ e.fst) &&
        match bankOfKey s e.fst with
        | some b => bankUp s b
        | none => false;
    ∃ (t key b err : Nat) (w : Word64) (s : State),
      awake s = true ∧
        (s.store.scrubAt = 0 → s.store.scrubFrom ≤ max s.now t) ∧
          List.find? (here s) s.store.words = some (key, w) ∧
            wordAt s key = w ∧ bankOfKey s key = some b ∧ w.err + err = 2 ∧ isSlot key = true)
    ∧ (let here : State → Nat × Word64 → Bool := fun s e =>
      decide (s.store.scrubAt ≤ e.fst) &&
        match bankOfKey s e.fst with
        | some b => bankUp s b
        | none => false;
    ∃ (t : Nat) (s : State),
      awake s = true ∧ (s.store.scrubAt = 0 → s.store.scrubFrom ≤ max s.now t) ∧ List.find? (here s) s.store.words = none) :=
  ⟨⟨0, CmdRef.mbx 1 7, cmd0 wE11, vE1, vE2, wE11, by decide +kernel⟩,
   ⟨1, CmdRef.mbx 1 7, cmd0 wE12, vE2, { record := 0, bank := 2, ref := some (CmdRef.mbx 1 7) }, wE12, by decide +kernel⟩,
   ⟨CmdRef.mbx 1 7, cmd0 wE13, wE13, by decide +kernel⟩,
   ⟨1, { record := 0, bank := 2, ref := none }, _, wE14, by decide +kernel, rfl, by decide +kernel, rfl⟩,
   ⟨CmdRef.mbx 1 7, cmd0 wE15, wE15, by decide +kernel⟩,
   ⟨CmdRef.mbx 1 7, cmd0 wE16, wE16, by decide +kernel⟩,
   ⟨1, vE2, wE17, by decide +kernel⟩,
   ⟨0, wE18, by decide +kernel⟩,
   ⟨0, 5, { data := 0x0000000000000007#64, err := 0, injected := false }, wE19, by decide +kernel⟩,
   ⟨0, 5, 3, 0, { data := 0x0000000000000007#64, err := 1, injected := true }, wE2, by decide +kernel⟩,
   ⟨0, 5, 3, 0, { data := 0x0000000000000007#64, err := 2, injected := false }, wE10, by decide +kernel⟩,
   ⟨0, wov, by decide +kernel⟩⟩

open WE in
theorem witness_SchedCommands :
    (∃ (r : CmdRef) (c : Cmd) (s : State),
      Ready 0x0703 r c s ∧
        let a : Nat := field c.payload 0 4;
        let b : Nat := field c.payload 4 4;
        a = 0 ∨ 10000 < a ∨ 10000 < b)
    ∧ (∃ (r : CmdRef) (c : Cmd) (s : State),
      Ready 0x0703 r c s ∧
        let a : Nat := field c.payload 0 4;
        let b : Nat := field c.payload 4 4;
        a ≠ 0 ∧ a ≤ 10000 ∧ b ≤ 10000 ∧ s.mode.mode = 0)
    ∧ (∃ (r : CmdRef) (c : Cmd) (s : State),
      Ready 0x0703 r c s ∧
        let a : Nat := field c.payload 0 4;
        let b : Nat := field c.payload 4 4;
        a ≠ 0 ∧ a ≤ 10000 ∧ b ≤ 10000 ∧ s.mode.mode ≠ 0)
    ∧ (∃ (r : CmdRef) (c : Cmd) (s : State),
      Ready 0x0705 r c s ∧
        let f : Nat := field c.payload 0 1;
        let v : Nat := field c.payload 4 4;
        let range : Nat × Nat :=
          [(5, 1000), (100, 100000), (25000, 1000000), (1000, 1000000), (1000, 1000000)].getD f (1, 0);
        range.fst ≤ v ∧ v ≤ range.snd)
    ∧ (∃ (r : CmdRef) (c : Cmd) (s : State),
      Ready 0x0705 r c s ∧
        let f : Nat := field c.payload 0 1;
        let v : Nat := field c.payload 4 4;
        let range : Nat × Nat :=
          [(5, 1000), (100, 100000), (25000, 1000000), (1000, 1000000), (1000, 1000000)].getD f (1, 0);
        v < range.fst ∨ range.snd < v)
    ∧ (∃ (r : CmdRef) (c : Cmd) (s : State),
      Ready 0x0706 r c s ∧
        let n : Nat := field c.payload 0 1;
        let v : Nat := field c.payload 1 1;
        1 ≤ n ∧ n ≤ 15 ∧ 6 ≤ v ∧ v ≤ 11)
    ∧ (∃ (r : CmdRef) (c : Cmd) (s : State),
      Ready 0x0706 r c s ∧
        let n : Nat := field c.payload 0 1;
        let v : Nat := field c.payload 1 1;
        n = 0 ∨ 15 < n ∨ v < 6 ∨ 11 < v)
    ∧ (∃ (r : CmdRef) (c : Cmd) (s : State), Ready 0x0701 r c s)
    ∧ (∃ (r : CmdRef) (c : Cmd) (s : State), Ready 0x0702 r c s ∧ field c.payload 0 1 ≤ 15)
    ∧ (∃ (r : CmdRef) (c : Cmd) (s : State), Ready 0x0702 r c s ∧ 15 < field c.payload 0 1)
    ∧ (∃ (r : CmdRef) (c : Cmd) (s : State), Ready 0x0707 r c s)
    ∧ (∃ (r : CmdRef) (c : Cmd) (s : State),
      Ready 0x0704 r c s ∧
        let i : Nat := field c.payload 2 2;
        field c.payload 0 1 = 0 ∧
          field c.payload 1 1 = 0 ∧
            i ≤ 255 ∧
              spUp s i = true ∧
                (spOf s i).draining = false ∧
                  (s.fab.svcLevel = 2 → ∃ j, j ∈ spindlesUp s ∧ j ≠ i ∧ (spOf s j).draining = false))
    ∧ (∃ (r : CmdRef) (c : Cmd) (s : State),
      Ready 0x0704 r c s ∧
        let i : Nat := field c.payload 2 2;
        field c.payload 0 1 = 1 ∧
          field c.payload 1 1 = 0 ∧ i ≤ 255 ∧ (spOf s i).svc = Service.disabled ∧ (sbOf s (spBank i)).disabling = false)
    ∧ (∃ (r : CmdRef) (c : Cmd) (s : State),
      Ready 0x0704 r c s ∧
        (1 < field c.payload 0 1 ∨
          1 < field c.payload 1 1 ∨
            field c.payload 1 1 = 0 ∧ 255 < field c.payload 2 2 ∨ field c.payload 1 1 = 1 ∧ 15 < field c.payload 2 2)) :=
  ⟨⟨CmdRef.mbx 1 7, cmd0 wE20, wE20, by decide +kernel⟩,
   ⟨CmdRef.mbx 1 7, cmd0 wE21, wE21, by decide +kernel⟩,
   ⟨CmdRef.mbx 1 7, cmd0 wE22, wE22, by decide +kernel⟩,
   ⟨CmdRef.mbx 1 7, cmd0 wE23, wE23, by decide +kernel⟩,
   ⟨CmdRef.mbx 1 7, cmd0 wE24, wE24, by decide +kernel⟩,
   ⟨CmdRef.mbx 1 7, cmd0 wE25, wE25, by decide +kernel⟩,
   ⟨CmdRef.mbx 1 7, cmd0 wE26, wE26, by decide +kernel⟩,
   ⟨CmdRef.mbx 1 7, cmd0 wE27, wE27, by decide +kernel⟩,
   ⟨CmdRef.mbx 1 7, cmd0 wE28, wE28, by decide +kernel⟩,
   ⟨CmdRef.mbx 1 7, cmd0 wE29, wE29, by decide +kernel⟩,
   ⟨CmdRef.mbx 1 7, cmd0 wE30, wE30, by decide +kernel⟩,
   ⟨CmdRef.mbx 1 7, cmd0 wE31, wE31, by decide +kernel⟩,
   ⟨CmdRef.mbx 1 7, cmd0 wE32, wE32, by decide +kernel⟩,
   ⟨CmdRef.mbx 1 7, cmd0 wE33, wE33, by decide +kernel⟩⟩

open WE in
theorem witness_TakeAndGate :
    (∃ (i : Nat) (h : Hank) (rest : List Hank) (s : State),
      awake s = true ∧
        PinDriven s ∧
          canTake s i = true ∧
            (sbOf s (spBank i)).disabling = false ∧
              s.place.inForce.powered.contains (spBank i) = true ∧
                (sbOf s (spBank i)).ready = h :: rest ∧
                  (sbOf s (spBank i)).seed = [] ∧ (spOf s i).prefetch = [] ∧ (spOf s i).hank = none)
    ∧ (∃ (i : Nat) (s : State),
      awake s = true ∧
        PinDriven s ∧
          canTake s i = true ∧
            (sbOf s (spBank i)).disabling = false ∧
              s.place.inForce.powered.contains (spBank i) = true ∧ (sbOf s (spBank i)).ready = [])
    ∧ (∃ (t i since : Nat) (s : State),
      awake s = true ∧ PinDriven s ∧ (spOf s i).blocked = some since ∧ since + 1000 * s.sched.takeUs ≤ max s.now t)
    ∧ (∃ (t i since : Nat) (s : State),
      awake s = true ∧ PinDriven s ∧ (spOf s i).blocked = some since ∧ max s.now t < since + 1000 * s.sched.takeUs)
    ∧ (∃ (t b since : Nat) (s : State),
      awake s = true ∧
        PinDriven s ∧
          (sbOf s b).idleSince = some since ∧
            s.place.profile ≠ 3 ∧
              (sbOf s b).gated = false ∧ bankIdle s b = true ∧ since + 1000 * s.sched.gateUs ≤ max s.now t)
    ∧ (∃ (s : State), awake s = true ∧ PinDriven s ∧ s.place.profile = 3)
    ∧ (∃ (b : Nat) (s : State), awake s = true ∧ PinDriven s ∧ bankIdle s b = false)
    ∧ (∃ (t b since : Nat) (s : State),
      awake s = true ∧ PinDriven s ∧ (sbOf s b).idleSince = some since ∧ max s.now t < since + 1000 * s.sched.gateUs) :=
  ⟨⟨0, vE3, vE4, wE34, by decide +kernel⟩,
   ⟨0, wE35, by decide +kernel⟩,
   ⟨20100, 2, 100, wE36, by decide +kernel⟩,
   ⟨0, 2, 100, wE36, by decide +kernel⟩,
   ⟨10100, 0, 100, wE37, by decide +kernel⟩,
   ⟨wE38, by decide +kernel⟩,
   ⟨0, wE35, by decide +kernel⟩,
   ⟨0, 0, 100, wE37, by decide +kernel⟩⟩

open WE in
theorem witness_PaceAndBobbins :
    (∃ (id : Nat) (d : BobDef) (s : State),
      awake s = true ∧
        PinDriven s ∧
          bobDef id = some d ∧
            (bobOf s id).swallowing = false ∧
              (bobOf s id).refusing = false ∧
                (bobOf s id).flushedNext = false ∧ bobFill s id < d.capacity ∧ (bobOf s id).waiting = [])
    ∧ (∃ (id : Nat) (d : BobDef) (s : State),
      awake s = true ∧
        PinDriven s ∧
          bobDef id = some d ∧
            (bobOf s id).swallowing = false ∧
              (bobOf s id).refusing = false ∧
                (bobOf s id).flushedNext = false ∧ d.capacity ≤ bobFill s id ∧ d.control = false)
    ∧ (∃ (id : Nat) (d : BobDef) (s : State),
      awake s = true ∧
        PinDriven s ∧
          bobDef id = some d ∧
            (bobOf s id).swallowing = false ∧
              (bobOf s id).refusing = false ∧
                (bobOf s id).flushedNext = false ∧ d.capacity ≤ bobFill s id ∧ d.control = true)
    ∧ (∃ (id : Nat) (d : BobDef) (w : BWord) (rest : List BWord) (s : State),
      awake s = true ∧
        PinDriven s ∧
          bobDef id = some d ∧
            (bobOf s id).cutMark = false ∧ (bobOf s id).words = w :: rest ∧ bobReady (bobOf s id) = true)
    ∧ (∃ (id : Nat) (d : BobDef) (s : State),
      awake s = true ∧
        PinDriven s ∧ bobDef id = some d ∧ (bobOf s id).cutMark = false ∧ (bobOf s id).words = [] ∧ unitFill s id = 0)
    ∧ (∃ (id : Nat) (d : BobDef) (s : State), awake s = true ∧ PinDriven s ∧ bobDef id = some d ∧ (bobOf s id).waiting = [])
    ∧ (∃ (id : Nat) (s : State), awake s = true ∧ PinDriven s ∧ bobDef id = none)
    ∧ (∃ (s : State), awake s = true ∧ PinDriven s)
    ∧ (∃ (t : Nat) (s : State),
      awake s = true ∧
        PinDriven s ∧
          (s.fab.frozen = true ∨
            s.fab.settling = true ∨ s.fab.weaveFinish.isSome = true ∨ max s.now t < s.fab.lastEvalAt + 20000))
    ∧ (∃ (t : Nat) (s : State),
      awake s = true ∧
        PinDriven s ∧
          s.fab.frozen = false ∧
            s.fab.settling = false ∧
              s.fab.weaveFinish = none ∧
                s.fab.lastEvalAt + 20000 ≤ max s.now t ∧
                  s.fab.vcore < ceiling s ∧ projectedSlack (advance t s) < ↑s.fab.raiseTh)
    ∧ (∃ (t : Nat) (s : State),
      awake s = true ∧
        PinDriven s ∧
          s.fab.frozen = false ∧
            s.fab.settling = false ∧
              s.fab.weaveFinish = none ∧
                s.fab.lastEvalAt + 20000 ≤ max s.now t ∧
                  ceiling s ≤ s.fab.vcore ∧ projectedSlack (advance t s) < ↑s.fab.shedTh ∧ canShed s = true) :=
  ⟨⟨6144, { control := true, capacity := 64 }, up, by decide +kernel⟩,
   ⟨10240, { control := false, capacity := 2 }, wE39, by decide +kernel⟩,
   ⟨6144, { control := true, capacity := 64 }, wE40, by decide +kernel⟩,
   ⟨6144, { control := true, capacity := 64 }, { word := 0x0000000000000001#64, poison := false, eoi := true }, [], wE41, by decide +kernel⟩,
   ⟨6144, { control := true, capacity := 64 }, up, by decide +kernel⟩,
   ⟨6144, { control := true, capacity := 64 }, up, by decide +kernel⟩,
   ⟨0, up, by decide +kernel⟩,
   ⟨up, by decide +kernel⟩,
   ⟨0, up, by decide +kernel⟩,
   ⟨20000, wE42, by decide +kernel⟩,
   ⟨20000, wE43, by decide +kernel⟩⟩

open WF in
theorem witness_ModeCommands :
    (∃ (r : CmdRef) (c : Cmd) (s : State),
      Ready 0x0801 r c s ∧
        let p : Bytes := c.payload;
        let mode : Nat := field p 0 1;
        (modeRow mode).isNone = true)
    ∧ (∃ (r : CmdRef) (c : Cmd) (s : State),
      Ready 0x0801 r c s ∧
        let p : Bytes := c.payload;
        let mode : Nat := field p 0 1;
        let phase : Nat := field p 8 4;
        let slots : Nat := field p 16 4;
        let sound : Prop :=
          (modeRow mode).isSome = true ∧
            (field p 1 1 ≤ 1 ∨ field p 1 1 = 255) ∧
              field p 2 1 ≤ 1 ∧ phase * rateNum mode < rateDen mode * 1000000000 ∧ slotsOk slots (modeN mode) = true;
        sound ∧ changePending s = true)
    ∧ (∃ (r : CmdRef) (c : Cmd) (s : State),
      Ready 0x0801 r c s ∧
        let p : Bytes := c.payload;
        let mode : Nat := field p 0 1;
        let phase : Nat := field p 8 4;
        let slots : Nat := field p 16 4;
        let sound : Prop :=
          (modeRow mode).isSome = true ∧
            (field p 1 1 ≤ 1 ∨ field p 1 1 = 255) ∧
              field p 2 1 ≤ 1 ∧ phase * rateNum mode < rateDen mode * 1000000000 ∧ slotsOk slots (modeN mode) = true;
        sound ∧
          changePending s = false ∧
            field p 2 1 = 0 ∧
              (modeN mode = 1 ∨ s.place.profile ≠ 3) ∧
                mode = s.mode.mode ∧ phase = s.mode.phase ∧ slots = BitVec.toNat s.mode.slots)
    ∧ (∃ (t : Nat) (r : CmdRef) (c : Cmd) (s : State),
      Ready 0x0801 r c s ∧
        let p : Bytes := c.payload;
        let mode : Nat := field p 0 1;
        let phase : Nat := field p 8 4;
        let slots : Nat := field p 16 4;
        let sound : Prop :=
          (modeRow mode).isSome = true ∧
            (field p 1 1 ≤ 1 ∨ field p 1 1 = 255) ∧
              field p 2 1 ≤ 1 ∧ phase * rateNum mode < rateDen mode * 1000000000 ∧ slotsOk slots (modeN mode) = true;
        sound ∧
          changePending s = false ∧
            field p 2 1 = 0 ∧
              (modeN mode = 1 ∨ s.place.profile ≠ 3) ∧
                mode ≠ s.mode.mode ∧ admits s.wall.active s.weave.active mode s.place.profile (advance t s) = true)
    ∧ (∃ (r : CmdRef) (c : Cmd) (s : State), Ready 0x0802 r c s)
    ∧ (∃ (r : CmdRef) (c : Cmd) (s : State),
      Ready 0x0803 r c s ∧
        let en : Nat := field c.payload 0 1;
        let n : Nat := field c.payload 2 2;
        1 < en ∨ n = 1)
    ∧ (∃ (r : CmdRef) (c : Cmd) (s : State),
      Ready 0x0803 r c s ∧
        let en : Nat := field c.payload 0 1;
        let n : Nat := field c.payload 2 2;
        en ≤ 1 ∧ n ≠ 1 ∧ isDistaff s = false ∧ (en = 1 → s.place.profile ≠ 3 ∧ modeN s.mode.mode ≤ 1 ∧ s.mode.mode ≠ 0))
    ∧ (∃ (r : CmdRef) (c : Cmd) (s : State), Ready 0x0804 r c s ∧ s.mode.calm = true ∧ s.mode.wakeAt = none ∧ isDistaff s = false)
    ∧ (∃ (r : CmdRef) (c : Cmd) (s : State), Ready 0x0804 r c s ∧ s.mode.calm = false) :=
  ⟨⟨CmdRef.mbx 1 7, cmd0 wF5, wF5, by decide +kernel⟩,
   ⟨CmdRef.mbx 1 7, cmd0 wF6, wF6, by decide +kernel⟩,
   ⟨CmdRef.mbx 1 7, cmd0 wF7, wF7, by decide +kernel⟩,
   ⟨0, CmdRef.mbx 1 7, cmd0 wF8, wF8, by decide +kernel⟩,
   ⟨CmdRef.mbx 1 7, cmd0 wF9, wF9, by decide +kernel⟩,
   ⟨CmdRef.mbx 1 7, cmd0 wF10, wF10, by decide +kernel⟩,
   ⟨CmdRef.mbx 1 7, cmd0 wF11, wF11, by decide +kernel⟩,
   ⟨CmdRef.mbx 1 7, cmd0 wF12, wF12, by decide +kernel⟩,
   ⟨CmdRef.mbx 1 7, cmd0 wF13, wF13, by decide +kernel⟩⟩

open WF in
theorem witness_FrameBoundary :
    (∃ (t : Nat) (s : State), awake s = true ∧ s.mode.mode ≠ 0 ∧ nextBoundary s ≤ max s.now t)
    ∧ (∃ (t : Nat) (s : State), awake s = true ∧ s.mode.mode ≠ 0 ∧ max s.now t < nextBoundary s)
    ∧ (∃ (s : State), awake s = true ∧ s.mode.mode = 0 ∧ s.mode.pending = none)
    ∧ (∃ (t : Nat) (m : ModePend) (s : State), awake s = true ∧ s.mode.mode = 0 ∧ s.mode.pending = some m ∧ m.bc ≤ max s.now t)
    ∧ (∃ (s : State), s.twin.enabled = false ∧ s.twin.drill = none)
    ∧ (∃ (s : State), commitSent s = true)
    ∧ (∃ (s : State), commitSent s = false)
    ∧ (∃ (b : Nat), b < 16)
    ∧ (∃ (m : ModePend) (s : State), s.mode.pending = some m ∧ (m.mode ≠ s.mode.mode ∨ m.phase ≠ s.mode.phase) ∧ ∃ (r : CmdRef), m.ref = some r) :=
  ⟨⟨166666667, mode6, by decide +kernel⟩,
   ⟨0, mode6, by decide +kernel⟩,
   ⟨up, by decide +kernel⟩,
   ⟨50, vF8, wF14, by decide +kernel⟩,
   ⟨up, by decide +kernel⟩,
   ⟨wF4, by decide +kernel⟩,
   ⟨up, by decide +kernel⟩,
   ⟨0, by decide +kernel⟩,
   ⟨vF9, wF15, by decide +kernel, by decide +kernel, CmdRef.mbx 1 7, by decide +kernel⟩⟩

open WF in
theorem witness_DrainsAndEnumerations :
    (∃ (t f n : Nat) (d : Drain) (s : State),
      awake s = true ∧
        List.find? (fun d => d.function == f && d.inst == n) s.sched.drains = some d ∧ max s.now t < d.expires)
    ∧ (∃ (t f n : Nat) (d : Drain) (s : State),
      awake s = true ∧
        List.find? (fun d => d.function == f && d.inst == n) s.sched.drains = some d ∧ d.expires ≤ max s.now t ∧ f = 0)
    ∧ (∃ (t f n : Nat) (d : Drain) (s : State),
      awake s = true ∧
        List.find? (fun d => d.function == f && d.inst == n) s.sched.drains = some d ∧ d.expires ≤ max s.now t ∧ f = 2)
    ∧ (∃ (t f n : Nat) (d : Drain) (s : State),
      awake s = true ∧
        List.find? (fun d => d.function == f && d.inst == n) s.sched.drains = some d ∧ d.expires ≤ max s.now t ∧ f = 3)
    ∧ (∃ (t f n : Nat) (d : Drain) (s : State),
      awake s = true ∧
        List.find? (fun d => d.function == f && d.inst == n) s.sched.drains = some d ∧ d.expires ≤ max s.now t ∧ f = 4)
    ∧ (∃ (t f n : Nat) (d : Drain) (s : State),
      awake s = true ∧
        List.find? (fun d => d.function == f && d.inst == n) s.sched.drains = some d ∧
          d.expires ≤ max s.now t ∧ f = 1 ∧ (portOf s n).off.isSome = true)
    ∧ (∃ (f n : Nat) (s : State), awake s = true ∧ List.find? (fun d => d.function == f && d.inst == n) s.sched.drains = none)
    ∧ (∃ (n : Nat) (s : State), (spOf s n).draining = true)
    ∧ (∃ (n : Nat) (w : WallImg) (c : ChainRec) (s : State), awake s = true ∧ s.wall.active = some w ∧ chainOf w n = some c ∧ c.chain = n ∧ (chainLk s n).phase = 2)
    ∧ (∃ (s : State), awake s = true ∧ s.wall.active = none)
    ∧ (∃ (t n : Nat) (w : WallImg) (c : ChainRec) (s : State),
      awake s = true ∧
        s.wall.active = some w ∧
          chainOf w n = some c ∧ (chainLk s n).phase = 1 ∧ max s.now t < (chainLk s n).began + 2000000)
    ∧ (∃ (t n : Nat) (w : WallImg) (c : ChainRec) (s : State),
      awake s = true ∧
        s.wall.active = some w ∧
          chainOf w n = some c ∧ (chainLk s n).phase = 1 ∧ (chainLk s n).began + 2000000 ≤ max s.now t) :=
  ⟨⟨0, 0, 1, { function := 0, inst := 1, aborted := 0, expires := 100 }, wF16, by decide +kernel⟩,
   ⟨100, 0, 1, { function := 0, inst := 1, aborted := 0, expires := 100 }, wF16, by decide +kernel⟩,
   ⟨100, 2, 1, { function := 2, inst := 1, aborted := 0, expires := 100 }, wF17, by decide +kernel⟩,
   ⟨100, 3, 10, { function := 3, inst := 10, aborted := 0, expires := 100 }, wF18, by decide +kernel⟩,
   ⟨100, 4, 1, { function := 4, inst := 1, aborted := 0, expires := 100 }, wF19, by decide +kernel⟩,
   ⟨100, 1, 2, { function := 1, inst := 2, aborted := 0, expires := 100 }, wF20, by decide +kernel⟩,
   ⟨0, 0, up, by decide +kernel⟩,
   ⟨2, wF21, by decide +kernel⟩,
   ⟨0, vF3, vF10, wF22, by decide +kernel⟩,
   ⟨up, by decide +kernel⟩,
   ⟨0, 0, vF3, vF10, wF23, by decide +kernel⟩,
   ⟨2000100, 0, vF3, vF10, wF23, by decide +kernel⟩⟩

open WG in
theorem witness_LinkCommands :
    (∃ (r : CmdRef) (c : Cmd) (s : State), Ready 0x0901 r c s ∧ ∃ (k : ChainRec), activeChain s (field c.payload 0 1) = some k)
    ∧ (∃ (r : CmdRef) (c : Cmd) (s : State), Ready 0x0901 r c s ∧ activeChain s (field c.payload 0 1) = none)
    ∧ (∃ (r : CmdRef) (c : Cmd) (s : State), Ready 0x0902 r c s ∧ ∃ (k : ChainRec), activeChain s (field c.payload 0 1) = some k ∧ (chainLk s k.chain).phase = 0)
    ∧ (∃ (r : CmdRef) (c : Cmd) (s : State), Ready 0x0902 r c s ∧ ∃ (k : ChainRec), activeChain s (field c.payload 0 1) = some k ∧ (chainLk s k.chain).phase ≠ 0)
    ∧ (∃ (r : CmdRef) (c : Cmd) (s : State), Ready 0x0902 r c s ∧ activeChain s (field c.payload 0 1) = none)
    ∧ (∃ (r : CmdRef) (c : Cmd) (s : State), Ready 0x0903 r c s ∧ ∃ (w : WallImg) (q : TileRec), s.wall.active = some w ∧ tileOf w (field c.payload 0 2) = some q)
    ∧ (∃ (r : CmdRef) (c : Cmd) (s : State), Ready 0x0903 r c s ∧ s.wall.active = none)
    ∧ (∃ (r : CmdRef) (c : Cmd) (s : State), Ready 0x0904 r c s ∧ field c.payload 0 1 ≤ 63)
    ∧ (∃ (r : CmdRef) (c : Cmd) (s : State), Ready 0x0904 r c s ∧ 63 < field c.payload 0 1)
    ∧ (∃ (r : CmdRef) (c : Cmd) (s : State),
      Ready 0x0905 r c s ∧
        let p : Nat := field c.payload 0 1;
        let g : Nat := field c.payload 1 1;
        p ≤ 63 ∧ 1 ≤ g ∧ g ≤ 2)
    ∧ (∃ (r : CmdRef) (c : Cmd) (s : State),
      Ready 0x0905 r c s ∧
        let p : Nat := field c.payload 0 1;
        let g : Nat := field c.payload 1 1;
        63 < p ∨ g = 0 ∨ 2 < g)
    ∧ (∃ (r : CmdRef) (c : Cmd) (s : State),
      Ready 0x0A01 r c s ∧
        let b : Bytes := c.payload;
        let p : Nat := field b 0 1;
        63 < p ∨ 1 < field b 1 1 ∨ 3 < field b 2 1 ∧ field b 2 1 ≠ 255)
    ∧ (∃ (r : CmdRef) (c : Cmd) (s : State),
      Ready 0x0A01 r c s ∧
        let b : Bytes := c.payload;
        let p : Nat := field b 0 1;
        let sound : Prop :=
          p ≤ 63 ∧
            field b 1 1 ≤ 1 ∧
              field b 2 1 ≤ 3 ∧
                (bit (field b 3 1) 0 = true → field b 2 1 = 3) ∧
                  (sfield b 4 4).natAbs ≤ 6400000 ∧ (sfield b 8 4).natAbs ≤ 6400000 ∧ chainPort s p = none;
        sound ∧ ((portOf s p).req ≠ none ∨ (portOf s p).off ≠ none))
    ∧ (∃ (r : CmdRef) (c : Cmd) (s : State),
      Ready 0x0A01 r c s ∧
        let b : Bytes := c.payload;
        let p : Nat := field b 0 1;
        let sound : Prop :=
          p ≤ 63 ∧
            field b 1 1 ≤ 1 ∧
              field b 2 1 ≤ 3 ∧
                (bit (field b 3 1) 0 = true → field b 2 1 = 3) ∧
                  (sfield b 4 4).natAbs ≤ 6400000 ∧ (sfield b 8 4).natAbs ≤ 6400000 ∧ chainPort s p = none;
        sound ∧
          (portOf s p).req = none ∧
            (portOf s p).off = none ∧ field b 1 1 = 0 ∧ portServes s p = false ∧ (portOf s p).role = 0)
    ∧ (∃ (r : CmdRef) (c : Cmd) (s : State),
      Ready 0x0A01 r c s ∧
        let b : Bytes := c.payload;
        let p : Nat := field b 0 1;
        let sound : Prop :=
          p ≤ 63 ∧
            field b 1 1 ≤ 1 ∧
              field b 2 1 ≤ 3 ∧
                (bit (field b 3 1) 0 = true → field b 2 1 = 3) ∧
                  (sfield b 4 4).natAbs ≤ 6400000 ∧ (sfield b 8 4).natAbs ≤ 6400000 ∧ chainPort s p = none;
        sound ∧
          (portOf s p).req = none ∧
            (portOf s p).off = none ∧ field b 1 1 = 1 ∧ (portOf s p).speed = field b 2 1 ∧ (portOf s p).role = 0)
    ∧ (∃ (r : CmdRef) (c : Cmd) (s : State), Ready 0x0A02 r c s ∧ field c.payload 0 1 ≤ 64)
    ∧ (∃ (r : CmdRef) (c : Cmd) (s : State), Ready 0x0A02 r c s ∧ 64 < field c.payload 0 1)
    ∧ (∃ (r : CmdRef) (c : Cmd) (s : State), Ready 0x0A03 r c s ∧ field c.payload 0 1 ≤ 64)
    ∧ (∃ (r : CmdRef) (c : Cmd) (s : State), Ready 0x0A03 r c s ∧ 64 < field c.payload 0 1) :=
  ⟨⟨CmdRef.mbx 1 7, cmd0 wG1, wG1, by decide +kernel, vG1, by decide +kernel⟩,
   ⟨CmdRef.mbx 1 7, cmd0 wG2, wG2, by decide +kernel⟩,
   ⟨CmdRef.mbx 1 7, cmd0 wG3, wG3, by decide +kernel, vG1, by decide +kernel⟩,
   ⟨CmdRef.mbx 1 7, cmd0 wG4, wG4, by decide +kernel, vG1, by decide +kernel⟩,
   ⟨CmdRef.mbx 1 7, cmd0 wG5, wG5, by decide +kernel⟩,
   ⟨CmdRef.mbx 1 7, cmd0 wG6, wG6, by decide +kernel, vG2, vG3, by decide +kernel⟩,
   ⟨CmdRef.mbx 1 7, cmd0 wG7, wG7, by decide +kernel⟩,
   ⟨CmdRef.mbx 1 7, cmd0 wG8, wG8, by decide +kernel⟩,
   ⟨CmdRef.mbx 1 7, cmd0 wG9, wG9, by decide +kernel⟩,
   ⟨CmdRef.mbx 1 7, cmd0 wG10, wG10, by decide +kernel⟩,
   ⟨CmdRef.mbx 1 7, cmd0 wG11, wG11, by decide +kernel⟩,
   ⟨CmdRef.mbx 1 7, cmd0 wG12, wG12, by decide +kernel⟩,
   ⟨CmdRef.mbx 1 7, cmd0 wG13, wG13, by decide +kernel⟩,
   ⟨CmdRef.mbx 1 7, cmd0 wG14, wG14, by decide +kernel⟩,
   ⟨CmdRef.mbx 1 7, cmd0 wG15, wG15, by decide +kernel⟩,
   ⟨CmdRef.mbx 1 7, cmd0 wG16, wG16, by decide +kernel⟩,
   ⟨CmdRef.mbx 1 7, cmd0 wG17, wG17, by decide +kernel⟩,
   ⟨CmdRef.mbx 1 7, cmd0 wG18, wG18, by decide +kernel⟩,
   ⟨CmdRef.mbx 1 7, cmd0 wG19, wG19, by decide +kernel⟩⟩

open WG in
theorem witness_LinkFrames :
    (∃ (t p : Nat) (f : TxFrame) (rest : List TxFrame) (s : State),
      awake s = true ∧
        p ≤ 64 ∧
          (portOf s p).retired = false ∧
            (portOf s p).off = none ∧
              lineIdle (advance t s) p = true ∧
                let z : State :=
                  modPort p
                    (fun q =>
                      { enabled := q.enabled, role := q.role, speed := q.speed, cfg := q.cfg, suspended := q.suspended,
                        an := q.an, pauseHonour := q.pauseHonour, rxExtra := q.rxExtra, txExtra := q.txExtra,
                        linkgen := q.linkgen, lock := q.lock, signal := q.signal, anDone := q.anDone,
                        pausedUntil := q.pausedUntil, retired := q.retired, queue := q.queue, busyUntil := q.busyUntil,
                        req := q.req, again := q.again, off := q.off, measureNext := q.measureNext,
                        lockLosses := q.lockLosses, speedChanges := q.speedChanges, speedCancels := q.speedCancels,
                        lastChange := q.lastChange, cnt := q.cnt, half := q.half, lnk := q.lnk })
                    (advance t s);
                nextTx z (List.filter (eligible z p) (portOf z p).queue) = some (f, rest) ∧
                  txClass f.kind ≠ 5 ∧ txClass f.kind ≠ 2)
    ∧ (∃ (t p : Nat) (s : State), awake s = true ∧ p ≤ 64 ∧ lineIdle (advance t s) p = false)
    ∧ (∃ (p tile idx : Nat) (poll : Bool) (f : TxFrame) (s z : State), startSkein p tile idx poll f s = some z)
    ∧ (∃ (t copy : Nat) (s : State),
      awake s = true ∧
        copy ≤ 1 ∧
          s.link.sending = true ∧
            (s.link.commitAt ≤ max s.now t + if copy = 0 then 45000 else 42000) ∧
              s.fab.svcLevel = 2 ∧ s.flt.hushed = false)
    ∧ (∃ (t copy : Nat) (s : State),
      awake s = true ∧
        (1 < copy ∨
          s.link.sending = false ∨
            s.fab.svcLevel ≠ 2 ∨
              s.flt.hushed = true ∨ (max s.now t + if copy = 0 then 45000 else 42000) < s.link.commitAt))
    ∧ (∃ (t : Nat) (s : State), awake s = true ∧ s.link.sending = true ∧ guardAt s ≤ max s.now t)
    ∧ (∃ (t : Nat) (s : State), awake s = true ∧ (s.link.sending = false ∨ max s.now t < guardAt s))
    ∧ (∃ (h : TileHdr) (e : U32) (c : ChainRec) (b : Bool) (q : TileRec) (s : State),
      awake s = true ∧
        (portOf s h.port).retired = false ∧
          tileOfHdr s h = some (c, b, q) ∧
            (s.twin.enabled && s.twin.role == 1 && newerGen (BitVec.toNat h.gen) (BitVec.toNat s.twin.cgen)) = false ∧
              e = s.link.epoch)
    ∧ (∃ (h : TileHdr) (c : ChainRec) (b : Bool) (q : TileRec) (s : State),
      awake s = true ∧
        (portOf s h.port).retired = false ∧
          tileOfHdr s h = some (c, b, q) ∧
            (s.twin.enabled && s.twin.role == 1 && newerGen (BitVec.toNat h.gen) (BitVec.toNat s.twin.cgen)) = false)
    ∧ (∃ (t tile at_ : Nat) (w : WallImg) (q : TileRec) (c : ChainRec) (b : Bool) (s : State),
      awake s = true ∧
        (tileLk s tile).waitFrom = some at_ ∧
          skeinPlace s tile = some (w, q, c, b) ∧
            let wait : Nat := 10000 + 2 * (offOf (tileLk s tile) b).getD 0 / 64;
            (tileLk s tile).acked = true ∨ max s.now t < at_ + wait)
    ∧ (∃ (t tile at_ : Nat) (w : WallImg) (q : TileRec) (c : ChainRec) (b : Bool) (s : State),
      awake s = true ∧
        (tileLk s tile).waitFrom = some at_ ∧
          skeinPlace s tile = some (w, q, c, b) ∧
            let wait : Nat := 10000 + 2 * (offOf (tileLk s tile) b).getD 0 / 64;
            (tileLk s tile).acked = false ∧ at_ + wait ≤ max s.now t) :=
  ⟨⟨0, 4, vG4, vG5, wG20, by decide +kernel⟩,
   ⟨0, 4, wG21, by decide +kernel⟩,
   ⟨4, 0, 0, false, vG6, wG22, (startSkein 4 0 0 false vG6 wG22).get (by decide +kernel), (Option.some_get _).symm⟩,
   ⟨7955000, 0, wG22, by decide +kernel⟩,
   ⟨0, 0, up, by decide +kernel⟩,
   ⟨7950000, wG22, by decide +kernel⟩,
   ⟨0, up, by decide +kernel⟩,
   ⟨vG7, 0x00000003#32, vG1, false, vG3, wG22, by decide +kernel⟩,
   ⟨vG7, vG1, false, vG3, walled, by decide +kernel⟩,
   ⟨0, 0, 100, vG2, vG3, vG1, false, wG23, by decide +kernel⟩,
   ⟨10120, 0, 100, vG2, vG3, vG1, false, wG23, by decide +kernel⟩⟩

open WG in
theorem witness_MeasureAndSpeed :
    (∃ (h : TileHdr) (c : ChainRec) (b : Bool) (q : TileRec) (s : State),
      awake s = true ∧
        (portOf s h.port).retired = false ∧
          tileOfHdr s h = some (c, b, q) ∧
            (s.twin.enabled && s.twin.role == 1 && newerGen (BitVec.toNat h.gen) (BitVec.toNat s.twin.cgen)) = false)
    ∧ (∃ (p : Nat) (c : ChainRec) (b : Bool) (s : State),
      awake s = true ∧
        endOfPort s p = some (c, b) ∧
          let hops : List Nat :=
            List.map (fun e => e.fst) (if b = true then (chainLk s c.chain).foundB else (chainLk s c.chain).foundA);
          chainReady s c.chain = true ∧ chainUp s p = true ∧ hops ≠ [])
    ∧ (∃ (p : Nat) (c : ChainRec) (b : Bool) (s : State), awake s = true ∧ endOfPort s p = some (c, b) ∧ chainUp s p = false)
    ∧ (∃ (p : Nat) (s : State), awake s = true ∧ endOfPort s p = none)
    ∧ (∃ (t speed : Nat) (h : TileHdr) (c : ChainRec) (b : Bool) (q : TileRec) (r : SpeedReq) (s : State),
      awake s = true ∧
        (portOf s h.port).retired = false ∧
          tileOfHdr s h = some (c, b, q) ∧
            (s.twin.enabled && s.twin.role == 1 && newerGen (BitVec.toNat h.gen) (BitVec.toNat s.twin.cgen)) = false ∧
              (portOf s h.port).req = some r ∧
                r.dest = speed ∧ r.agreed = false ∧ max s.now t ≤ r.askedAt + 200000 ∧ max s.now t < r.at_)
    ∧ (∃ (t p : Nat) (r : SpeedReq) (c : ChainRec) (b : Bool) (s : State),
      awake s = true ∧
        (portOf s p).req = some r ∧
          endOfPort s p = some (c, b) ∧ r.agreed = false ∧ r.retrain = false ∧ max s.now t < r.askedAt + 200000)
    ∧ (∃ (t p : Nat) (r : SpeedReq) (c : ChainRec) (b : Bool) (s : State),
      awake s = true ∧
        (portOf s p).req = some r ∧
          endOfPort s p = some (c, b) ∧ r.agreed = false ∧ r.retrain = false ∧ r.askedAt + 200000 ≤ max s.now t)
    ∧ (∃ (p : Nat) (r : SpeedReq) (s : State), awake s = true ∧ (portOf s p).req = some r ∧ r.retrain = true)
    ∧ (∃ (p : Nat) (s : State), awake s = true ∧ (portOf s p).req = none) :=
  ⟨⟨vG7, vG1, false, vG3, walled, by decide +kernel⟩,
   ⟨4, vG1, false, wG24, by decide +kernel⟩,
   ⟨4, vG1, false, wG25, by decide +kernel⟩,
   ⟨0, wG25, by decide +kernel⟩,
   ⟨0, 1, vG7, vG1, false, vG3, vG8, wG26, by decide +kernel⟩,
   ⟨0, 4, vG8, vG1, false, wG26, by decide +kernel⟩,
   ⟨200100, 4, vG8, vG1, false, wG26, by decide +kernel⟩,
   ⟨2, vG9, wG27, by decide +kernel⟩,
   ⟨0, walled, by decide +kernel⟩⟩

open WG in
theorem witness_PortEvents :
    (∃ (p : Nat) (s : State), awake s = true ∧ PinDriven s ∧ p < 64 ∧ hears s p = true)
    ∧ (∃ (p : Nat) (s : State), awake s = true ∧ PinDriven s ∧ hears s p = false)
    ∧ (∃ (t p : Nat) (s : State), awake s = true ∧ PinDriven s ∧ (portOf s p).pausedUntil ≤ max s.now t)
    ∧ (∃ (t p : Nat) (s : State), awake s = true ∧ PinDriven s ∧ max s.now t < (portOf s p).pausedUntil)
    ∧ (∃ (p : Nat) (s : State), awake s = true ∧ (portOf s p).role = 0 ∧ p ≠ 64)
    ∧ (∃ (p : Nat) (s : State), awake s = true ∧ p ≤ 64 ∧ ((portOf s p).role ≠ 0 ∨ p = 64))
    ∧ (∃ (t p a : Nat) (s : State), awake s = true ∧ p < 64 ∧ kget? s.flt.lockLostAt p = some a ∧ a + 10000000 ≤ max s.now t)
    ∧ (∃ (t p a : Nat) (s : State), awake s = true ∧ p < 64 ∧ kget? s.flt.lockLostAt p = some a ∧ max s.now t < a + 10000000)
    ∧ (∃ (g p : Nat) (s : State), awake s = true ∧ g < 8 ∧ vmodOn s g = true ∧ p / 8 = g ∧ (portOf s p).role ≠ 0)
    ∧ (∃ (f : RxFrame) (e : RxErr) (s : State), awake s = true ∧ f.port ≤ 64 ∧ f.err = some e ∧ hears s f.port = true)
    ∧ (∃ (f : RxFrame) (s : State),
      awake s = true ∧
        f.port ≤ 64 ∧
          f.err = none ∧
            f.pause = false ∧ roleAt s f.port = 1 ∧ (portOf s f.port).retired = false ∧ 2048 ≤ ingressFill s f.port)
    ∧ (∃ (f : RxFrame) (s : State),
      awake s = true ∧
        f.port ≤ 64 ∧
          f.err = none ∧
            f.pause = false ∧ (portOf s f.port).retired = true ∧ hears s f.port = true ∧ 64 ≤ f.len ∧ f.len ≤ 9216)
    ∧ (∃ (f : RxFrame) (s : State), awake s = true ∧ f.port < 64 ∧ f.err = none ∧ f.pause = false ∧ (portOf s f.port).role = 0)
    ∧ (∃ (f : RxFrame) (s : State),
      awake s = true ∧
        f.port ≤ 64 ∧
          f.err = none ∧
            f.pause = false ∧ rxDrop s f.port f.video = none ∧ hears s f.port = true ∧ 64 ≤ f.len ∧ f.len ≤ 9216)
    ∧ (∃ (n j : Nat), j ≠ n)
    ∧ (∃ (p q : Nat), q ≠ p) :=
  ⟨⟨2, wG28, by decide +kernel⟩,
   ⟨0, walled, by decide +kernel⟩,
   ⟨0, 0, walled, by decide +kernel⟩,
   ⟨0, 2, wG29, by decide +kernel⟩,
   ⟨0, walled, by decide +kernel⟩,
   ⟨2, wG28, by decide +kernel⟩,
   ⟨10000100, 2, 100, wG30, by decide +kernel⟩,
   ⟨0, 2, 100, wG30, by decide +kernel⟩,
   ⟨0, 2, wG28, by decide +kernel⟩,
   ⟨vG10, RxErr.symbol, wG28, by decide +kernel⟩,
   ⟨vG11, wG31, by decide +kernel⟩,
   ⟨vG11, wG32, by decide +kernel⟩,
   ⟨vG11, walled, by decide +kernel⟩,
   ⟨vG11, wG28, by decide +kernel⟩,
   ⟨0, 1, by decide +kernel⟩,
   ⟨0, 1, by decide +kernel⟩⟩

open WH in
theorem witness_TimeCommands :
    (∃ (r : CmdRef) (c : Cmd) (s : State),
      Ready 0x0B01 r c s ∧
        let p : Bytes := c.payload;
        1 < field p 0 1 ∨
          2 < field p 1 1 ∨ 127 < field p 2 1 ∨ field p 8 1 < 2 ∨ 10 < field p 8 1 ∨ 1000000 < field p 12 4)
    ∧ (∃ (r : CmdRef) (c : Cmd) (s : State),
      Ready 0x0B01 r c s ∧
        let p : Bytes := c.payload;
        let sound : Prop :=
          field p 0 1 ≤ 1 ∧
            field p 1 1 ≤ 2 ∧
              field p 2 1 ≤ 127 ∧
                ptpRange (field p 0 1) (sfield p 5 1) (sfield p 6 1) (sfield p 7 1) = true ∧
                  2 ≤ field p 8 1 ∧
                    field p 8 1 ≤ 10 ∧
                      (bit (field p 9 1) 1 = true → field p 0 1 ≠ 0) ∧
                        (field p 10 2 = 0 ∨ 10 ≤ field p 10 2 ∧ field p 10 2 ≤ 1000) ∧
                          field p 12 4 ≤ 1000000 ∧ List.length s.time.ports ≤ roleLimit (field p 1 1);
        sound ∧ field p 0 1 = s.time.profile ∧ field p 1 1 = s.time.role ∧ field p 2 1 = s.time.domain)
    ∧ (∃ (r : CmdRef) (c : Cmd) (s : State),
      Ready 0x0B01 r c s ∧
        let p : Bytes := c.payload;
        let sound : Prop :=
          field p 0 1 ≤ 1 ∧
            field p 1 1 ≤ 2 ∧
              field p 2 1 ≤ 127 ∧
                ptpRange (field p 0 1) (sfield p 5 1) (sfield p 6 1) (sfield p 7 1) = true ∧
                  2 ≤ field p 8 1 ∧
                    field p 8 1 ≤ 10 ∧
                      (bit (field p 9 1) 1 = true → field p 0 1 ≠ 0) ∧
                        (field p 10 2 = 0 ∨ 10 ≤ field p 10 2 ∧ field p 10 2 ≤ 1000) ∧
                          field p 12 4 ≤ 1000000 ∧ List.length s.time.ports ≤ roleLimit (field p 1 1);
        sound ∧ field p 0 1 ≠ s.time.profile)
    ∧ (∃ (r : CmdRef) (c : Cmd) (s : State),
      Ready 0x0B02 r c s ∧
        let p : Bytes := c.payload;
        let port : Nat := field p 0 1;
        let sound : Prop := port ≤ 63 ∧ field p 2 1 ≤ 1 ∧ (sfield p 4 4).natAbs ≤ 64000000;
        sound ∧
          field p 1 1 = 1 ∧ (portOf s port).role = 1 ∧ List.length (kerase s.time.ports port) < roleLimit s.time.role)
    ∧ (∃ (r : CmdRef) (c : Cmd) (s : State),
      Ready 0x0B02 r c s ∧
        let p : Bytes := c.payload;
        let port : Nat := field p 0 1;
        let sound : Prop := port ≤ 63 ∧ field p 2 1 ≤ 1 ∧ (sfield p 4 4).natAbs ≤ 64000000;
        sound ∧ field p 1 1 = 1 ∧ (portOf s port).role ≠ 1)
    ∧ (∃ (r : CmdRef) (c : Cmd) (s : State),
      Ready 0x0B02 r c s ∧
        let p : Bytes := c.payload;
        let port : Nat := field p 0 1;
        let sound : Prop := port ≤ 63 ∧ field p 2 1 ≤ 1 ∧ (sfield p 4 4).natAbs ≤ 64000000;
        sound ∧ field p 1 1 = 0 ∧ s.time.slavePort ≠ port)
    ∧ (∃ (r : CmdRef) (c : Cmd) (s : State),
      Ready 0x0B02 r c s ∧
        let p : Bytes := c.payload;
        let port : Nat := field p 0 1;
        63 < port)
    ∧ (∃ (r : CmdRef) (c : Cmd) (s : State), Ready 0x0B03 r c s)
    ∧ (∃ (r : CmdRef) (c : Cmd) (s : State),
      Ready 0x0B04 r c s ∧
        let p : Bytes := c.payload;
        2 < field p 0 1)
    ∧ (∃ (r : CmdRef) (c : Cmd) (s : State),
      Ready 0x0B04 r c s ∧
        let p : Bytes := c.payload;
        let per : Int := ↑(periodNs s.mode.mode);
        let sound : Prop :=
          (field p 8 4 = 0 ∨ 12000 ≤ field p 8 4 ∧ field p 8 4 ≤ 1000000) ∧
            1 - per ≤ sfield p 4 4 ∧ sfield p 4 4 ≤ per - 1;
        sound ∧ field p 0 1 ≤ 2 ∧ (s.mode.mode = 0 ∨ s.mode.pending.isSome = true))
    ∧ (∃ (r : CmdRef) (c : Cmd) (s : State),
      Ready 0x0B04 r c s ∧
        let p : Bytes := c.payload;
        let per : Int := ↑(periodNs s.mode.mode);
        let sound : Prop :=
          (field p 8 4 = 0 ∨ 12000 ≤ field p 8 4 ∧ field p 8 4 ≤ 1000000) ∧
            1 - per ≤ sfield p 4 4 ∧ sfield p 4 4 ≤ per - 1;
        sound ∧ s.mode.mode ≠ 0 ∧ s.mode.pending = none ∧ field p 0 1 = 1 ∧ khas s.ing.videos (field p 2 2) = false)
    ∧ (∃ (r : CmdRef) (c : Cmd) (s : State),
      Ready 0x0B04 r c s ∧
        let p : Bytes := c.payload;
        let per : Int := ↑(periodNs s.mode.mode);
        let sound : Prop :=
          (field p 8 4 = 0 ∨ 12000 ≤ field p 8 4 ∧ field p 8 4 ≤ 1000000) ∧
            1 - per ≤ sfield p 4 4 ∧ sfield p 4 4 ≤ per - 1;
        sound ∧
          s.mode.mode ≠ 0 ∧
            s.mode.pending = none ∧ field p 0 1 ≤ 1 ∧ (field p 0 1 = 1 → khas s.ing.videos (field p 2 2) = true))
    ∧ (∃ (s : State), s.mode.mode ≠ 0) :=
  ⟨⟨CmdRef.mbx 1 7, cmd0 wH1, wH1, by decide +kernel⟩,
   ⟨CmdRef.mbx 1 7, cmd0 wH2, wH2, by decide +kernel⟩,
   ⟨CmdRef.mbx 1 7, cmd0 wH3, wH3, by decide +kernel⟩,
   ⟨CmdRef.mbx 1 7, cmd0 wH4, wH4, by decide +kernel⟩,
   ⟨CmdRef.mbx 1 7, cmd0 wH5, wH5, by decide +kernel⟩,
   ⟨CmdRef.mbx 1 7, cmd0 wH6, wH6, by decide +kernel⟩,
   ⟨CmdRef.mbx 1 7, cmd0 wH7, wH7, by decide +kernel⟩,
   ⟨CmdRef.mbx 1 7, cmd0 wH8, wH8, by decide +kernel⟩,
   ⟨CmdRef.mbx 1 7, cmd0 wH9, wH9, by decide +kernel⟩,
   ⟨CmdRef.mbx 1 7, cmd0 wH10, wH10, by decide +kernel⟩,
   ⟨CmdRef.mbx 1 7, cmd0 wH11, wH11, by decide +kernel⟩,
   ⟨CmdRef.mbx 1 7, cmd0 wH12, wH12, by decide +kernel⟩,
   ⟨wH12, by decide +kernel⟩⟩

open WH in
theorem witness_PtpTime :
    (∃ (a : Announce) (s : State),
      awake s = true ∧
        Receives s a.port (if s.time.l2 = true then 82 else 110) false ∧
          (ptpUp s a.port = false ∨ a.domain ≠ s.time.domain))
    ∧ (∃ (a : Announce) (s : State),
      awake s = true ∧
        Receives s a.port (if s.time.l2 = true then 82 else 110) false ∧
          ptpUp s a.port = true ∧ a.domain = s.time.domain ∧ (kgetD s.time.ports a.port { }).best = none)
    ∧ (∃ (x : PtpExchange) (s : State),
      awake s = true ∧
        Receives s x.port (if s.time.l2 = true then 64 else 90) false ∧
          ptpUp s x.port = true ∧
            s.time.slavePort = x.port ∧ List.flatMap (fun e => e.snd.entries) s.link.ts = [] ∧ delayStamp x s = none)
    ∧ (∃ (e : TsEntry) (old rest : List TsWait) (w : TsWait) (s : State),
      e.gap = true ∧
        s.time.tsWait = old ++ w :: rest ∧
          w.id = e.id ∧ ∀ (v : TsWait), v ∈ old → v.id ≠ e.id ∧ v.at_ = none ∧ tsGroupOf v.port = tsGroupOf e.port)
    ∧ (∃ (e : TsEntry) (old rest : List TsWait) (w : TsWait) (s : State),
      e.gap = true ∧
        s.time.tsWait = old ++ w :: rest ∧
          w.id = e.id ∧
            (∀ (v : TsWait), v ∈ old → v.id ≠ e.id ∧ v.at_ = none ∧ tsGroupOf v.port = tsGroupOf e.port) ∧ ∃ (v : TsWait), v ∈ old)
    ∧ (∃ (t3 : Int) (x : PtpExchange) (s : State),
      awake s = true ∧
        Receives s x.port (if s.time.l2 = true then 64 else 90) false ∧
          ptpUp s x.port = true ∧
            s.time.slavePort = x.port ∧
              List.flatMap (fun e => e.snd.entries) s.link.ts = [] ∧
                delayStamp x s = some t3 ∧
                  let off : Int := (x.t2 - x.t1 - (x.t4 - t3)) / 2 - (kgetD s.time.ports x.port { }).asym / 64;
                  s.time.step = false ∨ off.natAbs < 1000 * s.time.stepUs)
    ∧ (∃ (p : Nat) (s : State), awake s = true ∧ PinDriven s ∧ ptpUp s p = false ∧ List.flatMap (fun e => e.snd.entries) s.link.ts = [])
    ∧ (∃ (p : Nat) (q : PtpPort) (s : State),
      awake s = true ∧
        PinDriven s ∧
          ptpUp s p = true ∧
            s.time.slavePort = p ∧ kget? s.time.ports p = some q ∧ List.flatMap (fun e => e.snd.entries) s.link.ts = [])
    ∧ (∃ (t p : Nat) (q : PtpPort) (s : State),
      awake s = true ∧ kget? s.time.ports p = some q ∧ max s.now t < q.heardAt + s.time.timeout * pow2s s.time.logAnn)
    ∧ (∃ (t p : Nat) (q : PtpPort) (s : State),
      awake s = true ∧
        kget? s.time.ports p = some q ∧
          q.best.isSome = true ∧ q.heardAt + s.time.timeout * pow2s s.time.logAnn ≤ max s.now t) :=
  ⟨⟨vH1, wH13, by decide +kernel⟩,
   ⟨vH1, wH14, by decide +kernel⟩,
   ⟨{ port := 2, t1 := 0, t2 := 110, t3 := 200, t4 := 290, tsId := 9 }, wH15, by decide +kernel⟩,
   ⟨{ id := 9, port := 2, gap := true, frac := 0, time := 5 }, vH2, [], { id := 9, port := 2, kind := PtpTx.delayReq, at_ := some 200 }, wH14, by decide +kernel⟩,
   ⟨{ id := 9, port := 2, gap := true, frac := 0, time := 5 }, vH2, [], { id := 9, port := 2, kind := PtpTx.delayReq, at_ := some 200 }, wH14, by decide +kernel, by decide +kernel, by decide +kernel, by decide +kernel, { id := 4, port := 2, kind := PtpTx.delayReq, at_ := none }, by decide +kernel⟩,
   ⟨200, { port := 2, t1 := 0, t2 := 110, t3 := 200, t4 := 290, tsId := 9 }, wH14, by decide +kernel⟩,
   ⟨0, wH14, by decide +kernel⟩,
   ⟨2, vH3, wH14, by decide +kernel⟩,
   ⟨0, 2, vH3, wH14, by decide +kernel⟩,
   ⟨750000005, 2, vH4, wH16, by decide +kernel⟩⟩

open WH in
theorem witness_LtcAndRtc :
    (∃ (r : CmdRef) (c : Cmd) (s : State), Ready 0x0B06 r c s ∧ (1 < field c.payload 0 1 ∨ 4 < field c.payload 1 1))
    ∧ (∃ (r : CmdRef) (c : Cmd) (s : State), Ready 0x0B06 r c s ∧ field c.payload 0 1 ≤ 1 ∧ field c.payload 1 1 ≤ 4)
    ∧ (∃ (s : State), awake s = true ∧ PinDriven s ∧ s.time.ltcOn = false)
    ∧ (∃ (w : LtcWord) (q : U32) (s : State),
      awake s = true ∧
        PinDriven s ∧
          s.time.ltcOn = true ∧
            1 ≤ w.rate ∧
              w.rate ≤ 4 ∧
                (s.time.ltcRateSet = 0 ∨ s.time.ltcRateSet = w.rate) ∧
                  s.time.ltcState = 1 ∧
                    s.time.ltcPrev = some q ∧
                      s.time.ltcRate = w.rate ∧
                        1 ≤ s.time.ltcRun ∧
                          (tcFrames w.rate q + 1) % tcDay w.rate = tcFrames w.rate w.tc ∧ s.time.cues = [])
    ∧ (∃ (t : Nat) (s : State),
      awake s = true ∧ PinDriven s ∧ s.time.ltcState = 2 ∧ s.time.ltcLatch + 4 * ltcPeriod s.time.ltcRate ≤ max s.now t)
    ∧ (∃ (t : Nat) (s : State),
      awake s = true ∧ PinDriven s ∧ (s.time.ltcState ≠ 2 ∨ max s.now t < s.time.ltcLatch + 4 * ltcPeriod s.time.ltcRate))
    ∧ (∃ (s : State), PinDriven s)
    ∧ (∃ (r : CmdRef) (c : Cmd) (s : State),
      Ready 0x0B07 r c s ∧
        let p : Bytes := c.payload;
        bit (field p 0 1) 0 = true ∧ 2 ^ 48 ≤ field p 8 8)
    ∧ (∃ (r : CmdRef) (c : Cmd) (s : State),
      Ready 0x0B07 r c s ∧
        let p : Bytes := c.payload;
        bit (field p 0 1) 0 = true ∧ field p 8 8 < 2 ^ 48 ∧ s.time.state = 2)
    ∧ (∃ (r : CmdRef) (c : Cmd) (s : State),
      Ready 0x0B07 r c s ∧
        let p : Bytes := c.payload;
        bit (field p 0 1) 0 = true ∧ field p 8 8 < 2 ^ 48 ∧ s.time.state ≠ 2 ∧ bit (field p 0 1) 1 = false)
    ∧ (∃ (r : CmdRef) (c : Cmd) (s : State),
      Ready 0x0B07 r c s ∧
        let p : Bytes := c.payload;
        bit (field p 0 1) 0 = false ∧ bit (field p 0 1) 1 = true) :=
  ⟨⟨CmdRef.mbx 1 7, cmd0 wH17, wH17, by decide +kernel⟩,
   ⟨CmdRef.mbx 1 7, cmd0 wH18, wH18, by decide +kernel⟩,
   ⟨wH18, by decide +kernel⟩,
   ⟨{ tc := 0x01020305#32, rate := 2 }, 0x01020304#32, wH19, by decide +kernel⟩,
   ⟨160000004, wH20, by decide +kernel⟩,
   ⟨0, wH18, by decide +kernel⟩,
   ⟨wH21, by decide +kernel⟩,
   ⟨CmdRef.mbx 1 7, cmd0 wH22, wH22, by decide +kernel⟩,
   ⟨CmdRef.mbx 1 7, cmd0 wH23, wH23, by decide +kernel⟩,
   ⟨CmdRef.mbx 1 7, cmd0 wH24, wH24, by decide +kernel⟩,
   ⟨CmdRef.mbx 1 7, cmd0 wH25, wH25, by decide +kernel⟩⟩

open WH in
theorem witness_CueCommands :
    (∃ (r : CmdRef) (c : Cmd) (s : State),
      Ready 0x0C01 r c s ∧
        let p : Bytes := c.payload;
        let l : List (Nat × Bytes × Bytes) := cueCmds p (min (field p 20 1) 16) 24;
        ∃ (k a : Nat), cueViolation l = some (k, a))
    ∧ (∃ (r : CmdRef) (c : Cmd) (s : State),
      Ready 0x0C01 r c s ∧
        let p : Bytes := c.payload;
        let n : Nat := field p 0 2;
        let l : List (Nat × Bytes × Bytes) := cueCmds p (min (field p 20 1) 16) 24;
        cueViolation l = none ∧ (511 < n ∨ field p 20 1 = 0 ∨ 16 < field p 20 1))
    ∧ (∃ (r : CmdRef) (c : Cmd) (s : State),
      Ready 0x0C01 r c s ∧
        let p : Bytes := c.payload;
        let n : Nat := field p 0 2;
        let l : List (Nat × Bytes × Bytes) := cueCmds p (min (field p 20 1) 16) 24;
        let sound : Prop :=
          cueViolation l = none ∧
            n ≤ 511 ∧
              (field p 2 1 ≤ 1 ∨ field p 2 1 = 255) ∧
                field p 3 1 = 0 ∧
                  1 ≤ field p 20 1 ∧ field p 20 1 ≤ 16 ∧ List.find? (fun e => cueForbids e.snd.fst) l = none;
        sound ∧ khas s.time.cues n = true)
    ∧ (∃ (r : CmdRef) (c : Cmd) (s : State),
      Ready 0x0C01 r c s ∧
        let p : Bytes := c.payload;
        let n : Nat := field p 0 2;
        let l : List (Nat × Bytes × Bytes) := cueCmds p (min (field p 20 1) 16) 24;
        let sound : Prop :=
          cueViolation l = none ∧
            n ≤ 511 ∧
              (field p 2 1 ≤ 1 ∨ field p 2 1 = 255) ∧
                field p 3 1 = 0 ∧
                  1 ≤ field p 20 1 ∧ field p 20 1 ≤ 16 ∧ List.find? (fun e => cueForbids e.snd.fst) l = none;
        sound ∧ khas s.time.cues n = false ∧ (512 ≤ List.length s.time.cues ∨ 524288 < cueBytes s + (List.length p - 24)))
    ∧ (∃ (t : Nat) (r : CmdRef) (c : Cmd) (s : State),
      Ready 0x0C01 r c s ∧
        let p : Bytes := c.payload;
        let n : Nat := field p 0 2;
        let l : List (Nat × Bytes × Bytes) := cueCmds p (min (field p 20 1) 16) 24;
        let sound : Prop :=
          cueViolation l = none ∧
            n ≤ 511 ∧
              (field p 2 1 ≤ 1 ∨ field p 2 1 = 255) ∧
                field p 3 1 = 0 ∧
                  1 ≤ field p 20 1 ∧ field p 20 1 ≤ 16 ∧ List.find? (fun e => cueForbids e.snd.fst) l = none;
        sound ∧
          khas s.time.cues n = false ∧
            List.length s.time.cues < 512 ∧ cueBytes s + (List.length p - 24) ≤ 524288 ∧ max s.now t ≤ field p 8 8)
    ∧ (∃ (r : CmdRef) (c : Cmd) (s : State), Ready 0x0C03 r c s ∧ field c.payload 0 2 ≤ 511)
    ∧ (∃ (r : CmdRef) (c : Cmd) (s : State), Ready 0x0C03 r c s ∧ 511 < field c.payload 0 2) :=
  ⟨⟨CmdRef.mbx 1 7, cmd0 wH26, wH26, by decide +kernel, 1, 100, by decide +kernel⟩,
   ⟨CmdRef.mbx 1 7, cmd0 wH27, wH27, by decide +kernel⟩,
   ⟨CmdRef.mbx 1 7, cmd0 wH28, wH28, by decide +kernel⟩,
   ⟨CmdRef.mbx 1 7, cmd0 wH29, wH29, by decide +kernel⟩,
   ⟨0, CmdRef.mbx 1 7, cmd0 wH30, wH30, by decide +kernel⟩,
   ⟨CmdRef.mbx 1 7, cmd0 wH31, wH31, by decide +kernel⟩,
   ⟨CmdRef.mbx 1 7, cmd0 wH32, wH32, by decide +kernel⟩⟩

open WH in
theorem witness_CueCancel :
    (∃ (r : CmdRef) (c : Cmd) (s : State),
      Ready 0x0C02 r c s ∧
        let n : Nat := field c.payload 0 2;
        n = 65535)
    ∧ (∃ (r : CmdRef) (c : Cmd) (s : State),
      Ready 0x0C02 r c s ∧
        let n : Nat := field c.payload 0 2;
        n ≠ 65535 ∧ kget? s.time.cues n = none)
    ∧ (∃ (r : CmdRef) (c : Cmd) (s : State),
      Ready 0x0C02 r c s ∧
        let n : Nat := field c.payload 0 2;
        ∃ (q : Cue), n ≠ 65535 ∧ kget? s.time.cues n = some q ∧ q.state ≠ 1)
    ∧ (∃ (r : CmdRef) (c : Cmd) (s : State),
      Ready 0x0C02 r c s ∧
        let n : Nat := field c.payload 0 2;
        ∃ (q : Cue), n ≠ 65535 ∧ kget? s.time.cues n = some q ∧ q.state = 1) :=
  ⟨⟨CmdRef.mbx 1 7, cmd0 wH33, wH33, by decide +kernel⟩,
   ⟨CmdRef.mbx 1 7, cmd0 wH34, wH34, by decide +kernel⟩,
   ⟨CmdRef.mbx 1 7, cmd0 wH35, wH35, by decide +kernel, vH5, by decide +kernel⟩,
   ⟨CmdRef.mbx 1 7, cmd0 wH36, wH36, by decide +kernel, vH6, by decide +kernel⟩⟩

open WH in
theorem witness_CuesAndTriggers :
    (∃ (r : CmdRef) (c : Cmd) (s : State),
      Ready 0x0B05 r c s ∧
        let p : Bytes := c.payload;
        let n : Nat := field p 0 1;
        47 < n ∨ field p 1 1 ≠ 0 ∧ field p 1 1 ≠ 3 ∧ field p 1 1 ≠ 255)
    ∧ (∃ (r : CmdRef) (c : Cmd) (s : State),
      Ready 0x0B05 r c s ∧
        let p : Bytes := c.payload;
        let n : Nat := field p 0 1;
        n ≤ 47 ∧ field p 1 1 = 255 ∧ kget? s.time.trigs n = none)
    ∧ (∃ (t : Nat) (r : CmdRef) (c : Cmd) (s : State),
      Ready 0x0B05 r c s ∧
        let p : Bytes := c.payload;
        let n : Nat := field p 0 1;
        n ≤ 47 ∧
          field p 1 1 = 0 ∧
            field p 4 1 = 0 ∧ field p 5 1 ≤ 1 ∧ field p 20 4 = 0 ∧ kget? s.time.trigs n = none ∧ max s.now t < field p 8 8)
    ∧ (∃ (t n : Nat) (q : TTrig) (s : State), awake s = true ∧ PinDriven s ∧ kget? s.time.trigs n = some q ∧ q.base = 0 ∧ max s.now t < q.next)
    ∧ (∃ (t n : Nat) (q : TTrig) (s : State),
      awake s = true ∧
        PinDriven s ∧
          kget? s.time.trigs n = some q ∧
            q.base = 0 ∧ q.next ≤ max s.now t ∧ max s.now t - q.next ≤ q.grace ∧ q.period = 0 ∧ q.kind = 0)
    ∧ (∃ (n : Nat) (s : State), awake s = true ∧ PinDriven s ∧ kget? s.time.trigs n = none)
    ∧ (∃ (t n at_ : Nat) (q : Cue) (s : State), awake s = true ∧ PinDriven s ∧ kget? s.time.cues n = some q ∧ cueAt s q = some at_ ∧ max s.now t < at_)
    ∧ (∃ (t n at_ : Nat) (q : Cue) (h p : Bytes) (rest : List (Bytes × Bytes)) (s : State),
      awake s = true ∧
        PinDriven s ∧
          kget? s.time.cues n = some q ∧
            cueAt s q = some at_ ∧
              at_ ≤ max s.now t ∧
                max s.now t - at_ ≤ q.grace ∧
                  s.power.st < 3 ∧
                    s.hif.ready = true ∧ q.state = 1 ∧ q.held = false ∧ notWoven s = false ∧ q.cmds = (h, p) :: rest)
    ∧ (∃ (n : Nat) (q : Cue) (h p : Bytes) (s : State),
      awake s = true ∧
        PinDriven s ∧
          kget? s.time.cues n = some q ∧
            q.state = 2 ∧ findCmd (CmdRef.cue n q.idx) s = none ∧ q.cmds[q.idx + 1]? = some (h, p))
    ∧ (∃ (n : Nat) (q : Cue) (s : State),
      awake s = true ∧
        PinDriven s ∧
          kget? s.time.cues n = some q ∧ q.state = 2 ∧ findCmd (CmdRef.cue n q.idx) s = none ∧ q.cmds.length ≤ q.idx + 1)
    ∧ (∃ (n : Nat) (q : Cue) (s : State),
      awake s = true ∧
        PinDriven s ∧ kget? s.time.cues n = some q ∧ q.state = 2 ∧ (findCmd (CmdRef.cue n q.idx) s).isSome = true) :=
  ⟨⟨CmdRef.mbx 1 7, cmd0 wH37, wH37, by decide +kernel⟩,
   ⟨CmdRef.mbx 1 7, cmd0 wH38, wH38, by decide +kernel⟩,
   ⟨0, CmdRef.mbx 1 7, cmd0 wH39, wH39, by decide +kernel⟩,
   ⟨0, 2, vH7, wH40, by decide +kernel⟩,
   ⟨500, 2, vH7, wH40, by decide +kernel⟩,
   ⟨0, wH39, by decide +kernel⟩,
   ⟨0, 3, 500, vH6, wH41, by decide +kernel⟩,
   ⟨0, 3, 0, vH8, vH9, [], vH10, wH42, by decide +kernel⟩,
   ⟨3, vH5, vH11, [0x01#8, 0x02#8], wH43, by decide +kernel⟩,
   ⟨3, vH12, wH44, by decide +kernel⟩,
   ⟨3, vH5, wH45, by decide +kernel⟩⟩

open WI in
theorem witness_HealthCommands :
    (∃ (r : CmdRef) (c : Cmd) (s : State),
      Ready 0x0D01 r c s ∧
        let en : Nat := field c.payload 0 1;
        let per : Nat := if field c.payload 2 2 = 0 then 10 else field c.payload 2 2;
        en ≤ 1 ∧ per ≤ 3600)
    ∧ (∃ (r : CmdRef) (c : Cmd) (s : State),
      Ready 0x0D01 r c s ∧
        let en : Nat := field c.payload 0 1;
        let per : Nat := if field c.payload 2 2 = 0 then 10 else field c.payload 2 2;
        1 < en ∨ 3600 < per)
    ∧ (∃ (r : CmdRef) (c : Cmd) (s : State),
      Ready 0x0D04 r c s ∧
        let p : Bytes := c.payload;
        let a : Int := sfield p 0 2;
        let b : Int := sfield p 2 2;
        let d : Int := sfield p 4 2;
        let h : Int := sfield p 6 2;
        let depth : Int := sfield p 8 4;
        let stale : Nat := field p 12 2;
        let sound : Prop :=
          0 ≤ a ∧
            a ≤ 1498 ∧ a < b ∧ b < d ∧ d ≤ 1500 ∧ 1 ≤ h ∧ h ≤ 100 ∧ -65536 ≤ depth ∧ depth ≤ 0 ∧ 2 ≤ stale ∧ stale ≤ 600;
        sound)
    ∧ (∃ (r : CmdRef) (c : Cmd) (s : State),
      Ready 0x0D04 r c s ∧
        let p : Bytes := c.payload;
        let a : Int := sfield p 0 2;
        let b : Int := sfield p 2 2;
        let d : Int := sfield p 4 2;
        let h : Int := sfield p 6 2;
        let depth : Int := sfield p 8 4;
        let stale : Nat := field p 12 2;
        let sound : Prop :=
          0 ≤ a ∧
            a ≤ 1498 ∧ a < b ∧ b < d ∧ d ≤ 1500 ∧ 1 ≤ h ∧ h ≤ 100 ∧ -65536 ≤ depth ∧ depth ≤ 0 ∧ 2 ≤ stale ∧ stale ≤ 600;
        ¬sound)
    ∧ (∃ (r : CmdRef) (c : Cmd) (s : State),
      Ready 0x0D06 r c s ∧
        let a : Nat := field c.payload 0 2;
        let b : Nat := field c.payload 2 2;
        let z : Nat := field c.payload 4 1;
        b < a ∨ 8191 < b ∨ 63 < z)
    ∧ (∃ (r : CmdRef) (c : Cmd) (s : State),
      Ready 0x0D06 r c s ∧
        let a : Nat := field c.payload 0 2;
        let b : Nat := field c.payload 2 2;
        let z : Nat := field c.payload 4 1;
        a ≤ b ∧ b ≤ 8191 ∧ z ≤ 63 ∧ kwf s.health.zones = true)
    ∧ (∃ (r : CmdRef) (c : Cmd) (s : State),
      Ready 0x0D02 r c s ∧
        let tile : Nat := field c.payload 0 2;
        tile = 65535 ∨ healthTileOk s tile = true)
    ∧ (∃ (r : CmdRef) (c : Cmd) (s : State),
      Ready 0x0D02 r c s ∧
        let tile : Nat := field c.payload 0 2;
        tile ≠ 65535 ∧ healthTileOk s tile = false)
    ∧ (∃ (k : Nat) (r : CmdRef) (c : Cmd) (s : State),
      Ready 0x0D03 r c s ∧
        field c.payload 0 2 = 65535 ∧
          field c.payload 2 2 = 65535 ∧ field c.payload 4 1 = 255 ∧ khas s.health.defects k = true)
    ∧ (∃ (r : CmdRef) (c : Cmd) (s : State), Ready 0x0D03 r c s ∧ s.health.defects = [])
    ∧ (∃ (r : CmdRef) (c : Cmd) (s : State), Ready 0x0D05 r c s ∧ healthTileOk s (field c.payload 0 2) = true)
    ∧ (∃ (r : CmdRef) (c : Cmd) (s : State), Ready 0x0D05 r c s ∧ healthTileOk s (field c.payload 0 2) = false)
    ∧ (∃ (r : CmdRef) (c : Cmd) (s : State), Ready 0x0D08 r c s ∧ kget? s.health.sensors (field c.payload 0 1) = none)
    ∧ (∃ (r : CmdRef) (c : Cmd) (s : State),
      Ready 0x0D08 r c s ∧
        ∃ (q : Sensor), kget? s.health.sensors (field c.payload 0 1) = some q ∧ q.failed = false ∧ sensorBlocked s q = false)
    ∧ (∃ (r : CmdRef) (c : Cmd) (s : State), Ready 0x0D08 r c s ∧ ∃ (q : Sensor), kget? s.health.sensors (field c.payload 0 1) = some q ∧ q.failed = true)
    ∧ (∃ (r : CmdRef) (c : Cmd) (s : State), Ready 0x0D09 r c s ∧ field c.payload 0 1 ≤ 63)
    ∧ (∃ (r : CmdRef) (c : Cmd) (s : State), Ready 0x0D09 r c s ∧ 63 < field c.payload 0 1)
    ∧ (∃ (r : CmdRef) (c : Cmd) (s : State), Ready 0x0D0A r c s ∧ field c.payload 0 1 ≤ 15)
    ∧ (∃ (r : CmdRef) (c : Cmd) (s : State), Ready 0x0D0A r c s ∧ 15 < field c.payload 0 1)
    ∧ (∃ (r : CmdRef) (c : Cmd) (s : State),
      Ready 0x0D07 r c s ∧
        let p : Bytes := c.payload;
        let n : Nat := field p 0 1;
        15 < n)
    ∧ (∃ (r : CmdRef) (c : Cmd) (s : State),
      Ready 0x0D07 r c s ∧
        let p : Bytes := c.payload;
        let n : Nat := field p 0 1;
        n ≤ 15 ∧ field p 6 1 = 0 ∧ khas s.health.sensors n = false)
    ∧ (∃ (r : CmdRef) (c : Cmd) (s : State),
      Ready 0x0D07 r c s ∧
        let p : Bytes := c.payload;
        let n : Nat := field p 0 1;
        let sound : Prop :=
          n ≤ 15 ∧
            1 ≤ field p 6 1 ∧
              field p 6 1 ≤ 16 ∧
                field p 1 1 ≤ 1 ∧
                  8 ≤ field p 2 1 ∧
                    field p 2 1 ≤ 119 ∧
                      field p 3 1 ≤ 63 ∧
                        2000 ≤ field p 8 4 ∧
                          field p 8 4 ≤ 32000 ∧
                            field p 12 4 ≤ 262143 ∧
                              1 ≤ field p 16 1 ∧
                                field p 16 1 ≤ 8 ∧
                                  4 ≤ field p 19 1 ∧
                                    field p 19 1 ≤ 64 ∧
                                      field p 28 2 ≤ 3600 ∧ ∀ (i : Nat), i < 3 → field p 18 1 / 4 ^ i % 4 ≠ 3;
        sound ∧ healthTileOk s (field p 4 2) = false)
    ∧ (∃ (r : CmdRef) (c : Cmd) (s : State),
      Ready 0x0D07 r c s ∧
        let p : Bytes := c.payload;
        let n : Nat := field p 0 1;
        let px : List Nat := List.map (fun i => field p (32 + 2 * i) 2) (List.range (min (field p 6 1) 16));
        let sound : Prop :=
          n ≤ 15 ∧
            1 ≤ field p 6 1 ∧
              field p 6 1 ≤ 16 ∧
                field p 1 1 ≤ 1 ∧
                  8 ≤ field p 2 1 ∧
                    field p 2 1 ≤ 119 ∧
                      field p 3 1 ≤ 63 ∧
                        2000 ≤ field p 8 4 ∧
                          field p 8 4 ≤ 32000 ∧
                            field p 12 4 ≤ 262143 ∧
                              1 ≤ field p 16 1 ∧
                                field p 16 1 ≤ 8 ∧
                                  4 ≤ field p 19 1 ∧
                                    field p 19 1 ≤ 64 ∧
                                      field p 28 2 ≤ 3600 ∧ ∀ (i : Nat), i < 3 → field p 18 1 / 4 ^ i % 4 ≠ 3;
        ∃ (w : WallImg) (q : TileRec),
          sound ∧
            s.wall.active = some w ∧
              tileOf w (field p 4 2) = some q ∧
                (∀ (i : Nat), i ∈ px → i < tilePx q) ∧
                  sentinelOverlap s n (field p 4 2) px = false ∧ khas s.health.sensors n = false) :=
  ⟨⟨CmdRef.mbx 1 7, cmd0 wI1, wI1, by decide +kernel⟩,
   ⟨CmdRef.mbx 1 7, cmd0 wI2, wI2, by decide +kernel⟩,
   ⟨CmdRef.mbx 1 7, cmd0 wI3, wI3, by decide +kernel⟩,
   ⟨CmdRef.mbx 1 7, cmd0 wI4, wI4, by decide +kernel⟩,
   ⟨CmdRef.mbx 1 7, cmd0 wI5, wI5, by decide +kernel⟩,
   ⟨CmdRef.mbx 1 7, cmd0 wI6, wI6, by decide +kernel⟩,
   ⟨CmdRef.mbx 1 7, cmd0 wI7, wI7, by decide +kernel⟩,
   ⟨CmdRef.mbx 1 7, cmd0 wI8, wI8, by decide +kernel⟩,
   ⟨13, CmdRef.mbx 1 7, cmd0 wI9, wI9, by decide +kernel⟩,
   ⟨CmdRef.mbx 1 7, cmd0 wI10, wI10, by decide +kernel⟩,
   ⟨CmdRef.mbx 1 7, cmd0 wI11, wI11, by decide +kernel⟩,
   ⟨CmdRef.mbx 1 7, cmd0 wI12, wI12, by decide +kernel⟩,
   ⟨CmdRef.mbx 1 7, cmd0 wI13, wI13, by decide +kernel⟩,
   ⟨CmdRef.mbx 1 7, cmd0 wI14, wI14, by decide +kernel, vI1, by decide +kernel⟩,
   ⟨CmdRef.mbx 1 7, cmd0 wI15, wI15, by decide +kernel, vI2, by decide +kernel⟩,
   ⟨CmdRef.mbx 1 7, cmd0 wI16, wI16, by decide +kernel⟩,
   ⟨CmdRef.mbx 1 7, cmd0 wI17, wI17, by decide +kernel⟩,
   ⟨CmdRef.mbx 1 7, cmd0 wI18, wI18, by decide +kernel⟩,
   ⟨CmdRef.mbx 1 7, cmd0 wI19, wI19, by decide +kernel⟩,
   ⟨CmdRef.mbx 1 7, cmd0 wI20, wI20, by decide +kernel⟩,
   ⟨CmdRef.mbx 1 7, cmd0 wI21, wI21, by decide +kernel⟩,
   ⟨CmdRef.mbx 1 7, cmd0 wI22, wI22, by decide +kernel⟩,
   ⟨CmdRef.mbx 1 7, cmd0 wI23, wI23, by decide +kernel, vI3, vI4, by decide +kernel⟩⟩

open WI in
theorem witness_ProbesAndDefects :
    (∃ (p : Nat) (s : State), awake s = true ∧ PinDriven s ∧ (s.health.probeOn = false ∨ (probeEnds s).contains p = false))
    ∧ (∃ (t p at_ : Nat) (s : State),
      awake s = true ∧
        PinDriven s ∧
          s.health.probeOn = true ∧
            (probeEnds s).contains p = true ∧ kget? s.health.nextDetect p = some at_ ∧ at_ ≤ max s.now t)
    ∧ (∃ (t p : Nat) (c : ChainRec) (b : Bool) (s : State), awake s = true ∧ endOfPort s p = some (c, b) ∧ probeAllowed (advance t s) c p = false)
    ∧ (∃ (t p : Nat) (c : ChainRec) (b : Bool) (s : State),
      awake s = true ∧
        endOfPort s p = some (c, b) ∧ probeAllowed (advance t s) c p = true ∧ s.health.due.contains p = true)
    ∧ (∃ (c : ChainRec) (p : Nat) (s : State), s.flt.safe = true ∨ (chainLk s c.chain).gen = 1 ∨ s.health.probed.contains p = true)
    ∧ (∃ (t tile : Nat) (w : ProbeWait) (s : State), awake s = true ∧ PinDriven s ∧ kget? s.health.waits tile = some w ∧ w.deadline ≤ max s.now t)
    ∧ (∃ (t tile : Nat) (w : ProbeWait) (s : State), awake s = true ∧ PinDriven s ∧ kget? s.health.waits tile = some w ∧ max s.now t < w.deadline)
    ∧ (∃ (tile n : Nat) (e : ReportEntry) (s : State),
      let key : Nat := chanKey tile e.pixel e.channel;
      kgetD s.health.runs key (0, 0) = (e.st, n) ∧ n < 2)
    ∧ (∃ (tile : Nat) (e : ReportEntry) (s : State),
      let key : Nat := chanKey tile e.pixel e.channel;
      kgetD s.health.runs key (0, 0) = (e.st, 2) ∧
        kget? s.health.defects key = none ∧ List.length s.health.defects < 65536)
    ∧ (∃ (key : Nat) (s : State), (kgetD s.health.runs key (0, 0)).snd < 3 ∧ khas s.health.defects key = false) :=
  ⟨⟨0, up, by decide +kernel⟩,
   ⟨100, 4, 100, wI24, by decide +kernel⟩,
   ⟨0, 4, vI5, false, walled, by decide +kernel⟩,
   ⟨0, 4, vI5, false, wI24, by decide +kernel⟩,
   ⟨vI5, 0, wI25, by decide +kernel⟩,
   ⟨1000, 1, { pseq := 3, entries := [], deadline := 1000 }, wI26, by decide +kernel⟩,
   ⟨0, 1, { pseq := 3, entries := [], deadline := 1000 }, wI26, by decide +kernel⟩,
   ⟨0, 1, { pixel := 3, channel := 1, st := 2 }, wI27, by decide +kernel⟩,
   ⟨0, { pixel := 5, channel := 0, st := 1 }, wI28, by decide +kernel⟩,
   ⟨0, walled, by decide +kernel⟩⟩

open WI in
theorem witness_TilesAndSensors :
    (∃ (h : TileHdr) (c : ChainRec) (b : Bool) (q : TileRec) (s : State),
      awake s = true ∧
        (portOf s h.port).retired = false ∧
          tileOfHdr s h = some (c, b, q) ∧
            (s.twin.enabled && s.twin.role == 1 && newerGen (BitVec.toNat h.gen) (BitVec.toNat s.twin.cgen)) = false)
    ∧ (∃ (x : Int) (s : State), s.health.tCut ≤ x)
    ∧ (∃ (h : Health) (x : Int), h.tCut ≤ x)
    ∧ (∃ (h : Health) (x : Int), x < h.tCut ∧ h.tFull ≤ x)
    ∧ (∃ (h : Health) (x : Int), x < h.tCut ∧ x < h.tFull ∧ x ≤ h.tStart)
    ∧ (∃ (t tile : Nat) (w : WallImg) (q : TileRec) (s : State),
      awake s = true ∧
        PinDriven s ∧
          s.wall.active = some w ∧
            tileOf w tile = some q ∧ max s.now t < (tileH s tile).tempAt.getD s.bootAt + s.health.staleS * 1000000000)
    ∧ (∃ (t tile : Nat) (w : WallImg) (q : TileRec) (s : State),
      awake s = true ∧
        PinDriven s ∧
          s.wall.active = some w ∧
            tileOf w tile = some q ∧ (tileH s tile).tempAt.getD s.bootAt + s.health.staleS * 1000000000 ≤ max s.now t)
    ∧ (∃ (t n : Nat) (q : Sensor) (s : State),
      awake s = true ∧
        PinDriven s ∧
          kget? s.health.sensors n = some q ∧
            (∀ (b : Nat), q.began = some b → b + q.periodS * 1000000000 ≤ max s.now t) ∧
              q.sampling = false ∧ q.failed = false ∧ q.blocked = false)
    ∧ (∃ (n : Nat) (q : Sensor) (s : State),
      awake s = true ∧
        PinDriven s ∧ kget? s.health.sensors n = some q ∧ (q.sampling = true ∨ q.failed = true ∨ q.blocked = true))
    ∧ (∃ (n : Nat) (q : Sensor) (s : State), awake s = true ∧ PinDriven s ∧ kget? s.health.sensors n = some q ∧ q.due.isSome = true ∧ q.failed = false)
    ∧ (∃ (n : Nat) (q : Sensor) (s : State), awake s = true ∧ PinDriven s ∧ kget? s.health.sensors n = some q ∧ q.due.isSome = true ∧ q.failed = true)
    ∧ (∃ (t n : Nat) (q : Sensor) (s : State),
      awake s = true ∧
        PinDriven s ∧ kget? s.health.sensors n = some q ∧ (q.failed = false ∨ max s.now t < q.failedAt + 10000000000))
    ∧ (∃ (t n : Nat) (q : Sensor) (s : State),
      awake s = true ∧
        PinDriven s ∧ kget? s.health.sensors n = some q ∧ q.failed = true ∧ q.failedAt + 10000000000 ≤ max s.now t) :=
  ⟨⟨vI6, vI5, false, vI7, walled, by decide +kernel⟩,
   ⟨900, walled, by decide +kernel⟩,
   ⟨vI8, 900, by decide +kernel⟩,
   ⟨vI8, 850, by decide +kernel⟩,
   ⟨vI8, -400, by decide +kernel⟩,
   ⟨0, 0, vI3, vI7, walled, by decide +kernel⟩,
   ⟨10000000007, 0, vI3, vI7, walled, by decide +kernel⟩,
   ⟨0, 2, vI1, wI29, by decide +kernel⟩,
   ⟨2, vI9, wI30, by decide +kernel⟩,
   ⟨2, vI9, wI30, by decide +kernel⟩,
   ⟨2, vI10, wI31, by decide +kernel⟩,
   ⟨0, 2, vI1, wI29, by decide +kernel⟩,
   ⟨10000000006, 2, vI10, wI31, by decide +kernel⟩⟩

open WI in
theorem witness_ReelRecording :
    (∃ (r : CmdRef) (c : Cmd) (s : State), Ready 0x1501 r c s)
    ∧ (∃ (r : CmdRef) (c : Cmd) (s : State),
      Ready 0x1502 r c s ∧
        let q : U32 := BitVec.ofNat 32 (field c.payload 0 4);
        readable s.reel q = false ∨ field c.payload 4 2 = 0 ∨ 255 < field c.payload 4 2)
    ∧ (∃ (r : CmdRef) (c : Cmd) (s : State),
      Ready 0x1502 r c s ∧
        let q : U32 := BitVec.ofNat 32 (field c.payload 0 4);
        readable s.reel q = true ∧ 1 ≤ field c.payload 4 2 ∧ field c.payload 4 2 ≤ 255)
    ∧ (∃ (r : CmdRef) (c : Cmd) (s : State), Ready 0x1503 r c s ∧ keyAuthority c = false)
    ∧ (∃ (r : CmdRef) (c : Cmd) (s : State),
      Ready 0x1503 r c s ∧
        let upto : U32 := BitVec.ofNat 32 (field c.payload 0 4);
        keyAuthority c = true ∧ readable s.reel upto = true)
    ∧ (∃ (r : CmdRef) (c : Cmd) (s : State),
      Ready 0x1504 r c s ∧
        let n : Nat := field c.payload 0 1;
        n = 0 ∨ 200 < n ∨ List.length c.payload ≠ 8 + n)
    ∧ (∃ (r : CmdRef) (c : Cmd) (s : State),
      Ready 0x1504 r c s ∧
        let n : Nat := field c.payload 0 1;
        1 ≤ n ∧ n ≤ 200 ∧ List.length c.payload = 8 + n ∧ 64 ≤ s.reel.staging.length)
    ∧ (∃ (r : CmdRef) (c : Cmd) (s : State),
      Ready 0x1504 r c s ∧
        let n : Nat := field c.payload 0 1;
        1 ≤ n ∧
          n ≤ 200 ∧
            List.length c.payload = 8 + n ∧ s.reel.staging.length < 64 ∧ s.reel.refusing = false ∧ s.flt.noService = false)
    ∧ (∃ (e : RRec) (rest : List RRec) (s : State),
      awake s = true ∧
        reelWrites s = true ∧
          s.reel.failedRec = none ∧
            squallDue s = false ∧
              s.reel.staging = e :: rest ∧
                s.reel.tally = false ∧ s.reel.offset + List.length (recBytes e s.reel.next) ≤ 16384)
    ∧ (∃ (e : RRec) (rest : List RRec) (s : State),
      awake s = true ∧
        reelWrites s = true ∧
          s.reel.failedRec = none ∧
            squallDue s = false ∧ s.reel.staging = e :: rest ∧ s.reel.tally = false ∧ 0 < s.reel.spares)
    ∧ (∃ (e : RRec) (rest : List RRec) (s : State),
      awake s = true ∧
        reelWrites s = true ∧
          s.reel.failedRec = none ∧
            squallDue s = false ∧ s.reel.staging = e :: rest ∧ s.reel.tally = false ∧ s.reel.spares = 0)
    ∧ (∃ (e : RRec) (rest : List RRec) (s : State),
      awake s = true ∧
        reelWrites s = true ∧
          s.reel.failedRec = none ∧ squallDue s = false ∧ s.reel.staging = e :: rest ∧ s.reel.tally = true)
    ∧ (∃ (s : State), awake s = true ∧ s.reel.failedRec = none ∧ squallDue s = false ∧ s.reel.staging = [])
    ∧ (∃ (s : State), awake s = true ∧ s.reel.switching = false)
    ∧ (∃ (s : State), awake s = true ∧ s.reel.switching = true ∧ s.reel.offset = 64)
    ∧ (∃ (s : State), awake s = true ∧ s.reel.squall = [])
    ∧ (∃ (s : State), awake s = true ∧ squallDue s = true ∧ s.reel.failedRec = none)
    ∧ (∃ (s : State),
      awake s = true ∧
        s.reel.squall ≠ [] ∧
          s.reel.staging.length ≤ 32 ∧ reelWrites s = true ∧ s.reel.failedRec = none ∧ s.reel.tally = false)
    ∧ (∃ (s : State), s.reel.refusing = false ∧ s.flt.noService = false ∧ s.reel.staging.length < 64)
    ∧ (∃ (s : State), s.reel.refusing = false ∧ s.flt.noService = false ∧ 64 ≤ s.reel.staging.length) :=
  ⟨⟨CmdRef.mbx 1 7, cmd0 wI32, wI32, by decide +kernel⟩,
   ⟨CmdRef.mbx 1 7, cmd0 wI33, wI33, by decide +kernel⟩,
   ⟨CmdRef.mbx 1 7, cmd0 wI34, wI34, by decide +kernel⟩,
   ⟨CmdRef.mbx 1 7, cmd0 wI35, wI35, by decide +kernel⟩,
   ⟨CmdRef.mbx 1 7, cmd0 wI36, wI36, by decide +kernel⟩,
   ⟨CmdRef.mbx 1 7, cmd0 wI37, wI37, by decide +kernel⟩,
   ⟨CmdRef.mbx 1 7, cmd0 wI38, wI38, by decide +kernel⟩,
   ⟨CmdRef.mbx 1 7, cmd0 wI39, wI39, by decide +kernel⟩,
   ⟨vI11, vI12, wI40, by decide +kernel⟩,
   ⟨vI11, vI12, wI40, by decide +kernel⟩,
   ⟨vI13, [], wI41, by decide +kernel⟩,
   ⟨vI13, [], wI42, by decide +kernel⟩,
   ⟨up, by decide +kernel⟩,
   ⟨up, by decide +kernel⟩,
   ⟨wI43, by decide +kernel⟩,
   ⟨up, by decide +kernel⟩,
   ⟨wI44, by decide +kernel⟩,
   ⟨wI44, by decide +kernel⟩,
   ⟨up, by decide +kernel⟩,
   ⟨wI40, by decide +kernel⟩⟩

open WI in
theorem witness_CalibrationRuns :
    (∃ (r : CmdRef) (c : Cmd) (s : State), Ready 0x1401 r c s)
    ∧ (∃ (r : CmdRef) (c : Cmd) (s : State),
      Ready 0x1402 r c s ∧
        let d : Nat := if field c.payload 2 2 = 0 then 150 else field c.payload 2 2;
        20 ≤ d ∧ d ≤ 500)
    ∧ (∃ (r : CmdRef) (c : Cmd) (s : State),
      Ready 0x1402 r c s ∧
        let d : Nat := if field c.payload 2 2 = 0 then 150 else field c.payload 2 2;
        d < 20 ∨ 500 < d)
    ∧ (∃ (r : CmdRef) (c : Cmd) (s : State),
      Ready 0x1403 r c s ∧
        let l : List Nat := setBits 5 (field c.payload 0 1);
        l = [])
    ∧ (∃ (r : CmdRef) (c : Cmd) (s : State),
      Ready 0x1403 r c s ∧
        let l : List Nat := setBits 5 (field c.payload 0 1);
        l ≠ [] ∧ ∃ i, i ∈ l ∧ (calItem s i).phase ≠ 0)
    ∧ (∃ (r : CmdRef) (c : Cmd) (s : State),
      Ready 0x1403 r c s ∧
        let l : List Nat := setBits 5 (field c.payload 0 1);
        l ≠ [] ∧ ∀ (i : Nat), i ∈ l → (calItem s i).phase = 0)
    ∧ (∃ (r : CmdRef) (c : Cmd) (s : State), Ready 0x1404 r c s ∧ instExists (field c.payload 0 1) (field c.payload 2 2) = true)
    ∧ (∃ (r : CmdRef) (c : Cmd) (s : State), Ready 0x1404 r c s ∧ instExists (field c.payload 0 1) (field c.payload 2 2) = false)
    ∧ (∃ (r : CmdRef) (c : Cmd) (s : State), Ready 0x1405 r c s ∧ field c.payload 0 1 ≤ 4)
    ∧ (∃ (r : CmdRef) (c : Cmd) (s : State), Ready 0x1405 r c s ∧ 4 < field c.payload 0 1)
    ∧ (∃ (r : CmdRef) (c : Cmd) (s : State), Ready 0x1406 r c s ∧ keyAuthority c = false)
    ∧ (∃ (r : CmdRef) (c : Cmd) (s : State),
      Ready 0x1406 r c s ∧
        let i : Nat := field c.payload 0 1;
        let n : Nat := field c.payload 2 2;
        keyAuthority c = true ∧ instExists i n = true ∧ (calItem s i).phase ≠ 0)
    ∧ (∃ (r : CmdRef) (c : Cmd) (s : State),
      Ready 0x1406 r c s ∧
        let i : Nat := field c.payload 0 1;
        let n : Nat := field c.payload 2 2;
        keyAuthority c = true ∧ instExists i n = true ∧ (calItem s i).phase = 0)
    ∧ (∃ (s : State), awake s = true ∧ PinDriven s ∧ s.cal.enable = 0 ∧ ∀ (i : Nat), i < 5 → dueInsts s i = [])
    ∧ (∃ (i n : Nat) (s : State), (calItem s i).phase = 0 ∧ calMayRun s i = true ∧ n ∈ dueInsts s i)
    ∧ (∃ (i : Nat) (s : State), awake s = true ∧ PinDriven s ∧ (calItem s i).phase ≠ 2)
    ∧ (∃ (i : Nat) (r : CalResult) (s : State),
      awake s = true ∧
        (calItem s i).phase = 2 ∧
          (calItem s i).insts = [r.inst] ∧
            (calItem s i).targets = [] ∧ instRetired s i r.inst = false ∧ i ≠ 0 ∧ plausible s i r = true)
    ∧ (∃ (t i : Nat) (s : State), awake s = true ∧ ((calItem s i).phase ≠ 3 ∨ max s.now t < (calItem s i).stepAt + stepGap i))
    ∧ (∃ (t i : Nat) (s : State), awake s = true ∧ (calItem s i).phase = 3 ∧ (calItem s i).stepAt + stepGap i ≤ max s.now t)
    ∧ (∃ (n : Nat) (d : Bytes) (s : State), (calItem s 2).phase = 3 ∧ (calItem s 2).stepAt ≤ s.now ∧ (calItem s 2).targets = [(n, d)] ∧ n < 3)
    ∧ (∃ (t i n a : Nat) (s : State), awake s = true ∧ PinDriven s ∧ (calInst s i n).discardAt = some a ∧ max s.now t < a + 60000000000)
    ∧ (∃ (t i n a : Nat) (s : State), awake s = true ∧ PinDriven s ∧ (calInst s i n).discardAt = some a ∧ a + 60000000000 ≤ max s.now t) :=
  ⟨⟨CmdRef.mbx 1 7, cmd0 wI45, wI45, by decide +kernel⟩,
   ⟨CmdRef.mbx 1 7, cmd0 wI46, wI46, by decide +kernel⟩,
   ⟨CmdRef.mbx 1 7, cmd0 wI47, wI47, by decide +kernel⟩,
   ⟨CmdRef.mbx 1 7, cmd0 wI48, wI48, by decide +kernel⟩,
   ⟨CmdRef.mbx 1 7, cmd0 wI49, wI49, by decide +kernel⟩,
   ⟨CmdRef.mbx 1 7, cmd0 wI50, wI50, by decide +kernel⟩,
   ⟨CmdRef.mbx 1 7, cmd0 wI51, wI51, by decide +kernel⟩,
   ⟨CmdRef.mbx 1 7, cmd0 wI52, wI52, by decide +kernel⟩,
   ⟨CmdRef.mbx 1 7, cmd0 wI53, wI53, by decide +kernel⟩,
   ⟨CmdRef.mbx 1 7, cmd0 wI54, wI54, by decide +kernel⟩,
   ⟨CmdRef.mbx 1 7, cmd0 wI55, wI55, by decide +kernel⟩,
   ⟨CmdRef.mbx 1 7, cmd0 wI56, wI56, by decide +kernel⟩,
   ⟨CmdRef.mbx 1 7, cmd0 wI57, wI57, by decide +kernel⟩,
   ⟨wI58, by decide +kernel⟩,
   ⟨0, 0, wI59, by decide +kernel⟩,
   ⟨0, up, by decide +kernel⟩,
   ⟨1, vI14, wI60, by decide +kernel⟩,
   ⟨0, 0, up, by decide +kernel⟩,
   ⟨0, 2, wI61, by decide +kernel⟩,
   ⟨1, vI15, wI61, by decide +kernel⟩,
   ⟨0, 1, 3, 50, wI62, by decide +kernel⟩,
   ⟨60000000050, 1, 3, 50, wI62, by decide +kernel⟩⟩

open WJ in
theorem witness_MeterCommands :
    (∃ (r : CmdRef) (c : Cmd) (s : State),
      Ready 0x1101 r c s ∧
        let v : Nat := field c.payload 0 1;
        let sound : Prop := v ≤ 3 ∧ field c.payload 1 1 ≤ 1 ∧ 1 ≤ field c.payload 4 4 ∧ field c.payload 4 4 ≤ 4000000000;
        sound)
    ∧ (∃ (r : CmdRef) (c : Cmd) (s : State),
      Ready 0x1101 r c s ∧
        let v : Nat := field c.payload 0 1;
        let sound : Prop := v ≤ 3 ∧ field c.payload 1 1 ≤ 1 ∧ 1 ≤ field c.payload 4 4 ∧ field c.payload 4 4 ≤ 4000000000;
        ¬sound)
    ∧ (∃ (r : CmdRef) (c : Cmd) (s : State),
      Ready 0x1102 r c s ∧
        let n : Nat := field c.payload 0 1;
        let sound : Prop :=
          n ≤ 7 ∧
            field c.payload 1 1 ≤ 1 ∧
              field c.payload 2 1 ≤ 3 ∧ 1 ≤ field c.payload 4 4 ∧ field c.payload 4 4 ≤ 4000000000;
        sound)
    ∧ (∃ (r : CmdRef) (c : Cmd) (s : State),
      Ready 0x1102 r c s ∧
        let n : Nat := field c.payload 0 1;
        let sound : Prop :=
          n ≤ 7 ∧
            field c.payload 1 1 ≤ 1 ∧
              field c.payload 2 1 ≤ 3 ∧ 1 ≤ field c.payload 4 4 ∧ field c.payload 4 4 ≤ 4000000000;
        ¬sound)
    ∧ (∃ (r : CmdRef) (c : Cmd) (s : State),
      Ready 0x1106 r c s ∧
        let p : Bytes := c.payload;
        let w : Nat := if field p 8 2 = 0 then 30 else field p 8 2;
        let sound : Prop :=
          field p 0 1 ≤ 7 ∧
            field p 1 1 ≤ 5 ∧ (field p 1 1 = 0 ∨ 1000 ≤ field p 4 4) ∧ 10 ≤ w ∧ w ≤ 1000 ∧ field p 10 1 ≤ 1;
        sound)
    ∧ (∃ (r : CmdRef) (c : Cmd) (s : State),
      Ready 0x1106 r c s ∧
        let p : Bytes := c.payload;
        let w : Nat := if field p 8 2 = 0 then 30 else field p 8 2;
        let sound : Prop :=
          field p 0 1 ≤ 7 ∧
            field p 1 1 ≤ 5 ∧ (field p 1 1 = 0 ∨ 1000 ≤ field p 4 4) ∧ 10 ≤ w ∧ w ≤ 1000 ∧ field p 10 1 ≤ 1;
        ¬sound)
    ∧ (∃ (r : CmdRef) (c : Cmd) (s : State),
      Ready 0x1107 r c s ∧
        let v : Nat := if field c.payload 0 2 = 0 then 60 else field c.payload 0 2;
        v ≤ 3600)
    ∧ (∃ (r : CmdRef) (c : Cmd) (s : State),
      Ready 0x1107 r c s ∧
        let v : Nat := if field c.payload 0 2 = 0 then 60 else field c.payload 0 2;
        3600 < v)
    ∧ (∃ (r : CmdRef) (c : Cmd) (s : State), Ready 0x1108 r c s ∧ keyAuthority c = false)
    ∧ (∃ (r : CmdRef) (c : Cmd) (s : State),
      Ready 0x1108 r c s ∧
        let l : List Nat := namedCircuits (field c.payload 0 1);
        keyAuthority c = true ∧ l = [])
    ∧ (∃ (r : CmdRef) (c : Cmd) (s : State),
      Ready 0x1108 r c s ∧
        let l : List Nat := namedCircuits (field c.payload 0 1);
        keyAuthority c = true ∧ l ≠ [])
    ∧ (∃ (r : CmdRef) (c : Cmd) (s : State), Ready 0x1109 r c s ∧ field c.payload 0 2 = 1 ∧ field c.payload 8 2 ≤ 1023)
    ∧ (∃ (r : CmdRef) (c : Cmd) (s : State),
      Ready 0x110A r c s ∧
        let p : Bytes := c.payload;
        let tau : Nat := if field p 8 2 = 0 then 60 else field p 8 2;
        let sound : Prop :=
          field p 0 1 ≤ 1 ∧
            1 ≤ field p 4 4 ∧ field p 4 4 ≤ 4000000 ∧ 10 ≤ tau ∧ tau ≤ 600 ∧ (field p 0 1 = 1 → field p 2 2 ≠ 0);
        sound ∧ s.mode.mode ≠ 0 ∧ s.mode.weaving = true ∧ s.meter.capDone = true ∧ remainingOps s = 0)
    ∧ (∃ (r : CmdRef) (c : Cmd) (s : State),
      Ready 0x110A r c s ∧
        let p : Bytes := c.payload;
        let tau : Nat := if field p 8 2 = 0 then 60 else field p 8 2;
        let sound : Prop :=
          field p 0 1 ≤ 1 ∧
            1 ≤ field p 4 4 ∧ field p 4 4 ≤ 4000000 ∧ 10 ≤ tau ∧ tau ≤ 600 ∧ (field p 0 1 = 1 → field p 2 2 ≠ 0);
        ¬sound)
    ∧ (∃ (r : CmdRef) (c : Cmd) (s : State),
      Ready 0x1103 r c s ∧
        let l : List Nat := namedCircuits (field c.payload 0 1);
        l = [])
    ∧ (∃ (r : CmdRef) (c : Cmd) (s : State),
      Ready 0x1103 r c s ∧
        let l : List Nat := namedCircuits (field c.payload 0 1);
        l ≠ [])
    ∧ (∃ (r : CmdRef) (c : Cmd) (s : State), Ready 0x1104 r c s ∧ field c.payload 0 1 ≤ 9)
    ∧ (∃ (r : CmdRef) (c : Cmd) (s : State), Ready 0x1104 r c s ∧ 9 < field c.payload 0 1)
    ∧ (∃ (r : CmdRef) (c : Cmd) (s : State), Ready 0x1105 r c s ∧ field c.payload 0 1 ≤ 7 ∧ field c.payload 1 1 ≤ 1)
    ∧ (∃ (r : CmdRef) (c : Cmd) (s : State), Ready 0x1105 r c s ∧ (7 < field c.payload 0 1 ∨ 1 < field c.payload 1 1))
    ∧ (∃ (r : CmdRef) (c : Cmd) (s : State), Ready 0x110B r c s) :=
  ⟨⟨CmdRef.mbx 1 7, cmd0 wJ1, wJ1, by decide +kernel⟩,
   ⟨CmdRef.mbx 1 7, cmd0 wJ2, wJ2, by decide +kernel⟩,
   ⟨CmdRef.mbx 1 7, cmd0 wJ3, wJ3, by decide +kernel⟩,
   ⟨CmdRef.mbx 1 7, cmd0 wJ4, wJ4, by decide +kernel⟩,
   ⟨CmdRef.mbx 1 7, cmd0 wJ5, wJ5, by decide +kernel⟩,
   ⟨CmdRef.mbx 1 7, cmd0 wJ6, wJ6, by decide +kernel⟩,
   ⟨CmdRef.mbx 1 7, cmd0 wJ7, wJ7, by decide +kernel⟩,
   ⟨CmdRef.mbx 1 7, cmd0 wJ8, wJ8, by decide +kernel⟩,
   ⟨CmdRef.mbx 1 7, cmd0 wJ9, wJ9, by decide +kernel⟩,
   ⟨CmdRef.mbx 1 7, cmd0 wJ10, wJ10, by decide +kernel⟩,
   ⟨CmdRef.mbx 1 7, cmd0 wJ11, wJ11, by decide +kernel⟩,
   ⟨CmdRef.mbx 1 7, cmd0 wJ12, wJ12, by decide +kernel⟩,
   ⟨CmdRef.mbx 1 7, cmd0 wJ13, wJ13, by decide +kernel⟩,
   ⟨CmdRef.mbx 1 7, cmd0 wJ14, wJ14, by decide +kernel⟩,
   ⟨CmdRef.mbx 1 7, cmd0 wJ15, wJ15, by decide +kernel⟩,
   ⟨CmdRef.mbx 1 7, cmd0 wJ16, wJ16, by decide +kernel⟩,
   ⟨CmdRef.mbx 1 7, cmd0 wJ17, wJ17, by decide +kernel⟩,
   ⟨CmdRef.mbx 1 7, cmd0 wJ18, wJ18, by decide +kernel⟩,
   ⟨CmdRef.mbx 1 7, cmd0 wJ19, wJ19, by decide +kernel⟩,
   ⟨CmdRef.mbx 1 7, cmd0 wJ20, wJ20, by decide +kernel⟩,
   ⟨CmdRef.mbx 1 7, cmd0 wJ21, wJ21, by decide +kernel⟩⟩

open WJ in
theorem witness_EnergyAndCap :
    (∃ (p : PowerSample) (s : State), awake s = true ∧ PinDriven s ∧ metering s = true ∧ metered s p.circuit = true)
    ∧ (∃ (p : PowerSample) (s : State), awake s = true ∧ PinDriven s ∧ (metering s = false ∨ metered s p.circuit = false))
    ∧ (∃ (p : PowerSample), 0 ≤ p.p)
    ∧ (∃ (p : PowerSample), p.p < 0)
    ∧ (∃ (n : Nat) (m : MeterSample) (s : State),
      awake s = true ∧
        PinDriven s ∧
          metering s = true ∧ n < 8 ∧ metered s n = true ∧ (circuitOf s n).gain = 16 ∧ 950 ≤ (m.fine.getD n 0).natAbs)
    ∧ (∃ (s : State), awake s = true ∧ PinDriven s ∧ metering s = false)
    ∧ (∃ (t n : Nat) (q : Pulse) (s : State),
      awake s = true ∧
        PinDriven s ∧
          kget? s.meter.pulses n = some q ∧ metering s = true ∧ 1 ≤ q.owed ∧ q.until_ = none ∧ q.rest ≤ max s.now t)
    ∧ (∃ (t n : Nat) (q : Pulse) (s : State),
      awake s = true ∧
        PinDriven s ∧
          kget? s.meter.pulses n = some q ∧
            metering s = true ∧ (q.owed = 0 ∨ q.until_.isSome = true ∨ max s.now t < q.rest))
    ∧ (∃ (t n u : Nat) (q : Pulse) (s : State), awake s = true ∧ PinDriven s ∧ kget? s.meter.pulses n = some q ∧ q.until_ = some u ∧ u ≤ max s.now t)
    ∧ (∃ (t n u : Nat) (q : Pulse) (s : State), awake s = true ∧ PinDriven s ∧ kget? s.meter.pulses n = some q ∧ q.until_ = some u ∧ max s.now t < u)
    ∧ (∃ (w : WindowQty) (s : State), awake s = true ∧ PinDriven s ∧ metering s = true ∧ metered s w.circuit = true)
    ∧ (∃ (t : Nat) (s : State),
      awake s = true ∧
        PinDriven s ∧
          metering s = true ∧
            s.meter.saving = none ∧ (s.meter.saveNow = true ∨ s.meter.lastSave + s.meter.saveS * 1000000000 ≤ max s.now t))
    ∧ (∃ (t : Nat) (s : State),
      awake s = true ∧ PinDriven s ∧ s.meter.saveNow = false ∧ max s.now t < s.meter.lastSave + s.meter.saveS * 1000000000)
    ∧ (∃ (k : Nat) (q : SaveSlot) (s : State), awake s = true ∧ PinDriven s ∧ s.meter.saving = some k ∧ kget? s.meter.slots k = some q)
    ∧ (∃ (s : State), awake s = true ∧ PinDriven s ∧ s.meter.saving = none)
    ∧ (∃ (s : State),
      awake s = true ∧
        PinDriven s ∧
          s.mode.mode ≠ 0 ∧ s.mode.weaving = true ∧ s.meter.capDone = false ∧ remainingOps s = 0 ∧ capRuns s = true)
    ∧ (∃ (s : State),
      awake s = true ∧
        PinDriven s ∧ (s.mode.mode = 0 ∨ s.mode.weaving = false ∨ s.meter.capDone = true ∨ remainingOps s ≠ 0))
    ∧ (∃ (room fixed var : Nat), fixed + var ≤ room)
    ∧ (∃ (room fixed var : Nat), room < fixed + var ∧ room ≤ fixed)
    ∧ (∃ (s : State), awake s = true ∧ PinDriven s ∧ metering s = true) :=
  ⟨⟨{ circuit := 0, p := 1000, q := -5, s := 2000, ns := 1000000 }, wJ22, by decide +kernel⟩,
   ⟨{ circuit := 0, p := 1000, q := -5, s := 2000, ns := 1000000 }, up, by decide +kernel⟩,
   ⟨{ circuit := 0, p := 1000, q := -5, s := 2000, ns := 1000000 }, by decide +kernel⟩,
   ⟨{ circuit := 9, p := -1000, q := 5, s := 2000, ns := 999 }, by decide +kernel⟩,
   ⟨0, vJ1, wJ22, by decide +kernel⟩,
   ⟨up, by decide +kernel⟩,
   ⟨0, 2, vJ2, wJ22, by decide +kernel⟩,
   ⟨0, 3, vJ3, wJ22, by decide +kernel⟩,
   ⟨777, 3, 777, vJ3, wJ22, by decide +kernel⟩,
   ⟨0, 3, 777, vJ3, wJ22, by decide +kernel⟩,
   ⟨vJ4, wJ22, by decide +kernel⟩,
   ⟨0, wJ23, by decide +kernel⟩,
   ⟨0, up, by decide +kernel⟩,
   ⟨0, vJ5, wJ24, by decide +kernel⟩,
   ⟨up, by decide +kernel⟩,
   ⟨wJ25, by decide +kernel⟩,
   ⟨up, by decide +kernel⟩,
   ⟨0, 0, 0, by decide +kernel⟩,
   ⟨0, 0, 1, by decide +kernel⟩,
   ⟨wJ26, by decide +kernel⟩⟩

open WJ in
theorem witness_PowerSupply :
    (∃ (r : CmdRef) (c : Cmd) (s : State), Ready 0x1003 r c s ∧ 2 < field c.payload 0 1)
    ∧ (∃ (r : CmdRef) (c : Cmd) (s : State),
      Ready 0x1003 r c s ∧
        field c.payload 0 1 ≤ 2 ∧
          (∀ (i : Nat), i ∈ [2, 4, 6, 8, 10] → field c.payload i 2 = 0) ∧
            s.power.feedA.live = false ∧ s.power.feedB.live = false)
    ∧ (∃ (r : CmdRef) (c : Cmd) (s : State),
      Ready 0x1004 r c s ∧
        let p : Bytes := c.payload;
        let up : Nat := if field p 0 2 = 0 then 120 else field p 0 2;
        let lo : Nat := if field p 2 2 = 0 then 300 else field p 2 2;
        let sh : Nat := if field p 4 2 = 0 then 40 else field p 4 2;
        let sound : Prop := 10 ≤ sh ∧ sh ≤ 200 ∧ 30 ≤ up ∧ up ≤ 400 ∧ 130 ≤ lo ∧ lo ≤ 800 ∧ sh + 20 ≤ up ∧ up + 100 ≤ lo;
        sound ∧ s.mode.mode ≠ 0)
    ∧ (∃ (r : CmdRef) (c : Cmd) (s : State),
      Ready 0x1004 r c s ∧
        let p : Bytes := c.payload;
        let up : Nat := if field p 0 2 = 0 then 120 else field p 0 2;
        let lo : Nat := if field p 2 2 = 0 then 300 else field p 2 2;
        let sh : Nat := if field p 4 2 = 0 then 40 else field p 4 2;
        let sound : Prop := 10 ≤ sh ∧ sh ≤ 200 ∧ 30 ≤ up ∧ up ≤ 400 ∧ 130 ≤ lo ∧ lo ≤ 800 ∧ sh + 20 ≤ up ∧ up + 100 ≤ lo;
        sound ∧ s.mode.mode = 0)
    ∧ (∃ (r : CmdRef) (c : Cmd) (s : State),
      Ready 0x1004 r c s ∧
        let p : Bytes := c.payload;
        let up : Nat := if field p 0 2 = 0 then 120 else field p 0 2;
        let lo : Nat := if field p 2 2 = 0 then 300 else field p 2 2;
        let sh : Nat := if field p 4 2 = 0 then 40 else field p 4 2;
        let sound : Prop := 10 ≤ sh ∧ sh ≤ 200 ∧ 30 ≤ up ∧ up ≤ 400 ∧ 130 ≤ lo ∧ lo ≤ 800 ∧ sh + 20 ≤ up ∧ up + 100 ≤ lo;
        ¬sound)
    ∧ (∃ (r : CmdRef) (c : Cmd) (s : State),
      Ready 0x1005 r c s ∧
        let p : Bytes := c.payload;
        (List.any s.time.trigs fun e => e.snd.kind == 3 && bit (field p 4 4) e.snd.target) = true)
    ∧ (∃ (r : CmdRef) (c : Cmd) (s : State),
      Ready 0x1005 r c s ∧
        let p : Bytes := c.payload;
        (List.any s.time.trigs fun e => e.snd.kind == 3 && bit (field p 4 4) e.snd.target) = false)
    ∧ (∃ (r : CmdRef) (c : Cmd) (s : State),
      Ready 0x1006 r c s ∧
        let p : Bytes := c.payload;
        let sound : Prop := field p 0 1 ≤ 2 ∧ field p 1 1 ≤ 1 ∧ field p 3 1 ≤ 1 ∧ field p 4 1 ≤ 3;
        ¬sound)
    ∧ (∃ (r : CmdRef) (c : Cmd) (s : State),
      Ready 0x1006 r c s ∧
        let p : Bytes := c.payload;
        let sound : Prop := field p 0 1 ≤ 2 ∧ field p 1 1 ≤ 1 ∧ field p 3 1 ≤ 1 ∧ field p 4 1 ≤ 3;
        sound)
    ∧ (∃ (r : CmdRef) (c : Cmd) (s : State), Ready 0x1007 r c s)
    ∧ (∃ (r : CmdRef) (c : Cmd) (s : State), Ready 0x1008 r c s)
    ∧ (∃ (mV : Int), mV < -62000 ∨ 72000 < mV)
    ∧ (∃ (f : Nat) (mV : Int), -62000 ≤ mV ∧ mV ≤ 72000 ∧ f < 2)
    ∧ (∃ (mV : Int) (q : Feed), mV < ↑q.lossMv)
    ∧ (∃ (mV : Int), 61500 < mV)
    ∧ (∃ (mV : Int) (q : Feed), q.live = true ∧ q.ov = false ∧ ↑q.lossMv ≤ mV ∧ mV ≤ 61500)
    ∧ (∃ (t f a : Nat) (s : State), f < 2 ∧ (feedOf s f).aboveAt = some a ∧ ((feedOf s f).live = true ∨ max s.now t < a + 10000000))
    ∧ (∃ (t f a : Nat) (s : State), f < 2 ∧ (feedOf s f).aboveAt = some a ∧ (feedOf s f).live = false ∧ a + 10000000 ≤ max s.now t)
    ∧ (∃ (s : State), PinDriven s)
    ∧ (∃ (s : State), s.power.gasp = none ∧ s.power.feedA.live = true ∧ s.power.feedB.live = false)
    ∧ (∃ (s : State), s.power.gasp = none ∧ s.power.feedA.live = false ∧ s.power.feedB.live = true)
    ∧ (∃ (t t0 : Nat) (s : State), s.power.gasp = some t0 ∧ PinDriven s ∧ max s.now t < t0 + 4000000)
    ∧ (∃ (t t0 : Nat) (s : State), s.power.gasp = some t0 ∧ PinDriven s ∧ t0 + 4000000 ≤ max s.now t)
    ∧ (∃ (below vbat : Bool) (s : State), below = true ∧ vbat = false ∧ s.power.feedA.live = false ∧ s.power.feedB.live = false)
    ∧ (∃ (below vbat : Bool) (s : State), below = false ∨ vbat = true ∨ s.power.feedA.live = true ∨ s.power.feedB.live = true)
    ∧ (∃ (n : Nat) (s : State), railOn s n = true)
    ∧ (∃ (n : Nat) (s : State), railOn s n = false)
    ∧ (∃ (s : State), s.power.st ≠ 7)
    ∧ (∃ (x : Int), 1250 < x)
    ∧ (∃ (x : Int) (s : State), x ≤ 1250 ∧ s.boot.resetWaits = false)
    ∧ (∃ (x : Int), 1000 ≤ x)
    ∧ (∃ (x : Int), x < 950)
    ∧ (∃ (x : Int), 950 ≤ x ∧ x < 1000) :=
  ⟨⟨CmdRef.mbx 1 7, cmd0 wJ27, wJ27, by decide +kernel⟩,
   ⟨CmdRef.mbx 1 7, cmd0 wJ28, wJ28, by decide +kernel⟩,
   ⟨CmdRef.mbx 1 7, cmd0 wJ29, wJ29, by decide +kernel⟩,
   ⟨CmdRef.mbx 1 7, cmd0 wJ30, wJ30, by decide +kernel⟩,
   ⟨CmdRef.mbx 1 7, cmd0 wJ31, wJ31, by decide +kernel⟩,
   ⟨CmdRef.mbx 1 7, cmd0 wJ32, wJ32, by decide +kernel⟩,
   ⟨CmdRef.mbx 1 7, cmd0 wJ33, wJ33, by decide +kernel⟩,
   ⟨CmdRef.mbx 1 7, cmd0 wJ34, wJ34, by decide +kernel⟩,
   ⟨CmdRef.mbx 1 7, cmd0 wJ35, wJ35, by decide +kernel⟩,
   ⟨CmdRef.mbx 1 7, cmd0 wJ36, wJ36, by decide +kernel⟩,
   ⟨CmdRef.mbx 1 7, cmd0 wJ37, wJ37, by decide +kernel⟩,
   ⟨-62001, by decide +kernel⟩,
   ⟨0, -62000, by decide +kernel⟩,
   ⟨-62001, vJ6, by decide +kernel⟩,
   ⟨72000, by decide +kernel⟩,
   ⟨61500, vJ6, by decide +kernel⟩,
   ⟨0, 0, 0, wJ38, by decide +kernel⟩,
   ⟨10000100, 1, 100, wJ39, by decide +kernel⟩,
   ⟨up, by decide +kernel⟩,
   ⟨up, by decide +kernel⟩,
   ⟨wJ40, by decide +kernel⟩,
   ⟨0, 5, wJ41, by decide +kernel⟩,
   ⟨4000005, 5, wJ41, by decide +kernel⟩,
   ⟨true, false, wJ42, by decide +kernel⟩,
   ⟨false, false, up, by decide +kernel⟩,
   ⟨0, up, by decide +kernel⟩,
   ⟨0, wJ43, by decide +kernel⟩,
   ⟨up, by decide +kernel⟩,
   ⟨1251, by decide +kernel⟩,
   ⟨1250, up, by decide +kernel⟩,
   ⟨1251, by decide +kernel⟩,
   ⟨949, by decide +kernel⟩,
   ⟨999, by decide +kernel⟩⟩

open WJ in
theorem witness_PowerStates :
    (∃ (c : Nat) (s : State), sourceOn s c = false ∨ s.power.gasp.isSome = true)
    ∧ (∃ (c : Nat) (s : State),
      sourceOn s c = true ∧
        s.power.gasp = none ∧
          s.power.entry = none ∧ sourceWorks c s.power.st = true ∧ s.power.wake = none ∧ s.power.failing = false)
    ∧ (∃ (c : Nat) (e : PowerEntry) (s : State),
      sourceOn s c = true ∧
        s.power.gasp = none ∧ s.power.entry = some e ∧ sourceWorks c e.dest = true ∧ s.power.latched = none)
    ∧ (∃ (n : Nat) (k : Cmp) (s : State), n < 3 ∧ s.power.cmps[n]? = some k ∧ k.enable = true)
    ∧ (∃ (t a : Nat) (s : State), s.time.alarm = some a ∧ a ≤ rtcNs (advance t s))
    ∧ (∃ (t a : Nat) (s : State), s.time.alarm = some a ∧ rtcNs (advance t s) < a)
    ∧ (∃ (pin : Nat) (up : Bool) (s : State), pin < 32 ∧ BitVec.getLsbD s.power.gpioMask pin = true ∧ BitVec.getLsbD s.power.gpioEdge pin = up)
    ∧ (∃ (pin : Nat) (s : State), BitVec.getLsbD s.power.gpioMask pin = false)
    ∧ (∃ (p : Nat) (s : State), p < 64 ∧ BitVec.getLsbD s.power.linkPorts p = true ∧ (portOf s p).role = 1)
    ∧ (∃ (p : Nat) (s : State), BitVec.getLsbD s.power.linkPorts p = false)
    ∧ (∃ (r : CmdRef) (c : Cmd) (s : State),
      Ready 0x1001 r c s ∧
        let dst : Nat := field c.payload 0 1;
        dst = 0 ∨ 4 < dst ∨ 1000 < field c.payload 2 2)
    ∧ (∃ (r : CmdRef) (c : Cmd) (s : State),
      Ready 0x1001 r c s ∧
        let dst : Nat := field c.payload 0 1;
        1 ≤ dst ∧ dst ≤ 4 ∧ field c.payload 2 2 ≤ 1000 ∧ (s.power.entry.isSome = true ∨ s.power.wake.isSome = true))
    ∧ (∃ (r : CmdRef) (c : Cmd) (s : State),
      Ready 0x1001 r c s ∧
        let dst : Nat := field c.payload 0 1;
        ∃ (sub : Nat),
          3 ≤ dst ∧
            dst ≤ 4 ∧
              field c.payload 2 2 ≤ 1000 ∧
                s.power.entry = none ∧
                  s.power.wake = none ∧ s.twin.enabled = false ∧ entryRefuser dst (some c.ref) s = some sub)
    ∧ (∃ (r : CmdRef) (c : Cmd) (s : State),
      Ready 0x1001 r c s ∧
        let dst : Nat := field c.payload 0 1;
        3 ≤ dst ∧
          dst ≤ 4 ∧
            field c.payload 2 2 ≤ 1000 ∧
              s.power.entry = none ∧
                s.power.wake = none ∧ s.twin.enabled = false ∧ entryRefuser dst (some c.ref) s = none ∧ s.mode.mode ≠ 0)
    ∧ (∃ (r : CmdRef) (c : Cmd) (s : State), Ready 0x1002 r c s ∧ s.power.entry.isSome = true)
    ∧ (∃ (r : CmdRef) (c : Cmd) (s : State),
      Ready 0x1002 r c s ∧
        s.power.entry = none ∧ s.mode.calm = false ∧ s.power.st = 2 ∧ s.power.wake = none ∧ s.power.failing = false)
    ∧ (∃ (r : CmdRef) (c : Cmd) (s : State), Ready 0x1002 r c s ∧ s.power.entry = none ∧ s.mode.calm = false ∧ s.power.st = 0)
    ∧ (∃ (s : State), s.power.entry = none ∨ ∃ e, s.power.entry = some e ∧ e.passed = false)
    ∧ (∃ (e : PowerEntry) (s : State), s.power.entry = some e ∧ e.passed = true ∧ s.power.latched = none ∧ s.power.sources = 0)
    ∧ (∃ (k j : Nat) (s : State),
      s.hif.readyEver = true ∧
        s.power.wake = some k ∧ List.find? (fun j => decide (k < j)) (wakeSteps s.power.st) = some j)
    ∧ (∃ (s : State), s.hif.readyEver = true ∧ s.power.wake = some 8)
    ∧ (∃ (s : State), s.power.wake = none)
    ∧ (∃ (t k : Nat) (s : State), s.hif.readyEver = true ∧ s.power.wake = some k ∧ max s.now t < s.power.wakeAt + wakeLimit k)
    ∧ (∃ (t k : Nat) (s : State),
      s.hif.readyEver = true ∧
        s.power.wake = some k ∧ s.power.wakeAt + wakeLimit k ≤ max s.now t ∧ k ≠ 8 ∧ s.power.wakeRetried = false)
    ∧ (∃ (t k : Nat) (s : State),
      s.hif.readyEver = true ∧
        s.power.wake = some k ∧ s.power.wakeAt + wakeLimit k ≤ max s.now t ∧ (k = 8 ∨ s.power.wakeRetried = true))
    ∧ (∃ (s : State), 8 ≤ s.power.attempts)
    ∧ (∃ (s : State), s.power.attempts < 8)
    ∧ (∃ (t : Nat) (s : State),
      s.power.failing = true ∧ s.power.wake = none ∧ s.power.wakeAt + 1000000000 ≤ max s.now t ∧ s.hif.readyEver = true)
    ∧ (∃ (t : Nat) (s : State), s.power.failing = false ∨ max s.now t < s.power.wakeAt + 1000000000) :=
  ⟨⟨0, wJ44, by decide +kernel⟩,
   ⟨1, wJ45, by decide +kernel⟩,
   ⟨1, { ref := none, dest := 2, dark := false, passed := false }, wJ46, by decide +kernel⟩,
   ⟨0, vJ7, wJ44, by decide +kernel⟩,
   ⟨1000, 1000, wJ44, by decide +kernel⟩,
   ⟨0, 1000, wJ44, by decide +kernel⟩,
   ⟨0, true, wJ44, by decide +kernel⟩,
   ⟨2, wJ44, by decide +kernel⟩,
   ⟨0, wJ44, by decide +kernel⟩,
   ⟨1, wJ44, by decide +kernel⟩,
   ⟨CmdRef.mbx 1 7, cmd0 wJ47, wJ47, by decide +kernel⟩,
   ⟨CmdRef.mbx 1 7, cmd0 wJ48, wJ48, by decide +kernel⟩,
   ⟨CmdRef.mbx 1 7, cmd0 wJ49, wJ49, by decide +kernel, 16, by decide +kernel⟩,
   ⟨CmdRef.mbx 1 7, cmd0 wJ50, wJ50, by decide +kernel⟩,
   ⟨CmdRef.mbx 1 7, cmd0 wJ51, wJ51, by decide +kernel⟩,
   ⟨CmdRef.mbx 1 7, cmd0 wJ52, wJ52, by decide +kernel⟩,
   ⟨CmdRef.mbx 1 7, cmd0 wJ53, wJ53, by decide +kernel⟩,
   ⟨wJ47, by decide +kernel⟩,
   ⟨{ ref := none, dest := 3, dark := false, passed := true }, wJ54, by decide +kernel⟩,
   ⟨1, 2, wJ55, by decide +kernel⟩,
   ⟨wJ56, by decide +kernel⟩,
   ⟨wJ26, by decide +kernel⟩,
   ⟨0, 1, wJ55, by decide +kernel⟩,
   ⟨2000100, 1, wJ55, by decide +kernel⟩,
   ⟨1000100, 8, wJ56, by decide +kernel⟩,
   ⟨wJ57, by decide +kernel⟩,
   ⟨wJ26, by decide +kernel⟩,
   ⟨1000000100, wJ58, by decide +kernel⟩,
   ⟨0, wJ26, by decide +kernel⟩⟩

open WJ in
theorem witness_ResetsAndBoot :
    (∃ (n : Nat), n < 1000)
    ∧ (∃ (n : Nat) (s : State), 10000 ≤ n ∧ s.power.st ≤ 5 ∧ s.power.gasp = none)
    ∧ (∃ (n : Nat) (s : State), 10000 ≤ n ∧ s.power.gasp.isSome = true ∧ s.power.st ≠ 7)
    ∧ (∃ (s : State), PinDriven s ∧ s.boot.low = true)
    ∧ (∃ (s : State), PinDriven s ∧ s.boot.low = false)
    ∧ (∃ (a : Bool) (s : State), PinDriven s ∧ a = true)
    ∧ (∃ (a : Bool) (s : State), PinDriven s ∧ a = false)
    ∧ (∃ (speed width : Nat), trains speed width = true)
    ∧ (∃ (s : State), awake s = true)
    ∧ (∃ (r : BootReport) (s : State),
      s.boot.low = false ∧
        s.boot.halted = false ∧
          s.power.gasp = none ∧
            s.power.st < 3 ∧
              s.boot.stage = 0 ∧
                s.power.failing = false ∧
                  (s.power.feedA.live = true ∨ s.power.feedB.live = true) ∧
                    r.missed = none ∧ r.stack0 = true ∧ r.stack1 = true)
    ∧ (∃ (r : BootReport) (s : State),
      s.boot.low = false ∧
        s.boot.halted = false ∧
          s.power.gasp = none ∧
            s.power.st < 3 ∧ s.boot.stage = 1 ∧ r.coresOk ≠ 0 ∧ r.trimNone = [] ∧ r.trimOne = [] ∧ s.upd.act = none)
    ∧ (∃ (s : State), s.boot.low = false ∧ s.boot.halted = false ∧ s.power.gasp = none ∧ s.power.st < 3 ∧ s.boot.stage = 2)
    ∧ (∃ (s : State), s.boot.low = false ∧ s.boot.halted = false ∧ s.power.gasp = none ∧ s.power.st < 3 ∧ s.boot.stage = 3)
    ∧ (∃ (s : State), s.boot.low = true ∨ s.boot.halted = true ∨ s.power.gasp.isSome = true ∨ 3 ≤ s.power.st) :=
  ⟨⟨0, by decide +kernel⟩,
   ⟨10000, up, by decide +kernel⟩,
   ⟨10000, wJ41, by decide +kernel⟩,
   ⟨wJ59, by decide +kernel⟩,
   ⟨up, by decide +kernel⟩,
   ⟨true, up, by decide +kernel⟩,
   ⟨false, up, by decide +kernel⟩,
   ⟨25, 1, by decide +kernel⟩,
   ⟨up, by decide +kernel⟩,
   ⟨vJ8, wJ60, by decide +kernel⟩,
   ⟨vJ8, wJ61, by decide +kernel⟩,
   ⟨wJ62, by decide +kernel⟩,
   ⟨wJ63, by decide +kernel⟩,
   ⟨wJ64, by decide +kernel⟩⟩

open WK in
theorem witness_TwinCommands :
    (∃ (r : CmdRef) (c : Cmd) (s : State),
      Ready 0x1201 r c s ∧
        let en : Nat := field c.payload 0 1;
        let side : Nat := field c.payload 1 1;
        let hb : Nat := if field c.payload 2 2 = 0 then 1000 else field c.payload 2 2;
        let sound : Prop := en ≤ 1 ∧ side ≤ 1 ∧ 100 ≤ hb ∧ hb ≤ 10000;
        ¬sound)
    ∧ (∃ (r : CmdRef) (c : Cmd) (s : State),
      Ready 0x1201 r c s ∧
        let en : Nat := field c.payload 0 1;
        let side : Nat := field c.payload 1 1;
        let hb : Nat := if field c.payload 2 2 = 0 then 1000 else field c.payload 2 2;
        let sound : Prop := en ≤ 1 ∧ side ≤ 1 ∧ 100 ≤ hb ∧ hb ≤ 10000;
        sound ∧ (s.twin.enabled = true ∧ side ≠ s.twin.side ∨ s.twin.drill.isSome = true))
    ∧ (∃ (r : CmdRef) (c : Cmd) (s : State),
      Ready 0x1201 r c s ∧
        let en : Nat := field c.payload 0 1;
        let side : Nat := field c.payload 1 1;
        let hb : Nat := if field c.payload 2 2 = 0 then 1000 else field c.payload 2 2;
        let sound : Prop := en ≤ 1 ∧ side ≤ 1 ∧ 100 ≤ hb ∧ hb ≤ 10000;
        sound ∧ s.twin.drill = none ∧ (s.twin.enabled = true → side = s.twin.side) ∧ en = b2n s.twin.enabled)
    ∧ (∃ (r : CmdRef) (c : Cmd) (s : State),
      Ready 0x1201 r c s ∧
        let en : Nat := field c.payload 0 1;
        let side : Nat := field c.payload 1 1;
        let hb : Nat := if field c.payload 2 2 = 0 then 1000 else field c.payload 2 2;
        let sound : Prop := en ≤ 1 ∧ side ≤ 1 ∧ 100 ≤ hb ∧ hb ≤ 10000;
        sound ∧ s.twin.drill = none ∧ s.twin.enabled = false ∧ en = 1 ∧ s.mode.calm = false)
    ∧ (∃ (r : CmdRef) (c : Cmd) (s : State),
      Ready 0x1201 r c s ∧
        let en : Nat := field c.payload 0 1;
        let side : Nat := field c.payload 1 1;
        let hb : Nat := if field c.payload 2 2 = 0 then 1000 else field c.payload 2 2;
        let sound : Prop := en ≤ 1 ∧ side ≤ 1 ∧ 100 ≤ hb ∧ hb ≤ 10000;
        sound ∧ s.twin.drill = none ∧ s.twin.enabled = true ∧ side = s.twin.side ∧ s.twin.role = 1 ∧ en = 0)
    ∧ (∃ (r : CmdRef) (c : Cmd) (s : State), Ready 0x1202 r c s)
    ∧ (∃ (r : CmdRef) (c : Cmd) (s : State), Ready 0x1204 r c s)
    ∧ (∃ (r : CmdRef) (c : Cmd) (s : State),
      Ready 0x1203 r c s ∧
        let p : Bytes := c.payload;
        let policy : Nat := if field p 0 1 = 255 then 0 else field p 0 1;
        1 < policy ∨ 1 < field p 1 1)
    ∧ (∃ (r : CmdRef) (c : Cmd) (s : State),
      Ready 0x1203 r c s ∧
        let p : Bytes := c.payload;
        let policy : Nat := if field p 0 1 = 255 then 0 else field p 0 1;
        policy ≤ 1 ∧
          field p 1 1 ≤ 1 ∧
            (s.twin.enabled = false ∨
              s.twin.role ≠ 1 ∨ s.mode.mode = 0 ∨ s.mode.calm = true ∨ s.twin.drill.isSome = true ∨ s.twin.linkUp = false))
    ∧ (∃ (r : CmdRef) (c : Cmd) (s : State),
      Ready 0x1203 r c s ∧
        let p : Bytes := c.payload;
        let policy : Nat := if field p 0 1 = 255 then 0 else field p 0 1;
        ∃ (h : Hello),
          policy ≤ 1 ∧
            field p 1 1 = 0 ∧
              s.twin.enabled = true ∧
                s.twin.role = 1 ∧
                  s.mode.mode ≠ 0 ∧
                    s.mode.calm = false ∧
                      s.twin.drill = none ∧
                        s.twin.linkUp = true ∧ s.twin.partner = some h ∧ (h.hbCode = 1 ∨ h.hbCode = 2) ∧ h.calm = false) :=
  ⟨⟨CmdRef.mbx 1 7, cmd0 wK1, wK1, by decide +kernel⟩,
   ⟨CmdRef.mbx 1 7, cmd0 wK2, wK2, by decide +kernel⟩,
   ⟨CmdRef.mbx 1 7, cmd0 wK3, wK3, by decide +kernel⟩,
   ⟨CmdRef.mbx 1 7, cmd0 wK4, wK4, by decide +kernel⟩,
   ⟨CmdRef.mbx 1 7, cmd0 wK5, wK5, by decide +kernel⟩,
   ⟨CmdRef.mbx 1 7, cmd0 wK6, wK6, by decide +kernel⟩,
   ⟨CmdRef.mbx 1 7, cmd0 wK7, wK7, by decide +kernel⟩,
   ⟨CmdRef.mbx 1 7, cmd0 wK8, wK8, by decide +kernel⟩,
   ⟨CmdRef.mbx 1 7, cmd0 wK9, wK9, by decide +kernel⟩,
   ⟨CmdRef.mbx 1 7, cmd0 wK10, wK10, by decide +kernel, vK1, by decide +kernel⟩⟩

open WK in
theorem witness_TwinOperation :
    (∃ (s : State), awake s = true ∧ PinDriven s ∧ s.twin.enabled = false)
    ∧ (∃ (s : State), awake s = true ∧ PinDriven s ∧ s.twin.enabled = true)
    ∧ (∃ (s : State), awake s = true ∧ (portOf s 64).retired = false ∧ s.twin.enabled = true)
    ∧ (∃ (s : State), awake s = true ∧ s.twin.enabled = false)
    ∧ (∃ (t : Nat) (s : State),
      awake s = true ∧
        (s.twin.enabled = false ∨
          s.twin.linkLost = true ∨ max s.now t < max s.twin.linkFrom (s.twin.lastHello.getD 0) + 10000000))
    ∧ (∃ (t : Nat) (s : State),
      awake s = true ∧
        s.twin.enabled = true ∧
          s.twin.linkLost = false ∧ max s.twin.linkFrom (s.twin.lastHello.getD 0) + 10000000 ≤ max s.now t)
    ∧ (∃ (t : Nat) (s : State),
      awake s = true ∧
        PinDriven s ∧
          let k : Nat := hbCode (faultN s) (advance t s);
          k = 0)
    ∧ (∃ (t : Nat) (s : State),
      awake s = true ∧
        PinDriven s ∧
          let k : Nat := hbCode (faultN s) (advance t s);
          k ≠ 0)
    ∧ (∃ (s : State), s.twin.enabled = false ∨ s.fab.svcLevel ≠ 2 ∨ faultN s = true)
    ∧ (∃ (s : State),
      s.twin.enabled = true ∧
        s.fab.svcLevel = 2 ∧
          faultN s = false ∧ awake s = true ∧ (kgetD s.flt.srcs 5128 { }).inFault = false ∧ s.twin.role = 1)
    ∧ (∃ (s : State), awake s = true ∧ s.hif.ready = true ∧ s.twin.enabled = true ∧ s.twin.roleIn = false ∧ s.twin.role = 0)
    ∧ (∃ (s : State), awake s = true ∧ s.hif.ready = true ∧ s.twin.enabled = true ∧ s.twin.roleIn = true ∧ s.twin.role = 1)
    ∧ (∃ (high : Bool) (s : State), awake s = false ∨ s.twin.roleIn = high ∨ s.twin.enabled = false)
    ∧ (∃ (s : State), awake s = true ∧ (portOf s 64).retired = false ∧ isDistaff s = false)
    ∧ (∃ (d : DigestSeg) (s : State),
      awake s = true ∧
        (portOf s 64).retired = false ∧
          isDistaff s = true ∧
            s.twin.rxEpoch = d.epoch ∧ s.twin.nsegs.contains d.seg = false ∧ s.twin.nsegs.length + 1 ≠ d.nseg)
    ∧ (∃ (d : DigestSeg) (s : State),
      awake s = true ∧
        (portOf s 64).retired = false ∧
          isDistaff s = true ∧ s.twin.rxEpoch ≠ d.epoch ∧ d.nseg = 1 ∧ List.length d.data < 144736)
    ∧ (∃ (epoch : U32) (s : State),
      awake s = true ∧
        PinDriven s ∧ (portOf s 64).retired = false ∧ List.find? (fun q => q.fst == epoch) s.twin.sent = none)
    ∧ (∃ (epoch : U32) (s : State),
      awake s = true ∧
        PinDriven s ∧
          (portOf s 64).retired = false ∧
            ∃ (dend : Nat) (rend : U32), List.find? (fun q => q.fst == epoch) s.twin.sent = some (epoch, dend, rend)) :=
  ⟨⟨up, by decide +kernel⟩,
   ⟨wK11, by decide +kernel⟩,
   ⟨wK11, by decide +kernel⟩,
   ⟨up, by decide +kernel⟩,
   ⟨0, up, by decide +kernel⟩,
   ⟨10000000, wK11, by decide +kernel⟩,
   ⟨0, up, by decide +kernel⟩,
   ⟨0, wK11, by decide +kernel⟩,
   ⟨up, by decide +kernel⟩,
   ⟨wK11, by decide +kernel⟩,
   ⟨wK12, by decide +kernel⟩,
   ⟨wK11, by decide +kernel⟩,
   ⟨false, up, by decide +kernel⟩,
   ⟨up, by decide +kernel⟩,
   ⟨vK2, wK13, by decide +kernel⟩,
   ⟨vK3, wK12, by decide +kernel⟩,
   ⟨0x00000004#32, up, by decide +kernel⟩,
   ⟨0x00000004#32, wK14, by decide +kernel, by decide +kernel, by decide +kernel, 7, 0x00000008#32, by decide +kernel⟩⟩

open WK in
theorem witness_FixtureCommands :
    (∃ (r : CmdRef) (c : Cmd) (s : State),
      Ready 0x0E01 r c s ∧
        let p : Bytes := c.payload;
        let o : Nat := field p 0 2;
        4103 < o)
    ∧ (∃ (r : CmdRef) (c : Cmd) (s : State),
      Ready 0x0E01 r c s ∧
        let p : Bytes := c.payload;
        let o : Nat := field p 0 2;
        o ≤ 4103 ∧ bit (field p 3 1) 1 = true ∧ outOf s o = none)
    ∧ (∃ (r : CmdRef) (c : Cmd) (s : State),
      Ready 0x0E01 r c s ∧
        let p : Bytes := c.payload;
        let o : Nat := field p 0 2;
        o ≤ 4103 ∧ bit (field p 3 1) 1 = false ∧ outDefBad s p = true)
    ∧ (∃ (r : CmdRef) (c : Cmd) (s : State),
      Ready 0x0E01 r c s ∧
        let p : Bytes := c.payload;
        let o : Nat := field p 0 2;
        o ≤ 4095 ∧ bit (field p 3 1) 1 = false ∧ outDefBad s p = false ∧ (portOf s (field p 2 1)).role ≠ 1)
    ∧ (∃ (r : CmdRef) (c : Cmd) (s : State),
      Ready 0x0E01 r c s ∧
        let p : Bytes := c.payload;
        let o : Nat := field p 0 2;
        o ≤ 4103 ∧
          bit (field p 3 1) 1 = false ∧
            outDefBad s p = false ∧
              (4096 ≤ o ∨ (portOf s (field p 2 1)).role = 1) ∧ outOf s o = none ∧ kwf s.fix.outs = true)
    ∧ (∃ (r : CmdRef) (c : Cmd) (s : State),
      Ready 0x0E01 r c s ∧
        let p : Bytes := c.payload;
        let o : Nat := field p 0 2;
        ∃ (q : Output), o ≤ 4103 ∧ bit (field p 3 1) 1 = true ∧ outOf s o = some q ∧ q.redef.isSome = true)
    ∧ (∃ (r : CmdRef) (c : Cmd) (s : State),
      Ready 0x0E01 r c s ∧
        let p : Bytes := c.payload;
        let o : Nat := field p 0 2;
        ∃ (q : Output),
          4096 ≤ o ∧
            o ≤ 4103 ∧
              bit (field p 3 1) 1 = true ∧
                outOf s o = some q ∧ q.redef = none ∧ kwf s.fix.outs = true ∧ (dmxOf s (o - 4096)).queue ≠ [])
    ∧ (∃ (r : CmdRef) (c : Cmd) (s : State),
      Ready 0x0E06 r c s ∧
        let p : Bytes := c.payload;
        let port : Nat := field p 0 1;
        let cc : Nat := field p 1 1;
        let pdl : Nat := field p 12 1;
        let sound : Prop := port ≤ 7 ∧ (cc = 32 ∨ cc = 48) ∧ pdl ≤ 231;
        ¬sound)
    ∧ (∃ (r : CmdRef) (c : Cmd) (s : State),
      Ready 0x0E06 r c s ∧
        let p : Bytes := c.payload;
        let port : Nat := field p 0 1;
        let cc : Nat := field p 1 1;
        let pdl : Nat := field p 12 1;
        let sound : Prop := port ≤ 7 ∧ (cc = 32 ∨ cc = 48) ∧ pdl ≤ 231;
        sound ∧ rdmOn s port = false)
    ∧ (∃ (r : CmdRef) (c : Cmd) (s : State),
      Ready 0x0E06 r c s ∧
        let p : Bytes := c.payload;
        let port : Nat := field p 0 1;
        let cc : Nat := field p 1 1;
        let pdl : Nat := field p 12 1;
        let sound : Prop := port ≤ 7 ∧ (cc = 32 ∨ cc = 48) ∧ pdl ≤ 231;
        let busy : Nat :=
          (dmxOf s port).queue.length +
            match (dmxOf s port).cur with
            | some (RdmJob.host ref uid cc pid sub data) => 1
            | x => 0;
        sound ∧ rdmOn s port = true ∧ 16 ≤ busy)
    ∧ (∃ (r : CmdRef) (c : Cmd) (s : State),
      Ready 0x0E06 r c s ∧
        let p : Bytes := c.payload;
        let port : Nat := field p 0 1;
        let cc : Nat := field p 1 1;
        let pdl : Nat := field p 12 1;
        let sound : Prop := port ≤ 7 ∧ (cc = 32 ∨ cc = 48) ∧ pdl ≤ 231;
        let busy : Nat :=
          (dmxOf s port).queue.length +
            match (dmxOf s port).cur with
            | some (RdmJob.host ref uid cc pid sub data) => 1
            | x => 0;
        sound ∧ rdmOn s port = true ∧ busy < 16)
    ∧ (∃ (r : CmdRef) (c : Cmd) (s : State),
      Ready 0x0E07 r c s ∧
        let port : Nat := field c.payload 0 1;
        7 < port ∨ 1 < field c.payload 1 1)
    ∧ (∃ (r : CmdRef) (c : Cmd) (s : State),
      Ready 0x0E07 r c s ∧
        let port : Nat := field c.payload 0 1;
        port ≤ 7 ∧ field c.payload 1 1 ≤ 1 ∧ (rdmOn s port = false ∨ (dmxOf s port).disc.isSome = true))
    ∧ (∃ (r : CmdRef) (c : Cmd) (s : State),
      Ready 0x0E07 r c s ∧
        let port : Nat := field c.payload 0 1;
        port ≤ 7 ∧ field c.payload 1 1 = 1 ∧ rdmOn s port = true ∧ (dmxOf s port).disc = none)
    ∧ (∃ (r : CmdRef) (c : Cmd) (s : State), Ready 0x0E08 r c s ∧ 7 < field c.payload 0 1)
    ∧ (∃ (r : CmdRef) (c : Cmd) (s : State), Ready 0x0E08 r c s ∧ field c.payload 0 1 ≤ 7)
    ∧ (∃ (r : CmdRef) (c : Cmd) (s : State),
      Ready 0x0E09 r c s ∧
        let o : Nat := field c.payload 0 2;
        4103 < o)
    ∧ (∃ (r : CmdRef) (c : Cmd) (s : State),
      Ready 0x0E09 r c s ∧
        let o : Nat := field c.payload 0 2;
        ∃ (q : Output), o ≤ 4103 ∧ outOf s o = some q)
    ∧ (∃ (r : CmdRef) (c : Cmd) (s : State),
      Ready 0x0E09 r c s ∧
        let o : Nat := field c.payload 0 2;
        o ≤ 4103 ∧ outOf s o = none)
    ∧ (∃ (r : CmdRef) (c : Cmd) (s : State),
      Ready 0x0E02 r c s ∧
        let n : Nat := field c.payload 0 2;
        n = 0 ∨ 127 < n)
    ∧ (∃ (r : CmdRef) (c : Cmd) (s : State),
      Ready 0x0E02 r c s ∧
        let n : Nat := field c.payload 0 2;
        ∃ (st k : Nat), 1 ≤ n ∧ n ≤ 127 ∧ fixRecords s c.payload n = Except.error (st, k))
    ∧ (∃ (r : CmdRef) (c : Cmd) (s : State),
      Ready 0x0E02 r c s ∧
        let n : Nat := field c.payload 0 2;
        ∃ (l : List (Nat × Option FixDef)), 1 ≤ n ∧ n ≤ 127 ∧ s.mode.mode ≠ 0 ∧ fixRecords s c.payload n = Except.ok l)
    ∧ (∃ (r : CmdRef) (c : Cmd) (s : State),
      Ready 0x0E03 r c s ∧
        let p : Bytes := c.payload;
        let n : Nat := field p 0 2;
        n = 0 ∨ 511 < n)
    ∧ (∃ (r : CmdRef) (c : Cmd) (s : State),
      Ready 0x0E03 r c s ∧
        let p : Bytes := c.payload;
        let n : Nat := field p 0 2;
        let l : List (Nat × Nat × Nat) :=
          List.map (fun i => (field p (8 + 8 * i) 4, field p (12 + 8 * i) 1, field p (14 + 8 * i) 2)) (List.range n);
        1 ≤ n ∧
          n ≤ 511 ∧
            (∀ (e : Nat × Nat × Nat), e ∈ l → fixEntry s e.fst e.snd.fst e.snd.snd = 0) ∧
              s.mode.mode ≠ 0 ∧ s.fix.setq.length + n ≤ 512)
    ∧ (∃ (r : CmdRef) (c : Cmd) (s : State),
      Ready 0x0E03 r c s ∧
        let p : Bytes := c.payload;
        let n : Nat := field p 0 2;
        let l : List (Nat × Nat × Nat) :=
          List.map (fun i => (field p (8 + 8 * i) 4, field p (12 + 8 * i) 1, field p (14 + 8 * i) 2)) (List.range n);
        1 ≤ n ∧
          n ≤ 511 ∧
            (∀ (e : Nat × Nat × Nat), e ∈ l → fixEntry s e.fst e.snd.fst e.snd.snd = 0) ∧
              s.mode.mode ≠ 0 ∧ 512 < s.fix.setq.length + n)
    ∧ (∃ (r : CmdRef) (c : Cmd) (s : State),
      Ready 0x0E03 r c s ∧
        let p : Bytes := c.payload;
        let n : Nat := field p 0 2;
        let l : List (Nat × Nat × Nat) :=
          List.map (fun i => (field p (8 + 8 * i) 4, field p (12 + 8 * i) 1, field p (14 + 8 * i) 2)) (List.range n);
        ∃ (st : Nat),
          1 ≤ n ∧
            n ≤ 511 ∧ List.find? (fun x => x != 0) (List.map (fun e => fixEntry s e.fst e.snd.fst e.snd.snd) l) = some st)
    ∧ (∃ (r : CmdRef) (c : Cmd) (s : State), Ready 0x0E04 r c s ∧ (field c.payload 0 2 = 0 ∨ 56 < field c.payload 0 2))
    ∧ (∃ (r : CmdRef) (c : Cmd) (s : State),
      Ready 0x0E04 r c s ∧
        let id : Nat := field c.payload 8 4;
        field c.payload 0 2 = 1 ∧ id ≤ 131071 ∧ field c.payload 12 1 ≤ 2 ∧ khas s.fix.fixtures id = false)
    ∧ (∃ (r : CmdRef) (c : Cmd) (s : State),
      Ready 0x0E04 r c s ∧
        let id : Nat := field c.payload 8 4;
        ∃ (f : Fixture),
          field c.payload 0 2 = 1 ∧
            id ≤ 131071 ∧ field c.payload 12 1 ≤ 1 ∧ kwf s.fix.fixtures = true ∧ kget? s.fix.fixtures id = some f)
    ∧ (∃ (r : CmdRef) (c : Cmd) (s : State), Ready 0x0E05 r c s) :=
  ⟨⟨CmdRef.mbx 1 7, cmd0 wK15, wK15, by decide +kernel⟩,
   ⟨CmdRef.mbx 1 7, cmd0 wK16, wK16, by decide +kernel⟩,
   ⟨CmdRef.mbx 1 7, cmd0 wK17, wK17, by decide +kernel⟩,
   ⟨CmdRef.mbx 1 7, cmd0 wK18, wK18, by decide +kernel⟩,
   ⟨CmdRef.mbx 1 7, cmd0 wK19, wK19, by decide +kernel⟩,
   ⟨CmdRef.mbx 1 7, cmd0 wK20, wK20, by decide +kernel, vK4, by decide +kernel⟩,
   ⟨CmdRef.mbx 1 7, cmd0 wK21, wK21, by decide +kernel, vK5, by decide +kernel⟩,
   ⟨CmdRef.mbx 1 7, cmd0 wK22, wK22, by decide +kernel⟩,
   ⟨CmdRef.mbx 1 7, cmd0 wK23, wK23, by decide +kernel⟩,
   ⟨CmdRef.mbx 1 7, cmd0 wK24, wK24, by decide +kernel⟩,
   ⟨CmdRef.mbx 1 7, cmd0 wK25, wK25, by decide +kernel⟩,
   ⟨CmdRef.mbx 1 7, cmd0 wK26, wK26, by decide +kernel⟩,
   ⟨CmdRef.mbx 1 7, cmd0 wK27, wK27, by decide +kernel⟩,
   ⟨CmdRef.mbx 1 7, cmd0 wK28, wK28, by decide +kernel⟩,
   ⟨CmdRef.mbx 1 7, cmd0 wK29, wK29, by decide +kernel⟩,
   ⟨CmdRef.mbx 1 7, cmd0 wK30, wK30, by decide +kernel⟩,
   ⟨CmdRef.mbx 1 7, cmd0 wK31, wK31, by decide +kernel⟩,
   ⟨CmdRef.mbx 1 7, cmd0 wK32, wK32, by decide +kernel, vK6, by decide +kernel⟩,
   ⟨CmdRef.mbx 1 7, cmd0 wK33, wK33, by decide +kernel⟩,
   ⟨CmdRef.mbx 1 7, cmd0 wK34, wK34, by decide +kernel⟩,
   ⟨CmdRef.mbx 1 7, cmd0 wK35, wK35, by decide +kernel, 34, 12, by decide +kernel, by decide +kernel, by rfl⟩,
   ⟨CmdRef.mbx 1 7, cmd0 wK36, wK36, by decide +kernel, vK7, by decide +kernel, by decide +kernel, by decide +kernel, by rfl⟩,
   ⟨CmdRef.mbx 1 7, cmd0 wK37, wK37, by decide +kernel⟩,
   ⟨CmdRef.mbx 1 7, cmd0 wK38, wK38, by decide +kernel⟩,
   ⟨CmdRef.mbx 1 7, cmd0 wK39, wK39, by decide +kernel⟩,
   ⟨CmdRef.mbx 1 7, cmd0 wK40, wK40, by decide +kernel, 34, by decide +kernel⟩,
   ⟨CmdRef.mbx 1 7, cmd0 wK41, wK41, by decide +kernel⟩,
   ⟨CmdRef.mbx 1 7, cmd0 wK42, wK42, by decide +kernel⟩,
   ⟨CmdRef.mbx 1 7, cmd0 wK43, wK43, by decide +kernel, vK8, by decide +kernel⟩,
   ⟨CmdRef.mbx 1 7, cmd0 wK44, wK44, by decide +kernel⟩⟩

open WK in
theorem witness_OutputsAndRdm :
    (∃ (t o a : Nat) (q : Output) (s : State),
      awake s = true ∧
        PinDriven s ∧
          o ≤ 4095 ∧
            outOf s o = some q ∧
              q.st ≠ 0 ∧ q.terms = 0 ∧ s.mode.mode ≠ 0 ∧ q.lastAt = some a ∧ max s.now t < a + 800000000)
    ∧ (∃ (t o a : Nat) (q : Output) (s : State),
      awake s = true ∧
        PinDriven s ∧
          o ≤ 4095 ∧
            outOf s o = some q ∧
              q.st ≠ 0 ∧
                q.terms = 0 ∧
                  s.mode.mode ≠ 0 ∧
                    q.lastAt = some a ∧
                      a + 800000000 ≤ max s.now t ∧
                        outsLive s = true ∧
                          (portOf s q.d.port).enabled = true ∧
                            (portOf s q.d.port).retired = false ∧ (portOf s q.d.port).role = 1 ∧ q.d.port ≤ 63)
    ∧ (∃ (t p : Nat) (q : Output) (s : State),
      awake s = true ∧
        PinDriven s ∧
          p < 8 ∧
            outOf s (4096 + p) = some q ∧
              q.redef = none ∧
                outsLive s = true ∧
                  q.st ≠ 0 ∧
                    q.terms = 0 ∧ q.d.align = false ∧ (dmxOf s p).cur = none ∧ max s.now t < (dmxOf s p).endAt + 20000)
    ∧ (∃ (t p : Nat) (q : Output) (s : State),
      awake s = true ∧
        PinDriven s ∧
          p < 8 ∧
            outOf s (4096 + p) = some q ∧
              q.redef = none ∧
                outsLive s = true ∧
                  q.st ≠ 0 ∧
                    q.terms = 0 ∧ q.d.align = false ∧ (dmxOf s p).cur = none ∧ (dmxOf s p).endAt + 20000 ≤ max s.now t)
    ∧ (∃ (t o : Nat) (q : Output) (s : State), awake s = true ∧ PinDriven s ∧ outOf s o = some q ∧ (q.terms = 0 ∨ max s.now t < q.termAt))
    ∧ (∃ (t o : Nat) (q : Output) (s : State), awake s = true ∧ PinDriven s ∧ outOf s o = some q ∧ 2 ≤ q.terms ∧ q.termAt ≤ max s.now t)
    ∧ (∃ (t o : Nat) (q : Output) (s : State), awake s = true ∧ PinDriven s ∧ outOf s o = some q ∧ q.terms = 1 ∧ q.termAt ≤ max s.now t ∧ q.redef = none)
    ∧ (∃ (s : State), List.length (cidBytes s) = 16)
    ∧ (∃ (p : Nat) (s : State),
      awake s = true ∧
        PinDriven s ∧ (8 ≤ p ∨ (dmxOf s p).cur.isSome = true ∨ (dmxOf s p).queue = [] ∧ (dmxOf s p).disc = none))
    ∧ (∃ (t p : Nat) (q : Output) (r : CmdRef) (uid : BitVec 48) (cc pid sub : Nat) (data : Bytes) (l : List RdmJob) (s : State),
      awake s = true ∧
        PinDriven s ∧
          p < 8 ∧
            outOf s (4096 + p) = some q ∧
              q.d.rdm = true ∧
                q.d.align = false ∧
                  outsLive s = true ∧
                    (dmxOf s p).queue = RdmJob.host r uid cc pid sub data :: l ∧
                      (dmxOf s p).cur = none ∧
                        (dmxOf s p).rdmDone = false ∧ (dmxOf s p).endAt ≤ max s.now t ∧ rdmBroadcast uid = false)
    ∧ (∃ (p : Nat) (s : State), awake s = true ∧ PinDriven s ∧ (8 ≤ p ∨ (dmxOf s p).cur = none))
    ∧ (∃ (t p : Nat) (data : Bytes) (r : CmdRef) (c : Cmd) (uid : BitVec 48) (cc pid sub : Nat) (d : Bytes) (s : State),
      awake s = true ∧
        PinDriven s ∧
          p < 8 ∧
            (dmxOf s p).cur = some (RdmJob.host r uid cc pid sub d) ∧
              findCmd r s = some c ∧ max s.now t ≤ (dmxOf s p).reqEnd + 2800000 ∧ List.length data ≤ 231)
    ∧ (∃ (t p : Nat) (q : Output) (r : CmdRef) (c : Cmd) (uid : BitVec 48) (cc pid sub : Nat) (d : Bytes) (s : State),
      awake s = true ∧
        PinDriven s ∧
          p < 8 ∧
            outOf s (4096 + p) = some q ∧
              (dmxOf s p).cur = some (RdmJob.host r uid cc pid sub d) ∧
                findCmd r s = some c ∧ max s.now t < (dmxOf s p).reqEnd + 2800000)
    ∧ (∃ (t p : Nat) (q : Output) (r : CmdRef) (c : Cmd) (uid : BitVec 48) (cc pid sub : Nat) (d : Bytes) (s : State),
      awake s = true ∧
        PinDriven s ∧
          p < 8 ∧
            outOf s (4096 + p) = some q ∧
              (dmxOf s p).cur = some (RdmJob.host r uid cc pid sub d) ∧
                findCmd r s = some c ∧ (dmxOf s p).reqEnd + 2800000 ≤ max s.now t ∧ (dmxOf s p).tries < 3)
    ∧ (∃ (t p : Nat) (q : Output) (r : CmdRef) (c : Cmd) (uid : BitVec 48) (cc pid sub : Nat) (d : Bytes) (s : State),
      awake s = true ∧
        PinDriven s ∧
          p < 8 ∧
            outOf s (4096 + p) = some q ∧
              (dmxOf s p).cur = some (RdmJob.host r uid cc pid sub d) ∧
                findCmd r s = some c ∧ (dmxOf s p).reqEnd + 2800000 ≤ max s.now t ∧ 3 ≤ (dmxOf s p).tries)
    ∧ (∃ (t p lo hi x y : Nat) (l : List RdmJob) (e : Disc) (s : State),
      awake s = true ∧
        PinDriven s ∧
          p < 8 ∧
            (dmxOf s p).cur = some (RdmJob.branch lo hi) ∧
              (dmxOf s p).reqEnd + 2800000 ≤ max s.now t ∧ (dmxOf s p).disc = some e ∧ e.todo = RdmJob.branch x y :: l) :=
  ⟨⟨0, 10, 100, vK9, wK45, by decide +kernel⟩,
   ⟨0, 10, 100, vK9, wK46, by decide +kernel⟩,
   ⟨0, 0, vK5, wK47, by decide +kernel⟩,
   ⟨0, 0, vK5, wK46, by decide +kernel⟩,
   ⟨0, 10, vK6, wK47, by decide +kernel⟩,
   ⟨0, 11, vK10, wK46, by decide +kernel⟩,
   ⟨0, 12, vK11, wK46, by decide +kernel⟩,
   ⟨up, by decide +kernel⟩,
   ⟨0, up, by decide +kernel⟩,
   ⟨0, 0, vK5, CmdRef.mbx 1 7, 0x000000000005#48, 32, 1, 0, [0x09#8], [], wK47, by decide +kernel⟩,
   ⟨0, up, by decide +kernel⟩,
   ⟨0, 0, [0x09#8], CmdRef.mbx 1 7, cmd0 wK48, 0x000000000006#48, 32, 1, 0, [0x09#8], wK48, by decide +kernel⟩,
   ⟨0, 0, vK5, CmdRef.mbx 1 7, cmd0 wK48, 0x000000000006#48, 32, 1, 0, [0x09#8], wK48, by decide +kernel⟩,
   ⟨2800500, 0, vK5, CmdRef.mbx 1 7, cmd0 wK48, 0x000000000006#48, 32, 1, 0, [0x09#8], wK48, by decide +kernel⟩,
   ⟨2800500, 0, vK5, CmdRef.mbx 1 7, cmd0 wK49, 0x000000000006#48, 32, 1, 0, [0x09#8], wK49, by decide +kernel⟩,
   ⟨2800500, 0, 0, 5, 0, 5, [RdmJob.branch 7 8], vK12, wK50, by decide +kernel⟩⟩

open WL1 in
theorem witness_AirCommands :
    (∃ (r : CmdRef) (c : Cmd) (s : State),
      Ready 0x0F01 r c s ∧
        let p : Bytes := c.payload;
        let slot : Nat := field p 2 2;
        let n : Nat := field p 4 2;
        let sound : Prop :=
          500 ≤ slot ∧
            slot ≤ 20000 ∧
              8 ≤ n ∧ n ≤ 512 ∧ field p 6 1 ≤ 200 ∧ field p 7 1 ≤ 200 ∧ field p 8 4 < n * slot ∧ field p 12 2 ≤ 600;
        ¬sound)
    ∧ (∃ (r : CmdRef) (c : Cmd) (s : State),
      Ready 0x0F01 r c s ∧
        let p : Bytes := c.payload;
        let slot : Nat := field p 2 2;
        let n : Nat := field p 4 2;
        let sound : Prop :=
          500 ≤ slot ∧
            slot ≤ 20000 ∧
              8 ≤ n ∧ n ≤ 512 ∧ field p 6 1 ≤ 200 ∧ field p 7 1 ≤ 200 ∧ field p 8 4 < n * slot ∧ field p 12 2 ≤ 600;
        sound ∧ s.air.radios = [])
    ∧ (∃ (r : CmdRef) (c : Cmd) (s : State),
      Ready 0x0F02 r c s ∧
        let p : Bytes := c.payload;
        let n : Nat := field p 0 1;
        let sound : Prop :=
          n ≤ 3 ∧
            1000 ≤ field p 2 2 ∧
              field p 2 2 ≤ 16000 ∧
                field p 4 4 ≠ 0 ∧
                  field p 16 2 ≤ 120 ∧
                    (field p 19 1 = 0 ∨ field p 19 1 = 128) ∧
                      1 ≤ field p 27 1 ∧
                        field p 27 1 ≤ 3 ∧
                          field p 31 1 ≤ 1 ∧
                            field p 32 2 ≤ 128 ∧
                              field p 34 1 ≤ 3 ∧
                                field p 35 1 ≤ 15 ∧
                                  bit (field p 35 1) (field p 34 1) = true ∧
                                    field p 36 1 ≤ 3 ∧ (field p 38 1 ≤ 3 ∨ field p 38 1 = 255);
        ¬sound)
    ∧ (∃ (r : CmdRef) (c : Cmd) (s : State),
      Ready 0x0F02 r c s ∧
        let p : Bytes := c.payload;
        let n : Nat := field p 0 1;
        let sound : Prop :=
          n ≤ 3 ∧
            1000 ≤ field p 2 2 ∧
              field p 2 2 ≤ 16000 ∧
                field p 4 4 ≠ 0 ∧
                  field p 16 2 ≤ 120 ∧
                    (field p 19 1 = 0 ∨ field p 19 1 = 128) ∧
                      1 ≤ field p 27 1 ∧
                        field p 27 1 ≤ 3 ∧
                          field p 31 1 ≤ 1 ∧
                            field p 32 2 ≤ 128 ∧
                              field p 34 1 ≤ 3 ∧
                                field p 35 1 ≤ 15 ∧
                                  bit (field p 35 1) (field p 34 1) = true ∧
                                    field p 36 1 ≤ 3 ∧ (field p 38 1 ≤ 3 ∨ field p 38 1 = 255);
        sound ∧ s.air.net = none ∧ (radioOf s n).st = 0)
    ∧ (∃ (r : CmdRef) (c : Cmd) (s : State),
      Ready 0x0F02 r c s ∧
        let p : Bytes := c.payload;
        let n : Nat := field p 0 1;
        let sound : Prop :=
          n ≤ 3 ∧
            1000 ≤ field p 2 2 ∧
              field p 2 2 ≤ 16000 ∧
                field p 4 4 ≠ 0 ∧
                  field p 16 2 ≤ 120 ∧
                    (field p 19 1 = 0 ∨ field p 19 1 = 128) ∧
                      1 ≤ field p 27 1 ∧
                        field p 27 1 ≤ 3 ∧
                          field p 31 1 ≤ 1 ∧
                            field p 32 2 ≤ 128 ∧
                              field p 34 1 ≤ 3 ∧
                                field p 35 1 ≤ 15 ∧
                                  bit (field p 35 1) (field p 34 1) = true ∧
                                    field p 36 1 ≤ 3 ∧ (field p 38 1 ≤ 3 ∨ field p 38 1 = 255);
        sound ∧ s.air.net = none ∧ (radioOf s n).st ≠ 0)
    ∧ (∃ (r : CmdRef) (c : Cmd) (s : State),
      Ready 0x0F03 r c s ∧
        let p : Bytes := c.payload;
        let n : Nat := field p 0 1;
        let nch : Nat := field p 3 1;
        let cca : Nat := field p 6 2;
        let sound : Prop :=
          n ≤ 3 ∧
            field p 1 1 ≤ 3 ∧
              field p 2 1 ≤ 1 ∧
                1 ≤ nch ∧
                  nch ≤ 16 ∧
                    1 ≤ field p 4 2 ∧
                      field p 4 2 ≤ 10000 ∧ (field p 2 1 = 1 → cca = 0 ∨ 18 ≤ cca ∧ cca ≤ 1000) ∧ field p 8 1 < nch;
        ¬sound)
    ∧ (∃ (r : CmdRef) (c : Cmd) (s : State),
      Ready 0x0F03 r c s ∧
        let p : Bytes := c.payload;
        let n : Nat := field p 0 1;
        let nch : Nat := field p 3 1;
        let cca : Nat := field p 6 2;
        let sound : Prop :=
          n ≤ 3 ∧
            field p 1 1 ≤ 3 ∧
              field p 2 1 ≤ 1 ∧
                1 ≤ nch ∧
                  nch ≤ 16 ∧
                    1 ≤ field p 4 2 ∧
                      field p 4 2 ≤ 10000 ∧ (field p 2 1 = 1 → cca = 0 ∨ 18 ≤ cca ∧ cca ≤ 1000) ∧ field p 8 1 < nch;
        sound ∧ (radioOf s n).st ≠ 0)
    ∧ (∃ (r : CmdRef) (c : Cmd) (s : State),
      Ready 0x0F03 r c s ∧
        let p : Bytes := c.payload;
        let n : Nat := field p 0 1;
        let nch : Nat := field p 3 1;
        let cca : Nat := field p 6 2;
        let sound : Prop :=
          n ≤ 3 ∧
            field p 1 1 ≤ 3 ∧
              field p 2 1 ≤ 1 ∧
                1 ≤ nch ∧
                  nch ≤ 16 ∧
                    1 ≤ field p 4 2 ∧
                      field p 4 2 ≤ 10000 ∧ (field p 2 1 = 1 → cca = 0 ∨ 18 ≤ cca ∧ cca ≤ 1000) ∧ field p 8 1 < nch;
        sound ∧ (radioOf s n).st = 0)
    ∧ (∃ (r : CmdRef) (c : Cmd) (s : State),
      Ready 0x0F04 r c s ∧
        let n : Nat := field c.payload 0 1;
        let en : Nat := field c.payload 1 1;
        1 < en ∨ 3 < n)
    ∧ (∃ (r : CmdRef) (c : Cmd) (s : State),
      Ready 0x0F04 r c s ∧
        let n : Nat := field c.payload 0 1;
        let en : Nat := field c.payload 1 1;
        n ≤ 3 ∧ en = 1 ∧ ((radioOf s n).st = 2 ∨ radioReady s (radioOf s n) = false))
    ∧ (∃ (r : CmdRef) (c : Cmd) (s : State),
      Ready 0x0F04 r c s ∧
        let n : Nat := field c.payload 0 1;
        let en : Nat := field c.payload 1 1;
        n ≤ 3 ∧ en = 1 ∧ (radioOf s n).st = 0 ∧ radioReady s (radioOf s n) = true)
    ∧ (∃ (r : CmdRef) (c : Cmd) (s : State),
      Ready 0x0F04 r c s ∧
        let n : Nat := field c.payload 0 1;
        let en : Nat := field c.payload 1 1;
        n ≤ 3 ∧ en = 0 ∧ (radioOf s n).st = 0)
    ∧ (∃ (r : CmdRef) (c : Cmd) (s : State),
      Ready 0x0F04 r c s ∧
        let n : Nat := field c.payload 0 1;
        let en : Nat := field c.payload 1 1;
        n ≤ 3 ∧ en = 0 ∧ (radioOf s n).st = 1 ∧ radioOwes s n = 0)
    ∧ (∃ (r : CmdRef) (c : Cmd) (s : State),
      Ready 0x0F04 r c s ∧
        let n : Nat := field c.payload 0 1;
        let en : Nat := field c.payload 1 1;
        n ≤ 3 ∧ en = 0 ∧ (radioOf s n).st = 1 ∧ radioOwes s n ≠ 0)
    ∧ (∃ (r : CmdRef) (c : Cmd) (s : State),
      Ready 0x0F05 r c s ∧
        let p : Bytes := c.payload;
        let b : Nat := field p 0 1;
        63 < b)
    ∧ (∃ (r : CmdRef) (c : Cmd) (s : State),
      Ready 0x0F05 r c s ∧
        let p : Bytes := c.payload;
        let b : Nat := field p 0 1;
        b ≤ 63 ∧ field p 2 1 = 255)
    ∧ (∃ (r : CmdRef) (c : Cmd) (s : State),
      Ready 0x0F05 r c s ∧
        let p : Bytes := c.payload;
        let b : Nat := field p 0 1;
        let sound : Prop :=
          field p 1 1 ≤ 15 ∧
            field p 2 1 ≤ 1 ∧
              (field p 3 1 = 0 ∨ field p 3 1 = 1 ∧ 1000 ≤ field p 6 2 ∧ field p 6 2 ≤ 4000) ∧
                1 ≤ blockCells p ∧
                  field p 4 2 + blockCells p ≤ 65536 ∧
                    ∀ (e : Nat × Bytes),
                      e ∈ nextBlocks s →
                        e.fst = b ∨
                          field e.snd 4 2 + blockCells e.snd ≤ field p 4 2 ∨ field p 4 2 + blockCells p ≤ field e.snd 4 2;
        b ≤ 63 ∧ sound)
    ∧ (∃ (r : CmdRef) (c : Cmd) (s : State),
      Ready 0x0F05 r c s ∧
        let p : Bytes := c.payload;
        let b : Nat := field p 0 1;
        let sound : Prop :=
          field p 1 1 ≤ 15 ∧
            field p 2 1 ≤ 1 ∧
              (field p 3 1 = 0 ∨ field p 3 1 = 1 ∧ 1000 ≤ field p 6 2 ∧ field p 6 2 ≤ 4000) ∧
                1 ≤ blockCells p ∧
                  field p 4 2 + blockCells p ≤ 65536 ∧
                    ∀ (e : Nat × Bytes),
                      e ∈ nextBlocks s →
                        e.fst = b ∨
                          field e.snd 4 2 + blockCells e.snd ≤ field p 4 2 ∨ field p 4 2 + blockCells p ≤ field e.snd 4 2;
        b ≤ 63 ∧ field p 2 1 ≠ 255 ∧ ¬sound)
    ∧ (∃ (r : CmdRef) (c : Cmd) (s : State),
      Ready 0x0F06 r c s ∧
        let p : Bytes := c.payload;
        let n : Nat := field p 0 2;
        bit (field p 27 1) 0 = true ∧ kget? s.air.nodes n = none)
    ∧ (∃ (r : CmdRef) (c : Cmd) (s : State),
      Ready 0x0F06 r c s ∧
        let p : Bytes := c.payload;
        let n : Nat := field p 0 2;
        ∃ (q : ANode), bit (field p 27 1) 0 = true ∧ kget? s.air.nodes n = some q ∧ q.conn = false ∧ nodeRefs q = [])
    ∧ (∃ (r : CmdRef) (c : Cmd) (s : State),
      Ready 0x0F06 r c s ∧
        let p : Bytes := c.payload;
        let n : Nat := field p 0 2;
        ∃ (q : ANode), bit (field p 27 1) 0 = true ∧ kget? s.air.nodes n = some q ∧ q.conn = true ∧ nodeRefs q = [])
    ∧ (∃ (r : CmdRef) (c : Cmd) (s : State),
      Ready 0x0F06 r c s ∧
        let p : Bytes := c.payload;
        bit (field p 27 1) 0 = false ∧ nodeAddBad s p = true)
    ∧ (∃ (r : CmdRef) (c : Cmd) (s : State),
      Ready 0x0F06 r c s ∧
        let p : Bytes := c.payload;
        let n : Nat := field p 0 2;
        bit (field p 27 1) 0 = false ∧ nodeAddBad s p = false ∧ kget? s.air.nodes n = none)
    ∧ (∃ (r : CmdRef) (c : Cmd) (s : State),
      Ready 0x0F07 r c s ∧
        let n : Nat := field c.payload 0 1;
        let b : Nat := field c.payload 1 1;
        let m : Nat := field c.payload 2 2;
        3 < n ∨ khas (radioOf s n).bands b = false ∨ m = 0 ∨ 2 ^ bandNch (bandOf (radioOf s n) b) ≤ m)
    ∧ (∃ (r : CmdRef) (c : Cmd) (s : State),
      Ready 0x0F07 r c s ∧
        let n : Nat := field c.payload 0 1;
        let b : Nat := field c.payload 1 1;
        let m : Nat := field c.payload 2 2;
        n ≤ 3 ∧
          khas (radioOf s n).bands b = true ∧ m ≠ 0 ∧ m < 2 ^ bandNch (bandOf (radioOf s n) b) ∧ kwf s.air.nodes = true)
    ∧ (∃ (r : CmdRef) (c : Cmd) (q : ANode) (s : State),
      Ready 0x0F08 r c s ∧
        kget? s.air.nodes (field c.payload 0 2) = some q ∧
          let len : Nat := field c.payload 2 1;
          let k : Radio := radioOf s (nodeRadio q);
          len = 0 ∨ uMax s k < len)
    ∧ (∃ (r : CmdRef) (c : Cmd) (q : ANode) (s : State),
      Ready 0x0F08 r c s ∧
        kget? s.air.nodes (field c.payload 0 2) = some q ∧
          let len : Nat := field c.payload 2 1;
          let k : Radio := radioOf s (nodeRadio q);
          1 ≤ len ∧ len ≤ uMax s k ∧ (k.st ≠ 1 ∨ q.conn = false ∨ q.lostSync = true ∨ q.release = true))
    ∧ (∃ (r : CmdRef) (c : Cmd) (q : ANode) (s : State),
      Ready 0x0F08 r c s ∧
        kget? s.air.nodes (field c.payload 0 2) = some q ∧
          let len : Nat := field c.payload 2 1;
          let k : Radio := radioOf s (nodeRadio q);
          1 ≤ len ∧
            len ≤ uMax s k ∧ k.st = 1 ∧ q.conn = true ∧ q.lostSync = false ∧ q.release = false ∧ 1024 ≤ downQueued s)
    ∧ (∃ (r : CmdRef) (c : Cmd) (q : ANode) (s : State),
      Ready 0x0F08 r c s ∧
        kget? s.air.nodes (field c.payload 0 2) = some q ∧
          let len : Nat := field c.payload 2 1;
          let k : Radio := radioOf s (nodeRadio q);
          1 ≤ len ∧
            len ≤ uMax s k ∧ k.st = 1 ∧ q.conn = true ∧ q.lostSync = false ∧ q.release = false ∧ downQueued s < 1024)
    ∧ (∃ (r : CmdRef) (c : Cmd) (s : State), Ready 0x0F09 r c s)
    ∧ (∃ (r : CmdRef) (c : Cmd) (s : State),
      Ready 0x0F0A r c s ∧
        let n : Nat := field c.payload 0 1;
        3 < n)
    ∧ (∃ (r : CmdRef) (c : Cmd) (s : State),
      Ready 0x0F0A r c s ∧
        let n : Nat := field c.payload 0 1;
        n ≤ 3)
    ∧ (∃ (r : CmdRef) (c : Cmd) (s : State), Ready 0x0F0B r c s ∧ kget? s.air.nodes (field c.payload 0 2) = none)
    ∧ (∃ (r : CmdRef) (c : Cmd) (s : State), Ready 0x0F0B r c s ∧ ∃ (q : ANode), kget? s.air.nodes (field c.payload 0 2) = some q)
    ∧ (∃ (r : CmdRef) (c : Cmd) (s : State),
      Ready 0x0F0C r c s ∧
        let n : Nat := field c.payload 0 1;
        3 < n)
    ∧ (∃ (r : CmdRef) (c : Cmd) (s : State),
      Ready 0x0F0C r c s ∧
        let n : Nat := field c.payload 0 1;
        n ≤ 3) :=
  ⟨⟨CmdRef.mbx 1 7, cmd0 wL11, wL11, by decide +kernel⟩,
   ⟨CmdRef.mbx 1 7, cmd0 wL12, wL12, by decide +kernel⟩,
   ⟨CmdRef.mbx 1 7, cmd0 wL13, wL13, by decide +kernel⟩,
   ⟨CmdRef.mbx 1 7, cmd0 wL14, wL14, by decide +kernel⟩,
   ⟨CmdRef.mbx 1 7, cmd0 wL15, wL15, by decide +kernel⟩,
   ⟨CmdRef.mbx 1 7, cmd0 wL16, wL16, by decide +kernel⟩,
   ⟨CmdRef.mbx 1 7, cmd0 wL17, wL17, by decide +kernel⟩,
   ⟨CmdRef.mbx 1 7, cmd0 wL18, wL18, by decide +kernel⟩,
   ⟨CmdRef.mbx 1 7, cmd0 wL19, wL19, by decide +kernel⟩,
   ⟨CmdRef.mbx 1 7, cmd0 wL110, wL110, by decide +kernel⟩,
   ⟨CmdRef.mbx 1 7, cmd0 wL111, wL111, by decide +kernel⟩,
   ⟨CmdRef.mbx 1 7, cmd0 wL112, wL112, by decide +kernel⟩,
   ⟨CmdRef.mbx 1 7, cmd0 wL113, wL113, by decide +kernel⟩,
   ⟨CmdRef.mbx 1 7, cmd0 wL114, wL114, by decide +kernel⟩,
   ⟨CmdRef.mbx 1 7, cmd0 wL115, wL115, by decide +kernel⟩,
   ⟨CmdRef.mbx 1 7, cmd0 wL116, wL116, by decide +kernel⟩,
   ⟨CmdRef.mbx 1 7, cmd0 wL117, wL117, by decide +kernel⟩,
   ⟨CmdRef.mbx 1 7, cmd0 wL118, wL118, by decide +kernel⟩,
   ⟨CmdRef.mbx 1 7, cmd0 wL119, wL119, by decide +kernel⟩,
   ⟨CmdRef.mbx 1 7, cmd0 wL120, wL120, by decide +kernel, vL11, by decide +kernel⟩,
   ⟨CmdRef.mbx 1 7, cmd0 wL121, wL121, by decide +kernel, vL12, by decide +kernel⟩,
   ⟨CmdRef.mbx 1 7, cmd0 wL122, wL122, by decide +kernel⟩,
   ⟨CmdRef.mbx 1 7, cmd0 wL123, wL123, by decide +kernel⟩,
   ⟨CmdRef.mbx 1 7, cmd0 wL124, wL124, by decide +kernel⟩,
   ⟨CmdRef.mbx 1 7, cmd0 wL125, wL125, by decide +kernel⟩,
   ⟨CmdRef.mbx 1 7, cmd0 wL126, vL12, wL126, by decide +kernel⟩,
   ⟨CmdRef.mbx 1 7, cmd0 wL127, vL12, wL127, by decide +kernel⟩,
   ⟨CmdRef.mbx 1 7, cmd0 wL128, _, wL128, by decide +kernel, rfl, by decide +kernel⟩,
   ⟨CmdRef.mbx 1 7, cmd0 wL129, vL12, wL129, by decide +kernel⟩,
   ⟨CmdRef.mbx 1 7, cmd0 wL130, wL130, by decide +kernel⟩,
   ⟨CmdRef.mbx 1 7, cmd0 wL131, wL131, by decide +kernel⟩,
   ⟨CmdRef.mbx 1 7, cmd0 wL132, wL132, by decide +kernel⟩,
   ⟨CmdRef.mbx 1 7, cmd0 wL133, wL133, by decide +kernel⟩,
   ⟨CmdRef.mbx 1 7, cmd0 wL134, wL134, by decide +kernel, vL13, by decide +kernel⟩,
   ⟨CmdRef.mbx 1 7, cmd0 wL135, wL135, by decide +kernel⟩,
   ⟨CmdRef.mbx 1 7, cmd0 wL136, wL136, by decide +kernel⟩⟩

open WL2 in
theorem witness_AirEvents :
    (∃ (t : Nat) (s : State), awake s = true ∧ PinDriven s ∧ (airBi s = 0 ∨ max s.now t < airPhase s))
    ∧ (∃ (t : Nat) (s : State),
      awake s = true ∧
        PinDriven s ∧ airBi s ≠ 0 ∧ airPhase s ≤ max s.now t ∧ s.air.k ≠ some ((max s.now t - airPhase s) / airBi s))
    ∧ (∃ (t n k : Nat) (s : State),
      awake s = true ∧
        PinDriven s ∧ s.air.k = some k ∧ (radioOn (radioOf s n) = false ∨ outsLive s = false ∨ max s.now t < slotTp s k 0))
    ∧ (∃ (t n k : Nat) (s : State),
      awake s = true ∧
        PinDriven s ∧
          outsLive s = true ∧
            s.air.k = some k ∧
              khas s.air.radios n = true ∧
                let r : Radio := radioOf s n;
                radioOn r = true ∧
                  slotTp s k 0 ≤ max s.now t ∧
                    r.beaconSf ≠ some k ∧
                      r.band = field r.cfg 34 1 ∧
                        r.nextBand = none ∧ budgetOk (advance t s) r r.band 0 (tAir r 28) = true ∧ r.returning = none)
    ∧ (∃ (t n k : Nat) (s : State),
      awake s = true ∧
        PinDriven s ∧
          outsLive s = true ∧
            s.air.k = some k ∧
              khas s.air.radios n = true ∧
                let r : Radio := radioOf s n;
                radioOn r = true ∧
                  slotTp s k 0 ≤ max s.now t ∧
                    r.beaconSf ≠ some k ∧
                      r.band = field r.cfg 34 1 ∧
                        r.nextBand = none ∧ budgetOk (advance t s) r r.band 0 (tAir r 28) = false ∧ r.skips = 0)
    ∧ (∃ (t n k : Nat) (s : State),
      awake s = true ∧
        PinDriven s ∧
          outsLive s = true ∧
            s.air.k = some k ∧
              khas s.air.radios n = true ∧
                let r : Radio := radioOf s n;
                radioOn r = true ∧
                  r.recovery = true ∧
                    slotTp s k 1 ≤ max s.now t ∧
                      r.recoverySf ≠ some k ∧ budgetOk (advance t s) r (field r.cfg 36 1) 0 (tAir r 28) = true)
    ∧ (∃ (t n k slot : Nat) (s : State),
      awake s = true ∧
        PinDriven s ∧
          outsLive s = true ∧
            s.air.k = some k ∧
              khas s.air.radios n = true ∧
                let r : Radio := radioOf s n;
                let band : Nat := field r.cfg 38 1;
                radioOn r = true ∧
                  band ≠ 255 ∧
                    3 ≤ slot ∧
                      slot ≤ 2 + crowdSlots r ∧
                        slotTp s k slot ≤ max s.now t ∧ r.crowdSf = none ∧ s.flt.safe = true ∧ field r.cfg 31 1 = 0)
    ∧ (∃ (t n k slot : Nat) (b : Bytes) (first m : Nat) (s : State),
      awake s = true ∧
        PinDriven s ∧
          outsLive s = true ∧
            s.air.k = some k ∧
              khas s.air.radios n = true ∧
                let r : Radio := radioOf s n;
                let band : Nat := field r.cfg 38 1;
                let start : Nat := if cellCount s ≤ r.cellAt then 0 else r.cellAt;
                radioOn r = true ∧
                  band ≠ 255 ∧
                    3 ≤ slot ∧
                      slot ≤ 2 + crowdSlots r ∧
                        slotTp s k slot ≤ max s.now t ∧
                          r.crowdSf = none ∧
                            s.flt.safe = false ∧
                              crowdRun s r start = some (b, first, m) ∧
                                budgetOk (advance t s) r band 2 (tAir r (16 + if field b 2 1 = 0 then 3 * m else m)) =
                                  true)
    ∧ (∃ (t n k : Nat) (q : ANode) (s : State),
      awake s = true ∧
        PinDriven s ∧
          kget? s.air.nodes n = some q ∧
            s.air.k = some k ∧
              (q.conn = false ∨ isAnchor q k = false ∨ q.anchor = some k ∨ max s.now t < slotTp s k (field q.cfg 12 2)))
    ∧ (∃ (t n k : Nat) (q : ANode) (r : CmdRef) (b : Bytes) (rest : List (CmdRef × Bytes)) (s : State),
      awake s = true ∧
        PinDriven s ∧
          outsLive s = true ∧
            kget? s.air.nodes n = some q ∧
              s.air.k = some k ∧
                khas s.air.radios (nodeRadio q) = true ∧
                  radioOn (radioOf s (nodeRadio q)) = true ∧
                    q.conn = true ∧
                      isAnchor q k = true ∧
                        q.firstSf ≤ k ∧
                          slotTp s k (field q.cfg 12 2) ≤ max s.now t ∧
                            q.anchor ≠ some k ∧
                              q.mapPend = none ∧
                                q.missed < 3 ∧
                                  q.lostSync = false ∧
                                    q.release = false ∧
                                      q.down = none ∧
                                        q.queue = (r, b) :: rest ∧
                                          guardNs s q (slotTp s k (field q.cfg 12 2)) ≤ slotLen s / 4 ∧
                                            budgetOk (advance t s) (radioOf s (nodeRadio q)) (nodeBand q) 1
                                                (tAir (radioOf s (nodeRadio q)) (12 + List.length b)) =
                                              true)
    ∧ (∃ (k : Nat) (u : AirUp) (q : ANode) (s : State),
      awake s = true ∧
        PinDriven s ∧
          controls s = true ∧
            kget? s.air.nodes u.node = some q ∧
              s.air.k = some k ∧ radioOn (radioOf s u.radio) = true ∧ nodeRadio q = u.radio ∧ u.crcOk = false)
    ∧ (∃ (k : Nat) (u : AirUp) (q : ANode) (s : State),
      awake s = true ∧
        PinDriven s ∧
          controls s = true ∧
            kget? s.air.nodes u.node = some q ∧
              s.air.k = some k ∧
                radioOn (radioOf s u.radio) = true ∧
                  nodeRadio q = u.radio ∧ u.crcOk = true ∧ (q.conn = false ∨ q.anchor ≠ some k ∨ q.lostSync = true))
    ∧ (∃ (k : Nat) (u : AirUp) (q : ANode) (s : State),
      awake s = true ∧
        PinDriven s ∧
          controls s = true ∧
            kget? s.air.nodes u.node = some q ∧
              s.air.k = some k ∧
                radioOn (radioOf s u.radio) = true ∧
                  nodeRadio q = u.radio ∧
                    u.crcOk = true ∧
                      q.conn = true ∧
                        q.anchor = some k ∧
                          q.lostSync = false ∧
                            u.kind = 1 ∧
                              u.sn = q.nesn ∧ u.nesn = q.sn ∧ s.air.uplink.length < 256 ∧ (radioOf s u.radio).st = 1)
    ∧ (∃ (k : Nat) (u : AirUp) (q : ANode) (s : State),
      awake s = true ∧
        PinDriven s ∧
          controls s = true ∧
            kget? s.air.nodes u.node = some q ∧
              s.air.k = some k ∧
                radioOn (radioOf s u.radio) = true ∧
                  nodeRadio q = u.radio ∧
                    ∃ (d : Down) (r : CmdRef) (c : Cmd),
                      u.crcOk = true ∧
                        q.conn = true ∧
                          q.anchor = some k ∧
                            q.lostSync = false ∧
                              u.nesn ≠ q.sn ∧
                                q.down = some d ∧
                                  d.kind = 1 ∧
                                    d.ref = some r ∧ findCmd r s = some c ∧ (radioOf s u.radio).st = 1 ∧ u.kind ≠ 1)
    ∧ (∃ (u : AirUp) (s : State), awake s = true ∧ PinDriven s ∧ kget? s.air.nodes u.node = none)
    ∧ (∃ (u : AirUp) (q : ANode) (s : State),
      awake s = true ∧
        PinDriven s ∧
          controls s = true ∧
            kget? s.air.nodes u.node = some q ∧
              radioOn (radioOf s u.radio) = true ∧ nodeRadio q = u.radio ∧ u.crcOk = true ∧ q.conn = true)
    ∧ (∃ (n : Nat) (eui : U64) (s : State),
      awake s = true ∧
        PinDriven s ∧
          List.find? (fun e => field e.snd.cfg 4 8 == BitVec.toNat eui && nodeRadio e.snd == n) s.air.nodes = none)
    ∧ (∃ (t n node : Nat) (eui : U64) (q : ANode) (s : State),
      awake s = true ∧
        PinDriven s ∧
          controls s = true ∧
            List.find? (fun e => field e.snd.cfg 4 8 == BitVec.toNat eui && nodeRadio e.snd == n) s.air.nodes =
                some (node, q) ∧
              kwf s.air.nodes = true ∧
                q.conn = false ∧
                  khas s.air.radios n = true ∧
                    (radioOf s n).st = 1 ∧
                      (radioOf s n).retired = false ∧
                        budgetOk (advance t s) (radioOf s n) (radioOf s n).band 1 (tAir (radioOf s n) 30) = true)
    ∧ (∃ (t n : Nat) (q : ANode) (s : State),
      awake s = true ∧
        PinDriven s ∧
          kget? s.air.nodes n = some q ∧
            let last : Nat := q.lastContact + 1000000 * field q.cfg 16 2;
            q.conn = false ∨ max s.now t < last)
    ∧ (∃ (t n : Nat) (q : ANode) (s : State),
      awake s = true ∧
        PinDriven s ∧
          kget? s.air.nodes n = some q ∧
            let last : Nat := q.lastContact + 1000000 * field q.cfg 16 2;
            q.conn = true ∧ last ≤ max s.now t ∧ q.release = false ∧ nodeRefs q = [] ∧ (radioOf s (nodeRadio q)).st = 1)
    ∧ (∃ (t n : Nat) (q : ANode) (s : State),
      awake s = true ∧
        PinDriven s ∧
          kget? s.air.nodes n = some q ∧
            let last : Nat := q.lastContact + 1000000 * field q.cfg 16 2;
            q.conn = true ∧ last ≤ max s.now t ∧ q.release = true ∧ nodeRefs q = [])
    ∧ (∃ (n b : Nat) (d : Band) (s : State), awake s = true ∧ PinDriven s ∧ khas s.air.radios n = true ∧ kget? (radioOf s n).bands b = some d)
    ∧ (∃ (t n u : Nat) (s : State), awake s = true ∧ PinDriven s ∧ (radioOf s n).holdUntil = some u ∧ u ≤ max s.now t)
    ∧ (∃ (t n u : Nat) (s : State), awake s = true ∧ PinDriven s ∧ (radioOf s n).holdUntil = some u ∧ max s.now t < u) :=
  ⟨⟨0, up, by decide +kernel⟩,
   ⟨0, wL21, by decide +kernel⟩,
   ⟨0, 0, 0, wL22, by decide +kernel⟩,
   ⟨0, 1, 0, wL22, by decide +kernel⟩,
   ⟨0, 1, 0, wL23, by decide +kernel⟩,
   ⟨20000000, 1, 0, wL22, by decide +kernel⟩,
   ⟨20000000, 1, 0, 3, wL24, by decide +kernel⟩,
   ⟨20000000, 1, 0, 3, vL21, 100, 5, wL22, by decide +kernel⟩,
   ⟨0, 5, 0, vL22, wL22, by decide +kernel⟩,
   ⟨60000000, 5, 0, vL23, CmdRef.mbx 1 7, [0x09#8, 0x08#8, 0x07#8], [(CmdRef.mbx 2 7, [0x01#8])], wL25, by decide +kernel⟩,
   ⟨0, vL24, vL22, wL22, by decide +kernel⟩,
   ⟨0, vL25, vL22, wL22, by decide +kernel⟩,
   ⟨0, vL25, vL26, wL26, by decide +kernel⟩,
   ⟨0, vL27, vL28, wL27, by decide +kernel, by decide +kernel, by decide +kernel, by decide +kernel, by decide +kernel, by decide +kernel, by decide +kernel, vL29, CmdRef.mbx 1 7, cmd0 wL27, by decide +kernel⟩,
   ⟨vL25, up, by decide +kernel⟩,
   ⟨vL25, vL22, wL22, by decide +kernel⟩,
   ⟨0, 0x0000000000000000#64, up, by decide +kernel⟩,
   ⟨0, 1, 5, 0x000000000000abcd#64, vL210, wL28, by decide +kernel⟩,
   ⟨0, 5, vL22, wL22, by decide +kernel⟩,
   ⟨1000000000, 5, vL22, wL22, by decide +kernel⟩,
   ⟨1000000000, 5, vL211, wL29, by decide +kernel⟩,
   ⟨1, 0, vL212, wL21, by decide +kernel⟩,
   ⟨5000000, 1, 5000000, wL210, by decide +kernel⟩,
   ⟨0, 1, 5000000, wL210, by decide +kernel⟩⟩

open WM1 in
theorem witness_FaultCollector :
    (∃ (r : CmdRef) (c : Cmd) (s : State), Ready 0x1301 r c s)
    ∧ (∃ (r : CmdRef) (c : Cmd) (s : State),
      Ready 0x1302 r c s ∧
        let id : Nat := field c.payload 0 2;
        srcExists id = false ∧ id % 1024 ≠ 1023)
    ∧ (∃ (r : CmdRef) (c : Cmd) (s : State),
      Ready 0x1302 r c s ∧
        let id : Nat := field c.payload 0 2;
        let react : Nat := field c.payload 2 1;
        let lull : Nat := if field c.payload 4 4 = 0 then 500 else field c.payload 4 4;
        srcExists id = true ∧ (60000 < lull ∨ bit react 0 = true ∧ isUnit id = false))
    ∧ (∃ (r : CmdRef) (c : Cmd) (s : State),
      Ready 0x1302 r c s ∧
        let id : Nat := field c.payload 0 2;
        let react : Nat := field c.payload 2 1;
        let lull : Nat := if field c.payload 4 4 = 0 then 500 else field c.payload 4 4;
        srcExists id = true ∧ lull ≤ 60000 ∧ (bit react 0 = false ∨ isUnit id = true))
    ∧ (∃ (r : CmdRef) (c : Cmd) (s : State), Ready 0x1303 r c s)
    ∧ (∃ (r : CmdRef) (c : Cmd) (s : State),
      Ready 0x1304 r c s ∧
        let id : Nat := field c.payload 0 2;
        srcExists id = false)
    ∧ (∃ (r : CmdRef) (c : Cmd) (s : State),
      Ready 0x1304 r c s ∧
        let id : Nat := field c.payload 0 2;
        srcExists id = true)
    ∧ (∃ (r : CmdRef) (c : Cmd) (s : State),
      Ready 0x1305 r c s ∧
        let id : Nat := field c.payload 0 2;
        srcExists id = false)
    ∧ (∃ (r : CmdRef) (c : Cmd) (s : State),
      Ready 0x1305 r c s ∧
        let id : Nat := field c.payload 0 2;
        srcExists id = true ∧ (srcOf s id).held = false)
    ∧ (∃ (r : CmdRef) (c : Cmd) (s : State),
      Ready 0x1305 r c s ∧
        let id : Nat := field c.payload 0 2;
        srcExists id = true ∧ (srcOf s id).held = true ∧ (srcOf s id).inFault = true)
    ∧ (∃ (r : CmdRef) (c : Cmd) (s : State),
      Ready 0x1306 r c s ∧
        let id : Nat := field c.payload 0 2;
        srcExists id = false)
    ∧ (∃ (r : CmdRef) (c : Cmd) (s : State),
      Ready 0x1306 r c s ∧
        let id : Nat := field c.payload 0 2;
        srcExists id = true ∧ keyAuthority c = false)
    ∧ (∃ (r : CmdRef) (c : Cmd) (s : State),
      Ready 0x1306 r c s ∧
        let id : Nat := field c.payload 0 2;
        srcExists id = true ∧ keyAuthority c = true) :=
  ⟨⟨CmdRef.mbx 1 7, cmd0 wM11, wM11, by decide +kernel⟩,
   ⟨CmdRef.mbx 1 7, cmd0 wM12, wM12, by decide +kernel⟩,
   ⟨CmdRef.mbx 1 7, cmd0 wM13, wM13, by decide +kernel⟩,
   ⟨CmdRef.mbx 1 7, cmd0 wM14, wM14, by decide +kernel⟩,
   ⟨CmdRef.mbx 1 7, cmd0 wM15, wM15, by decide +kernel⟩,
   ⟨CmdRef.mbx 1 7, cmd0 wM16, wM16, by decide +kernel⟩,
   ⟨CmdRef.mbx 1 7, cmd0 wM17, wM17, by decide +kernel⟩,
   ⟨CmdRef.mbx 1 7, cmd0 wM18, wM18, by decide +kernel⟩,
   ⟨CmdRef.mbx 1 7, cmd0 wM19, wM19, by decide +kernel⟩,
   ⟨CmdRef.mbx 1 7, cmd0 wM110, wM110, by decide +kernel⟩,
   ⟨CmdRef.mbx 1 7, cmd0 wM111, wM111, by decide +kernel⟩,
   ⟨CmdRef.mbx 1 7, cmd0 wM112, wM112, by decide +kernel⟩,
   ⟨CmdRef.mbx 1 7, cmd0 wM113, wM113, by decide +kernel⟩⟩
open WM2 in
theorem witness_FaultCollector_M2 :
    (∃ (id : Nat) (s : State), awake s = true ∧ srcExists id = true)
    ∧ (∃ (id : Nat) (s : State), awake s = true ∧ srcExists id = false)
    ∧ (∃ (s : State), awake s = true)
    ∧ (∃ (id : Nat) (s : State), awake s = true ∧ ((srcOf s id).inFault = false ∨ (srcOf s id).lullEnd = none ∨ (srcOf s id).returning = true))
    ∧ (∃ (t id e : Nat) (s : State),
      awake s = true ∧
        (srcOf s id).inFault = true ∧
          (srcOf s id).lullEnd = some e ∧
            e ≤ max s.now t ∧ (srcOf s id).returning = false ∧ (isUnit id = false ∨ (srcOf s id).held = true))
    ∧ (∃ (id : Nat) (s : State), awake s = true ∧ (srcOf s id).returning = false)
    ∧ (∃ (id : Nat) (s : State), awake s = true ∧ (srcOf s id).returning = true)
    ∧ (∃ (id : Nat), isUnit id = false)
    ∧ (∃ (id : Nat) (s : State), isUnit id = false ∧ (srcOf s id).inFault = true)
    ∧ (∃ (id : Nat) (s : State), isUnit id = false ∧ (srcOf s id).inFault = false ∧ bit (reactOf s id) 1 = true ∧ s.flt.safe = false)
    ∧ (∃ (id : Nat) (s : State), (srcOf s id).sticky = false ∧ BitVec.getLsbD s.hif.intStat 17 = false ∧ isUnit id = false) :=
  ⟨⟨1024, up, by decide +kernel⟩,
   ⟨39321, up, by decide +kernel⟩,
   ⟨up, by decide +kernel⟩,
   ⟨1024, up, by decide +kernel⟩,
   ⟨0, 5120, 0, wM21, by decide +kernel⟩,
   ⟨1024, up, by decide +kernel⟩,
   ⟨5120, wM22, by decide +kernel⟩,
   ⟨1024, by decide +kernel⟩,
   ⟨1024, wM23, by decide +kernel⟩,
   ⟨1024, up, by decide +kernel⟩,
   ⟨1024, up, by decide +kernel⟩⟩

open WM2 in
theorem witness_UpdateCommands :
    (∃ (r : CmdRef) (c : Cmd) (s : State),
      Ready 0x1601 r c s ∧
        let n : Nat := field c.payload 0 1;
        let len : Nat := field c.payload 4 4;
        let sound : Prop := n ≤ 1 ∧ 257 ≤ len ∧ len ≤ 2097152;
        ¬sound)
    ∧ (∃ (r : CmdRef) (c : Cmd) (s : State),
      Ready 0x1601 r c s ∧
        let n : Nat := field c.payload 0 1;
        let len : Nat := field c.payload 4 4;
        let sound : Prop := n ≤ 1 ∧ 257 ≤ len ∧ len ≤ 2097152;
        sound ∧ interlock false s ≠ 0)
    ∧ (∃ (r : CmdRef) (c : Cmd) (s : State),
      Ready 0x1601 r c s ∧
        let n : Nat := field c.payload 0 1;
        let len : Nat := field c.payload 4 4;
        let sound : Prop := n ≤ 1 ∧ 257 ≤ len ∧ len ≤ 2097152;
        sound ∧ interlock false s = 0 ∧ n = s.upd.running)
    ∧ (∃ (r : CmdRef) (c : Cmd) (s : State),
      Ready 0x1601 r c s ∧
        let n : Nat := field c.payload 0 1;
        let len : Nat := field c.payload 4 4;
        let sound : Prop := n ≤ 1 ∧ 257 ≤ len ∧ len ≤ 2097152;
        sound ∧ interlock false s = 0 ∧ n ≠ s.upd.running)
    ∧ (∃ (r : CmdRef) (c : Cmd) (s : State),
      Ready 0x1602 r c s ∧
        let n : Nat := field c.payload 4 2;
        n = 0 ∨ 4080 < n)
    ∧ (∃ (r : CmdRef) (c : Cmd) (s : State),
      Ready 0x1602 r c s ∧
        let n : Nat := field c.payload 4 2;
        1 ≤ n ∧ n ≤ 4080 ∧ interlock false s = 0 ∧ s.upd.staging = none)
    ∧ (∃ (r : CmdRef) (c : Cmd) (s : State),
      Ready 0x1602 r c s ∧
        let o : Nat := field c.payload 0 4;
        let n : Nat := field c.payload 4 2;
        ∃ (k : Nat),
          1 ≤ n ∧
            n ≤ 4080 ∧
              interlock false s = 0 ∧
                s.upd.staging = some k ∧ (o ≠ List.length (slotOf s k).image ∨ (slotOf s k).length < o + n))
    ∧ (∃ (r : CmdRef) (c : Cmd) (s : State),
      Ready 0x1602 r c s ∧
        let o : Nat := field c.payload 0 4;
        let n : Nat := field c.payload 4 2;
        ∃ (k : Nat),
          1 ≤ n ∧
            n ≤ 4080 ∧
              interlock false s = 0 ∧
                s.upd.staging = some k ∧ o = List.length (slotOf s k).image ∧ o + n ≤ (slotOf s k).length)
    ∧ (∃ (r : CmdRef) (c : Cmd) (s : State),
      Ready 0x1603 r c s ∧
        let n : Nat := field c.payload 0 1;
        2 < n ∨ n < 2 ∧ (slotOf s n).st = 0)
    ∧ (∃ (r : CmdRef) (c : Cmd) (s : State),
      Ready 0x1603 r c s ∧
        let n : Nat := field c.payload 0 1;
        n < 2 ∧ (slotOf s n).st = 1)
    ∧ (∃ (r : CmdRef) (c : Cmd) (s : State),
      Ready 0x1603 r c s ∧
        let n : Nat := field c.payload 0 1;
        n < 2 ∧ 2 ≤ (slotOf s n).st)
    ∧ (∃ (r : CmdRef) (c : Cmd) (s : State),
      Ready 0x1604 r c s ∧
        let n : Nat := field c.payload 0 1;
        let w : Nat := field c.payload 2 2;
        let sound : Prop := n ≤ 1 ∧ (w = 0 ∨ 20 ≤ w ∧ w ≤ 3600);
        ¬sound)
    ∧ (∃ (r : CmdRef) (c : Cmd) (s : State),
      Ready 0x1604 r c s ∧
        let n : Nat := field c.payload 0 1;
        let w : Nat := field c.payload 2 2;
        let sound : Prop := n ≤ 1 ∧ (w = 0 ∨ 20 ≤ w ∧ w ≤ 3600);
        sound ∧ (slotOf s n).st ≠ 3)
    ∧ (∃ (r : CmdRef) (c : Cmd) (s : State),
      Ready 0x1604 r c s ∧
        let n : Nat := field c.payload 0 1;
        let w : Nat := field c.payload 2 2;
        let sound : Prop := n ≤ 1 ∧ (w = 0 ∨ 20 ≤ w ∧ w ≤ 3600);
        sound ∧ (slotOf s n).st = 3 ∧ interlock false s ≠ 0)
    ∧ (∃ (r : CmdRef) (c : Cmd) (s : State),
      Ready 0x1604 r c s ∧
        let n : Nat := field c.payload 0 1;
        let w : Nat := field c.payload 2 2;
        let sound : Prop := n ≤ 1 ∧ (w = 0 ∨ 20 ≤ w ∧ w ≤ 3600);
        sound ∧ (slotOf s n).st = 3 ∧ interlock false s = 0 ∧ statesMeet (runImage s) (slotImage s.upd n) = false)
    ∧ (∃ (r : CmdRef) (c : Cmd) (s : State),
      Ready 0x1604 r c s ∧
        let n : Nat := field c.payload 0 1;
        let w : Nat := field c.payload 2 2;
        let sound : Prop := n ≤ 1 ∧ (w = 0 ∨ 20 ≤ w ∧ w ≤ 3600);
        sound ∧ (slotOf s n).st = 3 ∧ interlock false s = 0 ∧ statesMeet (runImage s) (slotImage s.upd n) = true)
    ∧ (∃ (r : CmdRef) (c : Cmd) (s : State), Ready 0x1605 r c s ∧ s.upd.act = none)
    ∧ (∃ (r : CmdRef) (c : Cmd) (s : State), Ready 0x1605 r c s ∧ ∃ (a : Activation), s.upd.act = some a ∧ (a.openAt = none ∨ a.host = false))
    ∧ (∃ (r : CmdRef) (c : Cmd) (s : State), Ready 0x1605 r c s ∧ ∃ (a : Activation), s.upd.act = some a ∧ a.openAt.isSome = true ∧ a.host = true)
    ∧ (∃ (r : CmdRef) (c : Cmd) (s : State), Ready 0x1606 r c s)
    ∧ (∃ (r : CmdRef) (c : Cmd) (s : State), Ready 0x1607 r c s ∧ keyAuthority c = false)
    ∧ (∃ (t : Nat) (r : CmdRef) (c : Cmd) (s : State), Ready 0x1607 r c s ∧ ∃ (u : Nat), s.upd.lockout = some u ∧ max s.now t < u)
    ∧ (∃ (r : CmdRef) (c : Cmd) (s : State),
      Ready 0x1607 r c s ∧ keyAuthority c = true ∧ s.upd.lockout = none ∧ s.upd.keyHash = none ∧ field c.payload 0 1 ≠ 2)
    ∧ (∃ (r : CmdRef) (c : Cmd) (s : State),
      Ready 0x1607 r c s ∧
        keyAuthority c = true ∧
          s.upd.lockout = none ∧ s.upd.keyHash = some (sha256 (bytesAt c.payload 8 32)) ∧ field c.payload 0 1 ≤ 1)
    ∧ (∃ (r : CmdRef) (c : Cmd) (s : State),
      Ready 0x1607 r c s ∧
        ∃ (h : Bytes), keyAuthority c = true ∧ s.upd.lockout = none ∧ s.upd.keyHash = some h ∧ sha256 (bytesAt c.payload 8 32) ≠ h) :=
  ⟨⟨CmdRef.mbx 1 7, cmd0 wM24, wM24, by decide +kernel⟩,
   ⟨CmdRef.mbx 1 7, cmd0 wM25, wM25, by decide +kernel⟩,
   ⟨CmdRef.mbx 1 7, cmd0 wM26, wM26, by decide +kernel⟩,
   ⟨CmdRef.mbx 1 7, cmd0 wM27, wM27, by decide +kernel⟩,
   ⟨CmdRef.mbx 1 7, cmd0 wM28, wM28, by decide +kernel⟩,
   ⟨CmdRef.mbx 1 7, cmd0 wM29, wM29, by decide +kernel⟩,
   ⟨CmdRef.mbx 1 7, cmd0 wM210, wM210, by decide +kernel, 0, by decide +kernel⟩,
   ⟨CmdRef.mbx 1 7, cmd0 wM211, wM211, by decide +kernel, 0, by decide +kernel⟩,
   ⟨CmdRef.mbx 1 7, cmd0 wM212, wM212, by decide +kernel⟩,
   ⟨CmdRef.mbx 1 7, cmd0 wM213, wM213, by decide +kernel⟩,
   ⟨CmdRef.mbx 1 7, cmd0 wM214, wM214, by decide +kernel⟩,
   ⟨CmdRef.mbx 1 7, cmd0 wM215, wM215, by decide +kernel⟩,
   ⟨CmdRef.mbx 1 7, cmd0 wM216, wM216, by decide +kernel⟩,
   ⟨CmdRef.mbx 1 7, cmd0 wM217, wM217, by decide +kernel⟩,
   ⟨CmdRef.mbx 1 7, cmd0 wM218, wM218, by decide +kernel⟩,
   ⟨CmdRef.mbx 1 7, cmd0 wM219, wM219, by decide +kernel⟩,
   ⟨CmdRef.mbx 1 7, cmd0 wM220, wM220, by decide +kernel⟩,
   ⟨CmdRef.mbx 1 7, cmd0 wM221, wM221, by decide +kernel, vM21, by decide +kernel⟩,
   ⟨CmdRef.mbx 1 7, cmd0 wM222, wM222, by decide +kernel, vM22, by decide +kernel⟩,
   ⟨CmdRef.mbx 1 7, cmd0 wM223, wM223, by decide +kernel⟩,
   ⟨CmdRef.mbx 1 7, cmd0 wM224, wM224, by decide +kernel⟩,
   ⟨0, CmdRef.mbx 1 7, cmd0 wM225, wM225, by decide +kernel, 999, by decide +kernel⟩,
   ⟨CmdRef.mbx 1 7, cmd0 wM226, wM226, by decide +kernel⟩,
   ⟨CmdRef.mbx 1 7, cmd0 wM227, wM227, by decide +kernel⟩,
   ⟨CmdRef.mbx 1 7, cmd0 wM228, wM228, by decide +kernel, vM23, by decide +kernel⟩⟩

open WM2 in
theorem witness_UpdateEvents :
    (∃ (s : State), awake s = true ∧ s.upd.act = none)
    ∧ (∃ (a : Activation) (s : State), awake s = true ∧ s.upd.act = some a ∧ a.loadedAt = none ∧ a.openAt = none)
    ∧ (∃ (a : Activation) (s : State), awake s = true ∧ s.upd.act = some a ∧ a.openAt.isSome = true)
    ∧ (∃ (t : Nat) (a : Activation) (s : State), awake s = true ∧ s.upd.act = some a ∧ mayConfirm (advance t s) a = false)
    ∧ (∃ (t : Nat) (a : Activation) (s : State), awake s = true ∧ s.upd.act = some a ∧ mayConfirm (advance t s) a = true ∧ max s.now t < windowEndsAt a)
    ∧ (∃ (t : Nat) (a : Activation) (s : State), awake s = true ∧ s.upd.act = some a ∧ (a.openAt = none ∨ max s.now t < windowEndsAt a))
    ∧ (∃ (t : Nat) (a : Activation) (s : State), awake s = true ∧ s.upd.act = some a ∧ a.openAt.isSome = true ∧ windowEndsAt a ≤ max s.now t ∧ a.fellAt = none)
    ∧ (∃ (t f : Nat) (a : Activation) (s : State),
      awake s = true ∧
        s.upd.act = some a ∧ a.fellAt = some f ∧ a.written = false ∧ max s.now t ≤ f + 100000000 ∧ s.mode.mode ≠ 0)
    ∧ (∃ (t f : Nat) (a : Activation) (s : State), awake s = true ∧ s.upd.act = some a ∧ a.fellAt = some f ∧ a.written = false ∧ f + 100000000 ≤ max s.now t)
    ∧ (∃ (s : State), PinDriven s ∧ s.upd.lockout = none)
    ∧ (∃ (t : Nat) (s : State), PinDriven s ∧ ∃ (u : Nat), s.upd.lockout = some u ∧ max s.now t < u)
    ∧ (∃ (t : Nat) (s : State), PinDriven s ∧ ∃ (u : Nat), s.upd.lockout = some u ∧ u ≤ max s.now t) :=
  ⟨⟨up, by decide +kernel⟩,
   ⟨vM21, wM229, by decide +kernel⟩,
   ⟨vM24, wM230, by decide +kernel⟩,
   ⟨0, vM21, wM229, by decide +kernel⟩,
   ⟨10000000000, vM25, wM231, by decide +kernel⟩,
   ⟨0, vM21, wM229, by decide +kernel⟩,
   ⟨1000000000, vM26, wM232, by decide +kernel⟩,
   ⟨0, 3, vM27, wM233, by decide +kernel⟩,
   ⟨100000000, 0, vM28, wM234, by decide +kernel⟩,
   ⟨up, by decide +kernel⟩,
   ⟨0, wM235, by decide +kernel, 500, by decide +kernel⟩,
   ⟨1000, wM235, by decide +kernel, 500, by decide +kernel⟩⟩
/-! ## Witnesses of the statements over every command -/

theorem witness_StepRunsFront :
    (∃ (c : Instr) (rest : List Instr) (s : State), s.pending = c :: rest) ∧ (∃ s : State, s.pending = []) :=
  ⟨⟨.sysNop 5 (.mbx 1 7), [.frameBoundary 9], { up with pending := [.sysNop 5 (.mbx 1 7), .frameBoundary 9] }, rfl⟩, ⟨State.reset, rfl⟩⟩

theorem witness_QueueUntouched : ∃ (c : Instr) (s s' : State), exec c s = .next s' ∧ s'.pending = [.frameBoundary 9] :=
  ⟨.hifIntMaskWrite 5 3#32, { up with pending := [.frameBoundary 9] }, _, rfl, by decide +kernel⟩

theorem witness_FaultPinInvariant : ∃ s s' : State, PinDriven s ∧ step s = .next s' ∧ s'.now = 5 :=
  ⟨{ up with pending := [.hifIntMaskWrite 5 3#32] }, _, by decide +kernel, rfl, by decide +kernel⟩

theorem witness_ResetState : (∃ o, o ∈ [0x100, 0x9000] ∧ regRead State.reset o = some 0) ∧
    (∃ o, o ∈ [0x14, 0xA000] ∧ regRead State.reset o = none) :=
  ⟨⟨0x9000, by decide +kernel⟩, ⟨0x14, by decide +kernel⟩⟩

theorem witness_EveryCommandCompletes : (∀ op : Nat, ∃ r c s, Ready op r c s)
    ∧ (∃ mV : Int, -62000 ≤ mV ∧ mV ≤ 72000) ∧ (∃ mV : Int, mV < -62000 ∨ 72000 < mV) ∧ (∃ x : Int, x ≤ 1250) ∧ ∃ x : Int, 1250 < x :=
  ⟨fun op => ⟨.mbx 1 7, cmd0 (on op []), on op [], rfl, rfl, rfl, (by decide +kernel : PinDriven up)⟩,
   ⟨72000, by decide⟩, ⟨72001, by decide⟩, ⟨1250, by decide⟩, ⟨1251, by decide⟩⟩

theorem witness_InterruptRegisters_mask : ∃ s : State, awake s = true ∧ PinDriven s ∧ s.hif.intStat.getLsbD 20 = true
    ∧ s.hif.intMask.getLsbD 20 = false ∧ s.hif.intSent.getLsbD 20 = false :=
  ⟨{ up with hif := { up.hif with intStat := 0x100000#32 } }, by decide +kernel⟩

/-! ## Well-formedness: each check refuses a term that breaks it -/

theorem test_wf_refs : ([.sysNop 0 (.mbx 0 7), .sysNop 0 (.mbx 16 7), .sysNop 0 (.mbx 1 65536), .sysNop 0 (.cue 512 0),
    .sysNop 0 (.cue 0 16)] : List Instr).all (fun i => !i.wf) = true := by decide +kernel

theorem test_wf_registers : ([.mbxTailDoorbell 0 16 0, .mbxTailDoorbell 0 1 65536, .mbxRheadWrite 0 16 0, .mbxRheadWrite 0 1 65536,
    .mbxEnable 0 16 0x80000000#32, .mbxEnable 0 1 4#32, .mbxDisable 0 16 4#32, .mbxDisable 0 1 0x80000004#32, .fltStickyClear 0 13 0#32,
    .macHalfClear 0 64 true 0#32, .tsOvfClear 0 64 0#32, .registerWrite 0 0xC000 0#32, .registerWrite 0 2 0#32,
    .bar0AccessViolation 0 0 true 0 15, .bar0AccessViolation 0 0 true 4 16] : List Instr).all (fun i => !i.wf) = true := by
  decide +kernel

theorem test_wf_command_path : ([.commandTake 0 0 (zeros 64) [], .commandTake 0 16 (zeros 64) [], .commandTake 0 1 (zeros 63) [],
    .threadDispatch 0 8, .threadQuantumExpiry 0 8, .responseWrite 0 0, .responseWrite 0 16, .mailboxDrainTimeout 0 0,
    .mailboxDrainTimeout 0 16, .tagMemoryExpiry 0 0 1, .tagMemoryExpiry 0 16 1, .tagMemoryExpiry 0 1 65536,
    .inbandDatagram 0 { WB.vB10 with port := 64 }, .drainTimeout 0 5 0, .drainTimeout 0 0 65536] : List Instr).all (fun i => !i.wf)
      = true := by
  decide +kernel

theorem test_wf_lengths : (Instr.commandTake 0 1 (zeros 64) (List.replicate 4097 0#8)).wf = false ∧
    (Instr.commandTake 0 1 (zeros 64) (List.replicate 4096 0#8)).wf = true := by decide +kernel

theorem test_wf_units : ([.planeCopyDone 0 65536 [], .corrPersistDone 0 65536, .corrRestoreDone 0 65536, .corrLoadDone 0 65536 [],
    .dramTempCross 0 2 850, .interlockPinChange 0 3 true, .bobbinWrite 0 65536 0#64 true false, .bobbinRead 0 65536 true,
    .bobbinFlush 0 65536, .sacnKeepalive 0 4104, .commitCopySend 0 2, .probeQueue 0 64, .takeIssue 0 256, .takeTimeout 0 256,
    .pixelComplete 0 256 false, .hankComplete 0 256, .bankGate 0 16, .spindleStall 0 256, .vmodFoldBack 0 8 true] : List Instr).all
      (fun i => !i.wf) = true := by
  decide +kernel

theorem test_wf_receive : ([.videoPacket 0 { WD.vD8 with port := 64 }, .fcsVerdict 0 64 true, .audioPacket 0 { WD.vD10 with port := 64 },
    .sacnDataPacket 0 { WD.vD15 with port := 64 }, .sacnDataPacket 0 { WD.vD15 with univ := 64000 }, .sacnSyncPacket 0 64 ⟨0xEFFF0001#32, 5568, 1⟩,
    .sacnSyncPacket 0 1 ⟨0xEFFF0001#32, 5568, 64000⟩, .sacnSourceTimeout 0 64000 0#128, .streamLostTimeout 0 2 0, .streamLostTimeout 0 0 65536,
    .igmpQuery 0 64 0#32, .pauseFrame 0 64 1 1, .pauseFrame 0 1 1 65536, .pauseQuantaExpiry 0 64, .frameTransmitStart 0 65,
    .receivedFrame 0 { WG.vG10 with port := 65 }] : List Instr).all (fun i => !i.wf) = true := by decide +kernel

theorem test_wf_link : ([.ackRx 0 { WG.vG7 with port := 64 } 0#32 1, .ackRx 0 WG.vG7 0#32 256, .nakRx 0 { WG.vG7 with chain := 256 } 0#32 0 0#64,
    .echoRx 0 { WG.vG7 with toEnd := 2 } 0#16 0 0,
    .ackWaitExpiry 0 65536, .discoverCollectEnd 0 256, .measureRotation 0 64,
    .enumerationDone 0 256, .speedConfirmRx 0 { WG.vG7 with port := 64 } 1, .speedConfirmRx 0 WG.vG7 4, .speedConfirmTimeout 0 64,
    .lineRetrained 0 64, .lockChange 0 65 true true true, .lockLossTimeout 0 65] : List Instr).all (fun i => !i.wf) = true := by
  decide +kernel

theorem test_wf_reports :
    (Instr.reportRx 0 { WG.vG7 with port := 64 } { epoch := 0, status := 0, held := 0, temp := 0, rseq := 0, pseq := 0, entries := [] }).wf
        = false ∧
      (Instr.replyRx 0 { WG.vG7 with toEnd := 2 }
        { hop := 1, maxVer := 1, formats := 3, vendor := 0, model := 0, serial := 0, width := 16, height := 8, speeds := 15,
          latF := [], latR := [] }).wf = false := by decide +kernel

theorem test_wf_time : ([.ptpAnnounceRx 0 { WH.vH1 with port := 64 }, .ptpEventRx 0 { port := 64, t1 := 0, t2 := 0, t3 := 0, t4 := 0, tsId := 0 }, .ptpMessageTx 0 64 .sync,
    .announceTimeout 0 64, .triggerFire 0 64, .cueFire 0 512, .cueCommandDone 0 512, .detectProbeDue 0 64, .probeResultTimeout 0 65536,
    .sensorSampleDue 0 16, .i2cTransactionDone 0 16 .failed, .sensorRetry 0 16, .tempStaleTimeout 0 65536] : List Instr).all
      (fun i => !i.wf) = true := by
  decide +kernel

theorem test_wf_fixtures_and_air : ([.dmxFrameStart 0 8, .rdmRequestSend 0 8, .rdmResponse 0 8 .badChecksum, .rdmResponseTimeout 0 8,
    .streamTerminatedSend 0 4096, .beaconSend 0 4 false, .recoveryBeaconSend 0 4 false, .crowdSend 0 4 0 false, .crowdSend 0 0 512 false,
    .anchorDownSend 0 65536 false, .upRx 0 { WL2.vL24 with radio := 4 }, .joinReqRx 0 4 0#64, .resyncRx 0 { WL2.vL24 with radio := 4 },
    .budgetBucketRoll 0 4 0, .budgetBucketRoll 0 0 4, .supervisionTimeout 0 65536, .recoveryHoldExpiry 0 4] : List Instr).all
      (fun i => !i.wf) = true := by
  decide +kernel

theorem test_wf_power_and_metering : ([.feedLevelChange 0 2 0, .feedLiveQualified 0 2, .railOutOfRange 0 32, .comparatorDebounced 0 3 true,
    .gpioWakeEdge 0 32 true, .linkActivityWake 0 64, .meterPowerSample 0 { circuit := 10, p := 0, q := 0, s := 0, ns := 0 },
    .meterWindowEnd 0 { WJ.vJ4 with circuit := 10 }, .pulseStart 0 8, .pulseEnd 0 8] : List Instr).all (fun i => !i.wf) = true := by
  decide +kernel

theorem test_wf_twin_and_faults : ([.helloRx 0 { WK.vK1 with side := 2 }, .digestSegmentRx 0 { WK.vK2 with seg := 3 },
    .faultDetection 0 65536 0 [], .faultDetection 0 0 256 [], .lullExpiry 0 65536, .returnStepDone 0 65536 true, .faultSourceQuiet 0 65536,
    .calMeasurementDone 0 5 [], .calApplyStep 0 5, .calDiscardRetry 0 5 0, .calDiscardRetry 0 0 1024] : List Instr).all (fun i => !i.wf)
      = true := by
  decide +kernel

/-! ## The spec's worked examples -/

/-- "A pixel from host to wire", its fetch: 0xFF, 0x80, 0x00 under the transfer POWER with g = 2.200 (R48). -/
theorem test_facade_fetch : (channelStrand 1 2200 8 255, channelStrand 1 2200 8 128, channelStrand 1 2200 8 0) = (196608, 178687, 0) := by
  decide +kernel

/-- The same pixel's slot (R40). -/
theorem test_facade_slot : slotWord { s0 := 196608, s1 := 178687, s2 := 0 } true false = 0x0040000AE7FF0000 := by decide +kernel

/-- The same pixel on a D16 chain, undimmed (R51). -/
theorem test_facade_d16 : (d16 196608 196608, d16 196608 178687, d16 196608 0) = (65535, 14386, 0) := by decide +kernel

/-- The same pixel dimmed by −27213 tw (R43), and its drive (R51). -/
theorem test_facade_dimmed : (dimTw 196608 (-27213), dimTw 178687 (-27213), dimTw 0 (-27213)) = (169395, 151474, 0)
    ∧ (d16 196608 169395, d16 196608 151474) = (6554, 1439) := by decide +kernel

/-- The same pixel under gamma with G = 5120 (R44). -/
theorem test_facade_gamma : (gammaTw 178687 5120, gammaTw 196608 5120) = (174207, 196608) := by decide +kernel

/-- The chain of the colour loop, the thermal derate and the power cap saturates where the tile does: the example of R166. -/
theorem test_chain_of_dims : dimTw 262100 60 = 262143 ∧ dimTw 262143 (-1500) = 260643 ∧ dimTw 260643 (-2048) = 258595
    ∧ dimTw 200000 (-20) = 199980 ∧ dimTw 0 40 = 0 := by decide +kernel

/-- The two video pixels of the example of R116: Y = 940 is reference white, and Y = 502 is half the signal to the power 2.4. -/
theorem test_video_white :
    let p := videoRgb 0 10 false false (940, 512, 512)
    let h := videoRgb 0 10 false false (502, 512, 512)
    videoStrand false 203 p.1 = 196608 ∧ videoStrand false 203 p.2.1 = 196608 ∧ videoStrand false 203 h.1 = 176947 := by decide +kernel

/-- The frame boundaries of 60 Hz, 240 Hz and 24000/1001 Hz at phase 0 (R202): floor(n × P + 0.5). -/
theorem test_boundaries : boundaryOf 6 0 1 = 16666667 ∧ boundaryOf 6 0 3 = 50000000 ∧ boundaryOf 0x0E 0 1 = 4166667
    ∧ boundaryOf 6 5 0 = 5 := by decide +kernel

/-- The façade chain's load (the example of R267): 24,786 bytes per tile, 1,487,328 an end, and the lowest speeds that meet it. -/
theorem test_speed_example : tileBytes 0 0 4096 = 24786 ∧ endBytes 0 0 (List.replicate 60 4096) = 1487328
    ∧ loadMeets 1487328 6 2500000000 70 = true ∧ loadMeets 1487328 6 1000000000 70 = false
    ∧ loadMeets 1487328 6 1000000000 85 = true := by decide +kernel

/-- The check value of CRC-32 over the nine digits, and that of the CRC-16 of polynomial 0x1021 from 0xFFFF. -/
theorem test_crcs : crc32 [0x31, 0x32, 0x33, 0x34, 0x35, 0x36, 0x37, 0x38, 0x39] = 0xCBF43926#32
    ∧ crc16 [0x31, 0x32, 0x33, 0x34, 0x35, 0x36, 0x37, 0x38, 0x39] = 0x29B1#16 := by decide +kernel

/-! ## One step of a command on a small state -/

/-- The field of the next state, where the outcome is one. -/
def after {α : Type} (i : Instr) (s : State) (f : State → α) : Option α :=
  match exec i s with
  | .next s' => some (f s')
  | _ => none

/-- Raising a mask bit over a status bit sends its message (R58, R59). -/
theorem test_mask_sends : after (.hifIntMaskWrite 5 0x100001#32) { up with hif := { up.hif with intStat := 0x100002#32 } }
    (fun s => (s.hif.intMask, s.out)) = some (0x100001#32, [.msix 20]) := by decide +kernel

/-- A status bit is cleared by writing 1, and a 0 leaves its bit (R58). -/
theorem test_stat_clears : after (.hifIntStatClear 5 2#32) { up with hif := { up.hif with intStat := 0x100003#32 } }
    (fun s => s.hif.intStat) = some 0x100001#32 := by decide +kernel

/-- Every command or event moves the machine's time to its own (R202). -/
theorem test_now_moves : after (.igmpQuery 77 63 0#32) up (fun s => s.now) = some 77 := by decide +kernel

/-- MODE_STATUS in flight is answered and leaves (R219). -/
theorem test_mode_status : after (.modeStatus 9 (.mbx 1 7)) (on 0x0802 []) (fun s => (s.cmds.length, (s.mbx.map (·.2.recs.length)).sum))
    = some (0, 1) := by decide +kernel

end Sys2Proof.Tests
end

section
/-! SUPPORT. Register writes (R10, R56): which offset names a register, what a write of one does, and what an unmasked entry of
the MSI-X table sends. -/

namespace Sys2Proof.Machine

/-! ## What an event answers -/

/-- Two events of one instant with one effect have one outcome. -/
theorem happens_congr {t : Nat} {s : State} {f g : State → State} (h : f (advance t s) = g (advance t s)) :
    happens t s f = happens t s g := by
  simp only [happens, h]

theorem exec_registerWrite (t off : Nat) (v : U32) (s : State) :
    exec (.registerWrite t off v) s = happens t s (regWrite off v) := rfl

theorem exec_bar0AccessViolation (t off : Nat) (w : Bool) (size be : Nat) (s : State) :
    exec (.bar0AccessViolation t off w size be) s = happens t s fun s =>
      if size != 4 || off % 4 != 0 || be != 15 || !regExists s off then barViolate off w s else s := rfl

/-! ## The map of BAR0 -/

@[simp] theorem regExists_advance (t off : Nat) (s : State) : regExists (advance t s) off = regExists s off := rfl

/-- A mailbox's block of 64 bytes names the registers that R60 gives it. -/
theorem regExists_mbx (s : State) {n o : Nat} (hn : n < 16) (ho : o < 64) (ha : o % 4 = 0) :
    regExists s (0x400 + 64 * n + o) = mbxRegExists s n o := by
  have hdiv : (0x400 + 64 * n + o - 0x400) / 64 = n := by omega
  have hmod : (0x400 + 64 * n + o - 0x400) % 64 = o := by omega
  have halign : (0x400 + 64 * n + o) % 4 = 0 := by omega
  simp (disch := omega) only [regExists, hdiv, hmod, halign, decide_eq_true, decide_eq_false, beq_self_eq_true,
    Bool.true_and, Bool.false_and, Bool.and_false, Bool.false_or, Bool.or_false]

/-! ## A write by its offset -/

theorem regWrite_unnamed {off : Nat} (v : U32) {s : State} (hb : off < bar2Base) (h : regExists s off = false) :
    regWrite off v s = barViolate off true s := by
  simp [regWrite, Nat.not_le.mpr hb, h]

theorem regWrite_bar2 (o : Nat) (v : U32) (s : State) : regWrite (bar2Base + o) v s = bar2Write o v s := by
  simp [regWrite]

theorem regWrite_mbx {n o : Nat} (v : U32) {s : State} (hn : n < 16) (ho : o < 64) (ha : o % 4 = 0)
    (h : mbxRegExists s n o = true) : regWrite (0x400 + 64 * n + o) v s = mbxRegWrite n o v s := by
  have hdiv : (0x400 + 64 * n + o - 0x400) / 64 = n := by omega
  have hmod : (0x400 + 64 * n + o - 0x400) % 64 = o := by omega
  have hb : ¬ bar2Base ≤ 0x400 + 64 * n + o := by unfold bar2Base; omega
  have hin : 0x400 ≤ 0x400 + 64 * n + o ∧ 0x400 + 64 * n + o < 0x800 := by omega
  have hstat : 0x400 + 64 * n + o ≠ 0x104 ∧ 0x400 + 64 * n + o ≠ 0x108 := by omega
  unfold regWrite
  rw [if_neg hb, regExists_mbx s hn ho ha, h, hdiv, hmod]
  simp [hin, hstat]

/-- Registers whose every field is read-only, at least one of each unit that has any: IDENT, HIF_CTRL, HIF_EVT_LOST, FLT_ADDR,
FLT_VIOL_CNT, FLT_SUM, PWR_STAT, FAB_PACE, FAB_SVC, TIME_STAT, a counter of port 0, REEL_STAT and a word of the reel's window. -/
def readOnlyOffsets : List Nat :=
  [0x0, 0x4, 0x8, 0xC, 0x10, 0x100, 0x10C, 0x840, 0x848, 0x834, 0x1000, 0x2000, 0x2008, 0x3000, 0x4000, 0x8000, 0x9000]

theorem regWrite_readOnly {off : Nat} (v : U32) (s : State) (h : off ∈ readOnlyOffsets) : regWrite off v s = s := by
  unfold readOnlyOffsets at h
  fin_cases h <;> rfl

/-! ## The ring addresses of a mailbox (R60, R61) -/

/-- A mailbox whose command ring's low address takes `v`: bits 5:0 are reserved. -/
def withCqLow (v : U32) (m : Mbx) : Mbx :=
  { m with cq := (m.cq &&& 0xFFFFFFFF00000000#64) ||| ((v &&& 0xFFFFFFC0#32).setWidth 64) }

theorem mbxRegWrite_cqLow {n : Nat} (v : U32) {s : State} (he : (mbxOf s n).enable = false)
    (hd : (mbxOf s n).draining = false) : mbxRegWrite n 0 v s = modMbx n (withCqLow v) s := by
  simp only [mbxRegWrite, ringAddrWrite, he, hd, Bool.or_self, Bool.false_eq_true, if_false]
  rfl

@[simp] theorem mbxOf_modMbx_same (n : Nat) (f : Mbx → Mbx) (s : State) : mbxOf (modMbx n f s) n = f (mbxOf s n) :=
  kgetD_kmod_same s.mbx n {} f

theorem mbxOf_modMbx_other {n k : Nat} (f : Mbx → Mbx) (s : State) (h : k ≠ n) :
    mbxOf (modMbx n f s) k = mbxOf s k :=
  kgetD_kmod_other s.mbx n k {} {} f h

/-! ## The MSI-X table of BAR2 (R54) -/

theorem testBit_setBit_false (v i : Nat) : (setBit v i false).testBit i = false := by
  unfold setBit
  by_cases h : v.testBit i = true
  · have hv : v / 2 ^ i % 2 = 1 := by simpa [Nat.testBit_eq_decide_div_mod_eq] using h
    have hsub : (v - 2 ^ i) / 2 ^ i = v / 2 ^ i - 1 := by simpa using Nat.sub_mul_div v (2 ^ i) 1
    simp only [h, if_true, Bool.false_eq_true, if_false, Nat.testBit_eq_decide_div_mod_eq, hsub, decide_eq_false_iff_not]
    omega
  · simp [h]

/-- An entry's change reaches the endpoint and what it sends, and nothing else. -/
theorem msixSet_frame (n : Nat) (e : MsixEntry) (s : State) :
    { msixSet n e s with hif := s.hif, out := s.out } = s := by
  simp only [msixSet]
  split <;> rfl

theorem msixEntry_msixSet (n : Nat) (e : MsixEntry) (s : State) : msixEntry (msixSet n e s) n = e := by
  simp only [msixSet]
  split <;> exact kgetD_kset_same s.hif.msix n e {}

theorem msixSet_unmasked_sends {n : Nat} {e : MsixEntry} (s : State) (he : e.masked = false) :
    (msixSet n e s).out = (if s.hif.msixPend.testBit n then [.msix n] else []) ++ s.out := by
  simp only [msixSet, he, bit, Bool.not_false, Bool.true_and]
  split <;> rfl

theorem msixSet_unmasked_pending {n : Nat} {e : MsixEntry} (s : State) (he : e.masked = false) :
    (msixSet n e s).hif.msixPend.testBit n = false := by
  simp only [msixSet, he, bit, Bool.not_false, Bool.true_and]
  split
  · exact testBit_setBit_false _ _
  · next h => simpa using h

/-- The fourth word of an entry of the table is its vector control, MASK in bit 0. -/
theorem bar2Write_vectorControl {n : Nat} (v : U32) (s : State) (hn : n < 32) :
    bar2Write (16 * n + 12) v s = msixSet n { msixEntry s n with masked := v.getLsbD 0 } s := by
  have hlt : 16 * n + 12 < 0x200 := by omega
  have halign : (16 * n + 12) % 4 = 0 := by omega
  have hdiv : (16 * n + 12) / 16 = n := by omega
  simp [bar2Write, hlt, halign, hdiv]

/-! ## The reel's window (R473) -/

theorem windowLoaded_of_loading {s : State} (h : s.reel.loading = true) :
    windowLoaded s = modReel (fun r => { r with loading := false, window := r.loaded, loaded := [] }) s := by
  simp [windowLoaded, h]

end Sys2Proof.Machine
end

section
/-! PROOF. What the events of a register write and of the reel's window answer (R56, R79, R61, R473), and the statement on register
writes assembled from it. -/

namespace Sys2Proof.Safety

open Sys2Proof.Machine

/-- An offset that names no register is the violation of R79, whichever way it is told. -/
theorem registerWrite_unnamed (t : Nat) {off : Nat} (v : U32) {s : State} (hb : off < bar2Base) (h : regExists s off = false) :
    exec (.registerWrite t off v) s = exec (.bar0AccessViolation t off true 4 15) s := by
  rw [exec_registerWrite, exec_bar0AccessViolation]
  refine happens_congr ?_
  rw [regWrite_unnamed v hb (by simpa using h)]
  simp [h]

theorem registerWrite_readOnly (t : Nat) {off : Nat} (v : U32) {s : State} (ha : awake s = true) (hp : PinDriven s)
    (h : off ∈ readOnlyOffsets) : exec (.registerWrite t off v) s = .next (advance t s) :=
  happens_plain ha hp (regWrite_readOnly v _ h) rfl rfl rfl rfl rfl

theorem registerWrite_vectorControl (t : Nat) {n : Nat} (v : U32) {s : State} (ha : awake s = true) (hp : PinDriven s)
    (hn : n < 32) : exec (.registerWrite t (bar2Base + 16 * n + 12) v) s =
      .next (msixSet n { msixEntry s n with masked := v.getLsbD 0 } (advance t s)) := by
  have frame := msixSet_frame n { msixEntry s n with masked := v.getLsbD 0 } (advance t s)
  refine happens_plain ha hp ?_ (congrArg (·.pending) frame) (congrArg (·.faultLow) frame) (congrArg (·.flt) frame)
    (congrArg (·.power) frame) (congrArg (·.boot) frame)
  rw [Nat.add_assoc, regWrite_bar2, bar2Write_vectorControl v _ hn]
  rfl

/-- A mailbox that is neither enabled nor draining takes a ring address (R60, R61). -/
theorem registerWrite_cqLow (t : Nat) {n : Nat} (v : U32) {s : State} (ha : awake s = true) (hp : PinDriven s) (hn : n < 16)
    (hu : mbxUnassigned n 0 s = false) (he : (mbxOf s n).enable = false) (hd : (mbxOf s n).draining = false) :
    exec (.registerWrite t (0x400 + 64 * n) v) s = .next (modMbx n (withCqLow v) (advance t s)) := by
  have hex : mbxRegExists (advance t s) n 0 = true := by
    change (decide (0 ≤ 0x24) && !mbxUnassigned n 0 s) = true
    simp [hu]
  refine happens_plain ha hp ?_ rfl rfl rfl rfl rfl
  rw [show 0x400 + 64 * n = 0x400 + 64 * n + 0 from rfl, regWrite_mbx v hn (by decide) rfl hex]
  exact mbxRegWrite_cqLow v he hd

theorem reelWindowLoadDone_loading (t : Nat) {s : State} (ha : awake s = true) (hp : PinDriven s) (hl : s.reel.loading = true) :
    exec (.reelWindowLoadDone t) s = .next { advance t s with reel := { s.reel with
      window := s.reel.loaded, loading := false, loaded := [] } } :=
  happens_plain ha hp (windowLoaded_of_loading hl) rfl rfl rfl rfl rfl

/-- Settles O10: a write by its offset, then the cursor's write and the end of the window's load. -/
theorem registerAccess : Obligations.RegisterAccess := by
  refine ⟨⟨?unnamed, ?ownCommand, ?readOnly, ?vectorControl, ?bobSel, ?ringAddress⟩, ?cursor, ?loaded⟩
  case unnamed => exact fun t _ v _ hb h => registerWrite_unnamed t v hb h
  case ownCommand => exact fun _ _ _ => ⟨rfl, rfl, rfl, rfl, rfl⟩
  case readOnly => exact fun t _ v _ ha hp h => registerWrite_readOnly t v ha hp h
  case vectorControl =>
    intro t n v s ha hp hn hmask
    refine ⟨_, registerWrite_vectorControl t v ha hp hn, ?_, msixSet_unmasked_pending _ hmask,
      msixSet_unmasked_sends _ hmask⟩
    rw [msixEntry_msixSet]
    exact hmask
  case bobSel => exact fun _ _ _ ha hp => happens_plain ha hp rfl rfl rfl rfl rfl rfl
  case ringAddress =>
    intro t n v s ha hp _ hn hu he hd
    refine ⟨_, registerWrite_cqLow t v ha hp hn hu he hd, ?_, fun k hk => mbxOf_modMbx_other _ _ hk, rfl⟩
    rw [mbxOf_modMbx_same]
    rfl
  case cursor => exact fun _ _ _ ha hp => happens_plain ha hp rfl rfl rfl rfl rfl rfl
  case loaded => exact fun t _ ha hp hl => reelWindowLoadDone_loading t ha hp hl

end Sys2Proof.Safety
end

section
/-! SUPPORT. Bobbins (R26 to R33, R189, R190): what a bobbin's record reads after a change of it or of another, and what its
producer, its consumer and a flush do, a case at a time. The pace loop's evaluation (R18 to R22). -/

namespace Sys2Proof.Machine

/-! ## A bobbin's record -/

@[simp] theorem bobOf_modBob_same (id : Nat) (f : Bobbin → Bobbin) (s : State) : bobOf (modBob id f s) id = f (bobOf s id) :=
  kgetD_kmod_same s.fab.bobbins id {} f

theorem bobOf_modBob_other {id k : Nat} (f : Bobbin → Bobbin) (s : State) (h : k ≠ id) : bobOf (modBob id f s) k = bobOf s k :=
  kgetD_kmod_other s.fab.bobbins id k {} {} f h

@[simp] theorem bobOf_put (o : Out) (s : State) (id : Nat) : bobOf (put o s) id = bobOf s id := rfl

@[simp] theorem bobOf_advance (t : Nat) (s : State) (id : Nat) : bobOf (advance t s) id = bobOf s id := rfl

/-- A change of bobbins reaches the fabric's state alone. -/
abbrev OnlyFab (s z : State) : Prop := { z with fab := s.fab } = s

theorem modBob_onlyFab (id : Nat) (f : Bobbin → Bobbin) (s : State) : OnlyFab s (modBob id f s) := rfl

theorem OnlyFab.trans {a b c : State} (h : OnlyFab a b) (h' : OnlyFab b c) : OnlyFab a c := by
  have e : ({ c with fab := a.fab } : State) = { b with fab := a.fab } := congrArg (fun z => { z with fab := a.fab }) h'
  exact e.trans h

/-! ## UNDERRUN (R32, R33) -/

/-- FAB_BOB_STAT reads 0 where the selection names no bobbin (R32). -/
theorem bobDef_isSome_of_bobStat {s : State} (h : bobStat s ≠ 0) : (bobDef s.fab.bobSel.toNat).isSome = true := by
  unfold bobStat at h
  cases hd : bobDef s.fab.bobSel.toNat with
  | none => simp [hd] at h
  | some d => rfl

theorem underrunClear_of_one {v : U32} {s : State} (hv : v.getLsbD 1 = true)
    (hd : (bobDef s.fab.bobSel.toNat).isSome = true) :
    underrunClear v s = modBob s.fab.bobSel.toNat (fun b => { b with underrun := false }) s := by
  simp [underrunClear, hv, hd]

/-! ## The producer -/

theorem bobWrite_unnamed {id : Nat} (w : BWord) (s : State) (hd : bobDef id = none) : bobWrite id w s = s := by
  simp [bobWrite, hd]

theorem bobWrite_named {id : Nat} {d : BobDef} (w : BWord) (s : State) (hd : bobDef id = some d) :
    bobWrite id w s = bobOffer d id w s := by
  simp [bobWrite, hd]

/-- The producer begins or goes on with an item that is neither swallowed nor refused, and no flush is to be answered. -/
def Accepting (b : Bobbin) : Prop := b.swallowing = false ∧ b.refusing = false ∧ b.flushedNext = false

theorem bobOffer_room {d : BobDef} {id : Nat} (w : BWord) {s : State} (ha : Accepting (bobOf s id))
    (hf : bobFill s id < d.capacity) (hw : (bobOf s id).waiting = []) :
    bobOffer d id w s = modBob id (fun b => { b with words := b.words ++ [w], partway := !w.eoi }) s := by
  obtain ⟨hs, hr, hn⟩ := ha
  simp [bobOffer, hs, hr, hn, hf, hw]

theorem bobOffer_full_data {d : BobDef} {id : Nat} (w : BWord) {s : State} (ha : Accepting (bobOf s id))
    (hf : d.capacity ≤ bobFill s id) (hc : d.control = false) :
    bobOffer d id w s = modBob id (fun b => { b with waiting := b.waiting ++ [w] }) s := by
  obtain ⟨hs, hr, hn⟩ := ha
  simp [bobOffer, hs, hr, hn, Nat.not_lt.mpr hf, hc]

theorem bobOffer_full_control {d : BobDef} {id : Nat} (w : BWord) {s : State} (ha : Accepting (bobOf s id))
    (hf : d.capacity ≤ bobFill s id) (hc : d.control = true) :
    bobOffer d id w s = put (.bobAnswer id stBUSY)
      (modBob id (fun b => { b with words := wholeItems b.words, partway := false, refusing := !w.eoi }) s) := by
  obtain ⟨hs, hr, hn⟩ := ha
  simp [bobOffer, hs, hr, hn, Nat.not_lt.mpr hf, hc]

/-! ## A held producer's words (R189) -/

/-- A word that a held producer waits with is acknowledged; `l` are those it waits with after it. -/
def acknowledged (w : BWord) (l : List BWord) (b : Bobbin) : Bobbin :=
  { b with words := b.words ++ [w], waiting := l, partway := !w.eoi }

/-- What every acknowledgement keeps, the refill of a bobbin keeps. -/
theorem bobRefill_keeps {P : State → Prop} (d : BobDef) (id : Nat)
    (step : ∀ w l s, P s → P (modBob id (acknowledged w l) s)) : ∀ (n : Nat) (s : State), P s → P (bobRefill d id n s) := by
  intro n
  induction n with
  | zero => exact fun _ h => h
  | succ n ih =>
    intro s h
    unfold bobRefill
    split
    · exact h
    · split
      · exact ih _ (step _ _ _ h)
      · exact h

theorem bobRefill_onlyFab (d : BobDef) (id n : Nat) (s : State) : OnlyFab s (bobRefill d id n s) :=
  bobRefill_keeps d id (fun w l _ h => h.trans (modBob_onlyFab id (acknowledged w l) _)) n s rfl

theorem bobOf_bobRefill_other (d : BobDef) {id k : Nat} (n : Nat) (s : State) (hk : k ≠ id) :
    bobOf (bobRefill d id n s) k = bobOf s k :=
  bobRefill_keeps (P := fun z => bobOf z k = bobOf s k) d id
    (fun w l z h => (bobOf_modBob_other (acknowledged w l) z hk).trans h) n s rfl

theorem bobRefill_last (d : BobDef) (id n : Nat) (s : State) :
    (bobOf (bobRefill d id n s) id).last = (bobOf s id).last :=
  bobRefill_keeps (P := fun z => (bobOf z id).last = (bobOf s id).last) d id
    (fun w l z h => (congrArg (·.last) (bobOf_modBob_same id (acknowledged w l) z)).trans h) n s rfl

theorem bobRefill_poisoned (d : BobDef) (id n : Nat) (s : State) :
    (bobOf (bobRefill d id n s) id).poisoned = (bobOf s id).poisoned :=
  bobRefill_keeps (P := fun z => (bobOf z id).poisoned = (bobOf s id).poisoned) d id
    (fun w l z h => (congrArg (·.poisoned) (bobOf_modBob_same id (acknowledged w l) z)).trans h) n s rfl

theorem bobRefill_one {d : BobDef} {id : Nat} {x : BWord} {s : State} (hw : (bobOf s id).waiting = [x])
    (hf : bobFill s id < d.capacity) : bobRefill d id 1 s = modBob id (acknowledged x []) s := by
  simp only [bobRefill, hw, hf, if_true]
  rfl

/-! ## The consumer -/

/-- A word as a read delivers it: poisoned where its parity fails (R26). -/
def asRead (ok : Bool) (w : BWord) : BWord := if ok then w else { w with poison := true }

theorem asRead_poison (ok : Bool) (w : BWord) : (asRead ok w).poison = !(ok && !w.poison) := by
  cases ok <;> simp [asRead]

/-- A bobbin that has delivered a word, counted where it is poisoned. -/
def delivered (w : BWord) (b : Bobbin) : Bobbin :=
  { b with last := some w, poisoned := b.poisoned + (if w.poison then 1 else 0) }

theorem bobOf_bobDeliver_same (id : Nat) (w : BWord) (s : State) :
    bobOf (bobDeliver id w s) id = delivered w (bobOf s id) := by
  cases hp : w.poison <;> simp [bobDeliver, bobPoisoned, delivered, b2n, hp]

theorem bobOf_bobDeliver_other {id k : Nat} (w : BWord) (s : State) (hk : k ≠ id) :
    bobOf (bobDeliver id w s) k = bobOf s k := by
  cases hp : w.poison <;> simp [bobDeliver, bobPoisoned, b2n, hp, bobOf_modBob_other _ _ hk]

theorem bobDeliver_onlyFab (id : Nat) (w : BWord) (s : State) : OnlyFab s (bobDeliver id w s) := by
  cases hp : w.poison <;> simp only [bobDeliver, bobPoisoned, b2n, hp] <;> rfl

/-- The state in which a read has delivered the front word `w`, with `rest` behind it. -/
def afterRead (id : Nat) (w : BWord) (rest : List BWord) (s : State) : State :=
  bobDeliver id w (modBob id (fun b => { b with words := rest, started := !w.eoi }) s)

theorem bobOf_afterRead_same (id : Nat) (w : BWord) (rest : List BWord) (s : State) : bobOf (afterRead id w rest s) id =
    delivered w { bobOf s id with words := rest, started := !w.eoi } := by
  rw [afterRead, bobOf_bobDeliver_same, bobOf_modBob_same]

theorem bobOf_afterRead_other {id k : Nat} (w : BWord) (rest : List BWord) (s : State) (hk : k ≠ id) :
    bobOf (afterRead id w rest s) k = bobOf s k := by
  rw [afterRead, bobOf_bobDeliver_other _ _ hk, bobOf_modBob_other _ _ hk]

theorem afterRead_onlyFab (id : Nat) (w : BWord) (rest : List BWord) (s : State) : OnlyFab s (afterRead id w rest s) :=
  (modBob_onlyFab _ _ _).trans (bobDeliver_onlyFab _ _ _)

theorem OnlyFab.unitFill_eq {s z : State} (h : OnlyFab s z) (id : Nat) : unitFill z id = unitFill s id :=
  (show unitFill z id = unitFill { z with fab := s.fab } id from rfl).trans (congrArg (unitFill · id) h)

theorem bobRead_word {d : BobDef} {id : Nat} (ok : Bool) {w : BWord} {rest : List BWord} {s : State}
    (hc : (bobOf s id).cutMark = false) (hw : (bobOf s id).words = w :: rest) (hr : bobReady (bobOf s id) = true) :
    bobRead d id ok s = bobRefill d id (bobOf s id).waiting.length (afterRead id (asRead ok w) rest s) := by
  simp [bobRead, hc, hw, hr, afterRead, asRead]

theorem bobRead_empty {d : BobDef} {id : Nat} (ok : Bool) {s : State} (hc : (bobOf s id).cutMark = false)
    (hw : (bobOf s id).words = []) (hu : unitFill s id = 0) : bobRead d id ok s =
      bobDeliver id ((bobOf s id).last.getD { word := 0, poison := true }) (modBob id (fun b => { b with underrun := true }) s) := by
  simp [bobRead, hc, hw, hu]

/-! ## Flushing (R29) -/

theorem unitFlush_frame (id : Nat) (s : State) : { unitFlush id s with
    link := s.link, sched := s.sched, fix := s.fix, air := s.air, reel := s.reel } = s := by
  cases hn : id % 1024 == 1 <;> simp only [unitFlush, hn] <;> split <;> rfl

theorem bobOf_unitFlush (id : Nat) (s : State) (k : Nat) : bobOf (unitFlush id s) k = bobOf s k := by
  have h : (unitFlush id s).fab = s.fab := congrArg (·.fab) (unitFlush_frame id s)
  simp only [bobOf, h]

theorem sbOf_modSb_same (b : Nat) (f : SBank → SBank) (s : State) : sbOf (modSb b f s) b = f (sbOf s b) :=
  kgetD_kmod_same s.sched.banks b {} f

theorem spOf_modSp_same (i : Nat) (f : Spindle → Spindle) (s : State) : spOf (modSp i f s) i = f (spOf s i) :=
  kgetD_kmod_same s.sched.spindles i {} f

/-- The Air uplink shares its number with the nodes' queues, and a flush leaves completions and events alone. -/
theorem unitFill_unitFlush {id : Nat} (s : State) (h : id / 1024 ∉ [6, 15]) : unitFill (unitFlush id s) id = 0 := by
  simp only [unitFill, unitFlush]
  split
  next h6 => simp [h6] at h
  next h7 => simp [h7]
  next h9 => simp only [h9, sbOf_modSb_same, List.length_nil]
  next h10 => simp only [h10, spOf_modSp_same, List.length_nil]
  next h14 => simp [h14]
  next h15 => simp [h15] at h
  next h20 => simp [h20]
  next => rfl

/-- A bobbin after a flush that holds no producer. -/
def flushed (b : Bobbin) : Bobbin :=
  { b with words := [], waiting := [], swallowing := b.swallowing || b.partway, cutMark := b.cutMark || b.started, started := false }

theorem bobFlush_named {id : Nat} {d : BobDef} {s : State} (hd : bobDef id = some d) (hw : (bobOf s id).waiting = []) :
    bobFlush id s = modBob id flushed (unitFlush id s) := by
  simp only [bobFlush, hd, hw, forEach, List.foldl_nil]
  rfl

theorem bobFlush_unnamed {id : Nat} (s : State) (hd : bobDef id = none) : bobFlush id s = s := by
  simp [bobFlush, hd]

/-! ## The pace loop's evaluation (R18, R20, R22) -/

/-- An evaluation is due: the weave is in progress, the rail has settled, and 20 µs have passed. -/
def EvaluationDue (s : State) : Prop :=
  s.fab.frozen = false ∧ s.fab.settling = false ∧ s.fab.weaveFinish = none ∧ s.fab.lastEvalAt + 20000 ≤ s.now

theorem paceEvaluate_notDue {s : State} (h : s.fab.frozen = true ∨ s.fab.settling = true ∨ s.fab.weaveFinish.isSome = true
    ∨ s.now < s.fab.lastEvalAt + 20000) : paceEvaluate s = s := by
  simp only [paceEvaluate, Bool.or_eq_true, decide_eq_true_eq, or_assoc, h, if_true]

/-- The instant of the evaluation is noted. -/
def evaluated (s : State) : State := { s with fab := { s.fab with lastEvalAt := s.now } }

theorem paceEvaluate_due {s : State} (hd : EvaluationDue s) : paceEvaluate s =
    if s.fab.vcore < ceiling s then
      if projectedSlack s < s.fab.raiseTh then { s with fab := { s.fab with
        lastEvalAt := s.now, vcore := min (ceiling s) (s.fab.vcore + 10), settling := true } }
      else evaluated s
    else if projectedSlack s < s.fab.shedTh && canShed s then
      { s with fab := { s.fab with lastEvalAt := s.now, shedPending := true } }
    else evaluated s := by
  obtain ⟨hf, hr, hw, ht⟩ := hd
  exact if_neg (by simp [hf, hr, hw, ht])

/-- The setpoint rises by 10 mV, at most to the ceiling, and the rail has to settle. -/
theorem paceEvaluate_raise {s : State} (hd : EvaluationDue s) (hv : s.fab.vcore < ceiling s)
    (hs : projectedSlack s < s.fab.raiseTh) : paceEvaluate s = { s with fab := { s.fab with
      lastEvalAt := s.now, vcore := min (ceiling s) (s.fab.vcore + 10), settling := true } } := by
  rw [paceEvaluate_due hd, if_pos hv, if_pos hs]

/-- At the ceiling a step is shed in place of a raise. -/
theorem paceEvaluate_shed {s : State} (hd : EvaluationDue s) (hv : ceiling s ≤ s.fab.vcore)
    (hs : projectedSlack s < s.fab.shedTh) (hsh : canShed s = true) : paceEvaluate s = { s with fab := { s.fab with
      lastEvalAt := s.now, shedPending := true } } := by
  rw [paceEvaluate_due hd, if_neg (Nat.not_lt.mpr hv), if_pos (by simp [hs, hsh])]

end Sys2Proof.Machine
end

section
/-! PROOF. What the events of a bobbin and of the pace loop answer (R17 to R30, R33, R189, R190), and the statements on UNDERRUN
and on both assembled from it. -/

namespace Sys2Proof.Safety

open Sys2Proof.Machine

/-! ## UNDERRUN -/

/-- An event whose effect is on the fabric's state alone answers its effect. -/
theorem happens_onlyFab {t : Nat} {s z : State} {f : State → State} (ha : awake s = true) (hp : PinDriven s)
    (e : f (advance t s) = z) (h : OnlyFab (advance t s) z) : happens t s f = .next z :=
  happens_plain ha hp e (congrArg (·.pending) h) (congrArg (·.faultLow) h) (congrArg (·.flt) h) (congrArg (·.power) h)
    (congrArg (·.boot) h)

theorem underrunClear_selected (t : Nat) {v : U32} {s : State} (ha : awake s = true) (hp : PinDriven s)
    (hv : v.getLsbD 1 = true) (hd : (bobDef s.fab.bobSel.toNat).isSome = true) : exec (.underrunClear t v) s =
      .next (modBob s.fab.bobSel.toNat (fun b => { b with underrun := false }) (advance t s)) :=
  happens_onlyFab ha hp (underrunClear_of_one hv hd) (modBob_onlyFab _ _ _)

/-- Settles O8: the clear reaches the bobbin selected, and a write of FAB_BOB_SEL before it selects. -/
theorem underrunClear : Obligations.UnderrunClear := by
  refine ⟨?clear, ?select⟩
  case clear =>
    intro t v s ha hp hv hstat
    refine ⟨_, underrunClear_selected t ha hp hv (bobDef_isSome_of_bobStat hstat), ?_, fun k hk => ?_, rfl⟩
    · rw [bobOf_modBob_same]
    · exact bobOf_modBob_other _ _ hk
  case select =>
    intro t u w v s ha hp hv hd
    have hsel : (w.setWidth 16).toNat = w.toNat % 65536 := BitVec.toNat_setWidth 16 w
    rw [← hsel] at hd ⊢
    have hwrite : exec (.registerWrite t 0x2010 w) s =
        .next { advance t s with fab := { s.fab with bobSel := w.setWidth 16 } } :=
      happens_onlyFab ha hp rfl rfl
    refine ⟨_, _, hwrite, underrunClear_selected u ha hp hv hd, ?_, fun k hk => ?_⟩
    · exact congrArg (·.underrun) (bobOf_modBob_same _ _ _)
    · exact bobOf_modBob_other _ _ hk

/-! ## Bobbins -/

theorem exec_bobbinRead_named (t : Nat) {id : Nat} {d : BobDef} (ok : Bool) (s : State) (hd : bobDef id = some d) :
    exec (.bobbinRead t id ok) s = happens t s (bobRead d id ok) := by
  change execBobbinRead t id ok s = _
  simp only [execBobbinRead, hd]

theorem exec_bobbinRead_unnamed (t : Nat) {id : Nat} (ok : Bool) (s : State) (hd : bobDef id = none) :
    exec (.bobbinRead t id ok) s = happens t s fun z => z := by
  change execBobbinRead t id ok s = _
  simp only [execBobbinRead, hd]

theorem bobbinWrite_room (t : Nat) {id : Nat} {d : BobDef} (word : U64) (eoi poison : Bool) {s : State} (ha : awake s = true)
    (hp : PinDriven s) (hd : bobDef id = some d) (hacc : Accepting (bobOf s id)) (hf : bobFill s id < d.capacity)
    (hw : (bobOf s id).waiting = []) : exec (.bobbinWrite t id word eoi poison) s = .next (modBob id (fun b =>
      { b with words := b.words ++ [{ word := word, poison := poison, eoi := eoi }], partway := !eoi }) (advance t s)) :=
  happens_onlyFab ha hp ((bobWrite_named _ _ hd).trans (bobOffer_room _ (s := advance t s) hacc hf hw)) (modBob_onlyFab _ _ _)

theorem bobbinWrite_held (t : Nat) {id : Nat} {d : BobDef} (word : U64) (eoi poison : Bool) {s : State} (ha : awake s = true)
    (hp : PinDriven s) (hd : bobDef id = some d) (hacc : Accepting (bobOf s id)) (hf : d.capacity ≤ bobFill s id)
    (hc : d.control = false) : exec (.bobbinWrite t id word eoi poison) s = .next (modBob id (fun b =>
      { b with waiting := b.waiting ++ [{ word := word, poison := poison, eoi := eoi }] }) (advance t s)) :=
  happens_onlyFab ha hp ((bobWrite_named _ _ hd).trans (bobOffer_full_data _ (s := advance t s) hacc hf hc))
    (modBob_onlyFab _ _ _)

theorem bobbinWrite_refused (t : Nat) {id : Nat} {d : BobDef} (word : U64) (eoi poison : Bool) {s : State} (ha : awake s = true)
    (hp : PinDriven s) (hd : bobDef id = some d) (hacc : Accepting (bobOf s id)) (hf : d.capacity ≤ bobFill s id)
    (hc : d.control = true) : exec (.bobbinWrite t id word eoi poison) s = .next (put (.bobAnswer id stBUSY) (modBob id (fun b =>
      { b with words := wholeItems b.words, partway := false, refusing := !eoi }) (advance t s))) :=
  happens_plain ha hp ((bobWrite_named _ _ hd).trans (bobOffer_full_control _ (s := advance t s) hacc hf hc)) rfl rfl rfl rfl rfl

theorem bobbinRead_word (t : Nat) {id : Nat} {d : BobDef} (ok : Bool) {w : BWord} {rest : List BWord} {s : State}
    (ha : awake s = true) (hp : PinDriven s) (hd : bobDef id = some d) (hc : (bobOf s id).cutMark = false)
    (hw : (bobOf s id).words = w :: rest) (hr : bobReady (bobOf s id) = true) : exec (.bobbinRead t id ok) s =
      .next (bobRefill d id (bobOf s id).waiting.length (afterRead id (asRead ok w) rest (advance t s))) := by
  rw [exec_bobbinRead_named t ok s hd]
  exact happens_onlyFab ha hp (bobRead_word ok (s := advance t s) hc hw hr)
    ((afterRead_onlyFab _ _ _ _).trans (bobRefill_onlyFab _ _ _ _))

theorem bobbinRead_empty (t : Nat) {id : Nat} {d : BobDef} (ok : Bool) {s : State} (ha : awake s = true) (hp : PinDriven s)
    (hd : bobDef id = some d) (hc : (bobOf s id).cutMark = false) (hw : (bobOf s id).words = []) (hu : unitFill s id = 0) :
    exec (.bobbinRead t id ok) s = .next (bobDeliver id ((bobOf s id).last.getD { word := 0, poison := true })
      (modBob id (fun b => { b with underrun := true }) (advance t s))) := by
  rw [exec_bobbinRead_named t ok s hd]
  exact happens_onlyFab ha hp (bobRead_empty ok (s := advance t s) hc hw hu)
    ((modBob_onlyFab _ _ _).trans (bobDeliver_onlyFab _ _ _))

theorem bobbinFlush_named (t : Nat) {id : Nat} {d : BobDef} {s : State} (ha : awake s = true) (hp : PinDriven s)
    (hd : bobDef id = some d) (hw : (bobOf s id).waiting = []) :
    exec (.bobbinFlush t id) s = .next (modBob id flushed (unitFlush id (advance t s))) := by
  have frame := unitFlush_frame id (advance t s)
  exact happens_plain ha hp (bobFlush_named (s := advance t s) hd hw) (congrArg (·.pending) frame)
    (congrArg (·.faultLow) frame) (congrArg (·.flt) frame) (congrArg (·.power) frame) (congrArg (·.boot) frame)

/-- A read's delivery: the front word leaves, is kept as the last delivered, and is counted where it is poisoned; the refill
that follows brings at most what a held producer waits with. -/
theorem bobbinRead_delivers (t : Nat) {id : Nat} {d : BobDef} (ok : Bool) {w : BWord} {rest : List BWord} {s : State}
    (ha : awake s = true) (hp : PinDriven s) (hd : bobDef id = some d) (hc : (bobOf s id).cutMark = false)
    (hw : (bobOf s id).words = w :: rest) (hr : bobReady (bobOf s id) = true) :
    ∃ s', exec (.bobbinRead t id ok) s = .next s'
      ∧ ((bobOf s id).waiting = [] → (bobOf s' id).words = rest)
      ∧ (∀ x, (bobOf s id).waiting = [x] → bobFill s id ≤ d.capacity → (bobOf s' id).words = rest ++ [x] ∧ (bobOf s' id).waiting = [])
      ∧ (bobOf s' id).last = some (asRead ok w)
      ∧ (bobOf s' id).poisoned = (bobOf s id).poisoned + (if ok && !w.poison then 0 else 1)
      ∧ (∀ j, j ≠ id → bobOf s' j = bobOf s j) := by
  have front : bobOf (afterRead id (asRead ok w) rest (advance t s)) id =
      delivered (asRead ok w) { bobOf s id with words := rest, started := !(asRead ok w).eoi } := bobOf_afterRead_same _ _ _ _
  refine ⟨_, bobbinRead_word t ok ha hp hd hc hw hr, fun h0 => ?_, fun x h1 hfill => ?_, ?_, ?_, fun j hj => ?_⟩
  · rw [h0]
    exact congrArg (·.words) front
  · have room : bobFill (afterRead id (asRead ok w) rest (advance t s)) id < d.capacity := by
      have hunit := (afterRead_onlyFab id (asRead ok w) rest (advance t s)).unitFill_eq id
      have hfull : unitFill s id + (rest.length + 1) ≤ d.capacity := by simpa [bobFill, hw] using hfill
      have hsame : unitFill (advance t s) id = unitFill s id := rfl
      simp only [bobFill, front, hunit, hsame, delivered]
      omega
    have hheld : (bobOf (afterRead id (asRead ok w) rest (advance t s)) id).waiting = [x] :=
      (congrArg (·.waiting) front).trans h1
    rw [h1, List.length_singleton, bobRefill_one hheld room, bobOf_modBob_same, front]
    exact ⟨rfl, rfl⟩
  · rw [bobRefill_last, front]
    rfl
  · rw [bobRefill_poisoned, front]
    cases hpoison : ok && !w.poison <;> simp [delivered, asRead_poison, hpoison]
  · rw [bobOf_bobRefill_other _ _ _ hj, bobOf_afterRead_other _ _ _ hj]
    rfl

/-! ## The statement -/

/-- Settles O27: a bobbin's write, read and flush by what it holds, then the pace loop's window, evaluation and settling. -/
theorem paceAndBobbins : Obligations.PaceAndBobbins := by
  refine ⟨⟨?write, ?read, ?readEmpty, ?flush, ?unnamed⟩, ?window, ?notDue, ?raise, ?shed, ?settled⟩
  case write =>
    intro t id d word eoi poison s ha hp hd hs hr hn
    have hacc : Accepting (bobOf s id) := ⟨hs, hr, hn⟩
    refine ⟨fun hf hw => bobbinWrite_room t word eoi poison ha hp hd hacc hf hw,
      fun hf hc => bobbinWrite_held t word eoi poison ha hp hd hacc hf hc,
      fun hf hc => ⟨_, bobbinWrite_refused t word eoi poison ha hp hd hacc hf hc, rfl, ?_, ?_⟩⟩
    · rw [bobOf_put, bobOf_modBob_same, bobOf_advance]
    · rw [bobOf_put, bobOf_modBob_same]
  case read => exact fun t id d ok w rest s ha hp hd hc hw hr => bobbinRead_delivers t ok ha hp hd hc hw hr
  case readEmpty =>
    intro t id d ok s ha hp hd hc hw hu
    refine ⟨_, bobbinRead_empty t ok ha hp hd hc hw hu, ?_⟩
    rw [bobOf_bobDeliver_same, bobOf_modBob_same]
    exact ⟨hw, rfl, rfl⟩
  case flush =>
    intro t id d s ha hp hd hw
    have keeps : ∀ j, bobOf (unitFlush id (advance t s)) j = bobOf s j := fun j =>
      bobOf_unitFlush id (advance t s) j
    refine ⟨_, bobbinFlush_named t ha hp hd hw, ?_, ?_, ?_, ?_, fun j hj => ?_, fun hid => unitFill_unitFlush _ hid⟩
    · rw [bobOf_modBob_same]
      rfl
    · rw [bobOf_modBob_same, keeps]
      rfl
    · rw [bobOf_modBob_same, keeps]
      rfl
    · rw [bobOf_modBob_same]
      rfl
    · rw [bobOf_modBob_other _ _ hj, keeps]
  case unnamed =>
    intro t id word eoi poison ok s ha hp hd
    exact ⟨happens_onlyFab ha hp (bobWrite_unnamed _ _ hd) rfl,
      (exec_bobbinRead_unnamed t ok s hd).trans (happens_onlyFab ha hp rfl rfl),
      happens_onlyFab ha hp (bobFlush_unnamed _ hd) rfl⟩
  case window => exact fun t fabric s ha hp => happens_onlyFab ha hp rfl rfl
  case notDue => exact fun t s ha hp h => happens_onlyFab ha hp (paceEvaluate_notDue (s := advance t s) h) rfl
  case raise =>
    intro t s ha hp hf hr hw ht hv hs
    exact happens_onlyFab ha hp (paceEvaluate_raise (s := advance t s) ⟨hf, hr, hw, ht⟩ hv hs) rfl
  case shed =>
    intro t s ha hp hf hr hw ht hv hs hsh
    exact happens_onlyFab ha hp (paceEvaluate_shed (s := advance t s) ⟨hf, hr, hw, ht⟩ hv hs hsh) rfl
  case settled =>
    exact fun t s ha hp => happens_onlyFab (f := fun z => { z with fab := { z.fab with settling := false } }) ha hp rfl rfl

end Sys2Proof.Safety
end

section
/-! SUPPORT. The fields of a payload: what a little-endian number reads as, alone and within a longer byte string. -/

namespace Sys2Proof.Machine

@[simp] theorem length_leN (n v : Nat) : (leN n v).length = n := by
  simp [leN]

@[simp] theorem length_zeros (n : Nat) : (zeros n).length = n := List.length_replicate

theorem leN_succ (n v : Nat) : leN (n + 1) v = BitVec.ofNat 8 v :: leN n (v / 256) := by
  have shift (i : Nat) : v / 2 ^ (8 * (i + 1)) = v / 256 / 2 ^ (8 * i) := by
    rw [Nat.div_div_eq_div_mul, Nat.mul_succ, Nat.pow_add, Nat.mul_comm]
  simp [leN, List.range_succ_eq_map, shift]

theorem leNat_leN (n v : Nat) : leNat (leN n v) = v % 256 ^ n := by
  induction n generalizing v with
  | zero => simp [leN, leNat, Nat.mod_one]
  | succ n ih =>
    have tail := ih (v / 256)
    rw [leNat] at tail
    have split : v % 256 ^ (n + 1) = v % 256 + 256 * (v / 256 % 256 ^ n) := by rw [Nat.pow_succ', Nat.mod_mul]
    rw [leN_succ, leNat, List.foldr_cons, tail, BitVec.toNat_ofNat, split]

/-- A field within the first of two strings. -/
theorem field_append_left {a : Bytes} (b : Bytes) {o n : Nat} (h : o + n ≤ a.length) : field (a ++ b) o n = field a o n := by
  refine congrArg leNat (List.map_congr_left fun i hi => ?_)
  have hlt : o + i < a.length := by have := List.mem_range.mp hi; omega
  simp [byteAt, List.getElem?_append_left hlt]

/-- A field past the first of two strings. -/
theorem field_append_right {a : Bytes} (b : Bytes) {o : Nat} (n : Nat) (h : a.length ≤ o) :
    field (a ++ b) o n = field b (o - a.length) n := by
  refine congrArg leNat (List.map_congr_left fun i _ => ?_)
  have hoff : o + i - a.length = o - a.length + i := by omega
  simp [byteAt, List.getElem?_append_right (Nat.le_add_right_of_le h), hoff]

theorem field_leN (n v : Nat) : field (leN n v) 0 n = v % 256 ^ n := by
  rw [← leNat_leN]
  refine congrArg leNat (List.ext_getElem (by simp) fun i hi _ => ?_)
  have hlt : i < n := by simpa using hi
  simp [byteAt, leN, List.getElem?_range hlt]

end Sys2Proof.Machine
end

section
/-! SUPPORT. The power unit (R361 to R369, R383, R508, R524): what each of its operations does and leaves alone, a case at a time. -/

namespace Sys2Proof.Machine

/-! ## The pin and the power unit (R435) -/

/-- Of the power unit FAULT_N depends on a failed wake alone. -/
theorem faultN_congr_failing {s s' : State} (hf : s'.flt = s.flt) (hp : s'.power.failing = s.power.failing)
    (hb : s'.boot = s.boot) : faultN s' = faultN s := by
  simp [faultN, hf, hp, hb]

/-! ## Feeds (R361, R362) -/

theorem feedAt_below_loss (now : Nat) {mV : Int} {q : Feed} (h : mV < q.lossMv) : (feedAt now mV q).live = false := by
  simp [feedAt, Int.not_le.mpr h]

theorem feedAt_overvoltage (now : Nat) {mV : Int} (q : Feed) (h : 61500 < mV) :
    (feedAt now mV q).live = false ∧ (feedAt now mV q).ov = true := by
  have hback : 60500 ≤ mV := by omega
  simp [feedAt, h, hback]

theorem feedAt_stays_live (now : Nat) {mV : Int} {q : Feed} (hl : q.live = true) (ho : q.ov = false) (hlo : (q.lossMv : Int) ≤ mV)
    (hhi : mV ≤ 61500) : (feedAt now mV q).live = true := by
  simp [feedAt, hl, ho, hlo, Int.not_lt.mpr hhi]

theorem feedQualified_waits {f a : Nat} {s : State} (ha : (feedOf s f).aboveAt = some a)
    (h : (feedOf s f).live = true ∨ s.now < a + 10000000) : feedQualified f s = s := by
  simp [feedQualified, ha, h]

theorem feedQualified_live {f a : Nat} {s : State} (ha : (feedOf s f).aboveAt = some a) (hl : (feedOf s f).live = false)
    (ht : a + 10000000 ≤ s.now) : feedQualified f s =
      feedChanged f (feedOf s f) (modFeed f (fun q => feedAt s.now q.mV { q with live := true }) s) := by
  simp [feedQualified, ha, hl, Nat.not_lt.mpr ht]

/-! ## Carriage (R363) -/

/-- The power unit with another carriage. -/
def withCarry (k : Nat) (n : U32) (p : Power) : Power := { p with carry := k, switchovers := n }

theorem carryUpdate_cases (s : State) : ∃ n, carryUpdate s = modPower (withCarry (carryUpdate s).power.carry n) s := by
  unfold carryUpdate
  dsimp only
  split
  · exact ⟨s.power.switchovers, rfl⟩
  · exact ⟨_, rfl⟩

theorem carryUpdate_carry {s : State} (hg : s.power.gasp = none) : (carryUpdate s).power.carry = carryNext s := by
  unfold carryUpdate
  by_cases h : carryNext s = s.power.carry <;> simp [hg, h]

theorem carryNext_only_A {s : State} (ha : s.power.feedA.live = true) (hb : s.power.feedB.live = false) : carryNext s = 1 := by
  simp [carryNext, ha, hb]

theorem carryNext_only_B {s : State} (ha : s.power.feedA.live = false) (hb : s.power.feedB.live = true) : carryNext s = 2 := by
  simp [carryNext, ha, hb]

/-! ## A change of a feed that was not live -/

/-- A feed that was not live is not lost: what follows a change of it is the carriage and FEED_STATE alone. -/
theorem feedChanged_of_dead (f : Nat) {old : Feed} (s : State) (h : old.live = false) : ∃ k n,
    (feedChanged f old s).power = withCarry k n s.power ∧ (feedChanged f old s).cmds = s.cmds := by
  obtain ⟨n, hc⟩ := carryUpdate_cases s
  refine ⟨(carryUpdate s).power.carry, n, ?_⟩
  rw [feedChanged]
  simp only [h, Bool.false_and, Bool.false_eq_true, if_false]
  split
  · rw [hc]
    exact ⟨rfl, rfl⟩
  · rw [feedEvent, emit_power, emit_cmds, hc]
    exact ⟨rfl, rfl⟩

/-- A feed judged by new thresholds, in units of 10 mV (R383). -/
def judged (now low loss : Nat) (q : Feed) : Feed := feedAt now q.mV { q with lowMv := 10 * low, lossMv := 10 * loss }

/-- A feed's thresholds set. -/
def thresholdsSet (f low loss : Nat) (s : State) : State :=
  feedChanged f (feedOf s f) (modFeed f (judged s.now low loss) s)

theorem thresholdsSet_of_dead (f low loss : Nat) {s : State} (h : (feedOf s f).live = false) : ∃ k n,
    (thresholdsSet f low loss s).power = withCarry k n (modFeed f (judged s.now low loss) s).power
      ∧ (thresholdsSet f low loss s).cmds = s.cmds :=
  feedChanged_of_dead f (modFeed f (judged s.now low loss) s) h

/-! ## The POWER settings (R368, R377, R378, R383) -/

theorem powerFeedSet_range {c : Cmd} (s : State) (h : 2 < field c.payload 0 1) : powerFeedSet c s = done c stRANGE s := by
  simp [powerFeedSet, h]

/-- With every field but PRIO 0, the thresholds are the defaults. -/
theorem powerFeedSet_defaults {c : Cmd} (s : State) (hp : field c.payload 0 1 ≤ 2)
    (h0 : ∀ i ∈ [2, 4, 6, 8, 10], field c.payload i 2 = 0) : powerFeedSet c s =
      thresholdsSet 1 1000 850 (thresholdsSet 0 1000 850
        (done c stOK (modPower (fun q => { q with prio := field c.payload 0 1, returnMs := 1000 }) s))) := by
  have h2 := h0 2 (by simp)
  have h4 := h0 4 (by simp)
  have h6 := h0 6 (by simp)
  have h8 := h0 8 (by simp)
  have h10 := h0 10 (by simp)
  simp only [powerFeedSet, h2, h4, h6, h8, h10, beq_self_eq_true, if_true]
  exact if_neg (by simp [Nat.not_lt.mpr hp])

/-- The thresholds of the pace loop keep their ranges and distances (R368). -/
def PaceSound (up lo sh : Nat) : Prop :=
  10 ≤ sh ∧ sh ≤ 200 ∧ 30 ≤ up ∧ up ≤ 400 ∧ 130 ≤ lo ∧ lo ≤ 800 ∧ sh + 20 ≤ up ∧ up + 100 ≤ lo

section
variable {c : Cmd} {s : State} {up lo sh : Nat} (hup : up = if field c.payload 0 2 = 0 then 120 else field c.payload 0 2)
  (hlo : lo = if field c.payload 2 2 = 0 then 300 else field c.payload 2 2)
  (hsh : sh = if field c.payload 4 2 = 0 then 40 else field c.payload 4 2)
include hup hlo hsh

theorem powerPaceSet_range (h : ¬ PaceSound up lo sh) : powerPaceSet c s = done c stRANGE s := by
  unfold powerPaceSet
  simp only [beq_iff_eq, ← hup, ← hlo, ← hsh]
  refine if_pos ?_
  simp only [PaceSound] at h
  simp only [Bool.or_eq_true, decide_eq_true_eq]
  omega

theorem powerPaceSet_sound (h : PaceSound up lo sh) : powerPaceSet c s =
    if modeOn (done c stOK s) then { done c stOK s with fab := { (done c stOK s).fab with pendTh := some (up, lo, sh) } }
    else { done c stOK s with fab := { (done c stOK s).fab with raiseTh := up, lowerTh := lo, shedTh := sh, pendTh := none } } := by
  unfold powerPaceSet
  simp only [beq_iff_eq, ← hup, ← hlo, ← hsh]
  refine if_neg ?_
  simp only [PaceSound] at h
  simp only [Bool.or_eq_true, decide_eq_true_eq]
  omega

/-- With a mode in force the thresholds wait for its next boundary. -/
theorem powerPaceSet_waits (h : PaceSound up lo sh) (hm : s.mode.mode ≠ 0) : powerPaceSet c s =
    { done c stOK s with fab := { s.fab with pendTh := some (up, lo, sh) } } := by
  rw [powerPaceSet_sound hup hlo hsh h, if_pos (by simp [modeOn, hm]), done_fab]

theorem powerPaceSet_at_once (h : PaceSound up lo sh) (hm : s.mode.mode = 0) : powerPaceSet c s =
    { done c stOK s with fab := { s.fab with raiseTh := up, lowerTh := lo, shedTh := sh, pendTh := none } } := by
  rw [powerPaceSet_sound hup hlo hsh h, if_neg (by simp [modeOn, hm]), done_fab]

end

/-- A time trigger drives a GPIO of the mask (R377). -/
def drivesGpio (s : State) (mask : Nat) : Bool := s.time.trigs.any fun e => e.2.kind == 3 && bit mask e.2.target

theorem powerWakeSet_range {c : Cmd} {s : State} (h : drivesGpio s (field c.payload 4 4) = true) :
    powerWakeSet c s = done c stRANGE s := if_pos h

/-- The sources and masks that a POWER_WAKE_SET's payload gives. -/
def withSources (b : Bytes) (p : Power) : Power :=
  { p with sources := field b 0 2 % 128, gpioMask := BitVec.ofNat 32 (field b 4 4), gpioEdge := BitVec.ofNat 32 (field b 8 4)
           linkPorts := BitVec.ofNat 64 (field b 12 8) }

theorem powerWakeSet_sound {c : Cmd} {s : State} (h : drivesGpio s (field c.payload 4 4) = false) :
    powerWakeSet c s = done c stOK (modPower (withSources c.payload) s) := if_neg (Bool.eq_false_iff.mp h)

/-- The fields of a POWER_CMP_SET are in their ranges (R378). -/
def CmpSound (b : Bytes) : Prop := field b 0 1 ≤ 2 ∧ field b 1 1 ≤ 1 ∧ field b 3 1 ≤ 1 ∧ field b 4 1 ≤ 3

/-- The comparator that a POWER_CMP_SET's payload gives. -/
def withCmp (b : Bytes) (p : Power) : Power :=
  { p with cmps := p.cmps.set (field b 0 1) { enable := field b 1 1 == 1, code := field b 2 1, falling := field b 3 1 == 1
                                              hyst := field b 4 1, debounce := field b 5 1 } }

theorem powerCmpSet_range {c : Cmd} {s : State} (h : ¬ CmpSound c.payload) : powerCmpSet c s = done c stRANGE s := by
  refine if_pos ?_
  simp only [CmpSound] at h
  simp only [Bool.or_eq_true, decide_eq_true_eq]
  omega

theorem powerCmpSet_sound {c : Cmd} {s : State} (h : CmpSound c.payload) :
    powerCmpSet c s = done c stOK (modPower (withCmp c.payload) s) := by
  refine if_neg ?_
  simp only [CmpSound] at h
  simp only [Bool.or_eq_true, decide_eq_true_eq]
  omega

/-! ## The status answers (R382, R383) -/

/-- The payload of POWER_STATUS's answer. -/
def powerStatusBytes (s : State) : Bytes :=
  leN 1 (powerState s) ++ leN 1 s.power.prio ++ leN 1 s.power.carry ++ leN 1 (cmpBits s) ++ leN 2 (feedVolts s.power.feedA)
    ++ leN 2 (feedVolts s.power.feedB) ++ leN 2 s.fab.vcore ++ zeros 2 ++ leN 4 s.power.switchovers.toNat
    ++ (List.range 20).flatMap (fun i => leN 4 (kgetD s.power.refusals (i + 1) 0)) ++ leN 1 s.power.refuser ++ zeros 7

theorem powerState_lt (s : State) : powerState s < 256 := by
  unfold powerState
  split_ifs <;> decide

theorem length_powerStatusBytes (s : State) : (powerStatusBytes s).length = 104 := by
  simp [powerStatusBytes, List.length_flatMap]

theorem powerStatusBytes_fields (s : State) : field (powerStatusBytes s) 0 1 = powerState s
    ∧ field (powerStatusBytes s) 2 1 = s.power.carry % 256 ∧ field (powerStatusBytes s) 8 2 = s.fab.vcore % 65536 := by
  simp [powerStatusBytes, field_append_left, field_append_right, field_leN, Nat.mod_eq_of_lt (powerState_lt s)]

/-- The payload of POWER_WAKE_REPORT's answer. -/
def wakeReportBytes (s : State) : Bytes :=
  leN 1 s.power.wakeFrom ++ leN 1 s.power.wakeCause ++ leN 1 s.power.wakeRetries ++ leN 1 s.power.attempts
    ++ leN 1 s.power.retFail ++ leN 1 s.power.failedStep ++ zeros 2 ++ leN 4 s.power.dramFail.toNat ++ zeros 4
    ++ leN 8 s.power.entered ++ leN 8 s.power.woke

theorem length_wakeReportBytes (s : State) : (wakeReportBytes s).length = 32 := by
  simp [wakeReportBytes]

theorem wakeReportBytes_fields (s : State) : field (wakeReportBytes s) 1 1 = s.power.wakeCause % 256
    ∧ field (wakeReportBytes s) 8 4 = s.power.dramFail.toNat := by
  have hlt : s.power.dramFail.toNat < 4294967296 := s.power.dramFail.isLt
  simp [wakeReportBytes, field_append_left, field_append_right, field_leN, Nat.mod_eq_of_lt hlt]

/-! ## The last gasp (R364, R471) -/

/-- What every step of a loop keeps, the loop keeps. -/
theorem forEach_keeps {α : Type} {P : State → Prop} {f : α → State → State} (step : ∀ a s, P s → P (f a s)) :
    ∀ (l : List α) (s : State), P s → P (forEach l s f) := by
  intro l
  induction l with
  | nil => exact fun _ h => h
  | cons a l ih => exact fun s h => ih _ (step a s h)

theorem countTx_reel (p : Nat) (f : TxFrame) (s : State) : (countTx false p f s).reel = s.reel := by
  have drop (n k : Nat) (z : State) : (dropCnt p n k z).reel = z.reel := rfl
  simp only [countTx, Bool.false_eq_true, if_false, drop]
  split
  · simp only [drop]
  · split <;> simp only [drop]

theorem cutFrame_reel (p : Nat) (s : State) : (cutFrame p s).reel = s.reel := by
  simp only [cutFrame]
  split
  · split
    · simp only [put_reel, modPort_reel, modLnk, countTx_reel]
    · rfl
  · rfl

theorem reelWarn_refusing (s : State) : (reelWarn s).reel.refusing = s.reel.refusing := by
  unfold reelWarn
  split
  · rfl
  · split <;> rfl

theorem placeRec_refusing (seq : U32) (b : Bytes) (s : State) : (placeRec seq b s).reel.refusing = s.reel.refusing := by
  unfold placeRec
  rw [reelWarn_refusing]
  split <;> rfl

theorem writeRec_refusing (r : RRec) (s : State) : (writeRec r s).reel.refusing = s.reel.refusing := by
  simp only [writeRec, placeRec_refusing, modReel]

theorem tallyRec_refusing (r : RRec) (s : State) : (tallyRec r s).reel.refusing = s.reel.refusing := rfl

theorem reelGasp_refusing (t0 carry : Nat) (s : State) : (reelGasp t0 carry s).reel.refusing = true := by
  simp only [reelGasp]
  split
  · rw [tallyRec_refusing]
    rfl
  · rw [writeRec_refusing]
    rfl

/-- The last gasp's saves: the reel's and metering's where more than the always-on domain runs, else the always-on ring's. -/
def gaspSaved (s : State) : State :=
  if awake s && s.hif.readyEver then reelGasp s.now s.power.carry (finalSave (calAbandonAll s))
  else modReel (fun k => { k with refusing := true })
    (aonWrite { cls := 3, flags := recFlags s, source := 2 * 1024, code := 0x1083, time := recTime s
                data := leN 8 s.now ++ leN 1 s.power.carry ++ zeros 7 } s)

/-- Every port's frame is cut and its queue emptied. -/
def portsCut (s : State) : State :=
  forEach (s.link.ports.map (·.1)) s fun p s => modPort p (fun q => { q with queue := [] }) (cutFrame p s)

theorem lastGasp_reel (s : State) : (lastGasp s).reel = (portsCut (gaspSaved s)).reel := rfl

theorem portsCut_reel (s : State) : (portsCut s).reel = s.reel :=
  forEach_keeps (P := fun z => z.reel = s.reel) (fun p z h => by rw [modPort_reel, cutFrame_reel, h]) _ _ rfl

theorem lastGasp_refusing (s : State) : (lastGasp s).reel.refusing = true := by
  rw [lastGasp_reel, portsCut_reel, gaspSaved]
  split
  · exact reelGasp_refusing _ _ _
  · rfl

theorem gaspEnd_waits {t0 : Nat} {s : State} (hg : s.power.gasp = some t0) (ht : s.now < t0 + 4000000) : gaspEnd s = s := by
  simp [gaspEnd, hg, ht]

theorem gaspEnd_resets {t0 : Nat} {s : State} (hg : s.power.gasp = some t0) (ht : t0 + 4000000 ≤ s.now) :
    gaspEnd s = resetTo (if s.boot.resetWaits then 1 else 2) true true s := by
  simp [gaspEnd, hg, Nat.not_lt.mpr ht]

/-! ## The feed bus, the trip and the junction (R21, R366, R524) -/

/-- With the bus down and no VBAT the device is off. -/
def suppliesLost (s : State) : State :=
  { s with
    reel := { s.reel with aon := [] }, time := { s.time with rtcValid := false }, cmds := [], hif := { s.hif with ready := false }
    power := { s.power with st := 7, gasp := none, entry := none, wake := none, failing := false }
    boot := { s.boot with gaspAt := none } }

theorem busBelow_off {s : State} (ha : s.power.feedA.live = false) (hb : s.power.feedB.live = false) :
    busBelow true false s = suppliesLost s := by
  simp [busBelow, ha, hb, suppliesLost]

theorem busBelow_supplied {below vbat : Bool} {s : State}
    (h : below = false ∨ vbat = true ∨ s.power.feedA.live = true ∨ s.power.feedB.live = true) : busBelow below vbat s = s := by
  refine if_pos ?_
  simp only [Bool.or_eq_true, Bool.not_eq_true']
  tauto

theorem junctionTrip_on {s : State} (h : s.power.st ≠ 7) : (junctionTrip s).power.st = 6 ∧ (junctionTrip s).flt.stranded = true
    ∧ (junctionTrip s).cmds = [] ∧ (junctionTrip s).hif.ready = false ∧ (junctionTrip s).power.gasp = none := by
  have hne : (s.power.st == 7) = false := by simpa using h
  simp only [junctionTrip, hne]
  exact ⟨rfl, rfl, rfl, rfl, rfl⟩

/-- The ceiling falls from +100 °C, returns below +95 °C, and stays between (R21). -/
def hotAt (tenths : Int) (was : Bool) : Bool := if 1000 ≤ tenths then true else if tenths < 950 then false else was

/-- The temperature and the ceiling in use as read, the setpoint not yet moved. -/
def tempRead (x : Int) (s : State) : State := { s with fab := { s.fab with tj := x, hotcap := hotAt x s.fab.hotcap } }

theorem junctionTemp_eq (x : Int) (s : State) : junctionTemp x s =
    if hotAt x s.fab.hotcap && !modeOn s then clampCeiling (tempRead x s) else tempRead x s := rfl

theorem junctionTemp_reads (x : Int) (s : State) : (junctionTemp x s).fab.tj = x
    ∧ (junctionTemp x s).fab.hotcap = hotAt x s.fab.hotcap ∧ (junctionTemp x s).boot = s.boot := by
  rw [junctionTemp_eq]
  split <;> exact ⟨rfl, rfl, rfl⟩

theorem junctionChange_plain (x : Int) {s : State} (h : s.boot.resetWaits = false) : junctionChange x s = junctionTemp x s := by
  obtain ⟨-, -, hboot⟩ := junctionTemp_reads x s
  simp [junctionChange, hboot, h]

end Sys2Proof.Machine
end

section
/-! PROOF. What the POWER commands, the feeds, the rails and the junction answer (R21, R361 to R369, R377, R383, R508, R524), and the
statement assembled from it. -/

namespace Sys2Proof.Safety

open Sys2Proof.Machine

/-! ## What the always-on domain's events and the POWER commands answer -/

theorem alwaysF_settled {t : Nat} {s z : State} {f : State → State} (e : f (advance t s) = z) :
    alwaysF t s f = .next (settled t s z) := by
  subst e
  rfl

theorem always_ended {t : Nat} {s z : State} {f : State → State} (e : f (advance t s) = z) :
    always t s f = .next (ended t s z) := by
  subst e
  rfl

/-- A verb that changes the power unit, but no failed wake's wait, answers its effect. -/
theorem ready_power {op t : Nat} {r : CmdRef} {s z : State} {f : Cmd → State → State} {c : Cmd} (h : Ready op r c s)
    (e : f c (advance t s) = z) (h1 : z.pending = s.pending) (h2 : z.faultLow = s.faultLow) (h3 : z.flt = s.flt)
    (h4 : z.power.failing = s.power.failing) (h5 : z.boot = s.boot) : verb op t r s f = .next z := by
  have ⟨_, _, _, hp⟩ := h
  have hpin : z.faultLow = faultN z := by rw [h2, faultN_congr_failing h3 h4 h5]; exact hp
  rw [ready_ended h e, ended, leave_eq (s0 := advance t s) h1 hpin]

/-- A command that ends with a status and nothing more answers that state. -/
theorem ready_complete {op t : Nat} {r : CmdRef} {s : State} {f : Cmd → State → State} {c : Cmd} {st d : Nat} {b : Bytes}
    (h : Ready op r c s) (e : f c (advance t s) = complete c st d b (advance t s)) :
    verb op t r s f = .next (complete c st d b (advance t s)) :=
  ready_plain h e (by simp) (by simp) (by simp) (by simp) (by simp)

/-- A command that sets a part of the power unit, but no failed wake's wait, and ends. -/
theorem ready_powerSet {op t : Nat} {r : CmdRef} {s : State} {f : Cmd → State → State} {c : Cmd} {g : Power → Power}
    (h : Ready op r c s) (e : f c (advance t s) = done c stOK (modPower g (advance t s)))
    (hg : (g s.power).failing = s.power.failing) :
    verb op t r s f = .next (complete c 0x00 0 [] (modPower g (advance t s))) :=
  ready_power h e (by simp) (by simp) (by simp) (by simpa using hg) (by simp)

/-- A command that has ended is no longer in flight. -/
theorem findCmd_done {r : CmdRef} {c : Cmd} (st : Nat) (s : State) (h : c.ref = r) : findCmd r (done c st s) = none := by
  have hcmds : (done c st s).cmds = s.cmds.filter fun d => d.ref != c.ref := by
    unfold done complete
    dsimp only
    split <;> simp
  simp [findCmd, hcmds, h]

/-! ## The POWER settings -/

/-- With no feed live, the defaults are taken and nothing is lost by them. -/
theorem powerFeedSet_taken (t : Nat) {r : CmdRef} {c : Cmd} {s : State} (h : Ready 0x1003 r c s) (hp : field c.payload 0 1 ≤ 2)
    (h0 : ∀ i ∈ [2, 4, 6, 8, 10], field c.payload i 2 = 0) (ha : s.power.feedA.live = false) (hb : s.power.feedB.live = false) :
    ∃ s', exec (.powerFeedSet t r) s = .next (settled t s s') ∧ findCmd r s' = none ∧ s'.power.prio = field c.payload 0 1
      ∧ s'.power.returnMs = 1000 ∧ s'.power.feedA.lowMv = 10000 ∧ s'.power.feedA.lossMv = 8500 ∧ s'.power.feedB.lowMv = 10000
      ∧ s'.power.feedB.lossMv = 8500 := by
  refine ⟨_, ready_settled h (powerFeedSet_defaults _ hp h0), ?_⟩
  generalize hz : done c stOK (modPower (fun q => { q with prio := field c.payload 0 1, returnMs := 1000 }) (advance t s)) = z
  have hzpow : z.power = { s.power with prio := field c.payload 0 1, returnMs := 1000 } := by
    rw [← hz, done_power]
    rfl
  have hzcmd : findCmd r z = none := by
    rw [← hz]
    exact findCmd_done _ _ (ready_ref h)
  obtain ⟨k, n, hpow0, hcmds0⟩ := thresholdsSet_of_dead 0 1000 850 (s := z) (by simp [feedOf, hzpow, ha])
  have hb0 : (feedOf (thresholdsSet 0 1000 850 z) 1).live = false := by
    simp [feedOf, hpow0, withCarry, modFeed, hzpow, hb]
  obtain ⟨k', n', hpow1, hcmds1⟩ := thresholdsSet_of_dead 1 1000 850 hb0
  refine ⟨?_, ?_⟩
  · rw [findCmd, hcmds1, hcmds0]
    exact hzcmd
  · simp [hpow1, withCarry, modFeed, hpow0, hzpow, judged, feedAt]

theorem exec_powerStatus (t : Nat) {r : CmdRef} {c : Cmd} {s : State} (h : Ready 0x1007 r c s) :
    exec (.powerStatus t r) s = .next (complete c 0x00 0 (powerStatusBytes (advance t s)) (advance t s)) :=
  ready_complete h rfl

theorem exec_powerWakeReport (t : Nat) {r : CmdRef} {c : Cmd} {s : State} (h : Ready 0x1008 r c s) :
    exec (.powerWakeReport t r) s = .next (complete c 0x00 0 (wakeReportBytes (advance t s)) (advance t s)) :=
  ready_complete h rfl

/-! ## Feeds -/

theorem feedLevelChange_absoluteMaximum (t f : Nat) {mV : Int} (s : State) (h : mV < -62000 ∨ 72000 < mV) :
    exec (.feedLevelChange t f mV) s = .fault .absoluteMaximum :=
  if_pos (by simpa using h)

theorem feedLevelChange_within (t : Nat) {f : Nat} {mV : Int} (s : State) (hlo : -62000 ≤ mV) (hhi : mV ≤ 72000) (hf : f < 2) :
    exec (.feedLevelChange t f mV) s =
      .next (settled t s (feedChanged f (feedOf s f) (modFeed f (feedAt (max s.now t) mV) (advance t s)))) := by
  have hexec : exec (.feedLevelChange t f mV) s =
      alwaysF t s fun s => if f < 2 then feedLevel f mV s else s := if_neg (by simp; omega)
  exact hexec.trans (alwaysF_settled (if_pos hf))

theorem exec_feedLiveQualified (t : Nat) {f : Nat} (s : State) (hf : f < 2) :
    exec (.feedLiveQualified t f) s = .next (settled t s (feedQualified f (advance t s))) :=
  alwaysF_settled (f := fun z => if f < 2 then feedQualified f z else z) (if_pos hf)

theorem carryReturnTimeout_updates (t : Nat) {s : State} (hp : PinDriven s) :
    exec (.carryReturnTimeout t) s = .next (carryUpdate (advance t s)) := by
  obtain ⟨n, hc⟩ := carryUpdate_cases (advance t s)
  refine congrArg Host.Outcome.next (leave_eq ?_ ?_)
  · rw [hc]
    rfl
  · rw [hc]
    exact hp

theorem lastGaspEnd_waits {t t0 : Nat} {s : State} (hg : s.power.gasp = some t0) (hp : PinDriven s)
    (ht : max s.now t < t0 + 4000000) : exec (.lastGaspEnd t) s = .next (advance t s) :=
  always_plain hp (gaspEnd_waits (s := advance t s) hg ht) rfl rfl rfl rfl rfl

/-! ## Rails -/

theorem exec_railOutOfRange (t n : Nat) (s : State) : exec (.railOutOfRange t n) s =
    alwaysF t s fun z => if railOn z n then raise 0x0403 0 [(n : Int)] z else z := rfl

theorem railOutOfRange_on (t : Nat) {n : Nat} {s : State} (h : railOn s n = true) :
    exec (.railOutOfRange t n) s = .next (settled t s (raise 0x0403 0 [(n : Int)] (advance t s))) :=
  (exec_railOutOfRange t n s).trans (alwaysF_settled (if_pos h))

theorem railOutOfRange_off (t : Nat) {n : Nat} {s : State} (h : railOn s n = false) :
    exec (.railOutOfRange t n) s = .next (settled t s (advance t s)) :=
  (exec_railOutOfRange t n s).trans (alwaysF_settled (if_neg (Bool.eq_false_iff.mp h)))

/-! ## The statement -/

/-- Settles O48: the settings and the answers, then the feeds and the gasp, then the rails and the junction. -/
theorem powerSupply : Obligations.PowerSupply := by
  refine ⟨⟨?feedRange, ?feedSet, ?paceSet, ?wakeSet, ?cmpSet, ?status, ?wakeReport⟩,
    ⟨?absoluteMaximum, ?level, ?feedAt, ?notYetLive, ?live, ?carryReturn, ?carriage, ?gasp, ?gaspEnd, ?bus⟩,
    ?rail, ?trip, ?tooHot, ?junction, ?ceiling⟩
  case feedRange => exact fun t r c s h hr => ready_settled h (powerFeedSet_range _ hr)
  case feedSet => exact fun t r c s h hp h0 ha hb => powerFeedSet_taken t h hp h0 ha hb
  case paceSet =>
    intro t r c s h
    exact ⟨fun hs hm => ready_plain h (powerPaceSet_waits (s := advance t s) rfl rfl rfl hs hm) (by simp) (by simp) (by simp)
        (by simp) (by simp),
      fun hs hm => ready_plain h (powerPaceSet_at_once (s := advance t s) rfl rfl rfl hs hm) (by simp) (by simp) (by simp)
        (by simp) (by simp),
      fun hs => ready_complete h (powerPaceSet_range rfl rfl rfl hs)⟩
  case wakeSet =>
    intro t r c s h
    exact ⟨fun hd => ready_complete h (powerWakeSet_range hd),
      fun hd => ⟨_, ready_powerSet h (powerWakeSet_sound (s := advance t s) hd) rfl, rfl, rfl⟩⟩
  case cmpSet =>
    intro t r c s h
    exact ⟨fun hs => ready_complete h (powerCmpSet_range hs),
      fun hs => ⟨_, ready_powerSet h (powerCmpSet_sound (s := advance t s) hs) rfl, rfl, rfl⟩⟩
  case status =>
    exact fun t r c s h => ⟨_, exec_powerStatus t h, length_powerStatusBytes _, powerStatusBytes_fields (advance t s)⟩
  case wakeReport =>
    exact fun t r c s h => ⟨_, exec_powerWakeReport t h, length_wakeReportBytes _, wakeReportBytes_fields (advance t s)⟩
  case absoluteMaximum => exact fun t f mV s h => feedLevelChange_absoluteMaximum t f s h
  case level => exact fun t f mV s hlo hhi hf => feedLevelChange_within t s hlo hhi hf
  case feedAt =>
    exact fun now mV q => ⟨fun h => feedAt_below_loss now h, fun h => feedAt_overvoltage now q h,
      fun hl ho hlo hhi => feedAt_stays_live now hl ho hlo hhi, rfl, rfl⟩
  case notYetLive =>
    intro t f a s hf ha h
    rw [exec_feedLiveQualified t s hf, feedQualified_waits (s := advance t s) ha h]
  case live =>
    intro t f a s hf ha hl ht
    rw [exec_feedLiveQualified t s hf, feedQualified_live (s := advance t s) ha hl ht]
    rfl
  case carryReturn => exact fun t s hp => carryReturnTimeout_updates t hp
  case carriage => exact fun s hg => ⟨carryUpdate_carry hg, fun ha hb => carryNext_only_A ha hb, fun ha hb => carryNext_only_B ha hb⟩
  case gasp => exact fun s => ⟨rfl, rfl, rfl, rfl, lastGasp_refusing s, rfl⟩
  case gaspEnd =>
    intro t t0 s hg hp
    refine ⟨fun ht => lastGaspEnd_waits hg hp ht, fun ht => ?_⟩
    exact always_ended (gaspEnd_resets (s := advance t s) hg ht)
  case bus =>
    intro t below vbat s
    refine ⟨?_, fun h => always_ended (busBelow_supplied (s := advance t s) h)⟩
    rintro rfl rfl ha hb
    exact ⟨suppliesLost (advance t s), always_ended (busBelow_off (s := advance t s) ha hb), rfl, rfl, rfl, rfl⟩
  case rail => exact fun t n s => ⟨railOutOfRange_on t, railOutOfRange_off t⟩
  case trip => exact fun t s h => ⟨_, alwaysF_settled rfl, junctionTrip_on (s := advance t s) h⟩
  case tooHot => exact fun t x s h => if_pos h
  case junction =>
    intro t x s hx hw
    have hexec : exec (.junctionTempChange t x) s = alwaysF t s (junctionChange x) := if_neg (Int.not_lt.mpr hx)
    exact hexec.trans (alwaysF_settled (junctionChange_plain x (s := advance t s) hw))
  case ceiling =>
    intro x s
    obtain ⟨htj, hhot, -⟩ := junctionTemp_reads x s
    refine ⟨htj, fun h => ?_, fun h => ?_, fun hlo hhi => ?_⟩ <;> rw [hhot, hotAt]
    · rw [if_pos h]
    · rw [if_neg (by omega), if_pos h]
    · rw [if_neg (by omega), if_neg (by omega)]

end Sys2Proof.Safety
end

section
/-! SUPPORT. The host interface under a violation (R58, R59, R79, R80): what an interrupt and a violation change of it. -/

namespace Sys2Proof.Machine

/-- The host interface with other interrupt status, record of messages sent and messages pending. -/
def withInts (stat sent : U32) (pend : Nat) (h : Hif) : Hif := { h with intStat := stat, intSent := sent, msixPend := pend }

theorem msixSend_hif (n : Nat) (s : State) : ∃ pend, (msixSend n s).hif = { s.hif with msixPend := pend } := by
  unfold msixSend
  split
  · exact ⟨_, rfl⟩
  · exact ⟨s.hif.msixPend, rfl⟩

/-- An interrupt sets its status bit; of the host interface it changes nothing else but which messages are sent or pending. -/
theorem setInt_hif {n : Nat} (s : State) (hn : n < 32) : ∃ stat sent pend,
    (setInt n s).hif = withInts stat sent pend s.hif ∧ stat.getLsbD n = true := by
  unfold setInt
  dsimp only
  split
  next hset => exact ⟨s.hif.intStat, s.hif.intSent, s.hif.msixPend, rfl, hset⟩
  next =>
    have hset : (s.hif.intStat ||| BitVec.twoPow 32 n).getLsbD n = true := by simp [hn]
    split
    next =>
      obtain ⟨pend, hpend⟩ := msixSend_hif n { s with hif := { s.hif with
        intStat := s.hif.intStat ||| BitVec.twoPow 32 n, intSent := s.hif.intSent ||| BitVec.twoPow 32 n } }
      exact ⟨_, _, pend, hpend, hset⟩
    next => exact ⟨_, s.hif.intSent, s.hif.msixPend, rfl, hset⟩

/-- A violation of FLT_VIOL word `w` counted and recorded (R79). -/
def counted (a w : U32) (m : Nat) (s : State) : State :=
  record 2 (6 * 1024 + m) 0x0081 (leN 4 a.toNat ++ leN 4 w.toNat) { s with hif := { s.hif with violCnt := s.hif.violCnt + 1 } }

theorem counted_hif (a w : U32) (m : Nat) (s : State) :
    (counted a w m s).hif = { s.hif with violCnt := s.hif.violCnt + 1 } := record_hif _ _ _ _ _

/-- A violation's capture: FLT_ADDR and FLT_VIOL take it, its interrupt is set and its event waits (R79). -/
def captured (a w : U32) (s : State) : State :=
  emit 0x0003 (leN 4 a.toNat ++ leN 4 w.toNat) (setInt 18 { s with hif := { s.hif with violAddr := a, viol := w } })

theorem captured_hif (a w : U32) (s : State) : ∃ stat sent pend evq,
    (captured a w s).hif = withInts stat sent pend { s.hif with viol := w, violAddr := a, evq := evq }
      ∧ stat.getLsbD 18 = true := by
  obtain ⟨stat, sent, pend, hhif, hset⟩ :=
    setInt_hif { s with hif := { s.hif with violAddr := a, viol := w } } (n := 18) (by decide)
  refine ⟨stat, sent, pend, (captured a w s).hif.evq, ?_, hset⟩
  rw [captured, emit, hhif]
  rfl

/-- A violation while VALID is 1 is counted, and the capture stays (R80). -/
theorem violate_hif_valid (k : Nat) (a : U32) (inb : Bool) (m g : Nat) {s : State} (h : s.hif.viol.getLsbD 31 = true) :
    (violate k a inb m g s).hif = { s.hif with violCnt := s.hif.violCnt + 1 } := by
  have hv : violate k a inb m g s = counted a (violWord k inb m g) m s := if_pos (by rw [record_hif]; exact h)
  rw [hv, counted_hif]

/-- A violation while VALID is 0 is counted, captured, and sets the interrupt of a violation (R79, R80). -/
theorem violate_hif_invalid (k : Nat) (a : U32) (inb : Bool) (m g : Nat) {s : State} (h : s.hif.viol.getLsbD 31 = false) :
    ∃ stat sent pend evq, (violate k a inb m g s).hif = withInts stat sent pend
        { s.hif with violCnt := s.hif.violCnt + 1, viol := violWord k inb m g, violAddr := a, evq := evq }
      ∧ stat.getLsbD 18 = true := by
  have hv : violate k a inb m g s = captured a (violWord k inb m g) (counted a (violWord k inb m g) m s) :=
    if_neg (by rw [record_hif]; exact Bool.eq_false_iff.mp h)
  obtain ⟨stat, sent, pend, evq, hhif, hset⟩ := captured_hif a (violWord k inb m g) (counted a (violWord k inb m g) m s)
  exact ⟨stat, sent, pend, evq, by rw [hv, hhif, counted_hif], hset⟩

theorem violate_violCnt (k : Nat) (a : U32) (inb : Bool) (m g : Nat) (s : State) :
    (violate k a inb m g s).hif.violCnt = s.hif.violCnt + 1 := by
  cases h : s.hif.viol.getLsbD 31
  case true => rw [violate_hif_valid k a inb m g h]
  case false =>
    obtain ⟨stat, sent, pend, evq, hhif, -⟩ := violate_hif_invalid k a inb m g h
    rw [hhif]
    rfl

end Sys2Proof.Machine
end

section
/-! PROOF. What a BAR0 access that is a violation answers (R55, R56, R79, R80), and the statement assembled from it. -/

namespace Sys2Proof.Safety

open Sys2Proof.Machine

/-- An access that R55 or R56 does not allow is the violation of R79 at its offset. -/
theorem bar0AccessViolation_bad (t : Nat) {off : Nat} (w : Bool) {size be : Nat} {s : State} (ha : awake s = true)
    (hp : PinDriven s) (hbad : size ≠ 4 ∨ off % 4 ≠ 0 ∨ be ≠ 15 ∨ regExists s off = false) :
    exec (.bar0AccessViolation t off w size be) s = .next (barViolate off w (advance t s)) := by
  rw [exec_bar0AccessViolation]
  refine happens_plain ha hp (if_pos ?_) (by simp [barViolate]) (by simp [barViolate]) (by simp [barViolate])
    (by simp [barViolate]) (by simp [barViolate])
  simpa [or_assoc] using hbad

/-- Settles O9: the access is the violation of KIND 0, captured where VALID was 0 and only counted where it was 1. -/
theorem bar0Violation : Obligations.Bar0Violation := by
  intro t off w size be s ha hp hbad
  refine ⟨_, bar0AccessViolation_bad t w ha hp hbad, violate_violCnt _ _ _ _ _ _, rfl, fun hinvalid => ?_, fun hvalid => ?_,
    violate_mbx _ _ _ _ _ _, violate_cmds _ _ _ _ _ _, violate_store _ _ _ _ _ _, violate_link _ _ _ _ _ _,
    violate_flt _ _ _ _ _ _⟩
  · obtain ⟨stat, sent, pend, evq, hhif, hset⟩ :=
      violate_hif_invalid 0 (BitVec.ofNat 32 off) false 0 0 (s := advance t s) hinvalid
    rw [barViolate, put_hif, hhif]
    exact ⟨rfl, rfl, hset⟩
  · rw [barViolate, put_hif, violate_hif_valid 0 (BitVec.ofNat 32 off) false 0 0 (s := advance t s) hvalid]
    exact ⟨rfl, rfl⟩

end Sys2Proof.Safety
end

section
/-! SUPPORT. The intake of a command (R62, R64, R65, R74, R79): what each of its three ends leaves; and control threads (R193 to
R195): a core given, a quantum's end and the floor of the COMMAND class, a case at a time. -/

namespace Sys2Proof.Machine

/-! ## What FAULT_N and the queue rest on -/

/-- The queue, the level of FAULT_N and what R435 takes it from are as they were. -/
def PinKept (s z : State) : Prop :=
  z.pending = s.pending ∧ z.faultLow = s.faultLow ∧ z.flt = s.flt ∧ z.power = s.power ∧ z.boot = s.boot

/-! ## Intake -/

@[simp] theorem mbxOf_violate (k : Nat) (a : U32) (inb : Bool) (m g : Nat) (s : State) (n : Nat) :
    mbxOf (violate k a inb m g s) n = mbxOf s n := by
  rw [mbxOf, violate_mbx, mbxOf]

/-- A mailbox's completion bobbin with one record more, its tag remembered until `u`. -/
def withRecord (r : CRec) (u : Nat) (m : Mbx) : Mbx := { m with recs := m.recs ++ [r], tags := kset m.tags r.tag u }

section
variable {layout : Nat → Bytes → Option Layout} {n : Nat} {entry payload : Bytes} {s : State}

/-- The payload of a ring entry, as long as the entry says and 4,096 bytes at most. -/
def payloadOf (entry payload : Bytes) : Bytes := padTo (min (field entry 4 2) 4096) payload

/-- The command that a ring entry of mailbox `n` spells, as taken now. -/
def commandOf (n : Nat) (entry payload : Bytes) (s : State) : Cmd :=
  { ref := .mbx n (field entry 2 2), opcode := field entry 0 2, ordered := bit (field entry 6 2) 1
    deadline := deadlineOf entry s.now, payload := payloadOf entry payload, respAddr := BitVec.ofNat 64 (field entry 24 8)
    respLen := field entry 32 4, order := s.hif.cmdOrder, base := mbxPrio s n, prio := mbxPrio s n, turn := s.hif.turns
    takenAt := s.now }

/-- The record of a ring entry's command that ends at its intake. -/
def refusalOf (entry : Bytes) (status : Nat) (s : State) : CRec :=
  { tag := field entry 2 2, opcode := field entry 0 2, status, respAddr := BitVec.ofNat 64 (field entry 24 8)
    respLen := field entry 32 4, time := s.now }

/-- A ring entry's command ended with its record at its intake. -/
def endedAtIntake (n : Nat) (entry : Bytes) (status : Nat) (s : State) : State :=
  modMbx n (withRecord (refusalOf entry status s) (s.now + 1000000000)) s

/-- A ring entry's command in flight, last in the order it was taken, and the memory of its tag ended. -/
def inFlightAs (n : Nat) (c : Cmd) (tag : Nat) (s : State) : State :=
  { modMbx n (fun m => { m with tags := kerase m.tags tag }) s with
    cmds := s.cmds ++ [c], hif := { s.hif with cmdOrder := s.hif.cmdOrder + 1, turns := s.hif.turns + 1 } }

/-- A command's deadline has passed at the instant it is taken (R74). -/
def DeadlinePassed (entry : Bytes) (now : Nat) : Prop := ∃ d, deadlineOf entry now = some d ∧ d ≤ now

theorem intake_violation {k a : Nat} (h : commandCheck layout n false entry (payloadOf entry payload) s = some (k, a)) :
    intake layout n entry payload none s =
      endedAtIntake n entry 0x30 (violate k (BitVec.ofNat 32 a) false n (field entry 2 2) s) := by
  simp only [payloadOf] at h
  simp only [intake, Option.isSome_none, h]
  rfl

theorem intake_dead (h : commandCheck layout n false entry (payloadOf entry payload) s = none) (hd : DeadlinePassed entry s.now) :
    intake layout n entry payload none s = endedAtIntake n entry 0x11 s := by
  obtain ⟨d, hdl, hle⟩ := hd
  simp only [payloadOf] at h
  simp only [intake, Option.isSome_none, h, hdl, hle, decide_true, if_true]
  rfl

theorem intake_taken (h : commandCheck layout n false entry (payloadOf entry payload) s = none)
    (hd : ¬ DeadlinePassed entry s.now) :
    intake layout n entry payload none s = inFlightAs n (commandOf n entry payload s) (field entry 2 2) s := by
  simp only [payloadOf] at h
  simp only [intake, Option.isSome_none, h]
  refine if_neg ?_
  cases hdl : deadlineOf entry s.now with
  | none => exact Bool.false_ne_true
  | some d => simpa using fun hle => hd ⟨d, hdl, hle⟩

@[simp] theorem mbxOf_endedAtIntake (n : Nat) (entry : Bytes) (status : Nat) (s : State) :
    mbxOf (endedAtIntake n entry status s) n = withRecord (refusalOf entry status s) (s.now + 1000000000) (mbxOf s n) :=
  mbxOf_modMbx_same n _ s

@[simp] theorem mbxOf_inFlightAs (n : Nat) (c : Cmd) (tag : Nat) (s : State) :
    mbxOf (inFlightAs n c tag s) n = { mbxOf s n with tags := kerase (mbxOf s n).tags tag } :=
  mbxOf_modMbx_same n (fun m => { m with tags := kerase m.tags tag }) s

theorem intake_pinKept : PinKept s (intake layout n entry payload none s) := by
  cases h : commandCheck layout n false entry (payloadOf entry payload) s with
  | some ka =>
    obtain ⟨k, a⟩ := ka
    rw [intake_violation h]
    exact ⟨violate_pending _ _ _ _ _ _, violate_faultLow _ _ _ _ _ _, violate_flt _ _ _ _ _ _, violate_power _ _ _ _ _ _,
      violate_boot _ _ _ _ _ _⟩
  | none =>
    by_cases hd : DeadlinePassed entry s.now
    · rw [intake_dead h hd]
      exact ⟨rfl, rfl, rfl, rfl, rfl⟩
    · rw [intake_taken h hd]
      exact ⟨rfl, rfl, rfl, rfl, rfl⟩

/-- Taking a command leaves MBX_HEAD to the ring. -/
theorem intake_head : (mbxOf (intake layout n entry payload none s) n).head = (mbxOf s n).head := by
  cases h : commandCheck layout n false entry (payloadOf entry payload) s with
  | some ka =>
    obtain ⟨k, a⟩ := ka
    rw [intake_violation h, mbxOf_endedAtIntake, mbxOf_violate]
    rfl
  | none =>
    by_cases hd : DeadlinePassed entry s.now
    · rw [intake_dead h hd, mbxOf_endedAtIntake]
      rfl
    · rw [intake_taken h hd, mbxOf_inFlightAs]

end

/-- Mailbox `n` with MBX_HEAD past one entry more. -/
def headPast (n : Nat) (s : State) : State := modMbx n (fun m => { m with head := m.head + 1 }) s

theorem headPast_head (n : Nat) (s : State) : (mbxOf (headPast n s) n).head = (mbxOf s n).head + 1 := by
  rw [headPast, mbxOf_modMbx_same]

theorem headPast_recs (n : Nat) (s : State) : (mbxOf (headPast n s) n).recs = (mbxOf s n).recs := by
  rw [headPast, mbxOf_modMbx_same]

/-- A mailbox that may take a command takes its 64-byte entry, and MBX_HEAD advances. -/
theorem takeFromRing_takes {n : Nat} {entry : Bytes} (payload : Bytes) {s : State} (hl : entry.length = 64)
    (hm : mayTake n s = true) : takeFromRing n entry payload s =
      intake layoutOf n entry payload none (headPast n s) := by
  have hpad : padTo 64 entry = entry := by
    rw [padTo, List.take_append_of_le_length (Nat.le_of_eq hl.symm), List.take_of_length_le (Nat.le_of_eq hl)]
  rw [takeFromRing, if_pos hm, hpad, headPast]

/-! ## A core given -/

/-- A core given to a command reaches the COMMAND class's count and the command alone. -/
theorem giveCore_pinKept (core : Nat) (c : Cmd) (s : State) : PinKept s (giveCore core c s) := by
  unfold giveCore
  dsimp only
  split <;> exact ⟨rfl, rfl, rfl, rfl, rfl⟩

theorem dispatch_free {core : Nat} {c : Cmd} {s : State} (hc : core < 8) (hup : s.sched.coresUp.testBit core = true)
    (hr : s.hif.ready = true) (hb : bestCmd s core = some c) (ho : onCore s core = none) :
    dispatch core s = giveCore core c s := by
  have hin : ¬ (decide (8 ≤ core) || !bit s.sched.coresUp core || !s.hif.ready) = true := by simp [bit, hup, hr, hc]
  rw [dispatch, if_neg hin]
  simp only [hb, ho]

/-- The thread of a core at the end of its priority, without the core. -/
def yielded (d : Cmd) (s : State) : State :=
  { modCmd d.ref (fun d => { d with core := none, turn := s.hif.turns }) s with
    hif := { s.hif with turns := s.hif.turns + 1 } }

theorem quantum_ends {core : Nat} {c d : Cmd} {s : State} (ho : onCore s core = some d) (hb : bestCmd s core = some c)
    (hp : d.prio ≤ c.prio) (ht : d.since + 200000 ≤ s.now) : quantum core s = giveCore core c (yielded d s) := by
  simp only [quantum, ho, hb, hp, ht, decide_true, Bool.and_self, if_true]
  rfl

theorem quantum_lasts {core : Nat} {d : Cmd} {s : State} (ho : onCore s core = some d) (ht : s.now < d.since + 200000) :
    quantum core s = s := by
  have hlasts : decide (d.since + 200000 ≤ s.now) = false := by simpa using ht
  cases hb : bestCmd s core <;> simp [quantum, ho, hb, hlasts]

/-! ## The floor of the COMMAND class (R195) -/

/-- The oldest of the COMMAND class's ready threads, those of the mailboxes' commands. -/
def oldestReady (s : State) : Option Cmd :=
  (sortBy (fun c => c.order)
    (s.cmds.filter fun c => mayStart s c && (match c.ref with | .mbx _ _ => true | _ => false))).head?

/-- A thread raised to priority 11, and counted. -/
def raised (c : Cmd) (s : State) : State :=
  modCmd c.ref (fun d => { d with prio := max d.prio 11 })
    { s with sched := { s.sched with command := { s.sched.command with raises := s.sched.command.raises + 1 } } }

theorem classFloor_raises {b : Nat} (k : Nat) {c : Cmd} {s : State} (hc : oldestReady s = some c)
    (hb : b * 10 < (setBits 8 s.sched.coresUp).length * 10000000) (hk : backgroundThreads s = 0) :
    classFloor b k s = raised c s := by
  have hnone : backgroundThreads (raised c s) = 0 := hk
  unfold classFloor
  dsimp only
  rw [if_pos hb]
  generalize hready : List.head? _ = oldest
  obtain rfl : oldest = some c := hready.symm.trans hc
  refine if_neg fun hlow => ?_
  have hpos : 0 < backgroundThreads (raised c s) := of_decide_eq_true (Bool.and_eq_true_iff.mp hlow).1
  omega

end Sys2Proof.Machine
end

section
/-! PROOF. What the events of the command path answer as a command is taken and given a core (R62, R64, R65, R74, R79, R193 to
R195), and the statement assembled from it. -/

namespace Sys2Proof.Safety

open Sys2Proof.Machine

/-- An event that keeps the queue and what FAULT_N rests on answers its effect. -/
theorem happens_pinKept {t : Nat} {s z : State} {f : State → State} (ha : awake s = true) (hp : PinDriven s)
    (e : f (advance t s) = z) (h : PinKept s z) : happens t s f = .next z := by
  obtain ⟨hpending, hlow, hflt, hpower, hboot⟩ := h
  exact happens_plain ha hp e hpending hlow hflt hpower hboot

theorem exec_commandTake (t n : Nat) (entry payload : Bytes) (s : State) :
    exec (.commandTake t n entry payload) s = happens t s (takeFromRing (n % 16) entry payload) := rfl

theorem commandTake_takes (t : Nat) {n : Nat} {entry : Bytes} (payload : Bytes) {s : State} (ha : awake s = true)
    (hp : PinDriven s) (hn : n < 16) (hl : entry.length = 64) (hm : mayTake n s = true) :
    exec (.commandTake t n entry payload) s = .next (intake layoutOf n entry payload none (headPast n (advance t s))) := by
  rw [exec_commandTake, Nat.mod_eq_of_lt hn]
  exact happens_pinKept ha hp (takeFromRing_takes payload hl (s := advance t s) hm) intake_pinKept

theorem threadDispatch_free (t : Nat) {core : Nat} {c : Cmd} {s : State} (ha : awake s = true) (hp : PinDriven s)
    (hc : core < 8) (hup : s.sched.coresUp.testBit core = true) (hr : s.hif.ready = true) (hb : bestCmd s core = some c)
    (ho : onCore s core = none) : exec (.threadDispatch t core) s = .next (giveCore core c (advance t s)) :=
  happens_pinKept ha hp (dispatch_free (s := advance t s) hc hup hr hb ho) (giveCore_pinKept _ _ _)

theorem threadQuantumExpiry_ends (t : Nat) {core : Nat} {c d : Cmd} {s : State} (ha : awake s = true) (hp : PinDriven s)
    (ho : onCore s core = some d) (hb : bestCmd s core = some c) (hle : d.prio ≤ c.prio)
    (ht : d.since + 200000 ≤ max s.now t) :
    exec (.threadQuantumExpiry t core) s = .next (giveCore core c (yielded d (advance t s))) :=
  happens_pinKept ha hp (quantum_ends (s := advance t s) ho hb hle ht) (giveCore_pinKept _ _ _)

theorem threadQuantumExpiry_lasts (t : Nat) {core : Nat} {d : Cmd} {s : State} (ha : awake s = true) (hp : PinDriven s)
    (ho : onCore s core = some d) (ht : max s.now t < d.since + 200000) :
    exec (.threadQuantumExpiry t core) s = .next (advance t s) :=
  happens_plain ha hp (quantum_lasts (s := advance t s) ho ht) rfl rfl rfl rfl rfl

theorem classFloorWindow_raises (t a : Nat) {b : Nat} (k : Nat) {c : Cmd} {s : State} (ha : awake s = true) (hp : PinDriven s)
    (hc : oldestReady s = some c) (hb : b * 10 < (setBits 8 s.sched.coresUp).length * 10000000)
    (hk : backgroundThreads s = 0) : exec (.classFloorWindow t a b k) s = .next (raised c (advance t s)) :=
  happens_plain ha hp (classFloor_raises k (s := advance t s) hc hb hk) rfl rfl rfl rfl rfl

/-- Settles O11: a command's intake by its three ends, then a core given, a quantum's end and the COMMAND class's floor. -/
theorem commandIntake : Obligations.CommandIntake := by
  refine ⟨?take, ?dispatch, ?quantum, ?lasts, ?floor⟩
  case take =>
    intro t n entry payload s ha hp _ hn hl hm op tag p bad dead
    refine ⟨_, commandTake_takes t payload ha hp hn hl hm, ?_, fun hbad hdead => ?_, fun hbad hdead => ?_, fun k a hbad => ?_⟩
    · rw [intake_head, headPast_head, mbxOf_advance]
    · rw [intake_taken (s := headPast n (advance t s)) hbad hdead, mbxOf_inFlightAs]
      exact ⟨⟨_, rfl, rfl, rfl, rfl, rfl, rfl, rfl, rfl, rfl⟩, headPast_recs _ _, kget?_kerase_same _ _⟩
    · rw [intake_dead (s := headPast n (advance t s)) hbad hdead, mbxOf_endedAtIntake]
      exact ⟨rfl, _, congrArg (· ++ [_]) (headPast_recs _ _), rfl, rfl, rfl⟩
    · rw [intake_violation (s := headPast n (advance t s)) hbad, mbxOf_endedAtIntake, mbxOf_violate]
      refine ⟨violate_cmds _ _ _ _ _ _, violate_violCnt _ _ _ _ _ _, fun hinvalid => ?_,
        _, congrArg (· ++ [_]) (headPast_recs _ _), rfl, rfl⟩
      obtain ⟨stat, sent, pend, evq, hhif, -⟩ :=
        violate_hif_invalid k (BitVec.ofNat 32 a) false n tag (s := headPast n (advance t s)) hinvalid
      rw [endedAtIntake, modMbx_hif, hhif]
      exact ⟨rfl, rfl⟩
  case dispatch => exact fun t core c s ha hp hc hup hr hb ho => threadDispatch_free t ha hp hc hup hr hb ho
  case quantum => exact fun t core c d s ha hp ho hb hle ht => threadQuantumExpiry_ends t ha hp ho hb hle ht
  case lasts => exact fun t core d s ha hp ho ht => threadQuantumExpiry_lasts t ha hp ho ht
  case floor => exact fun t a b k c s ha hp hc hb hk => classFloorWindow_raises t a k ha hp hc hb hk

end Sys2Proof.Safety
end

section
/-! SUPPORT. The METER commands (R386, R393, R395, R398, R400 to R403): the ranges of what each sets, the answers' lengths, and what
the power cap's target, computed again, leaves alone. -/

namespace Sys2Proof.Machine

/-! ## The ranges of the settings (R386, R395, R398, R402) -/

/-- A METER_INPUT_SET names an input, a nominal voltage and a scale in range. -/
def InputSound (b : Bytes) : Prop :=
  field b 0 1 ≤ 3 ∧ field b 1 1 ≤ 1 ∧ 1 ≤ field b 4 4 ∧ field b 4 4 ≤ 4000000000

theorem inputRefused_iff {b : Bytes} : (decide (3 < field b 0 1) || decide (1 < field b 1 1) || field b 4 4 == 0
    || decide (4000000000 < field b 4 4)) = true ↔ ¬ InputSound b := by
  simp only [InputSound, Bool.or_eq_true, decide_eq_true_eq, beq_iff_eq]
  omega

/-- A METER_CIRCUIT_SET names a circuit, its enable, its input and its scale in range. -/
def CircuitSound (b : Bytes) : Prop :=
  field b 0 1 ≤ 7 ∧ field b 1 1 ≤ 1 ∧ field b 2 1 ≤ 3 ∧ 1 ≤ field b 4 4 ∧ field b 4 4 ≤ 4000000000

theorem circuitRefused_iff {b : Bytes} : (decide (7 < field b 0 1) || decide (1 < field b 1 1) || decide (3 < field b 2 1)
    || field b 4 4 == 0 || decide (4000000000 < field b 4 4)) = true ↔ ¬ CircuitSound b := by
  simp only [CircuitSound, Bool.or_eq_true, decide_eq_true_eq, beq_iff_eq]
  omega

/-- The pulse width that a METER_PULSE_SET gives, 30 ms where it gives 0. -/
def pulseWidth (b : Bytes) : Nat := if field b 8 2 = 0 then 30 else field b 8 2

theorem pulseWidth_eq (b : Bytes) : (if (field b 8 2 == 0) = true then 30 else field b 8 2) = pulseWidth b := by
  simp only [pulseWidth, beq_iff_eq]

/-- A METER_PULSE_SET names an output, a quantity, an energy a pulse, a width and a polarity in range. -/
def PulseSound (b : Bytes) : Prop :=
  field b 0 1 ≤ 7 ∧ field b 1 1 ≤ 5 ∧ (field b 1 1 = 0 ∨ 1000 ≤ field b 4 4) ∧ 10 ≤ pulseWidth b ∧ pulseWidth b ≤ 1000
    ∧ field b 10 1 ≤ 1

theorem pulseRefused_iff {b : Bytes} : (decide (7 < field b 0 1) || decide (5 < field b 1 1)
    || (field b 1 1 != 0 && decide (field b 4 4 < 1000)) || decide (pulseWidth b < 10) || decide (1000 < pulseWidth b)
    || decide (1 < field b 10 1)) = true ↔ ¬ PulseSound b := by
  simp only [PulseSound, Bool.or_eq_true, Bool.and_eq_true, decide_eq_true_eq, bne_iff_ne]
  omega

/-- The output that a METER_PULSE_SET's payload gives. -/
def pulseGiven (b : Bytes) : Pulse :=
  { qty := field b 1 1, circuits := field b 2 2, uwh := field b 4 4, widthMs := pulseWidth b, low := field b 10 1 == 1 }

/-- A pulse output held inactive is at the level that its polarity gives. -/
theorem pulsePin_inactive_out (n : Nat) (low : Bool) (s : State) :
    (pulsePin n false low s).out = .pin ("PULSE" ++ toString n) low :: s.out := by
  simp [pulsePin]

theorem pulseSet_range {c : Cmd} (s : State) (h : ¬ PulseSound c.payload) : pulseSet c s = done c stRANGE s := by
  simp only [pulseSet, pulseWidth_eq]
  exact if_pos (pulseRefused_iff.mpr h)

theorem pulseSet_sound {c : Cmd} (s : State) (h : PulseSound c.payload) : pulseSet c s =
    done c stOK (pulsePin (field c.payload 0 1) false (field c.payload 10 1 == 1)
      (modMeter (fun m => { m with pulses := kset m.pulses (field c.payload 0 1) (pulseGiven c.payload) }) s)) := by
  simp only [pulseSet, pulseWidth_eq]
  exact if_neg fun hr => pulseRefused_iff.mp hr h

/-- The interval that a METER_SAVE_SET gives, 60 s where it gives 0. -/
def saveInterval (b : Bytes) : Nat := if field b 0 2 = 0 then 60 else field b 0 2

theorem saveInterval_eq (b : Bytes) : (if (field b 0 2 == 0) = true then 60 else field b 0 2) = saveInterval b := by
  simp only [saveInterval, beq_iff_eq]

/-- The time constant that a METER_CAP_SET gives, 60 s where it gives 0. -/
def capTau (b : Bytes) : Nat := if field b 8 2 = 0 then 60 else field b 8 2

theorem capTau_eq (b : Bytes) : (if (field b 8 2 == 0) = true then 60 else field b 8 2) = capTau b := by
  simp only [capTau, beq_iff_eq]

/-- A METER_CAP_SET names an enable, a cap, a time constant and, enabled, circuits in range. -/
def CapSound (b : Bytes) : Prop :=
  field b 0 1 ≤ 1 ∧ 1 ≤ field b 4 4 ∧ field b 4 4 ≤ 4000000 ∧ 10 ≤ capTau b ∧ capTau b ≤ 600
    ∧ (field b 0 1 = 1 → field b 2 2 ≠ 0)

theorem capRefused_iff {b : Bytes} : (decide (1 < field b 0 1) || field b 4 4 == 0 || decide (4000000 < field b 4 4)
    || decide (capTau b < 10) || decide (600 < capTau b) || (field b 0 1 == 1 && field b 2 2 == 0)) = true ↔ ¬ CapSound b := by
  simp only [CapSound, Bool.or_eq_true, Bool.and_eq_true, decide_eq_true_eq, beq_iff_eq]
  omega

/-- Metering with the cap that a METER_CAP_SET's payload gives, its correction reset where it asks for it. -/
def withCap (b : Bytes) (m : Meter) : Meter :=
  { m with cap := { enable := field b 0 1 == 1, circuits := field b 2 2, capW := field b 4 4, tauS := capTau b }
           g := if bit (field b 10 1) 0 then 2 ^ 32 else m.g }

theorem capSet_range {c : Cmd} (s : State) (h : ¬ CapSound c.payload) : capSet c s = done c stRANGE s := by
  simp only [capSet, capTau_eq]
  exact if_pos (capRefused_iff.mpr h)

theorem capSet_sound {c : Cmd} (s : State) (h : CapSound c.payload) :
    capSet c s = capRedo (done c stOK (modMeter (withCap c.payload) s)) := by
  simp only [capSet, capTau_eq]
  exact if_neg fun hr => capRefused_iff.mp hr h

/-- The set of coefficients at offset `o` of a METER_COEF_SET's payload. -/
def coefAt (b : Bytes) (o : Nat) : CoefSet :=
  { idle := field b (o + 4) 4, k0 := field b (o + 8) 4, k1 := field b (o + 12) 4, k2 := field b (o + 16) 4 }

theorem coefSet_one {c : Cmd} (s : State) (h1 : field c.payload 0 2 = 1) (hn : field c.payload 8 2 ≤ 1023) : coefSet c s =
    capRedo (done c stOK (modMeter (fun m => { m with
      coefs := kset m.coefs (field c.payload 8 2) (coefAt c.payload 8) }) s)) := by
  simp only [coefSet, h1]
  exact if_neg (by simp [Nat.not_lt.mpr hn])

/-! ## The target computed again (R400, R402) -/

/-- Metering with the power of the epoch whose drive sums are complete, and its target marked as computed. -/
def withPower (p : Nat × Nat × Nat) (m : Meter) : Meter :=
  { m with pFixed := p.1, pVar := p.2.1, undef := p.2.2, capDone := true }

/-- Metering with a cap's target set for epoch `e`. -/
def withTarget (pred : Nat) (cut : Bool) (e : U32) (m : Meter) : Meter :=
  { m with pPred := pred, capEpoch := e, cutting := cut }

theorem setTarget_eq (x : Int) (e : U32) (s : State) : ∃ pred cut w h,
    setTarget x e s = { s with meter := withTarget pred cut e s.meter, weave := w, hif := h } := by
  unfold setTarget
  dsimp only
  split <;> exact ⟨_, _, _, _, rfl⟩

/-- What a computation of the target changes: the target, what metering knows of it, and an event that waits. -/
def CapFrame (s z : State) : Prop := ∃ m w h, z = { s with meter := m, weave := w, hif := h } ∧ m.cap = s.meter.cap
  ∧ m.g = s.meter.g ∧ m.coefs = s.meter.coefs

theorem CapFrame.refl (s : State) : CapFrame s s := ⟨s.meter, s.weave, s.hif, rfl, rfl, rfl, rfl⟩

theorem CapFrame.trans {a b c : State} (hab : CapFrame a b) (hbc : CapFrame b c) : CapFrame a c := by
  obtain ⟨m, w, h, rfl, hcap, hg, hcoefs⟩ := hab
  obtain ⟨m', w', h', rfl, hcap', hg', hcoefs'⟩ := hbc
  exact ⟨m', w', h', rfl, hcap'.trans hcap, hg'.trans hg, hcoefs'.trans hcoefs⟩

theorem modMeter_capFrame {f : Meter → Meter} (s : State) (hcap : (f s.meter).cap = s.meter.cap)
    (hg : (f s.meter).g = s.meter.g) (hcoefs : (f s.meter).coefs = s.meter.coefs) : CapFrame s (modMeter f s) :=
  ⟨f s.meter, s.weave, s.hif, rfl, hcap, hg, hcoefs⟩

theorem setTarget_capFrame (x : Int) (e : U32) (s : State) : CapFrame s (setTarget x e s) := by
  obtain ⟨pred, cut, w, h, heq⟩ := setTarget_eq x e s
  exact ⟨withTarget pred cut e s.meter, w, h, heq, rfl, rfl, rfl⟩

/-- The computation is due: an epoch is being woven, its target is not computed, and nothing is left to weave. -/
def CapDue (s : State) : Prop := modeOn s = true ∧ s.mode.weaving = true ∧ s.meter.capDone = false ∧ remainingOps s = 0

theorem capCompute_due {s : State} (h : CapDue s) : ∃ x, capCompute s =
    setTarget x (s.link.epoch + 1) (modMeter (withPower (capPower s)) s) := by
  obtain ⟨hm, hw, hd, hr⟩ := h
  exact ⟨_, if_neg (by simp [hm, hw, hd, hr])⟩

theorem capCompute_notDue {s : State} (h : ¬ CapDue s) : capCompute s = s := by
  refine if_pos ?_
  simp only [CapDue] at h
  simp only [Bool.or_eq_true, Bool.not_eq_true', bne_iff_ne, ne_eq]
  grind

theorem capCompute_capFrame (s : State) : CapFrame s (capCompute s) := by
  by_cases h : CapDue s
  · obtain ⟨x, hx⟩ := capCompute_due h
    rw [hx]
    exact (modMeter_capFrame s rfl rfl rfl).trans (setTarget_capFrame x _ _)
  · rw [capCompute_notDue h]
    exact CapFrame.refl s

/-- The target is no longer computed. -/
def targetOpen (s : State) : State := modMeter (fun m => { m with capDone := false }) s

theorem capRedo_capFrame (s : State) : CapFrame s (capRedo s) := by
  unfold capRedo
  split
  · exact (modMeter_capFrame s rfl rfl rfl).trans (capCompute_capFrame (targetOpen s))
  · exact CapFrame.refl s

/-- With nothing left to weave, a target that is computed is computed again, for the epoch after the one woven. -/
theorem capRedo_computes {s : State} (hm : modeOn s = true) (hw : s.mode.weaving = true) (hd : s.meter.capDone = true)
    (hr : remainingOps s = 0) : (capRedo s).meter.capDone = true ∧ (capRedo s).meter.capEpoch = s.link.epoch + 1 := by
  have hredo : capRedo s = capCompute (targetOpen s) := if_pos (by simp [hw, hd])
  obtain ⟨x, hx⟩ := capCompute_due (s := targetOpen s) ⟨hm, hw, rfl, hr⟩
  obtain ⟨pred, cut, w, h, heq⟩ :=
    setTarget_eq x (s.link.epoch + 1) (modMeter (withPower (capPower (targetOpen s))) (targetOpen s))
  have hz := (hredo.trans hx).trans heq
  rw [hz]
  exact ⟨rfl, rfl⟩

/-- A command's completion leaves what is left to weave. -/
theorem remainingOps_done (c : Cmd) (st : Nat) (s : State) : remainingOps (done c st s) = remainingOps s := by
  have hbanks : (done c st s).sched.banks = s.sched.banks := by
    unfold done complete
    dsimp only
    split <;> (unfold freeThread; split <;> rfl)
  rw [remainingOps, hbanks, remainingOps]

/-! ## The answers (R403) -/

theorem length_accBytes (s : State) (n : Nat) : (accBytes s n).length = 40 := by
  simp [accBytes, List.length_flatMap]

theorem length_namedCircuits_le (n : Nat) : (namedCircuits n).length ≤ 10 := by
  unfold namedCircuits
  split
  · simp
  · split <;> simp

theorem length_measureBytes (s : State) (n : Nat) : (measureBytes s n).length = 64 := by
  unfold measureBytes
  dsimp only
  split <;> simp

theorem length_harmonicBytes (s : State) (n : Nat) (cur : Bool) : (harmonicBytes s n cur).length = 136 := by
  unfold harmonicBytes
  dsimp only
  split <;> simp [List.length_flatMap]

theorem length_capBytes (s : State) : (capBytes s).length = 48 := by
  simp [capBytes]

/-- The newest good save's number, 0 where there is none. -/
def newestSeq (s : State) : Nat := match s.meter.newest.bind (kget? s.meter.slots) with | some q => q.seq | none => 0

/-- The payload of METER_READ's answer for the circuits `l`. -/
def readBytes (s : State) (l : List Nat) : Bytes :=
  leN 8 s.now ++ leN 4 (newestSeq s) ++ leN 1 l.length ++ zeros 3 ++ l.flatMap (accBytes s)

theorem length_readBytes (s : State) (l : List Nat) : (readBytes s l).length = 16 + 40 * l.length := by
  have hacc : (l.flatMap (accBytes s)).length = 40 * l.length := by
    simp [List.length_flatMap, length_accBytes, Nat.mul_comm]
  simp only [readBytes, List.length_append, length_leN, length_zeros, hacc]

theorem readBytes_fields (s : State) {l : List Nat} (hl : l.length ≤ 10) :
    field (readBytes s l) 0 8 = s.now % 2 ^ 64 ∧ field (readBytes s l) 12 1 = l.length := by
  have hlt : l.length < 256 := by omega
  simp [readBytes, field_append_left, field_append_right, field_leN, Nat.mod_eq_of_lt hlt]

end Sys2Proof.Machine
end

section
/-! PROOF. What the METER commands answer (R386, R393, R395, R398, R402, R403), and the statement assembled from it. -/

namespace Sys2Proof.Safety

open Sys2Proof.Machine

section
variable {t : Nat} {r : CmdRef} {c : Cmd} {s : State}

/-- A command that changes metering alone, and ends. -/
theorem ready_meterSet {op : Nat} {f : Cmd → State → State} {g : Meter → Meter} (h : Ready op r c s)
    (e : f c (advance t s) = done c stOK (modMeter g (advance t s))) :
    verb op t r s f = .next (complete c 0x00 0 [] (modMeter g (advance t s))) :=
  ready_plain h e (done_pending _ _ _) (done_faultLow _ _ _) (done_flt _ _ _) (done_power _ _ _) (done_boot _ _ _)

/-! ## The settings -/

theorem meterInputSet_range (h : Ready 0x1101 r c s) (hb : ¬ InputSound c.payload) :
    exec (.meterInputSet t r) s = .next (complete c 0x21 0 [] (advance t s)) := by
  dsimp only [exec, execMeterInputSet]
  exact ready_complete h (if_pos (inputRefused_iff.mpr hb))

theorem meterInputSet_sound (h : Ready 0x1101 r c s) (hb : InputSound c.payload) :
    exec (.meterInputSet t r) s = .next (complete c 0x00 0 [] (modMeter (fun m => { m with
      vin := kmod m.vin (field c.payload 0 1) {} fun q => { q with nominal := field c.payload 1 1
                                                                   vscale := field c.payload 4 4 } }) (advance t s))) := by
  dsimp only [exec, execMeterInputSet]
  exact ready_meterSet h (if_neg fun hr => inputRefused_iff.mp hr hb)

theorem meterCircuitSet_range (h : Ready 0x1102 r c s) (hb : ¬ CircuitSound c.payload) :
    exec (.meterCircuitSet t r) s = .next (complete c 0x21 0 [] (advance t s)) := by
  dsimp only [exec, execMeterCircuitSet]
  exact ready_complete h (if_pos (circuitRefused_iff.mpr hb))

theorem meterCircuitSet_sound (h : Ready 0x1102 r c s) (hb : CircuitSound c.payload) :
    exec (.meterCircuitSet t r) s = .next (complete c 0x00 0 [] (modCircuit (field c.payload 0 1) (fun k => { k with
      enable := field c.payload 1 1 == 1, vsel := field c.payload 2 1, invert := bit (field c.payload 3 1) 0
      iscale := field c.payload 4 4 }) (advance t s))) := by
  dsimp only [exec, execMeterCircuitSet]
  exact ready_meterSet h (if_neg fun hr => circuitRefused_iff.mp hr hb)

theorem meterPulseSet_range (h : Ready 0x1106 r c s) (hb : ¬ PulseSound c.payload) :
    exec (.meterPulseSet t r) s = .next (complete c 0x21 0 [] (advance t s)) := ready_complete h (pulseSet_range _ hb)

theorem meterPulseSet_sound (h : Ready 0x1106 r c s) (hb : PulseSound c.payload) :
    exec (.meterPulseSet t r) s = .next (complete c 0x00 0 [] (pulsePin (field c.payload 0 1) false (field c.payload 10 1 == 1)
      (modMeter (fun m => { m with pulses := kset m.pulses (field c.payload 0 1) (pulseGiven c.payload) }) (advance t s)))) :=
  ready_plain h (pulseSet_sound _ hb) (done_pending _ _ _) (done_faultLow _ _ _) (done_flt _ _ _) (done_power _ _ _)
    (done_boot _ _ _)

theorem meterSaveSet_range (h : Ready 0x1107 r c s) (hv : 3600 < saveInterval c.payload) :
    exec (.meterSaveSet t r) s = .next (complete c 0x21 0 [] (advance t s)) := by
  dsimp only [exec, execMeterSaveSet]
  simp only [saveInterval_eq]
  exact ready_complete h (if_pos hv)

theorem meterSaveSet_sound (h : Ready 0x1107 r c s) (hv : saveInterval c.payload ≤ 3600) : exec (.meterSaveSet t r) s =
    .next (complete c 0x00 0 [] (modMeter (fun m => { m with saveS := saveInterval c.payload }) (advance t s))) := by
  dsimp only [exec, execMeterSaveSet]
  simp only [saveInterval_eq]
  exact ready_meterSet h (if_neg (Nat.not_lt.mpr hv))

/-! ## METER_CLEAR -/

theorem meterClear_denied (h : Ready 0x1108 r c s) (hk : keyAuthority c = false) :
    exec (.meterClear t r) s = .next (complete c 0x24 0 [] (advance t s)) := ready_complete h (if_pos (by simp [hk]))

theorem meterClear_range (h : Ready 0x1108 r c s) (hk : keyAuthority c = true) (hl : namedCircuits (field c.payload 0 1) = []) :
    exec (.meterClear t r) s = .next (complete c 0x21 0 [] (advance t s)) :=
  ready_complete h ((if_neg (by simp [hk])).trans (if_pos (by simp [hl])))

theorem meterClear_waits (h : Ready 0x1108 r c s) (hk : keyAuthority c = true) (hl : namedCircuits (field c.payload 0 1) ≠ []) :
    exec (.meterClear t r) s = .next (park c (modMeter (fun m => { m with
      acc := kfilter m.acc (fun k _ => !(namedCircuits (field c.payload 0 1)).contains (k / 5)), saveNow := true
      clearRefs := m.clearRefs ++ [c.ref]
      cleared := m.cleared ++ [(c.ref, kfilter m.acc fun k _ => (namedCircuits (field c.payload 0 1)).contains (k / 5))] })
      (advance t s))) :=
  ready_plain h ((if_neg (by simp [hk])).trans (if_neg (by simpa using hl))) rfl rfl rfl rfl rfl

/-! ## Coefficients and the cap -/

/-- A command that changes metering and has the target computed again ends, with the cap, the correction and the coefficients that
its change gives. -/
theorem ready_capRedo {op : Nat} {f : Cmd → State → State} {g : Meter → Meter} (h : Ready op r c s)
    (e : f c (advance t s) = capRedo (done c stOK (modMeter g (advance t s)))) : ∃ s', verb op t r s f = .next s'
      ∧ s' = capRedo (done c stOK (modMeter g (advance t s))) ∧ findCmd r s' = none ∧ s'.meter.cap = (g s.meter).cap
      ∧ s'.meter.g = (g s.meter).g ∧ s'.meter.coefs = (g s.meter).coefs := by
  obtain ⟨m, w, q, hz, hcap, hg, hcoefs⟩ := capRedo_capFrame (done c stOK (modMeter g (advance t s)))
  rw [done_meter] at hcap hg hcoefs
  refine ⟨_, ready_plain h e ?_ ?_ ?_ ?_ ?_, rfl, ?_, ?_, ?_, ?_⟩ <;> rw [hz]
  · exact done_pending _ _ _
  · exact done_faultLow _ _ _
  · exact done_flt _ _ _
  · exact done_power _ _ _
  · exact done_boot _ _ _
  · exact findCmd_done stOK (modMeter g (advance t s)) (ready_ref h)
  · exact hcap
  · exact hg
  · exact hcoefs

theorem meterCoefSet_one (h : Ready 0x1109 r c s) (h1 : field c.payload 0 2 = 1) (hn : field c.payload 8 2 ≤ 1023) :
    ∃ s', exec (.meterCoefSet t r) s = .next s' ∧ findCmd r s' = none
      ∧ kget? s'.meter.coefs (field c.payload 8 2) = some (coefAt c.payload 8) := by
  obtain ⟨s', hexec, -, hfind, -, -, hcoefs⟩ := ready_capRedo (t := t) h (coefSet_one (advance t s) h1 hn)
  exact ⟨s', hexec, hfind, by rw [hcoefs]; exact kget?_kset_same _ _ _⟩

theorem meterCapSet_range (h : Ready 0x110A r c s) (hb : ¬ CapSound c.payload) :
    exec (.meterCapSet t r) s = .next (complete c 0x21 0 [] (advance t s)) := ready_complete h (capSet_range _ hb)

theorem meterCapSet_sound (h : Ready 0x110A r c s) (hb : CapSound c.payload) :
    ∃ s', exec (.meterCapSet t r) s = .next s' ∧ findCmd r s' = none ∧ s'.meter.cap = (withCap c.payload s.meter).cap
      ∧ s'.meter.g = (withCap c.payload s.meter).g := by
  obtain ⟨s', hexec, -, hfind, hcap, hg, -⟩ := ready_capRedo (t := t) h (capSet_sound (advance t s) hb)
  exact ⟨s', hexec, hfind, hcap, hg⟩

theorem meterCapSet_computes (h : Ready 0x110A r c s) (hb : CapSound c.payload) (hm : s.mode.mode ≠ 0)
    (hw : s.mode.weaving = true) (hd : s.meter.capDone = true) (hr : remainingOps s = 0) :
    ∃ s', exec (.meterCapSet t r) s = .next s' ∧ s'.meter.capDone = true ∧ s'.meter.capEpoch = s.link.epoch + 1 := by
  obtain ⟨s', hexec, rfl, -⟩ := ready_capRedo (t := t) h (capSet_sound (advance t s) hb)
  have hmode : modeOn (done c stOK (modMeter (withCap c.payload) (advance t s))) = true := by
    rw [modeOn, done_mode]
    exact bne_iff_ne.mpr hm
  obtain ⟨hdone, hepoch⟩ := capRedo_computes hmode (by rw [done_mode]; exact hw) (by rw [done_meter]; exact hd)
    (by rw [remainingOps_done]; exact hr)
  rw [done_link] at hepoch
  exact ⟨_, hexec, hdone, hepoch⟩

/-! ## The answers -/

theorem meterRead_range (h : Ready 0x1103 r c s) (hl : namedCircuits (field c.payload 0 1) = []) :
    exec (.meterRead t r) s = .next (complete c 0x21 0 [] (advance t s)) := by
  dsimp only [exec, execMeterRead]
  exact ready_complete h (if_pos (by simp [hl]))

theorem meterRead_answers (h : Ready 0x1103 r c s) (hl : namedCircuits (field c.payload 0 1) ≠ []) :
    exec (.meterRead t r) s =
      .next (complete c 0x00 0 (readBytes (advance t s) (namedCircuits (field c.payload 0 1))) (advance t s)) := by
  dsimp only [exec, execMeterRead]
  exact ready_complete h (if_neg (by simpa using hl))

theorem meterMeasure_answers (h : Ready 0x1104 r c s) (hn : field c.payload 0 1 ≤ 9) : exec (.meterMeasure t r) s =
    .next (complete c 0x00 0 (measureBytes (advance t s) (field c.payload 0 1)) (advance t s)) := by
  dsimp only [exec, execMeterMeasure]
  exact ready_complete h (if_neg (Nat.not_lt.mpr hn))

theorem meterMeasure_range (h : Ready 0x1104 r c s) (hn : 9 < field c.payload 0 1) :
    exec (.meterMeasure t r) s = .next (complete c 0x21 0 [] (advance t s)) := by
  dsimp only [exec, execMeterMeasure]
  exact ready_complete h (if_pos hn)

theorem meterHarmonics_answers (h : Ready 0x1105 r c s) (hn : field c.payload 0 1 ≤ 7) (hw : field c.payload 1 1 ≤ 1) :
    exec (.meterHarmonics t r) s = .next (complete c 0x00 0
      (harmonicBytes (advance t s) (field c.payload 0 1) (field c.payload 1 1 == 1)) (advance t s)) := by
  dsimp only [exec, execMeterHarmonics]
  exact ready_complete h (if_neg (by simp [Nat.not_lt.mpr hn, Nat.not_lt.mpr hw]))

theorem meterHarmonics_range (h : Ready 0x1105 r c s) (hn : 7 < field c.payload 0 1 ∨ 1 < field c.payload 1 1) :
    exec (.meterHarmonics t r) s = .next (complete c 0x21 0 [] (advance t s)) := by
  dsimp only [exec, execMeterHarmonics]
  exact ready_complete h (if_pos (by simpa using hn))

theorem exec_meterCapStatus (h : Ready 0x110B r c s) :
    exec (.meterCapStatus t r) s = .next (complete c 0x00 0 (capBytes (advance t s)) (advance t s)) := ready_complete h rfl

end

/-- Settles O46: the settings by their ranges, METER_CLEAR by its authority, the cap with its target computed again, and the
answers. -/
theorem meterCommands : Obligations.MeterCommands := by
  refine ⟨⟨?inputSet, ?circuitSet, ?pulseSet, ?saveSet, ?clear, ?coefSet, ?capSet⟩,
    ?read, ?measure, ?measureLength, ?harmonics, ?harmonicsLength, ?capStatus, ?capLength⟩
  case inputSet => exact fun t r c s h => ⟨fun hb => meterInputSet_sound h hb, fun hb => meterInputSet_range h hb⟩
  case circuitSet => exact fun t r c s h => ⟨fun hb => meterCircuitSet_sound h hb, fun hb => meterCircuitSet_range h hb⟩
  case pulseSet =>
    intro t r c s h
    exact ⟨fun hb => ⟨_, meterPulseSet_sound h hb, kget?_kset_same _ _ _, fun j hj => kget?_kset_other _ _ _ _ hj,
      pulsePin_inactive_out _ _ _⟩, fun hb => meterPulseSet_range h hb⟩
  case saveSet => exact fun t r c s h => ⟨fun hv => meterSaveSet_sound h hv, fun hv => meterSaveSet_range h hv⟩
  case clear =>
    exact fun t r c s h => ⟨fun hk => meterClear_denied h hk, fun hk hl => meterClear_range h hk hl,
      fun hk hl => meterClear_waits h hk hl⟩
  case coefSet => exact fun t r c s h h1 hn => meterCoefSet_one h h1 hn
  case capSet =>
    exact fun t r c s h => ⟨fun hb => meterCapSet_sound h hb, fun hb hm hw hd hr => meterCapSet_computes h hb hm hw hd hr,
      fun hb => meterCapSet_range h hb⟩
  case read =>
    intro t r c s h
    refine ⟨fun hl => meterRead_range h hl, fun hl => ⟨_, meterRead_answers h hl, length_readBytes _ _, ?_⟩⟩
    exact readBytes_fields (advance t s) (length_namedCircuits_le _)
  case measure => exact fun t r c s h => ⟨fun hn => meterMeasure_answers h hn, fun hn => meterMeasure_range h hn⟩
  case measureLength => exact fun n s => length_measureBytes s n
  case harmonics => exact fun t r c s h => ⟨fun hn hw => meterHarmonics_answers h hn hw, fun hn => meterHarmonics_range h hn⟩
  case harmonicsLength => exact fun n cur s => length_harmonicBytes s n cur
  case capStatus => exact fun t r c s h => exec_meterCapStatus h
  case capLength => exact fun s => length_capBytes s

end Sys2Proof.Safety
end

section
/-! SUPPORT. What every row of the table answers: the frame it runs in answers a next state and keeps the queue (log 2), and only
the two rows beyond the absolute maxima of R508 stop (log 6). -/

namespace Sys2Proof.Machine

/-! ## The frames of a meaning -/

/-- An outcome is a next state, with the queue as `s` has it. -/
def Answers (s : State) (o : Res) : Prop := ∃ s', o = .next s' ∧ s'.pending = s.pending

theorem verb_answers (op t : Nat) (r : CmdRef) (s : State) (f : Cmd → State → State) : Answers s (verb op t r s f) := by
  unfold verb
  dsimp only
  split
  · split
    · exact ⟨_, rfl, leave_pending _ _⟩
    · exact ⟨_, rfl, rfl⟩
  · exact ⟨_, rfl, rfl⟩

theorem verbF_answers (op t : Nat) (r : CmdRef) (s : State) (f : Cmd → State → State) : Answers s (verbF op t r s f) :=
  verb_answers op t r s fun c z => settle (f c z)

theorem happens_answers (t : Nat) (s : State) (f : State → State) : Answers s (happens t s f) := by
  cases ha : awake s
  · exact ⟨_, happens_asleep ha, rfl⟩
  · exact ⟨_, happens_awake ha, leave_pending _ _⟩

theorem occurs_answers (t : Nat) (s : State) (f : State → State) : Answers s (occurs t s f) :=
  happens_answers t s fun z => settle (f z)

theorem always_answers (t : Nat) (s : State) (f : State → State) : Answers s (always t s f) :=
  ⟨_, rfl, leave_pending _ _⟩

theorem alwaysF_answers (t : Nat) (s : State) (f : State → State) : Answers s (alwaysF t s f) :=
  always_answers t s fun z => settle (f z)

/-! ## The rows -/

/-- The row's operand is within the absolute maxima of R508: every row but a feed level and a junction temperature beyond them. -/
def withinMaxima : Instr → Bool
  | .feedLevelChange _ _ mV => decide (-62000 ≤ mV) && decide (mV ≤ 72000)
  | .junctionTempChange _ tenths => decide (tenths ≤ 1250)
  | _ => true

theorem feedLevelChange_answers (t feed : Nat) {mV : Int} (s : State) (hlo : -62000 ≤ mV) (hhi : mV ≤ 72000) :
    Answers s (exec (.feedLevelChange t feed mV) s) := by
  have hin : ¬ (decide (mV < -62000) || decide (72000 < mV)) = true := by simp; omega
  have hexec : exec (.feedLevelChange t feed mV) s = alwaysF t s fun z => if feed < 2 then feedLevel feed mV z else z := if_neg hin
  rw [hexec]
  exact alwaysF_answers _ _ _

theorem junctionTempChange_answers (t : Nat) {tenths : Int} (s : State) (h : tenths ≤ 1250) :
    Answers s (exec (.junctionTempChange t tenths) s) := by
  have hexec : exec (.junctionTempChange t tenths) s = alwaysF t s (junctionChange tenths) := if_neg (Int.not_lt.mpr h)
  rw [hexec]
  exact alwaysF_answers _ _ _

/-- Every row within the absolute maxima answers a next state and keeps the queue, each by the frame its meaning runs in. -/
theorem exec_answers {i : Instr} (s : State) (hi : withinMaxima i = true) : Answers s (exec i s) := by
  cases i <;> dsimp only [exec]
  case sysNop | sysIdent | mbxAbort | mbxInbandSet | mbxKeySet | wallDefine | wallStatus | placeReport | weaveLoad |
      weaveTable | weaveParam | weaveStatus | weaveCounters | ingestVideoDefine | ingestAudioDefine | ingestTapDefine |
      ingestSacnMapDefine | ingestPlaneDefine | ingestPlaneSubmit | ingestRemove | ingestCounters | ingestTapRead |
      storeCorrPersist | storeCorrRestore | storeScrubSet | storeStatus | storeCounters | storeInject | schedStatus |
      schedCounters | schedTakeSet | schedDrainSet | schedClassSet | schedThreads | modeStatus | modeCalmSet | modeCalmExit |
      linkStatus | linkEnum | linkTile | linkCounters | linkGenSet | portStatus | portCounters | timeStatus | timeTrigger |
      timeLtcSet | timeRtcSet | cueSchedule | cueCancel | cueStatus | healthProbeSet | healthDefectRead | healthDefectClear |
      healthThermalSet | healthTile | healthZoneSet | healthSensorDefine | healthSensorReference | healthZoneRead |
      healthSensorRead | fixOutputDefine | fixFixtureDefine | fixSet | fixSafeSet | fixConfig | fixRdm | fixRdmDiscover |
      fixRdmUids | fixCounters | airNetSet | airRadioDefine | airBandDefine | airCrowdDefine | airNodeAdd | airChmap | airSend
      | airRecv | airStatus | airNodeStatus | airCounters | powerPaceSet | powerWakeSet | powerCmpSet | powerStatus |
      powerWakeReport | meterInputSet | meterCircuitSet | meterRead | meterMeasure | meterHarmonics | meterPulseSet |
      meterSaveSet | meterClear | meterCoefSet | meterCapSet | meterCapStatus | twinStatus | twinCounters | faultStatus |
      faultReactSet | faultSafeSet | faultCounters | calStatus | calSet | calRun | calTrimRead | calCounters |
      calRestoreFactory | reelStatus | reelRead | reelClear | reelNote | updateConfirm | updateStatus =>
    exact verb_answers _ _ _ _ _
  case wallActivate | placeProfile | placePin | placeUnpin | storeCorrLoad | schedSpindle | modeSet | portConfig | timePtpSet
      | timePtpPort | timeLock | airRadioEnable | powerEnter | powerExit | powerFeedSet | twinConfig | twinDrill | faultReturn
      | faultInject | updateBegin | updateWrite | updateVerify | updateActivate | updateLock =>
    exact verbF_answers _ _ _ _ _
  case mbxTailDoorbell | mbxRheadWrite | mbxEnable | mbxDisable | hifIntMaskWrite | hifIntStatClear | fltViolClear |
      fltStickyClear | macHalfClear | tsOvfClear | underrunClear | reelCursorWrite | reelWindowLoadDone | registerWrite |
      bar0AccessViolation | commandTake | unsupported | threadDispatch | threadQuantumExpiry | classFloorWindow |
      responseWrite | eventWrite | commandDeadline | mailboxDrainTimeout | tagMemoryExpiry | inbandDatagram | corrPersistDone
      | dramTempCross | paceWindowEnd | paceEvaluation | railSettled | bobbinWrite | bobbinRead | bobbinFlush | sacnKeepalive
      | takeIssue | takeTimeout | bankGate | pauseFrame | pauseQuantaExpiry | ptpMessageTx | ltcWord | ltcLossTimeout |
      triggerFire | cueFire | cueCommandDone | detectProbeDue | probeResultTimeout | sensorSampleDue | i2cTransactionDone |
      sensorRetry | tempStaleTimeout | dmxFrameStart | rdmRequestSend | rdmResponse | rdmResponseTimeout |
      streamTerminatedSend | superframeStart | budgetBucketRoll | supervisionTimeout | recoveryHoldExpiry | meterSample |
      meterPowerSample | meterWindowEnd | capCorrectionUpdate | capTargetCompute | meterSaveDue | meterSaveVerify | pulseStart
      | pulseEnd | helloSend | dackRx | heartbeatPulse | dieTempRead | calMeasurementDone | calDiscardRetry | beaconSend |
      recoveryBeaconSend | crowdSend | anchorDownSend | upRx | joinReqRx | resyncRx =>
    exact happens_answers _ _ _
  case planeCopyDone | corrRestoreDone | scrubStep | drainTimeout | updateLoadDone | handoverBlockRead | updateConfirmation |
      healthWindowExpiry | fallbackBlockWritten | frameBoundary | placementLeadExpiry | commitCopySend | skeinGuardExpiry |
      probeQueue | pixelComplete | hankComplete | spindleStall | videoPacket | fcsVerdict | audioPacket | audioSampleDue |
      sacnDataPacket | sacnSyncPacket | sacnSourceTimeout | streamLostTimeout | igmpQuery | frameTransmitStart | ackRx | nakRx
      | ackWaitExpiry | reportRx | replyRx | discoverCollectEnd | echoRx | measureRotation | enumerationDone | speedConfirmRx
      | speedConfirmTimeout | lineRetrained | lockChange | lockLossTimeout | ptpAnnounceRx | ptpEventRx | announceTimeout |
      helloRx | twinLinkTimeout | digestSegmentRx | healthWordTimeout | faultDetection | lullExpiry | returnStepDone |
      calApplyStep | reelRecordWrite | sectorSwitchDone | squallWrite | faultSourceQuiet | receivedFrame | corrLoadDone |
      weaveLoadDone | vmodFoldBack =>
    exact occurs_answers _ _ _
  case powerOn | resetNAssert | pciePerst | ownerKeyLockoutExpiry | rtcSecond | carryReturnTimeout | lastGaspEnd |
      resetNRelease | feedBusBelow7v =>
    exact always_answers _ _ _
  case pcieLinkStateChange | bootStageDone | powerEntryDone | interlockPinChange | feedLiveQualified | railOutOfRange |
      junctionTrip | comparatorDebounced | rtcAlarm | gpioWakeEdge | pcieWake | linkActivityWake | wakeStepDone |
      wakeStepTimeout | wakeRepeat | roleInRegistered =>
    exact alwaysF_answers _ _ _
  case feedLevelChange t feed mV =>
    obtain ⟨hlo, hhi⟩ : -62000 ≤ mV ∧ mV ≤ 72000 := by simpa [withinMaxima] using hi
    exact feedLevelChange_answers t feed s hlo hhi
  case junctionTempChange t tenths =>
    exact junctionTempChange_answers t s (by simpa [withinMaxima] using hi)

end Sys2Proof.Machine
end

section
/-! PROOF. That every command and every event completes, and the statement on the whole table assembled from it. -/

namespace Sys2Proof.Safety

open Sys2Proof.Machine

/-- The verbs of a family complete, whatever the command in flight. -/
theorem verbs_complete {l : List (Nat × (Nat → CmdRef → Instr))} (hl : ∀ t r, l.all (fun e => withinMaxima (e.2 t r)) = true)
    (t : Nat) (r : CmdRef) (c : Cmd) (s : State) :
    ∀ e ∈ l, Ready e.1 r c s → ∃ s', exec (e.2 t r) s = .next s' ∧ s'.pending = s.pending :=
  fun e he _ => exec_answers s (List.all_eq_true.mp (hl t r) e he)

/-- The events of a family complete. -/
theorem events_complete {l : List Instr} (hl : l.all withinMaxima = true) (s : State) :
    ∀ i ∈ l, ∃ s', exec i s = .next s' ∧ s'.pending = s.pending :=
  fun i hi => exec_answers s (List.all_eq_true.mp hl i hi)

/-- Settles O60: the verbs of the command set, family by family, then the events, then the two rows of R508 by their operand. -/
theorem everyCommandCompletes : Obligations.EveryCommandCompletes := by
  refine ⟨?commandPath, ?wall, ?weave, ?ingest, ?store, ?sched, ?mode, ?link, ?time, ?health, ?fixtures, ?air, ?power, ?metering,
    ?twin, ?faults, ?cal, ?reel, ?update, ?events⟩
  case events =>
    refine ⟨?resetEvents, ?registerEvents, ?commandPathEvents, ?ingestEvents, ?storeEvents, ?schedEvents, ?powerEvents,
      ?updateEvents, ?fabricEvents, ?frameEvents, ?receiveEvents, ?timeEvents, ?healthEvents, ?fixtureEvents, ?airEvents,
      ?meteringEvents, ?twinEvents, ?faultEvents, ?calEvents, ?reelEvents, ?restEvents, ?feed, ?junction⟩
    case feed =>
      exact fun t f mV s => ⟨fun hlo hhi => feedLevelChange_answers t f s hlo hhi,
        fun h => feedLevelChange_absoluteMaximum t f s h⟩
    case junction => exact fun t x s => ⟨fun h => junctionTempChange_answers t s h, fun h => if_pos h⟩
    all_goals
      intros
      exact events_complete rfl _ _ ‹_›
  all_goals exact verbs_complete fun _ _ => rfl

end Sys2Proof.Safety
end

section
/-! SUPPORT. The frame store's words (R131, R136, R139, R145): what a key of a table reads after a filter, and what a write, a read,
the dropping and the moving of an object's copy do to a word and leave alone. -/

namespace Sys2Proof.Machine

/-! ## Keyed tables -/

theorem kget?_kfilter {α : Type} (p : Nat → Bool) (m : KMap α) (j : Nat) :
    kget? (kfilter m fun k _ => p k) j = if p j = true then kget? m j else none := by
  induction m with
  | nil => simp [kfilter, kget?]
  | cons e r ih =>
    obtain ⟨k, v⟩ := e
    simp only [kfilter] at ih
    by_cases hk : k = j
    · subst hk
      cases hp : p k <;> simp [kfilter, kget?, hp, ih]
    · cases hp : p k <;> simp [kfilter, kget?, hp, ih, hk]

/-- A key that is not above those that a rising table lists is not in the table. -/
theorem kget?_of_kwfFrom {α : Type} {b j : Nat} {m : KMap α} (w : kwfFrom b m = true) (h : j ≤ b) : kget? m j = none := by
  induction m generalizing b with
  | nil => rfl
  | cons e r ih =>
    obtain ⟨k, v⟩ := e
    simp only [kwfFrom, Bool.and_eq_true, decide_eq_true_eq] at w
    obtain ⟨hk, hr⟩ := w
    have hne : k ≠ j := by omega
    simpa [kget?, hne] using ih hr (by omega)

/-! ## What an operation on the words reaches -/

/-- A change of the words, of the banks' records and of the detections noted, and of nothing else. -/
def OnlyMemory (s z : State) : Prop :=
  { z with store := { z.store with words := s.store.words, banks := s.store.banks }, flt := s.flt } = s

theorem OnlyMemory.trans {a b c : State} (h : OnlyMemory a b) (h' : OnlyMemory b c) : OnlyMemory a c := by
  have e : ({ c with store := { c.store with words := a.store.words, banks := a.store.banks }, flt := a.flt } : State) =
      { b with store := { b.store with words := a.store.words, banks := a.store.banks }, flt := a.flt } :=
    congrArg (fun z => { z with store := { z.store with words := a.store.words, banks := a.store.banks }, flt := a.flt }) h'
  exact e.trans h

theorem OnlyMemory.corr {s z : State} (h : OnlyMemory s z) : z.store.corr = s.store.corr := congrArg (·.store.corr) h
theorem OnlyMemory.flash {s z : State} (h : OnlyMemory s z) : z.store.flash = s.store.flash := congrArg (·.store.flash) h
theorem OnlyMemory.scrubAt {s z : State} (h : OnlyMemory s z) : z.store.scrubAt = s.store.scrubAt :=
  congrArg (·.store.scrubAt) h
theorem OnlyMemory.cmds {s z : State} (h : OnlyMemory s z) : z.cmds = s.cmds := congrArg (·.cmds) h
theorem OnlyMemory.mode {s z : State} (h : OnlyMemory s z) : z.mode = s.mode := congrArg (·.mode) h
theorem OnlyMemory.now {s z : State} (h : OnlyMemory s z) : z.now = s.now := congrArg (·.now) h
theorem OnlyMemory.bankOfKey {s z : State} (h : OnlyMemory s z) (key : Nat) : bankOfKey z key = bankOfKey s key :=
  (congrArg (Machine.bankOfKey · key) h :)
theorem OnlyMemory.bankUp {s z : State} (h : OnlyMemory s z) : bankUp z = bankUp s := (congrArg Machine.bankUp h :)

theorem OnlyMemory.of_loop {α : Type} {f : α → State → State} (step : ∀ a s, OnlyMemory s (f a s)) (l : List α) (s : State) :
    OnlyMemory s (forEach l s f) :=
  forEach_keeps (P := OnlyMemory s) (fun a z h => h.trans (step a z)) l s rfl

/-! ## A bank's record -/

/-- The record of a frame-store bank. -/
def bankRec (s : State) (b : Nat) : FBank := kgetD s.store.banks b {}

@[simp] theorem bankRec_modBank_same (b : Nat) (f : FBank → FBank) (s : State) : bankRec (modBank b f s) b = f (bankRec s b) :=
  kgetD_kmod_same s.store.banks b {} f

theorem bankRec_modBank_other {b k : Nat} (f : FBank → FBank) (s : State) (h : k ≠ b) :
    bankRec (modBank b f s) k = bankRec s k :=
  kgetD_kmod_other s.store.banks b k {} {} f h

@[simp] theorem bankRec_raise (source cause : Nat) (l : List Int) (s : State) (b : Nat) :
    bankRec (raise source cause l s) b = bankRec s b := rfl

@[simp] theorem bankRec_setWord (key : Nat) (w : Word64) (s : State) (b : Nat) : bankRec (setWord key w s) b = bankRec s b := rfl

/-! ## A word written (R131, R145) -/

@[simp] theorem wordAt_modBank (b : Nat) (f : FBank → FBank) (s : State) (j : Nat) : wordAt (modBank b f s) j = wordAt s j := rfl

section
variable {key b : Nat} {s : State}

theorem storeWrite_unplaced (data : Nat) (hb : bankOfKey s key = none) :
    storeWrite key data s = setWord key { data := BitVec.ofNat 64 data } s := by
  simp [storeWrite, hb]

theorem storeWrite_down (data : Nat) (hb : bankOfKey s key = some b) (hu : bankUp s b = false) : storeWrite key data s = s := by
  simp [storeWrite, hb, hu]

theorem storeWrite_sound (data : Nat) (hb : bankOfKey s key = some b) (hu : bankUp s b = true)
    (ha : (bankRec s b).armed = []) : storeWrite key data s = setWord key { data := BitVec.ofNat 64 data } s := by
  change (kgetD s.store.banks b {}).armed = [] at ha
  simp only [storeWrite, hb, hu, ha, Bool.not_true, Bool.false_eq_true, if_false]

theorem storeWrite_armed (data : Nat) {n : Nat} {rest : List Nat} (hb : bankOfKey s key = some b) (hu : bankUp s b = true)
    (ha : (bankRec s b).armed = n :: rest) : storeWrite key data s =
      setWord key { data := BitVec.ofNat 64 data, err := n, injected := true } (modBank b (fun k => { k with armed := rest }) s) := by
  change (kgetD s.store.banks b {}).armed = n :: rest at ha
  simp only [storeWrite, hb, hu, ha, Bool.not_true, Bool.false_eq_true, if_false]

/-- A write is of the word alone, and takes what is armed on a bank with it. -/
theorem storeWrite_cases (key data : Nat) (s : State) : storeWrite key data s = s
    ∨ ∃ w b f, storeWrite key data s = setWord key w s ∨ storeWrite key data s = setWord key w (modBank b f s) := by
  cases hb : bankOfKey s key with
  | none => exact .inr ⟨_, 0, id, .inl (storeWrite_unplaced data hb)⟩
  | some b =>
    cases hu : bankUp s b with
    | false => exact .inl (storeWrite_down data hb hu)
    | true =>
      cases ha : (bankRec s b).armed with
      | nil => exact .inr ⟨_, 0, id, .inl (storeWrite_sound data hb hu ha)⟩
      | cons n rest => exact .inr ⟨_, b, _, .inr (storeWrite_armed data hb hu ha)⟩

theorem wordAt_storeWrite_other (data : Nat) {j : Nat} (s : State) (h : j ≠ key) :
    wordAt (storeWrite key data s) j = wordAt s j := by
  obtain e | ⟨w, b, f, e | e⟩ := storeWrite_cases key data s <;> rw [e]
  · exact wordAt_setWord_other _ _ _ _ h
  · exact wordAt_setWord_other _ _ _ _ h

theorem storeWrite_onlyMemory (key data : Nat) (s : State) : OnlyMemory s (storeWrite key data s) := by
  obtain e | ⟨w, b, f, e | e⟩ := storeWrite_cases key data s <;> rw [e] <;> rfl

/-! ## A word read (R136, R138) -/

theorem storeRead_sound (h : (wordAt s key).err = 0) : storeRead key s = ((wordAt s key).data.toNat, false, s) := by
  simp [storeRead, h]

theorem storeRead_single (h : (wordAt s key).err = 1) : storeRead key s = ((wordAt s key).data.toNat, false,
    correctable ((bankOfKey s key).getD 0) key (wordAt s key).injected (setWord key { data := (wordAt s key).data } s)) := by
  simp [storeRead, h]

theorem storeRead_uncorrectable (h : 2 ≤ (wordAt s key).err) : storeRead key s = ((wordAt s key).data.toNat, true,
    uncorrectable ((bankOfKey s key).getD 0) key (wordAt s key).injected s) := by
  have h0 : (wordAt s key).err ≠ 0 := by omega
  have h1 : (wordAt s key).err ≠ 1 := by omega
  simp [storeRead, h0, h1]

/-- An injected error is counted and corrected, and makes no row hard (R138). -/
theorem correctable_injected (b key : Nat) (s : State) :
    correctable b key true s = modBank b (fun k => { k with ce := k.ce + 1 }) s := by
  simp [correctable]

theorem uncorrectable_injected (b key : Nat) (s : State) :
    uncorrectable b key true s = modBank b (fun k => { k with ue := k.ue + 1 }) s := by
  simp [uncorrectable]

/-- A correctable error is counted in the bank's record, and may be noted for the collector. -/
theorem correctable_cases (b key : Nat) (injected : Bool) (s : State) : ∃ f : FBank → FBank, (∀ k, (f k).ce = k.ce + 1)
    ∧ (correctable b key injected s = modBank b f s
      ∨ ∃ source cause l, correctable b key injected s = raise source cause l (modBank b f s)) := by
  unfold correctable
  dsimp only
  split
  · exact ⟨_, fun _ => rfl, .inr ⟨_, _, _, rfl⟩⟩
  · exact ⟨_, fun _ => rfl, .inl rfl⟩

theorem wordAt_correctable (b key : Nat) (injected : Bool) (s : State) (j : Nat) :
    wordAt (correctable b key injected s) j = wordAt s j := by
  obtain ⟨f, -, e | ⟨_, _, _, e⟩⟩ := correctable_cases b key injected s <;> rw [e] <;> rfl

theorem correctable_onlyMemory (b key : Nat) (injected : Bool) (s : State) : OnlyMemory s (correctable b key injected s) := by
  obtain ⟨f, -, e | ⟨_, _, _, e⟩⟩ := correctable_cases b key injected s <;> rw [e] <;> rfl

theorem correctable_ce (b key : Nat) (injected : Bool) (s : State) :
    (bankRec (correctable b key injected s) b).ce = (bankRec s b).ce + 1 := by
  obtain ⟨f, hf, e | ⟨_, _, _, e⟩⟩ := correctable_cases b key injected s <;> rw [e] <;> simp [hf]

/-- An uncorrectable error is counted in the bank's record, and may be noted for the collector. -/
theorem uncorrectable_cases (b key : Nat) (injected : Bool) (s : State) : ∃ r source cause l,
    uncorrectable b key injected s = modBank b (fun k => { k with ue := k.ue + 1 }) s
    ∨ uncorrectable b key injected s =
      modBank b (fun k => { k with recentUe := r }) (modBank b (fun k => { k with ue := k.ue + 1 }) s)
    ∨ uncorrectable b key injected s = raise source cause l
      (modBank b (fun k => { k with recentUe := r }) (modBank b (fun k => { k with ue := k.ue + 1 }) s)) := by
  unfold uncorrectable
  dsimp only
  split
  · exact ⟨[], 0, 0, [], .inl rfl⟩
  · split
    · exact ⟨_, _, _, _, .inr (.inr rfl)⟩
    · exact ⟨_, 0, 0, [], .inr (.inl rfl)⟩

theorem wordAt_uncorrectable (b key : Nat) (injected : Bool) (s : State) (j : Nat) :
    wordAt (uncorrectable b key injected s) j = wordAt s j := by
  obtain ⟨r, source, cause, l, e | e | e⟩ := uncorrectable_cases b key injected s <;> rw [e] <;> rfl

theorem uncorrectable_onlyMemory (b key : Nat) (injected : Bool) (s : State) : OnlyMemory s (uncorrectable b key injected s) := by
  obtain ⟨r, source, cause, l, e | e | e⟩ := uncorrectable_cases b key injected s <;> rw [e] <;> rfl

theorem uncorrectable_counts (b key : Nat) (injected : Bool) (s : State) :
    (bankRec (uncorrectable b key injected s) b).ue = (bankRec s b).ue + 1
    ∧ (bankRec (uncorrectable b key injected s) b).poisonWb = (bankRec s b).poisonWb := by
  obtain ⟨r, source, cause, l, e | e | e⟩ := uncorrectable_cases b key injected s <;> rw [e] <;> simp

theorem storeRead_onlyMemory (key : Nat) (s : State) : OnlyMemory s (storeRead key s).2.2 := by
  obtain h | h | h : (wordAt s key).err = 0 ∨ (wordAt s key).err = 1 ∨ 2 ≤ (wordAt s key).err := by omega
  · rw [storeRead_sound h]
    rfl
  · rw [storeRead_single h]
    exact OnlyMemory.trans (b := setWord key _ s) rfl (correctable_onlyMemory _ _ _ _)
  · rw [storeRead_uncorrectable h]
    exact uncorrectable_onlyMemory _ _ _ _

/-- A read changes a word by correcting it, and only where a single error is met. -/
theorem wordAt_storeRead (key j : Nat) (s : State) : wordAt (storeRead key s).2.2 j =
    if j = key ∧ (wordAt s key).err = 1 then { data := (wordAt s key).data } else wordAt s j := by
  obtain h | h | h : (wordAt s key).err = 0 ∨ (wordAt s key).err = 1 ∨ 2 ≤ (wordAt s key).err := by omega
  · simp [storeRead_sound h, h]
  · rw [storeRead_single h, wordAt_correctable]
    by_cases hj : j = key
    · subst hj
      simp [h, wordAt_setWord_same]
    · simp [hj, wordAt_setWord_other]
  · have h1 : (wordAt s key).err ≠ 1 := by omega
    simp [storeRead_uncorrectable h, wordAt_uncorrectable, h1]

end

/-! ## An object's copy dropped and moved (R139) -/

/-- The keys of an object's copy. -/
def inCopy (kind obj copy key : Nat) : Bool :=
  decide (wordKey kind obj copy 0 ≤ key) && decide (key < wordKey kind obj copy 0 + 2 ^ 28)

theorem inCopy_iff (kind obj copy key : Nat) :
    inCopy kind obj copy key = true ↔ wordKey kind obj copy 0 ≤ key ∧ key < wordKey kind obj (copy + 1) 0 := by
  have next : wordKey kind obj (copy + 1) 0 = wordKey kind obj copy 0 + 2 ^ 28 := by
    simp only [wordKey]
    omega
  simp [inCopy, next]

theorem wordKey_eq_add (kind obj copy i : Nat) : wordKey kind obj copy i = wordKey kind obj copy 0 + i := by
  simp [wordKey]

theorem inCopy_wordKey (kind obj copy : Nat) {i : Nat} (h : i < 2 ^ 28) : inCopy kind obj copy (wordKey kind obj copy i) = true := by
  rw [wordKey_eq_add, inCopy, Bool.and_eq_true, decide_eq_true_eq, decide_eq_true_eq]
  omega

theorem wordAt_dropObject (kind obj copy : Nat) (s : State) (j : Nat) :
    wordAt (dropObject kind obj copy s) j = if inCopy kind obj copy j = true then {} else wordAt s j := by
  have hword : wordAt (dropObject kind obj copy s) j =
      kgetD (kfilter s.store.words fun k _ => !inCopy kind obj copy k) j {} := rfl
  rw [hword, kgetD, kget?_kfilter]
  cases inCopy kind obj copy j <;> rfl

/-- Words of a copy written one after another where they go: each key reads what the list has for it, and as before where the list
has nothing. -/
theorem wordAt_moved (kind obj src dst i : Nat) (l : List (Nat × Word64)) (s : State) (hw : kwf l = true)
    (hl : ∀ e ∈ l, wordKey kind obj src 0 ≤ e.1) :
    wordAt (forEach l s fun e z => setWord (wordKey kind obj dst (e.1 - wordKey kind obj src 0)) e.2 z) (wordKey kind obj dst i) =
      kgetD l (wordKey kind obj src i) (wordAt s (wordKey kind obj dst i)) := by
  induction l generalizing s with
  | nil => rfl
  | cons e r ih =>
    obtain ⟨k, v⟩ := e
    have hfrom : kwfFrom k r = true := hw
    have hk : wordKey kind obj src 0 ≤ k := hl (k, v) List.mem_cons_self
    have rest := ih (setWord (wordKey kind obj dst (k - wordKey kind obj src 0)) v s) (kwf_of_kwfFrom _ hfrom)
      fun e he => hl e (List.mem_cons_of_mem _ he)
    refine rest.trans ?_
    by_cases hki : k = wordKey kind obj src i
    · have hi : k - wordKey kind obj src 0 = i := by rw [hki, wordKey_eq_add]; omega
      have hnone : kget? r (wordKey kind obj src i) = none := kget?_of_kwfFrom hfrom (Nat.le_of_eq hki.symm)
      rw [kgetD, hnone, hi, Option.getD_none, wordAt_setWord_same, hki]
      simp [kgetD, kget?]
    · have hne : wordKey kind obj dst i ≠ wordKey kind obj dst (k - wordKey kind obj src 0) := by
        have := wordKey_eq_add kind obj src i
        have := wordKey_eq_add kind obj dst i
        have := wordKey_eq_add kind obj dst (k - wordKey kind obj src 0)
        omega
      simp [kgetD, kget?, hki, wordAt_setWord_other _ _ _ _ hne]

theorem wordAt_moveObject (kind obj src dst : Nat) {i : Nat} {s : State} (hw : StoreWf s) (hi : i < 2 ^ 28) :
    wordAt (moveObject kind obj src dst s) (wordKey kind obj dst i) = wordAt s (wordKey kind obj src i) := by
  have hwf : kwf (kfilter s.store.words fun k _ => inCopy kind obj src k) = true :=
    kwf_filter _ _ (Bool.and_eq_true_iff.mp hw).1
  have hlist : ∀ e ∈ kfilter s.store.words fun k _ => inCopy kind obj src k, wordKey kind obj src 0 ≤ e.1 :=
    fun e he => ((inCopy_iff _ _ _ _).mp (List.mem_filter.mp he).2).1
  have unlisted : wordAt (dropObject kind obj src (dropObject kind obj dst s)) (wordKey kind obj dst i) = {} := by
    simp [wordAt_dropObject, inCopy_wordKey _ _ _ hi]
  have moved := wordAt_moved kind obj src dst i _ (dropObject kind obj src (dropObject kind obj dst s)) hwf hlist
  rw [unlisted] at moved
  refine moved.trans ?_
  rw [kgetD, kget?_kfilter, if_pos (inCopy_wordKey _ _ _ hi)]
  rfl

theorem moveObject_onlyMemory (kind obj src dst : Nat) (s : State) : OnlyMemory s (moveObject kind obj src dst s) := by
  have dropped : OnlyMemory s (dropObject kind obj src (dropObject kind obj dst s)) := rfl
  have step (e : Nat × Word64) (z : State) :
      OnlyMemory z (setWord (wordKey kind obj dst (e.1 - wordKey kind obj src 0)) e.2 z) := rfl
  exact dropped.trans (.of_loop step _ _)

end Sys2Proof.Machine
end

section
/-! PROOF. The statement on the frame store's words, assembled from the rules above. -/

namespace Sys2Proof.Safety

open Sys2Proof.Machine

/-- A word written without error reads back as written, and the read changes nothing. -/
theorem storeRead_storeWrite {key data : Nat} {s : State} (hd : data < 2 ^ 64)
    (h : ∀ b, bankOfKey s key = some b → bankUp s b = true ∧ (kgetD s.store.banks b {}).armed = []) :
    storeRead key (storeWrite key data s) = (data, false, storeWrite key data s) := by
  have written : storeWrite key data s = setWord key { data := BitVec.ofNat 64 data } s := by
    cases hb : bankOfKey s key with
    | none => exact storeWrite_unplaced data hb
    | some b => exact storeWrite_sound data hb (h b hb).1 (h b hb).2
  have word : wordAt (storeWrite key data s) key = { data := BitVec.ofNat 64 data } := by
    rw [written]
    exact wordAt_setWord_same _ _ _
  rw [storeRead_sound (by rw [word]), word]
  rw [BitVec.toNat_ofNat, Nat.mod_eq_of_lt hd]

/-- Settles O22: a word written and read, then a copy dropped and moved. -/
theorem storeMemory : Obligations.StoreMemory := by
  refine ⟨?other, ?down, ?readBack, ?read, ?dropped, ?moved⟩
  case other => exact fun key data j s h => wordAt_storeWrite_other data s h
  case down => exact fun key data b s hb hu => storeWrite_down data hb hu
  case readBack => exact fun key data s hd h => storeRead_storeWrite hd h
  case read =>
    intro key j s
    refine ⟨?_, fun h => ?_⟩
    · rw [wordAt_storeRead]
      split
      · next h => rw [h.1]
      · rfl
    · rw [wordAt_storeRead, if_pos ⟨rfl, h⟩]
  case dropped => exact fun kind obj copy j s => by simp only [wordAt_dropObject, inCopy_iff]
  case moved => exact fun kind obj src dst i s hw _ hi => wordAt_moveObject kind obj src dst hw hi

end Sys2Proof.Safety
end

section
/-! SUPPORT. The STORE commands that read back (R132, R145): the fields of their answers. -/

namespace Sys2Proof.Machine

@[simp] theorem storeStatusBytes_advance (t : Nat) (s : State) : storeStatusBytes (advance t s) = storeStatusBytes s := rfl

@[simp] theorem bankUp_advance (t : Nat) (s : State) (b : Nat) : bankUp (advance t s) b = bankUp s b := rfl

/-- The first 32 bytes of STORE_STATUS: the banks in service and retired, the scrub period, the temperatures and the refresh rates. -/
def storeStatusHead (s : State) : Bytes :=
  leN 4 s.store.up ++ leN 4 s.store.retired ++ leN 4 s.store.scrubS ++ leN 2 (twos 16 s.store.temp0)
    ++ leN 2 (twos 16 s.store.temp1) ++ leN 1 (b2n (fastRefresh s.store.temp0) + 2 * b2n (fastRefresh s.store.temp1)) ++ zeros 15

theorem length_storeStatusHead (s : State) : (storeStatusHead s).length = 32 := by
  simp [storeStatusHead]

/-- What STORE_STATUS tells of a bank: the KiB of buffers and of correction data placed in it. -/
def bankUse (s : State) (b : Nat) : Bytes := leN 4 ((bankBufBytes s b + 1023) / 1024) ++ leN 4 ((corrBytes s b + 1023) / 1024)

theorem storeStatusBytes_eq (s : State) : storeStatusBytes s = storeStatusHead s ++ (List.range 32).flatMap (bankUse s) := rfl

theorem length_storeStatusBytes (s : State) : (storeStatusBytes s).length = 288 := by
  have banks : ((List.range 32).flatMap (bankUse s)).length = 256 := by
    simp [bankUse, List.length_flatMap]
  rw [storeStatusBytes_eq, List.length_append, length_storeStatusHead, banks]

theorem storeStatusBytes_fields (s : State) : field (storeStatusBytes s) 0 4 = s.store.up % 2 ^ 32
    ∧ field (storeStatusBytes s) 4 4 = s.store.retired % 2 ^ 32 ∧ field (storeStatusBytes s) 8 4 = s.store.scrubS % 2 ^ 32
    ∧ field (storeStatusBytes s) 16 1 = b2n (decide (850 ≤ s.store.temp0)) + 2 * b2n (decide (850 ≤ s.store.temp1)) := by
  have inHead (o n : Nat) (h : o + n ≤ 32) : field (storeStatusBytes s) o n = field (storeStatusHead s) o n := by
    rw [storeStatusBytes_eq, field_append_left _ (by rw [length_storeStatusHead]; exact h)]
  have hrate : b2n (decide (850 ≤ s.store.temp0)) + 2 * b2n (decide (850 ≤ s.store.temp1)) < 256 := by
    cases decide (850 ≤ s.store.temp0) <;> cases decide (850 ≤ s.store.temp1) <;> decide
  rw [inHead 0 4 (by decide), inHead 4 4 (by decide), inHead 8 4 (by decide), inHead 16 1 (by decide)]
  simp [storeStatusHead, field_append_left, field_append_right, field_leN, Nat.mod_eq_of_lt hrate, fastRefresh]

/-- The payload of STORE_COUNTERS. -/
def bankCounterBytes (k : FBank) : Bytes :=
  leN 8 k.ce.toNat ++ leN 4 k.ue.toNat ++ leN 4 k.hard.toNat ++ leN 4 k.passes.toNat
    ++ leN 4 k.canaryFail.toNat ++ leN 4 k.poisonWb.toNat ++ zeros 4

theorem length_bankCounterBytes (k : FBank) : (bankCounterBytes k).length = 32 := by
  simp [bankCounterBytes]

theorem bankCounterBytes_fields (k : FBank) :
    field (bankCounterBytes k) 0 8 = k.ce.toNat ∧ field (bankCounterBytes k) 8 4 = k.ue.toNat := by
  have hce : k.ce.toNat < 18446744073709551616 := k.ce.isLt
  have hue : k.ue.toNat < 4294967296 := k.ue.isLt
  simp [bankCounterBytes, field_append_left, field_append_right, field_leN, Nat.mod_eq_of_lt hce, Nat.mod_eq_of_lt hue]

end Sys2Proof.Machine
end

section
/-! PROOF. What the STORE commands answer (R132, R137, R145) and what an injected error does to the word read next, and the statement
assembled from it. -/

namespace Sys2Proof.Safety

open Sys2Proof.Machine

section
variable {r : CmdRef} {c : Cmd} {s : State} (t : Nat)

theorem storeScrubSet_sound (h : Ready 0x0604 r c s) (hlo : 10 ≤ field c.payload 0 4) (hhi : field c.payload 0 4 ≤ 3600) :
    exec (.storeScrubSet t r) s = .next (complete c 0x00 0 []
      { advance t s with store := { s.store with scrubS := field c.payload 0 4 } }) := by
  have sound : ¬ (decide (field c.payload 0 4 < 10) || decide (3600 < field c.payload 0 4)) = true := by simp [hlo, hhi]
  dsimp only [exec, execStoreScrubSet]
  exact ready_plain h (if_neg sound) (by simp) (by simp) (by simp) (by simp) (by simp)

theorem storeScrubSet_range (h : Ready 0x0604 r c s) (hv : field c.payload 0 4 < 10 ∨ 3600 < field c.payload 0 4) :
    exec (.storeScrubSet t r) s = .next (complete c 0x21 0 [] (advance t s)) := by
  have unsound : (decide (field c.payload 0 4 < 10) || decide (3600 < field c.payload 0 4)) = true := by simpa using hv
  dsimp only [exec, execStoreScrubSet]
  exact ready_complete h (if_pos unsound)

theorem exec_storeStatus (h : Ready 0x0605 r c s) :
    exec (.storeStatus t r) s = .next (complete c 0x00 0 (storeStatusBytes s) (advance t s)) := by
  dsimp only [exec, execStoreStatus]
  exact ready_complete h (congrArg (reply c · (advance t s)) (storeStatusBytes_advance t s))

theorem storeCounters_answers (h : Ready 0x0606 r c s) (hb : field c.payload 0 1 ≤ 31) : exec (.storeCounters t r) s =
    .next (complete c 0x00 0 (bankCounterBytes (bankRec s (field c.payload 0 1))) (advance t s)) := by
  dsimp only [exec, execStoreCounters]
  exact ready_complete h (if_neg (Nat.not_lt.mpr hb))

theorem storeCounters_range (h : Ready 0x0606 r c s) (hb : 31 < field c.payload 0 1) :
    exec (.storeCounters t r) s = .next (complete c 0x21 0 [] (advance t s)) := by
  dsimp only [exec, execStoreCounters]
  exact ready_complete h (if_pos hb)

theorem dramTempCross_reads (t stack : Nat) (temp : Int) {s : State} (ha : awake s = true) (hp : PinDriven s) :
    exec (.dramTempCross t stack temp) s = .next (if stack = 0
      then { advance t s with store := { s.store with temp0 := temp } }
      else { advance t s with store := { s.store with temp1 := temp } }) := by
  have effect : dramTemp stack temp (advance t s) = if stack = 0
      then { advance t s with store := { s.store with temp0 := temp } }
      else { advance t s with store := { s.store with temp1 := temp } } := by
    simp only [dramTemp, beq_iff_eq]
    rfl
  refine happens_plain ha hp effect ?_ ?_ ?_ ?_ ?_ <;> split <;> rfl

/-- An injection that names a bank and one or two wrong bits passes the check of its operands (R145). -/
theorem injectSound {b n : Nat} (hb : b ≤ 31) (h1 : 1 ≤ n) (h2 : n ≤ 2) :
    ¬ (decide (31 < b) || n == 0 || decide (2 < n)) = true := by
  simp
  omega

theorem storeInject_arms (h : Ready 0x0607 r c s) (hb : field c.payload 0 1 ≤ 31) (h1 : 1 ≤ field c.payload 1 1)
    (h2 : field c.payload 1 1 ≤ 2) (hu : bankUp s (field c.payload 0 1) = true) : exec (.storeInject t r) s =
      .next (complete c 0x00 0 []
        (modBank (field c.payload 0 1) (fun k => { k with armed := k.armed ++ [field c.payload 1 1] }) (advance t s))) := by
  have up : ¬ (!bankUp (advance t s) (field c.payload 0 1)) = true := by rw [bankUp_advance, hu]; decide
  dsimp only [exec, execStoreInject]
  exact ready_plain h ((if_neg (injectSound hb h1 h2)).trans (if_neg up)) (by simp) (by simp) (by simp) (by simp) (by simp)

theorem storeInject_down (h : Ready 0x0607 r c s) (hb : field c.payload 0 1 ≤ 31) (h1 : 1 ≤ field c.payload 1 1)
    (h2 : field c.payload 1 1 ≤ 2) (hu : bankUp s (field c.payload 0 1) = false) :
    exec (.storeInject t r) s = .next (complete c 0x23 0 [] (advance t s)) := by
  have down : (!bankUp (advance t s) (field c.payload 0 1)) = true := by rw [bankUp_advance, hu]; rfl
  dsimp only [exec, execStoreInject]
  exact ready_complete h ((if_neg (injectSound hb h1 h2)).trans (if_pos down))

end

/-- An error armed is in the word written next and no longer armed (R145). -/
theorem storeWrite_injects {key data b n : Nat} {rest : List Nat} {s : State} (hb : bankOfKey s key = some b)
    (hu : bankUp s b = true) (ha : (bankRec s b).armed = n :: rest) :
    wordAt (storeWrite key data s) key = { data := BitVec.ofNat 64 data, err := n, injected := true }
    ∧ (bankRec (storeWrite key data s) b).armed = rest := by
  rw [storeWrite_armed data hb hu ha]
  exact ⟨wordAt_setWord_same _ _ _, by simp⟩

theorem storeRead_injected_single {key b : Nat} {s : State} (h1 : (wordAt s key).err = 1) (hi : (wordAt s key).injected = true)
    (hb : bankOfKey s key = some b) : storeRead key s = ((wordAt s key).data.toNat, false,
      modBank b (fun k => { k with ce := k.ce + 1 }) (setWord key { data := (wordAt s key).data } s)) := by
  rw [storeRead_single h1, hi, hb, Option.getD_some, correctable_injected]

theorem storeRead_injected_double {key b : Nat} {s : State} (h2 : (wordAt s key).err = 2) (hi : (wordAt s key).injected = true)
    (hb : bankOfKey s key = some b) : storeRead key s = ((wordAt s key).data.toNat, true,
      modBank b (fun k => { k with ue := k.ue + 1 }) s) := by
  rw [storeRead_uncorrectable (Nat.le_of_eq h2.symm), hi, hb, Option.getD_some, uncorrectable_injected]

/-- Settles O23: the commands, then the error armed and the word read with it. -/
theorem storeCommands : Obligations.StoreCommands := by
  refine ⟨⟨?scrubSet, ?status, ?counters, ?temperature⟩, ?inject, ?armed, ?single, ?double⟩
  case scrubSet => exact fun t r c s h => ⟨storeScrubSet_sound t h, storeScrubSet_range t h⟩
  case status => exact fun t r c s h => ⟨exec_storeStatus t h, length_storeStatusBytes s, storeStatusBytes_fields s⟩
  case counters =>
    exact fun t r c s h => ⟨fun hb => ⟨_, storeCounters_answers t h hb, length_bankCounterBytes _, bankCounterBytes_fields _⟩,
      storeCounters_range t h⟩
  case temperature => exact fun t stack temp s ha hp => dramTempCross_reads t stack temp ha hp
  case inject =>
    intro t r c s h _ _ hb h1 h2
    exact ⟨storeInject_arms t h hb h1 h2, storeInject_down t h hb h1 h2⟩
  case armed => exact fun key data b n rest s hb hu ha => storeWrite_injects hb hu ha
  case single =>
    rintro key b w s rfl h1 hi hb
    have record := bankRec_modBank_same b (fun k => { k with ce := k.ce + 1 }) (setWord key { data := (wordAt s key).data } s)
    rw [storeRead_injected_single h1 hi hb]
    exact ⟨rfl, rfl, congrArg (·.ce) record, congrArg (·.hard) record, rfl⟩
  case double =>
    rintro key b w s rfl h2 hi hb
    rw [storeRead_injected_double h2 hi hb]
    exact ⟨rfl, congrArg (·.ue) (bankRec_modBank_same b (fun k => { k with ue := k.ue + 1 }) s), rfl⟩

end Sys2Proof.Safety
end

section
/-! SUPPORT. Correction data (R139 to R142, R498): what a tile's correction reads after each operation, what a restore and the switch to
a complete copy reach, and what a load, a restore and a persist do at their end. -/

namespace Sys2Proof.Machine

/-! ## A tile's correction -/

@[simp] theorem corrOf_modCorr_same (tile : Nat) (f : Corr → Corr) (s : State) : corrOf (modCorr tile f s) tile = f (corrOf s tile) :=
  kgetD_kmod_same s.store.corr tile {} f

theorem corrOf_modCorr_other {tile k : Nat} (f : Corr → Corr) (s : State) (h : k ≠ tile) :
    corrOf (modCorr tile f s) k = corrOf s k :=
  kgetD_kmod_other s.store.corr tile k {} {} f h

@[simp] theorem corrOf_corrEvent (tile st : Nat) (s : State) (k : Nat) : corrOf (corrEvent tile st s) k = corrOf s k := rfl

@[simp] theorem corrOf_finish (r : CmdRef) (st d : Nat) (p : Bytes) (s : State) (k : Nat) :
    corrOf (finish r st d p s) k = corrOf s k := by
  simp [corrOf]

theorem OnlyMemory.corrOf {s z : State} (h : OnlyMemory s z) (k : Nat) : corrOf z k = corrOf s k := by
  simp only [Machine.corrOf, h.corr]

theorem corrLacks_congr {s z : State} {k : Nat} (h : corrOf z k = corrOf s k) : corrLacks z k = corrLacks s k := by
  simp only [corrLacks, h]

theorem corrLacks_of_present {s : State} {k : Nat} (h : (corrOf s k).present = true) : corrLacks s k = false := by
  simp [corrLacks, h]

/-- A change of the tiles' corrections and of the events that wait, and of nothing else. -/
def OnlyCorr (s z : State) : Prop := { z with store := { z.store with corr := s.store.corr }, hif := s.hif } = s

theorem OnlyCorr.trans {a b c : State} (h : OnlyCorr a b) (h' : OnlyCorr b c) : OnlyCorr a c := by
  have e : ({ c with store := { c.store with corr := a.store.corr }, hif := a.hif } : State) =
      { b with store := { b.store with corr := a.store.corr }, hif := a.hif } :=
    congrArg (fun z => { z with store := { z.store with corr := a.store.corr }, hif := a.hif }) h'
  exact e.trans h

theorem OnlyCorr.cmds {s z : State} (h : OnlyCorr s z) : z.cmds = s.cmds := congrArg (·.cmds) h
theorem OnlyCorr.flash {s z : State} (h : OnlyCorr s z) : z.store.flash = s.store.flash := congrArg (·.store.flash) h

theorem OnlyCorr.of_loop {α : Type} {f : α → State → State} (step : ∀ a s, OnlyCorr s (f a s)) (l : List α) (s : State) :
    OnlyCorr s (forEach l s f) :=
  forEach_keeps (P := OnlyCorr s) (fun a z h => h.trans (step a z)) l s rfl

/-! ## Restores (R142) -/

/-- A restore starts with a copy beside the present one, or its absence is reported. -/
theorem startRestore_cases (tile : Nat) (s : State) : (∃ st, startRestore tile s = corrEvent tile st s)
    ∨ ∃ p, startRestore tile s = modCorr tile (fun c => { c with rest := some p }) s := by
  unfold startRestore
  split
  · exact .inl ⟨_, rfl⟩
  · split
    · exact .inl ⟨_, rfl⟩
    · exact .inr ⟨_, rfl⟩

theorem startRestore_onlyCorr (tile : Nat) (s : State) : OnlyCorr s (startRestore tile s) := by
  obtain ⟨st, e⟩ | ⟨p, e⟩ := startRestore_cases tile s <;> rw [e] <;> rfl

theorem corrOf_startRestore_other {tile k : Nat} (s : State) (h : k ≠ tile) : corrOf (startRestore tile s) k = corrOf s k := by
  obtain ⟨st, e⟩ | ⟨p, e⟩ := startRestore_cases tile s <;> rw [e]
  · rfl
  · exact corrOf_modCorr_other _ _ h

theorem corrOf_startRestore_present (tile : Nat) (s : State) (k : Nat) :
    (corrOf (startRestore tile s) k).present = (corrOf s k).present := by
  by_cases hk : k = tile
  · subst hk
    obtain ⟨st, e⟩ | ⟨p, e⟩ := startRestore_cases k s <;> simp [e]
  · rw [corrOf_startRestore_other s hk]

/-- What the start of a restore keeps, for a tile with no correction and no copy on its way, the restores tried again keep. -/
theorem retryRestores_keeps {P : State → Prop} (step : ∀ k z, corrLacks z k = true → P z → P (startRestore k z)) (s : State)
    (h : P s) : P (retryRestores s) := by
  unfold retryRestores
  refine forEach_keeps (fun r z hz => ?_) _ s h
  split
  · split
    · next hl =>
      have hl : corrLacks z r.tile = true := (Bool.and_eq_true_iff.mp hl).1
      exact step r.tile z hl hz
    · exact hz
  · exact hz

theorem retryRestores_onlyCorr (s : State) : OnlyCorr s (retryRestores s) :=
  retryRestores_keeps (P := OnlyCorr s) (fun k z _ hz => hz.trans (startRestore_onlyCorr k z)) s rfl

theorem corrOf_retryRestores {tile : Nat} {s : State} (h : corrLacks s tile = false) :
    corrOf (retryRestores s) tile = corrOf s tile := by
  refine retryRestores_keeps (P := fun z => corrOf z tile = corrOf s tile) (fun k z hl hz => ?_) s rfl
  have hk : tile ≠ k := by
    rintro rfl
    rw [corrLacks_congr hz, h] at hl
    exact Bool.false_ne_true hl
  rw [corrOf_startRestore_other z hk, hz]

theorem corrOf_retryRestores_present (s : State) (k : Nat) : (corrOf (retryRestores s) k).present = (corrOf s k).present :=
  retryRestores_keeps (P := fun z => (corrOf z k).present = (corrOf s k).present)
    (fun tile z _ hz => (corrOf_startRestore_present tile z k).trans hz) s rfl

/-! ## The switch to a complete copy (R139) -/

/-- A tile's correction once it has switched to the copy that waited. -/
def switched (p : CorrCopy) (c : Corr) : Corr := { c with present := true, record := p.record, bank := p.bank, ready := none }

theorem corrSwitch_none {tile : Nat} {s : State} (h : (corrOf s tile).ready = none) : corrSwitch tile s = s := by
  simp only [corrSwitch, h]

theorem corrSwitch_ready {tile : Nat} {p : CorrCopy} {s : State} (h : (corrOf s tile).ready = some p) : corrSwitch tile s =
    { modCorr tile (switched p) (moveObject 2 tile 3 0 s) with mode := { s.mode with moved := true } } := by
  have mode : (moveObject 2 tile 3 0 s).mode = s.mode := (moveObject_onlyMemory 2 tile 3 0 s).mode
  simp only [corrSwitch, h, ← mode]
  rfl

theorem corrOf_corrSwitch_same {tile : Nat} {p : CorrCopy} {s : State} (h : (corrOf s tile).ready = some p) :
    corrOf (corrSwitch tile s) tile = switched p (corrOf s tile) := by
  rw [corrSwitch_ready h, ← (moveObject_onlyMemory 2 tile 3 0 s).corrOf tile]
  exact corrOf_modCorr_same _ _ _

theorem corrOf_corrSwitch_other {tile k : Nat} (s : State) (hk : k ≠ tile) : corrOf (corrSwitch tile s) k = corrOf s k := by
  cases h : (corrOf s tile).ready with
  | none => rw [corrSwitch_none h]
  | some p =>
    rw [corrSwitch_ready h, ← (moveObject_onlyMemory 2 tile 3 0 s).corrOf k]
    exact corrOf_modCorr_other _ _ hk

theorem corrSwitch_cmds (tile : Nat) (s : State) : (corrSwitch tile s).cmds = s.cmds := by
  cases h : (corrOf s tile).ready with
  | none => rw [corrSwitch_none h]
  | some p =>
    rw [corrSwitch_ready h]
    exact (moveObject_onlyMemory 2 tile 3 0 s).cmds

theorem corrOf_switches_none (l : List Nat) {tile : Nat} {s : State} (h : (corrOf s tile).ready = none) :
    corrOf (forEach l s corrSwitch) tile = corrOf s tile := by
  refine forEach_keeps (P := fun z => corrOf z tile = corrOf s tile) (fun k z hz => ?_) l s rfl
  by_cases hk : tile = k
  · subst hk
    rw [corrSwitch_none (by rw [hz, h]), hz]
  · rw [corrOf_corrSwitch_other z hk, hz]

/-- A tile named in the list switches once, to the copy that waits. -/
theorem corrOf_switches {l : List Nat} {tile : Nat} {p : CorrCopy} {s : State} (hl : tile ∈ l)
    (h : (corrOf s tile).ready = some p) : corrOf (forEach l s corrSwitch) tile = switched p (corrOf s tile) := by
  induction l generalizing s with
  | nil => cases hl
  | cons k l ih =>
    by_cases hk : tile = k
    · subst hk
      have first := corrOf_corrSwitch_same h
      have rest := corrOf_switches_none l (s := corrSwitch tile s) (tile := tile) (by rw [first]; rfl)
      exact rest.trans first
    · have first := corrOf_corrSwitch_other s hk
      have rest := ih (s := corrSwitch k s) (List.mem_of_ne_of_mem hk hl) (by rw [first, h])
      rw [first] at rest
      exact rest

theorem mem_of_kget? {α : Type} {m : KMap α} {k : Nat} {v : α} (h : kget? m k = some v) : (k, v) ∈ m := by
  induction m with
  | nil => simp [kget?] at h
  | cons e r ih =>
    obtain ⟨k', v'⟩ := e
    by_cases hk : k' = k
    · simp_all [kget?]
    · exact List.mem_cons_of_mem _ (ih (by simpa [kget?, hk] using h))

/-- The tiles with a complete copy that waits for its switch. -/
def readyTiles (s : State) : List Nat := (s.store.corr.filter fun e => e.2.ready.isSome).map (·.1)

theorem mem_readyTiles {tile : Nat} {p : CorrCopy} {s : State} (h : (corrOf s tile).ready = some p) : tile ∈ readyTiles s := by
  cases hc : kget? s.store.corr tile with
  | none => simp [corrOf, kgetD, hc] at h
  | some c =>
    have hready : c.ready.isSome = true := by simpa [corrOf, kgetD, hc] using congrArg Option.isSome h
    exact List.mem_map.mpr ⟨(tile, c), List.mem_filter.mpr ⟨mem_of_kget? hc, hready⟩, rfl⟩

theorem corrSwitchAll_eq (s : State) :
    corrSwitchAll s = if (readyTiles s).isEmpty then s else retryRestores (forEach (readyTiles s) s corrSwitch) := rfl

theorem corrOf_corrSwitchAll {tile : Nat} {p : CorrCopy} {s : State} (h : (corrOf s tile).ready = some p) :
    corrOf (corrSwitchAll s) tile = switched p (corrOf s tile) := by
  have hmem := mem_readyTiles h
  have hsome : ¬ (readyTiles s).isEmpty = true := fun he => List.ne_nil_of_mem hmem (List.isEmpty_iff.mp he)
  have inUse := corrOf_switches hmem h
  rw [corrSwitchAll_eq, if_neg hsome, corrOf_retryRestores (corrLacks_of_present (by rw [inUse]; rfl)), inUse]

theorem corrSwitchAll_cmds (s : State) : (corrSwitchAll s).cmds = s.cmds := by
  rw [corrSwitchAll_eq]
  split
  · rfl
  · rw [(retryRestores_onlyCorr _).cmds]
    exact forEach_keeps (P := fun z => z.cmds = s.cmds) (fun k z hz => (corrSwitch_cmds k z).trans hz) _ s rfl

theorem corrComplete_mode {tile : Nat} (st : Nat) {s : State} (h : modeOn s = true) :
    corrComplete tile st s = corrEvent tile st s :=
  if_pos h

theorem corrComplete_noMode {tile : Nat} (st : Nat) {s : State} (h : modeOn s = false) :
    corrComplete tile st s = corrSwitchAll (corrEvent tile st s) :=
  if_neg (Bool.eq_false_iff.mp h)

/-- With a mode in force the switch waits for the next boundary. -/
theorem corrOf_corrComplete_mode {tile : Nat} (st : Nat) {s : State} (h : modeOn s = true) :
    corrOf (corrComplete tile st s) tile = corrOf s tile := by
  rw [corrComplete_mode st h, corrOf_corrEvent]

theorem corrOf_corrComplete_noMode {tile : Nat} (st : Nat) {p : CorrCopy} {s : State} (h : modeOn s = false)
    (hr : (corrOf s tile).ready = some p) : corrOf (corrComplete tile st s) tile = switched p (corrOf s tile) := by
  rw [corrComplete_noMode st h]
  exact corrOf_corrSwitchAll (s := corrEvent tile st s) hr

theorem corrComplete_cmds (tile st : Nat) (s : State) : (corrComplete tile st s).cmds = s.cmds := by
  cases h : modeOn s with
  | true =>
    rw [corrComplete_mode st h]
    rfl
  | false =>
    rw [corrComplete_noMode st h, corrSwitchAll_cmds]
    rfl

/-! ## A copy written (R139, R142) -/

theorem corrWrite_onlyMemory (tile copy words : Nat) (data : Bytes) (s : State) : OnlyMemory s (corrWrite tile copy words data s) := by
  unfold corrWrite
  refine .of_loop (fun i z => ?_) _ _
  exact storeWrite_onlyMemory _ _ z

/-- A tile's correction with a complete copy that waits for its switch. -/
def waiting (p : CorrCopy) (c : Corr) : Corr := { c with ready := some { p with ref := none } }

theorem corrReady_eq (tile copy : Nat) (p : CorrCopy) (s : State) :
    corrReady tile copy p s = modCorr tile (waiting p) (moveObject 2 tile copy 3 s) := rfl

theorem corrOf_corrReady (tile copy : Nat) (p : CorrCopy) (s : State) :
    corrOf (corrReady tile copy p s) tile = waiting p (corrOf s tile) := by
  rw [corrReady_eq, corrOf_modCorr_same, (moveObject_onlyMemory 2 tile copy 3 s).corrOf]

theorem corrReady_mode (tile copy : Nat) (p : CorrCopy) (s : State) : (corrReady tile copy p s).mode = s.mode := by
  rw [corrReady, modCorr_mode]
  exact (moveObject_onlyMemory 2 tile copy 3 s).mode

/-- A copy written, and complete: it waits for its switch, and `f` ends what wrote it. -/
def corrStaged (tile copy words : Nat) (data : Bytes) (p : CorrCopy) (f : Corr → Corr) (s : State) : State :=
  corrReady tile copy p (modCorr tile f (corrWrite tile copy words data s))

section
variable (tile copy words : Nat) (data : Bytes) (p : CorrCopy) (f : Corr → Corr) (s : State)

theorem corrOf_corrStaged : corrOf (corrStaged tile copy words data p f s) tile =
    waiting p (f (corrOf s tile)) := by
  rw [corrStaged, corrOf_corrReady, corrOf_modCorr_same, (corrWrite_onlyMemory tile copy words data s).corrOf]

theorem modeOn_corrStaged : modeOn (corrStaged tile copy words data p f s) = modeOn s := by
  rw [modeOn, corrStaged, corrReady_mode, modCorr_mode, (corrWrite_onlyMemory tile copy words data s).mode, modeOn]

end

/-! ## Loads, restores and persists -/

theorem corrLoad_takes {c : Cmd} {w : WallImg} {q : TileRec} {b : Nat} {s : State} (hw : s.wall.active = some w)
    (hq : tileOf w (field c.payload 0 2) = some q) (hr : field c.payload 2 1 ≤ 1)
    (hl : field c.payload 16 4 = 8 * corrWords (field c.payload 2 1) (tilePx q)) (ha : field c.payload 8 8 % 8 = 0)
    (hload : (corrOf s (field c.payload 0 2)).load = none) (hrest : (corrOf s (field c.payload 0 2)).rest = none)
    (hb : corrBank s (field c.payload 0 2) (field c.payload 16 4) = some b) : corrLoad c s =
      modCorr (field c.payload 0 2) (fun k => { k with
        load := some { record := field c.payload 2 1, bank := b, ref := some c.ref } }) (park c s) := by
  have htile : activeTile s (field c.payload 0 2) = some q := by simp only [activeTile, hw, hq]
  have hrange : ¬ (decide (1 < field c.payload 2 1) || field c.payload 16 4 != 8 * corrWords (field c.payload 2 1) (tilePx q)
      || field c.payload 8 8 % 8 != 0) = true := by simp [hr, hl, ha]
  have hwall : ¬ s.wall.active.isNone = true := by simp [hw]
  simp only [corrLoad, htile, hb, if_neg hwall, if_neg hrange, hload, hrest]
  rfl

theorem corrLoaded_ends {tile : Nat} (data : Bytes) {p : CorrCopy} {r : CmdRef} {s : State} (hl : (corrOf s tile).load = some p)
    (hr : p.ref = some r) : corrLoaded tile data s = corrComplete tile 1 (finish r stOK 0 []
      (corrStaged tile 1 (corrWords p.record (wallTilePx s tile)) data p (fun k => { k with load := none }) s)) := by
  simp only [corrLoaded, hl, hr]
  rfl

theorem corrRestored_ends {tile : Nat} {p : CorrCopy} {f : FlashCorr} {s : State} (hr : (corrOf s tile).rest = some p)
    (hf : kget? s.store.flash tile = some f) (h1 : firstTile (fun k => k.rest.isSome) tile s = true) :
    corrRestored tile s = corrComplete tile 2
      (corrStaged tile 2 (corrWords p.record f.px) f.data p (fun k => { k with rest := none }) s) := by
  simp only [corrRestored, hr, hf, h1, if_true]
  rfl

/-- The tiles that STORE_CORR_RESTORE names. -/
def restoreTiles (s : State) (tile : Nat) : List Nat :=
  if tile == 0xFFFF then (wallTiles s).map (·.tile) else if (activeTile s tile).isSome then [tile] else []

theorem restoreTiles_named {s : State} {tile : Nat} (h : tile = 0xFFFF ∨ (activeTile s tile).isSome = true) :
    restoreTiles s tile = if tile = 0xFFFF then (wallTiles s).map (fun q => q.tile) else [tile] := by
  by_cases ht : tile = 0xFFFF
  · simp [restoreTiles, ht]
  · have ha := h.resolve_left ht
    simp [restoreTiles, ht, ha]

theorem corrRestore_starts {c : Cmd} {s : State} (hne : restoreTiles s (field c.payload 0 2) ≠ [])
    (hidle : ∀ i ∈ restoreTiles s (field c.payload 0 2), (corrOf s i).persisting = false ∧ (corrOf s i).rest = none) :
    corrRestore c s = forEach (restoreTiles s (field c.payload 0 2)) (done c stACCEPTED s) startRestore := by
  have hsome : ¬ (restoreTiles s (field c.payload 0 2)).isEmpty = true := fun he => hne (List.isEmpty_iff.mp he)
  have hbusy : ¬ (restoreTiles s (field c.payload 0 2)).any (fun i => (corrOf s i).persisting || (corrOf s i).rest.isSome) = true := by
    rw [List.any_eq_true]
    rintro ⟨i, hi, hb⟩
    simp [hidle i hi] at hb
  exact (if_neg hsome).trans (if_neg hbusy)

/-- A tile marked to be persisted. -/
abbrev markPersist (tile : Nat) (s : State) : State := modCorr tile (fun k => { k with persisting := true }) s

theorem markPersist_onlyCorr (tile : Nat) (s : State) : OnlyCorr s (markPersist tile s) := rfl

theorem corrPersist_one {c : Cmd} {s : State} (ht : field c.payload 0 2 ≠ 0xFFFF)
    (ha : (activeTile s (field c.payload 0 2)).isSome = true) (hp : (corrOf s (field c.payload 0 2)).present = true)
    (hi : (corrOf s (field c.payload 0 2)).persisting = false) (hr : (corrOf s (field c.payload 0 2)).rest = none) :
    corrPersist c s = markPersist (field c.payload 0 2) (done c stACCEPTED s) := by
  have hone : ¬ (field c.payload 0 2 == 0xFFFF) = true := by simpa using ht
  have hwall : ¬ (activeTile s (field c.payload 0 2)).isNone = true := by simpa using Option.isSome_iff_ne_none.mp ha
  simp only [corrPersist, if_neg hone, if_neg hwall, hp, hi, hr]
  rfl

theorem corrPersist_all {c : Cmd} {s : State} (ht : field c.payload 0 2 = 0xFFFF) (ha : s.wall.active.isSome = true)
    (hi : s.store.corr.any (fun e => e.2.persisting || e.2.rest.isSome) = false) : corrPersist c s =
      forEach (((wallTiles s).map (fun q => q.tile)).filter fun i => (corrOf s i).present) (done c stACCEPTED s) markPersist := by
  have hall : (field c.payload 0 2 == 0xFFFF) = true := by simpa using ht
  have hwall : ¬ s.wall.active.isNone = true := by simpa using Option.isSome_iff_ne_none.mp ha
  exact (if_pos hall).trans ((if_neg hwall).trans (if_neg (Bool.eq_false_iff.mp hi)))

/-! ## The turn of a persist (R136, R498) -/

theorem corrData_onlyMemory (tile words : Nat) (s : State) : OnlyMemory s (corrData tile words s).2.2 :=
  List.foldlRecOn (motive := fun a : Bytes × Bool × State => OnlyMemory s a.2.2) (List.range words) _ rfl
    fun a ha i _ => ha.trans (storeRead_onlyMemory (wordKey 2 tile 0 i) a.2.2)

theorem corrGone_reads (tile : Nat) (s : State) :
    corrOf (corrGone tile s) tile = { corrOf s tile with present := false } ∧ (corrGone tile s).store.flash = s.store.flash := by
  have absent := corrOf_modCorr_same tile (fun c => { c with present := false }) s
  unfold corrGone
  dsimp only
  split <;> exact ⟨absent, rfl⟩

/-- A correction lost is absent until its restore ends, and no copy is written. -/
theorem corrLost_reads (tile : Nat) (s : State) :
    (corrOf (corrLost tile s) tile).present = false ∧ (corrLost tile s).store.flash = s.store.flash := by
  obtain ⟨gone, flash⟩ := corrGone_reads tile s
  have absent : (corrOf (corrGone tile s) tile).present = false := by rw [gone]
  unfold corrLost
  dsimp only
  rw [corrOf_retryRestores_present, (retryRestores_onlyCorr _).flash]
  split
  · rw [corrOf_startRestore_present, (startRestore_onlyCorr _ _).flash]
    exact ⟨absent, flash⟩
  · exact ⟨absent, flash⟩

/-- What a persist reads of a tile at its turn. -/
def persistRead (tile : Nat) (q : TileRec) (s : State) : Bytes × Bool × State :=
  corrData tile (corrWords (corrOf s tile).record (tilePx q)) (modCorr tile (fun k => { k with persisting := false }) s)

section
variable {tile : Nat} {q : TileRec} {s : State}

theorem persistRead_corrOf : corrOf (persistRead tile q s).2.2 tile = { corrOf s tile with persisting := false } := by
  rw [persistRead, (corrData_onlyMemory _ _ _).corrOf, corrOf_modCorr_same]

theorem persistRead_flash : (persistRead tile q s).2.2.store.flash = s.store.flash := by
  rw [persistRead, (corrData_onlyMemory _ _ _).flash]
  rfl

theorem flashRoom_persistRead (n : Nat) : flashRoom (persistRead tile q s).2.2 n = flashRoom s n := by
  simp only [flashRoom, persistRead_flash]

/-- A tile's turn comes: it is the first that is marked, its correction is present and it is of the active wall. -/
def PersistTurn (tile : Nat) (q : TileRec) (s : State) : Prop :=
  firstTile (fun k => k.persisting) tile s = true ∧ (corrOf s tile).present = true ∧ activeTile s tile = some q

/-- The copy of a tile's correction as the correction store keeps it. -/
def persistCopy (tile : Nat) (q : TileRec) (u : Nat) (s : State) : FlashCorr :=
  { px := tilePx q, record := (corrOf s tile).record, data := (persistRead tile q s).1, crc := crc32 (persistRead tile q s).1
    offset := 131072 + 4096 * u }

/-- How a persist ends that has read its words: the store is full, or the copy goes into the lowest room. -/
def persistWrite (tile : Nat) (q : TileRec) (s : State) : Option Nat → State
  | none => corrEvent tile 5 (persistRead tile q s).2.2
  | some u => corrEvent tile 3 { (persistRead tile q s).2.2 with store := { (persistRead tile q s).2.2.store with
      flash := kset (persistRead tile q s).2.2.store.flash tile (persistCopy tile q u s) } }

theorem corrPersisted_turn (h : PersistTurn tile q s) : corrPersisted tile s =
    if (persistRead tile q s).2.1 = true then corrEvent tile 0 (corrLost tile (persistRead tile q s).2.2)
    else persistWrite tile q s (flashRoom (persistRead tile q s).2.2 (((persistRead tile q s).1.length + 4095) / 4096)) := by
  obtain ⟨hf, hp, hq⟩ := h
  have hturn : ¬ (!firstTile (fun k => k.persisting) tile s) = true := by simp [hf]
  have hwall : activeTile (modCorr tile (fun k => { k with persisting := false }) s) tile = some q := hq
  have hpresent : ¬ (!(corrOf s tile).present) = true := by simp [hp]
  simp only [corrPersisted, if_neg hturn, hwall, if_neg hpresent]
  rfl

theorem corrPersisted_bad (h : PersistTurn tile q s) (hb : (persistRead tile q s).2.1 = true) :
    corrPersisted tile s = corrEvent tile 0 (corrLost tile (persistRead tile q s).2.2) := by
  rw [corrPersisted_turn h, if_pos hb]

theorem corrPersisted_good (h : PersistTurn tile q s) (hb : (persistRead tile q s).2.1 = false) : corrPersisted tile s =
    persistWrite tile q s (flashRoom s (((persistRead tile q s).1.length + 4095) / 4096)) := by
  rw [corrPersisted_turn h, if_neg (Bool.eq_false_iff.mp hb), flashRoom_persistRead]

theorem persistWrite_corrOf (room : Option Nat) :
    corrOf (persistWrite tile q s room) tile = { corrOf s tile with persisting := false } := by
  cases room with
  | none => exact persistRead_corrOf
  | some u => exact persistRead_corrOf

end

end Sys2Proof.Machine
end

section
/-! SUPPORT. The patrol scrubber (R136, R137): the errors that grow in a word, which word a step goes to, and what it does to it. -/

namespace Sys2Proof.Machine

/-! ## Errors that grow -/

theorem errorsGrow_zero (key : Nat) (s : State) : errorsGrow key 0 s = s := by
  unfold errorsGrow
  split <;> rfl

theorem errorsGrow_grows {key b err : Nat} {s : State} (hb : bankOfKey s key = some b) (hu : bankUp s b = true) (he : 0 < err)
    (h2 : (wordAt s key).err + err ≤ 2) : errorsGrow key err s =
      setWord key { data := (wordAt s key).data, err := (wordAt s key).err + err } s := by
  have hne : err ≠ 0 := Nat.ne_of_gt he
  simp [errorsGrow, hb, hu, hne, Nat.min_eq_right h2]

theorem errorsGrow_cases (key err : Nat) (s : State) : errorsGrow key err s = s ∨ ∃ w, errorsGrow key err s = setWord key w s := by
  unfold errorsGrow
  split
  · split
    · exact .inl rfl
    · exact .inr ⟨_, rfl⟩
  · exact .inl rfl

theorem errorsGrow_onlyMemory (key err : Nat) (s : State) : OnlyMemory s (errorsGrow key err s) := by
  obtain e | ⟨w, e⟩ := errorsGrow_cases key err s <;> rw [e] <;> rfl

theorem bankRec_errorsGrow (key err : Nat) (s : State) (b : Nat) : bankRec (errorsGrow key err s) b = bankRec s b := by
  obtain e | ⟨w, e⟩ := errorsGrow_cases key err s
  · rw [e]
  · rw [e, bankRec_setWord]

theorem wordAt_errorsGrow_other {key j : Nat} (err : Nat) (s : State) (h : j ≠ key) :
    wordAt (errorsGrow key err s) j = wordAt s j := by
  obtain e | ⟨w, e⟩ := errorsGrow_cases key err s
  · rw [e]
  · rw [e, wordAt_setWord_other _ _ _ _ h]

/-! ## The word a step goes to -/

/-- A word lies in a bank in service. -/
def inService (s : State) (key : Nat) : Bool := match bankOfKey s key with | some b => bankUp s b | none => false

/-- A listed word that the pass has not yet come past, of a bank in service. -/
def scrubHere (s : State) (e : Nat × Word64) : Bool := decide (s.store.scrubAt ≤ e.1) && inService s e.1

theorem OnlyMemory.scrubHere {s z : State} (h : OnlyMemory s z) : scrubHere z = scrubHere s := by
  funext e
  simp only [Machine.scrubHere, inService, h.scrubAt, h.bankOfKey, h.bankUp]

theorem inService_bank {s : State} {key b : Nat} (hb : bankOfKey s key = some b) : inService s key = bankUp s b := by
  simp only [inService, hb]

/-- A pass is under way, or the next may begin. -/
def ScrubDue (s : State) : Prop := s.store.scrubAt = 0 → s.store.scrubFrom ≤ s.now

theorem OnlyMemory.scrubDue {s z : State} (h : OnlyMemory s z) (hd : ScrubDue s) : ScrubDue z := by
  have from_ : z.store.scrubFrom = s.store.scrubFrom := congrArg (·.store.scrubFrom) h
  rw [ScrubDue, h.scrubAt, from_, h.now]
  exact hd

/-- Where a pass begins, the next may begin one scrub period later. -/
def scrubStarted (s : State) : State :=
  if s.store.scrubAt == 0 then { s with store := { s.store with scrubFrom := s.now + 1000000000 * s.store.scrubS } } else s

theorem scrubStarted_onlyFrom (s : State) :
    { scrubStarted s with store := { (scrubStarted s).store with scrubFrom := s.store.scrubFrom } } = s := by
  unfold scrubStarted
  split <;> rfl

@[simp] theorem wordAt_scrubStarted (s : State) (j : Nat) : wordAt (scrubStarted s) j = wordAt s j :=
  (congrArg (wordAt · j) (scrubStarted_onlyFrom s) :)

@[simp] theorem bankOfKey_scrubStarted (s : State) (j : Nat) : bankOfKey (scrubStarted s) j = bankOfKey s j :=
  (congrArg (bankOfKey · j) (scrubStarted_onlyFrom s) :)

@[simp] theorem bankRec_scrubStarted (s : State) (b : Nat) : bankRec (scrubStarted s) b = bankRec s b :=
  (congrArg (bankRec · b) (scrubStarted_onlyFrom s) :)

@[simp] theorem bankUp_scrubStarted (s : State) (b : Nat) : bankUp (scrubStarted s) b = bankUp s b :=
  (congrArg (bankUp · b) (scrubStarted_onlyFrom s) :)

/-- The pass goes on from a key. -/
def scrubOn (key : Nat) (s : State) : State := { s with store := { s.store with scrubAt := key } }

theorem scrubOn_scrubStarted (key : Nat) (s : State) : scrubOn key (scrubStarted s) = { s with store := { s.store with
    scrubAt := key, scrubFrom := if s.store.scrubAt = 0 then s.now + 1000000000 * s.store.scrubS else s.store.scrubFrom } } := by
  by_cases h0 : s.store.scrubAt = 0 <;> simp [scrubOn, scrubStarted, h0]

@[simp] theorem wordAt_scrubOn (k : Nat) (s : State) (j : Nat) : wordAt (scrubOn k s) j = wordAt s j := rfl
@[simp] theorem bankOfKey_scrubOn (k : Nat) (s : State) (j : Nat) : bankOfKey (scrubOn k s) j = bankOfKey s j := rfl
@[simp] theorem bankRec_scrubOn (k : Nat) (s : State) (b : Nat) : bankRec (scrubOn k s) b = bankRec s b := rfl

/-- Every bank in service has one pass more. -/
def passCounted (s : State) : State :=
  forEach ((List.range 32).filter (bankUp s)) s fun b z => modBank b (fun k => { k with passes := k.passes + 1 }) z

/-- A step of a pass: to a word, or past the last. -/
def scrubTake (s : State) : Option (Nat × Word64) → State
  | some e => scrubWord e.1 (scrubOn (e.1 + 1) s)
  | none => scrubOn 0 (passCounted s)

theorem scrubStep_waits {s : State} (h0 : s.store.scrubAt = 0) (h : s.now < s.store.scrubFrom) : scrubStep s = s := by
  simp [scrubStep, h0, h]

theorem scrubStep_due {s : State} (hd : ScrubDue s) :
    scrubStep s = scrubTake (scrubStarted s) (s.store.words.find? (scrubHere s)) := by
  have hdue : ¬ (s.store.scrubAt == 0 && decide (s.now < s.store.scrubFrom)) = true := by
    simpa [ScrubDue] using hd
  have taken : scrubStep s = scrubTake (scrubStarted s) ((scrubStarted s).store.words.find? fun e =>
      decide ((scrubStarted s).store.scrubAt ≤ e.1) && inService s e.1) := if_neg hdue
  have at_ : (scrubStarted s).store.scrubAt = s.store.scrubAt := congrArg (·.store.scrubAt) (scrubStarted_onlyFrom s)
  have words : (scrubStarted s).store.words = s.store.words := congrArg (·.store.words) (scrubStarted_onlyFrom s)
  rw [taken, at_, words]
  rfl

/-! ## The errors a step finds -/

/-- A write at the first key found leaves that key the first found, with the value written. -/
theorem find?_kset {α : Type} {p : Nat → Bool} {m : KMap α} {k : Nat} {w : α} (v : α)
    (h : m.find? (fun e => p e.1) = some (k, w)) : (kset m k v).find? (fun e => p e.1) = some (k, v) := by
  have hk : p k = true := List.find?_some (p := fun e : Nat × α => p e.1) h
  induction m with
  | nil => cases h
  | cons e r ih =>
    obtain ⟨k', v'⟩ := e
    simp only [kset]
    split
    · exact List.find?_cons_of_pos hk
    · split
      · exact List.find?_cons_of_pos hk
      · next hne =>
        have hp : ¬ p k' = true := by
          intro hp
          have hfirst : k' = k := by simpa [hp] using congrArg (Option.map Prod.fst) h
          exact hne hfirst.symm
        simp only [List.find?_cons, Bool.eq_false_iff.mpr hp] at h ⊢
        exact ih h

/-- The errors that have grown in the word that a step goes to are what it finds there. -/
theorem errorsGrow_here {key err b : Nat} {w : Word64} {s : State} (hf : s.store.words.find? (scrubHere s) = some (key, w))
    (hw : wordAt s key = w) (hb : bankOfKey s key = some b) (h2 : w.err + err ≤ 2) :
    ∃ u, u.data = w.data ∧ u.err = w.err + err ∧ wordAt (errorsGrow key err s) key = u
      ∧ (errorsGrow key err s).store.words.find? (scrubHere (errorsGrow key err s)) = some (key, u) := by
  rw [(errorsGrow_onlyMemory key err s).scrubHere]
  obtain rfl | he := Nat.eq_zero_or_pos err
  · rw [errorsGrow_zero]
    exact ⟨w, rfl, rfl, hw, hf⟩
  · have hu : bankUp s b = true := by
      have here : scrubHere s (key, w) = true := List.find?_some hf
      rw [← inService_bank hb]
      exact (Bool.and_eq_true_iff.mp here).2
    subst hw
    refine ⟨{ data := (wordAt s key).data, err := (wordAt s key).err + err }, rfl, rfl, ?_⟩
    rw [errorsGrow_grows hb hu he h2]
    refine ⟨wordAt_setWord_same _ _ _, ?_⟩
    have hne : ¬ (({ data := (wordAt s key).data, err := (wordAt s key).err + err } : Word64) == {}) = true := by
      intro heq
      have herr : (wordAt s key).err + err = 0 := congrArg Word64.err (eq_of_beq heq)
      omega
    have listed : (setWord key { data := (wordAt s key).data, err := (wordAt s key).err + err } s).store.words =
        kset s.store.words key { data := (wordAt s key).data, err := (wordAt s key).err + err } := if_neg hne
    rw [listed]
    exact find?_kset (p := fun k => decide (s.store.scrubAt ≤ k) && inService s k) _ hf

/-! ## What a step does to its word -/

section
variable {key : Nat} {s : State}

theorem scrubWord_sound (h : (wordAt s key).err = 0) : scrubWord key s = s := by
  simp only [scrubWord, storeRead_sound h]
  rfl

theorem scrubWord_single (h : (wordAt s key).err = 1) : scrubWord key s =
    correctable ((bankOfKey s key).getD 0) key (wordAt s key).injected (setWord key { data := (wordAt s key).data } s) := by
  simp only [scrubWord, storeRead_single h]
  rfl

theorem scrubWord_slot (h : (wordAt s key).err = 2) (hs : isSlot key = true) : scrubWord key s =
    modBank ((bankOfKey s key).getD 0) (fun k => { k with poisonWb := k.poisonWb + 1 })
      (setWord key { data := BitVec.ofNat 64 (setBit (wordAt s key).data.toNat 55 true) }
        (uncorrectable ((bankOfKey s key).getD 0) key (wordAt s key).injected s)) := by
  have bank := (uncorrectable_onlyMemory ((bankOfKey s key).getD 0) key (wordAt s key).injected s).bankOfKey key
  simp only [scrubWord, storeRead_uncorrectable (Nat.le_of_eq h.symm), hs, bank]
  rfl

/-- A single error is corrected in place and counted (R136, R137). -/
theorem scrubWord_corrects {b : Nat} (hb : bankOfKey s key = some b) (h : (wordAt s key).err = 1) :
    wordAt (scrubWord key s) key = { data := (wordAt s key).data }
    ∧ (∀ j, j ≠ key → wordAt (scrubWord key s) j = wordAt s j)
    ∧ (scrubWord key s).store.scrubAt = s.store.scrubAt
    ∧ (bankRec (scrubWord key s) b).ce = (bankRec s b).ce + 1 := by
  rw [scrubWord_single h, hb, Option.getD_some]
  refine ⟨?_, fun j hj => ?_, (correctable_onlyMemory _ _ _ _).scrubAt, correctable_ce _ _ _ _⟩
  · rw [wordAt_correctable, wordAt_setWord_same]
  · rw [wordAt_correctable, wordAt_setWord_other _ _ _ _ hj]

/-- An uncorrectable slot is written back poisoned and counted (R136, R137). -/
theorem scrubWord_poisons {b : Nat} (hb : bankOfKey s key = some b) (h : (wordAt s key).err = 2) (hs : isSlot key = true) :
    wordAt (scrubWord key s) key = { data := BitVec.ofNat 64 (setBit (wordAt s key).data.toNat 55 true) }
    ∧ (∀ j, j ≠ key → wordAt (scrubWord key s) j = wordAt s j)
    ∧ (scrubWord key s).store.scrubAt = s.store.scrubAt
    ∧ (bankRec (scrubWord key s) b).ue = (bankRec s b).ue + 1
    ∧ (bankRec (scrubWord key s) b).poisonWb = (bankRec s b).poisonWb + 1 := by
  rw [scrubWord_slot h hs, hb, Option.getD_some]
  obtain ⟨ue, poisonWb⟩ := uncorrectable_counts b key (wordAt s key).injected s
  refine ⟨?_, fun j hj => ?_, (uncorrectable_onlyMemory b key (wordAt s key).injected s).scrubAt, ?_, ?_⟩
  · rw [wordAt_modBank, wordAt_setWord_same]
  · rw [wordAt_modBank, wordAt_setWord_other _ _ _ _ hj, wordAt_uncorrectable]
  · rw [bankRec_modBank_same, bankRec_setWord]
    exact ue
  · rw [bankRec_modBank_same, bankRec_setWord]
    exact congrArg (· + 1) poisonWb

end

/-! ## The end of a pass -/

/-- A change made of each bank of a list, once each. -/
theorem bankRec_forEach_modBank (f : FBank → FBank) {l : List Nat} (hl : l.Nodup) (s : State) (i : Nat) :
    bankRec (forEach l s fun b z => modBank b f z) i = if i ∈ l then f (bankRec s i) else bankRec s i := by
  induction l generalizing s with
  | nil => rfl
  | cons b l ih =>
    obtain ⟨hb, hl⟩ := List.nodup_cons.mp hl
    refine (ih hl (modBank b f s)).trans ?_
    by_cases hi : i = b
    · subst hi
      rw [if_neg hb, if_pos List.mem_cons_self, bankRec_modBank_same]
    · simp only [bankRec_modBank_other f s hi, List.mem_cons, hi, false_or]

theorem passCounted_words (s : State) : (passCounted s).store.words = s.store.words := by
  refine forEach_keeps (P := fun z => z.store.words = s.store.words) (fun b z h => ?_) _ s rfl
  exact h

theorem bankRec_passCounted {i : Nat} (hi : i < 32) (s : State) :
    (bankRec (passCounted s) i).passes = (bankRec s i).passes + (if bankUp s i then 1 else 0) := by
  have hl : ((List.range 32).filter (bankUp s)).Nodup := List.nodup_range.filter _
  have hmem : i ∈ (List.range 32).filter (bankUp s) ↔ bankUp s i = true := by simp [hi]
  rw [passCounted, bankRec_forEach_modBank _ hl]
  simp only [hmem]
  split
  · rfl
  · exact (BitVec.add_zero _).symm

end Sys2Proof.Machine
end

section
/-! PROOF. What the commands and events of correction data and of the patrol scrubber answer (R136, R137, R139, R142, R145, R498), and
the statement assembled from it. -/

namespace Sys2Proof.Safety

open Sys2Proof.Machine

/-! ## Correction data -/

theorem findCmd_finish (r : CmdRef) (st : Nat) (s : State) : findCmd r (finish r st 0 [] s) = none := by
  unfold finish
  split
  · next c hc => exact findCmd_done st s (findCmd_ref hc)
  · next hc => exact hc

theorem storeCorrLoad_takes (t : Nat) {b : Nat} {r : CmdRef} {c : Cmd} {w : WallImg} {q : TileRec} {s : State}
    (h : Ready 0x0601 r c s) (hw : s.wall.active = some w) (hq : tileOf w (field c.payload 0 2) = some q)
    (hr : field c.payload 2 1 ≤ 1) (hl : field c.payload 16 4 = 8 * corrWords (field c.payload 2 1) (tilePx q))
    (ha : field c.payload 8 8 % 8 = 0) (hload : (corrOf s (field c.payload 0 2)).load = none)
    (hrest : (corrOf s (field c.payload 0 2)).rest = none)
    (hb : corrBank s (field c.payload 0 2) (field c.payload 16 4) = some b) : exec (.storeCorrLoad t r) s =
      .next (settled t s (modCorr (field c.payload 0 2) (fun k => { k with
        load := some { record := field c.payload 2 1, bank := b, ref := some r } }) (park c (advance t s)))) := by
  have effect := corrLoad_takes (s := advance t s) hw hq hr hl ha hload hrest hb
  rw [ready_ref h] at effect
  exact ready_settled h effect

/-- A copy that is complete: with a mode in force the old correction stands and the copy waits, with none it is the new one at
once. -/
theorem corrComplete_reads {tile st : Nat} {p : CorrCopy} {k : Corr} {s z : State} (hm : modeOn z = modeOn s)
    (hz : corrOf z tile = waiting p k) :
    (s.mode.mode = 0 → corrOf (corrComplete tile st z) tile = switched { p with ref := none } (waiting p k))
    ∧ (s.mode.mode ≠ 0 → corrOf (corrComplete tile st z) tile = waiting p k) := by
  refine ⟨fun h0 => ?_, fun h0 => ?_⟩
  · have off : modeOn z = false := by rw [hm, modeOn, h0]; rfl
    rw [corrOf_corrComplete_noMode st off (p := { p with ref := none }) (by rw [hz]; rfl), hz]
  · have on : modeOn z = true := by rw [hm, modeOn]; exact bne_iff_ne.mpr h0
    rw [corrOf_corrComplete_mode st on, hz]

theorem corrLoadDone_ends (t : Nat) {tile : Nat} (data : Bytes) {r : CmdRef} {p : CorrCopy} {s : State} (ha : awake s = true)
    (hl : (corrOf s tile).load = some p) (hr : p.ref = some r) :
    ∃ s', exec (.corrLoadDone t tile data) s = .next (settled t s s') ∧ findCmd r s' = none
      ∧ (s.mode.mode = 0 → corrOf s' tile = switched { p with ref := none } (waiting p { corrOf s tile with load := none }))
      ∧ (s.mode.mode ≠ 0 → corrOf s' tile = waiting p { corrOf s tile with load := none }) := by
  refine ⟨_, occurs_settled ha (corrLoaded_ends data (s := advance t s) hl hr), ?_, ?_⟩
  · have ended := findCmd_finish r stOK (corrStaged tile 1 (corrWords p.record (wallTilePx (advance t s) tile)) data p
      (fun k => { k with load := none }) (advance t s))
    rw [findCmd] at ended ⊢
    rw [corrComplete_cmds, ended]
  · refine corrComplete_reads ?_ ?_
    · rw [modeOn, finish_mode]
      exact modeOn_corrStaged _ _ _ _ _ _ _
    · rw [corrOf_finish]
      exact corrOf_corrStaged _ _ _ _ _ _ _

theorem corrRestoreDone_ends (t : Nat) {tile : Nat} {p : CorrCopy} {f : FlashCorr} {s : State} (ha : awake s = true)
    (hr : (corrOf s tile).rest = some p) (h1 : firstTile (fun k => k.rest.isSome) tile s = true)
    (hf : kget? s.store.flash tile = some f) :
    ∃ s', exec (.corrRestoreDone t tile) s = .next (settled t s s')
      ∧ (s.mode.mode = 0 → corrOf s' tile = switched { p with ref := none } (waiting p { corrOf s tile with rest := none }))
      ∧ (s.mode.mode ≠ 0 → corrOf s' tile = waiting p { corrOf s tile with rest := none }) :=
  ⟨_, occurs_settled ha (corrRestored_ends (s := advance t s) hr hf h1),
    corrComplete_reads (modeOn_corrStaged _ _ _ _ _ _ _) (corrOf_corrStaged _ _ _ _ _ _ _)⟩

/-- A command that ends and changes corrections alone answers its effect. -/
theorem ready_onlyCorr {op t : Nat} {r : CmdRef} {s z : State} {f : Cmd → State → State} {c : Cmd} {st : Nat} (h : Ready op r c s)
    (e : f c (advance t s) = z) (hz : OnlyCorr (done c st (advance t s)) z) : verb op t r s f = .next z :=
  ready_plain h e ((congrArg (·.pending) hz).trans (by simp)) ((congrArg (·.faultLow) hz).trans (by simp))
    ((congrArg (·.flt) hz).trans (by simp)) ((congrArg (·.power) hz).trans (by simp)) ((congrArg (·.boot) hz).trans (by simp))

theorem storeCorrRestore_starts (t : Nat) {r : CmdRef} {c : Cmd} {s : State} (h : Ready 0x0603 r c s)
    (hne : restoreTiles s (field c.payload 0 2) ≠ [])
    (hidle : ∀ i ∈ restoreTiles s (field c.payload 0 2), (corrOf s i).persisting = false ∧ (corrOf s i).rest = none) :
    exec (.storeCorrRestore t r) s =
      .next (forEach (restoreTiles s (field c.payload 0 2)) (complete c 0x01 0 [] (advance t s)) startRestore) :=
  ready_onlyCorr h (corrRestore_starts (s := advance t s) hne hidle) (.of_loop startRestore_onlyCorr _ _)

theorem storeCorrPersist_one (t : Nat) {r : CmdRef} {c : Cmd} {s : State} (h : Ready 0x0602 r c s)
    (ht : field c.payload 0 2 ≠ 0xFFFF) (ha : (activeTile s (field c.payload 0 2)).isSome = true)
    (hp : (corrOf s (field c.payload 0 2)).present = true) (hi : (corrOf s (field c.payload 0 2)).persisting = false)
    (hr : (corrOf s (field c.payload 0 2)).rest = none) :
    exec (.storeCorrPersist t r) s = .next (markPersist (field c.payload 0 2) (complete c 0x01 0 [] (advance t s))) :=
  ready_onlyCorr h (corrPersist_one (s := advance t s) ht ha hp hi hr) rfl

theorem storeCorrPersist_all (t : Nat) {r : CmdRef} {c : Cmd} {s : State} (h : Ready 0x0602 r c s)
    (ht : field c.payload 0 2 = 0xFFFF) (ha : s.wall.active.isSome = true)
    (hi : s.store.corr.any (fun e => e.2.persisting || e.2.rest.isSome) = false) : exec (.storeCorrPersist t r) s =
      .next (forEach (((wallTiles s).map (fun q => q.tile)).filter fun i => (corrOf s i).present)
        (complete c 0x01 0 [] (advance t s)) markPersist) :=
  ready_onlyCorr h (corrPersist_all (s := advance t s) ht ha hi) (.of_loop markPersist_onlyCorr _ _)

theorem exec_corrPersistDone (t tile : Nat) {s : State} (ha : awake s = true) :
    exec (.corrPersistDone t tile) s = .next (ended t s (corrPersisted tile (advance t s))) :=
  happens_awake ha

theorem ended_store (t : Nat) (s z : State) : (ended t s z).store = z.store :=
  drivePin_store _

theorem corrOf_ended (t : Nat) (s z : State) (tile : Nat) : corrOf (ended t s z) tile = corrOf z tile := by
  rw [corrOf, ended_store, corrOf]

/-- A persist that reads its words writes the copy into the lowest room there is. -/
theorem persistWrite_reads {tile u : Nat} {q : TileRec} {s : State} {room : Option Nat} (h : room = some u) :
    kget? (persistWrite tile q s room).store.flash tile = some (persistCopy tile q u s)
    ∧ (persistWrite tile q s room).store.words = (persistRead tile q s).2.2.store.words := by
  subst h
  exact ⟨kget?_kset_same _ _ _, rfl⟩

/-! ## The patrol scrubber -/

theorem exec_scrubStep (t key err : Nat) {s : State} (ha : awake s = true) :
    exec (.scrubStep t key err) s = .next (settled t s (scrubStep (errorsGrow key err (advance t s)))) :=
  occurs_settled (f := fun s => scrubStep (errorsGrow key err s)) ha rfl

/-- A step that finds errors in the word it goes to: it scrubs that word, with the errors that have grown in it. -/
theorem scrubStep_finds {key err b : Nat} {w : Word64} {s : State} (hd : ScrubDue s)
    (hf : s.store.words.find? (scrubHere s) = some (key, w)) (hw : wordAt s key = w) (hb : bankOfKey s key = some b)
    (h2 : w.err + err ≤ 2) :
    ∃ z, scrubStep (errorsGrow key err s) = scrubWord key z ∧ bankOfKey z key = some b ∧ (wordAt z key).data = w.data
      ∧ (wordAt z key).err = w.err + err ∧ z.store.scrubAt = key + 1 ∧ (∀ j, j ≠ key → wordAt z j = wordAt s j)
      ∧ bankRec z b = bankRec s b := by
  obtain ⟨u, data, errs, word, listed⟩ := errorsGrow_here hf hw hb h2
  have grown := errorsGrow_onlyMemory key err s
  refine ⟨scrubOn (key + 1) (scrubStarted (errorsGrow key err s)), ?_, ?_, ?_, ?_, rfl, fun j hj => ?_, ?_⟩
  · rw [scrubStep_due (grown.scrubDue hd), listed]
    rfl
  · rw [bankOfKey_scrubOn, bankOfKey_scrubStarted, grown.bankOfKey, hb]
  · rw [wordAt_scrubOn, wordAt_scrubStarted, word, data]
  · rw [wordAt_scrubOn, wordAt_scrubStarted, word, errs]
  · rw [wordAt_scrubOn, wordAt_scrubStarted, wordAt_errorsGrow_other err s hj]
  · rw [bankRec_scrubOn, bankRec_scrubStarted, bankRec_errorsGrow]

theorem scrubStep_early (t key err : Nat) {s : State} (ha : awake s = true) (h0 : s.store.scrubAt = 0)
    (h : max s.now t < s.store.scrubFrom) :
    exec (.scrubStep t key err) s = .next (settled t s (errorsGrow key err (advance t s))) := by
  have grown := errorsGrow_onlyMemory key err (advance t s)
  have from_ : (errorsGrow key err (advance t s)).store.scrubFrom = s.store.scrubFrom := congrArg (·.store.scrubFrom) grown
  rw [exec_scrubStep t key err ha, scrubStep_waits (grown.scrubAt.trans h0) (by rw [grown.now, from_]; exact h)]

/-- A step that finds its word sound goes on past it. -/
theorem scrubStep_leaves {key : Nat} {s : State} (hd : ScrubDue s) {w : Word64}
    (hf : s.store.words.find? (scrubHere s) = some (key, w)) (h0 : (wordAt s key).err = 0) :
    scrubStep s = scrubOn (key + 1) (scrubStarted s) := by
  have sound : (wordAt (scrubOn (key + 1) (scrubStarted s)) key).err = 0 := by
    rw [wordAt_scrubOn, wordAt_scrubStarted, h0]
  rw [scrubStep_due hd, hf]
  exact scrubWord_sound sound

theorem scrubStep_passEnds {s : State} (hd : ScrubDue s) (hf : s.store.words.find? (scrubHere s) = none) :
    (scrubStep s).store.scrubAt = 0 ∧ (scrubStep s).store.words = s.store.words
      ∧ ∀ i, i < 32 → (bankRec (scrubStep s) i).passes = (bankRec s i).passes + (if bankUp s i then 1 else 0) := by
  have ended : scrubStep s = scrubOn 0 (passCounted (scrubStarted s)) := by
    rw [scrubStep_due hd, hf]
    rfl
  rw [ended]
  refine ⟨rfl, ?_, fun i hi => ?_⟩
  · exact (passCounted_words _).trans (congrArg (·.store.words) (scrubStarted_onlyFrom s))
  · rw [bankRec_scrubOn, bankRec_passCounted hi, bankRec_scrubStarted, bankUp_scrubStarted]

/-! ## The statement -/

/-- Settles O24: correction data loaded, restored and persisted, then the patrol scrubber. -/
theorem corrections : Obligations.Corrections := by
  refine ⟨⟨?load, ?loadDone, ?restore, ?restoreDone, ?persistOne, ?persistAll, ?persistDone⟩,
    ?early, ?sound, ?single, ?slot, ?passEnd⟩
  case load => exact fun t b r c w q s h hw hq hr hl ha hload hrest hb => storeCorrLoad_takes t h hw hq hr hl ha hload hrest hb
  case loadDone =>
    intro t tile data r c q p s ha hl hr _ _
    obtain ⟨s', hexec, hcmd, hoff, hon⟩ := corrLoadDone_ends t data ha hl hr
    refine ⟨s', hexec, hcmd, ?_, fun h0 => ?_, fun h0 => ?_⟩
    · by_cases h0 : s.mode.mode = 0
      · rw [hoff h0]
        rfl
      · rw [hon h0]
        rfl
    · rw [hoff h0]
      exact ⟨rfl, rfl, rfl, rfl⟩
    · rw [hon h0]
      exact ⟨rfl, rfl, rfl⟩
  case restore =>
    intro t r c s h tile l hnamed hne hidle
    have named : restoreTiles s tile = l := restoreTiles_named hnamed
    have starts := storeCorrRestore_starts t h (by rw [named]; exact hne) (by rw [named]; exact hidle)
    rw [named] at starts
    exact starts
  case restoreDone =>
    intro t tile p f s ha hr h1 hf
    obtain ⟨s', hexec, hoff, hon⟩ := corrRestoreDone_ends t ha hr h1 hf
    refine ⟨s', hexec, ?_, fun h0 => ?_, fun h0 => ?_⟩
    · by_cases h0 : s.mode.mode = 0
      · rw [hoff h0]
        rfl
      · rw [hon h0]
        rfl
    · rw [hoff h0]
      exact ⟨rfl, rfl, rfl⟩
    · rw [hon h0]
      rfl
  case persistOne => exact fun t r c s h ht ha hp hi hr => storeCorrPersist_one t h ht ha hp hi hr
  case persistAll => exact fun t r c s h ht ha hi => storeCorrPersist_all t h ht ha hi
  case persistDone =>
    intro t tile q s ha _ _ hf hp hq z
    have turn : PersistTurn tile q (advance t s) := ⟨hf, hp, hq⟩
    refine ⟨_, exec_corrPersistDone t tile ha, fun hz => ?_, fun hz => ?_⟩
    · rw [corrOf_ended, ended_store, corrPersisted_good turn hz, persistWrite_corrOf]
      exact ⟨rfl, fun u hu => persistWrite_reads hu⟩
    · rw [corrOf_ended, ended_store, corrPersisted_bad turn hz, corrOf_corrEvent]
      obtain ⟨absent, flash⟩ := corrLost_reads tile (persistRead tile q (advance t s)).2.2
      exact ⟨absent, flash.trans persistRead_flash⟩
  case early =>
    intro t key err s ha h0 h
    refine ⟨_, scrubStep_early t key err ha h0 h, fun b hb hu he h2 => ?_, fun j hj => wordAt_errorsGrow_other err _ hj⟩
    rw [errorsGrow_grows (s := advance t s) hb hu he h2]
    exact wordAt_setWord_same _ _ _
  case sound =>
    rintro t key i w s ha hd hf rfl he
    rw [exec_scrubStep t i 0 ha, errorsGrow_zero, scrubStep_leaves (s := advance t s) hd hf he, scrubOn_scrubStarted]
    rfl
  case single =>
    intro t key b err w s ha hd hf hw hb he
    obtain ⟨z, step, bank, data, errs, at_, others, record⟩ :=
      scrubStep_finds (err := err) (s := advance t s) hd hf hw hb (by omega)
    obtain ⟨word, frame, onward, ce⟩ := scrubWord_corrects bank (errs.trans he)
    refine ⟨_, exec_scrubStep t key err ha, ?_⟩
    rw [step]
    refine ⟨word.trans (by rw [data]), fun j hj => (frame j hj).trans (others j hj), onward.trans at_, ?_⟩
    rw [record] at ce
    exact ce
  case slot =>
    intro t key b err w s ha hd hf hw hb he hs
    obtain ⟨z, step, bank, data, errs, at_, others, record⟩ :=
      scrubStep_finds (err := err) (s := advance t s) hd hf hw hb (by omega)
    obtain ⟨word, frame, onward, ue, poisonWb⟩ := scrubWord_poisons bank (errs.trans he) hs
    refine ⟨_, exec_scrubStep t key err ha, ?_⟩
    rw [step]
    rw [record] at ue poisonWb
    exact ⟨word.trans (by rw [data]), fun j hj => (frame j hj).trans (others j hj), onward.trans at_, ue, poisonWb⟩
  case passEnd =>
    intro t i s ha hd hf
    refine ⟨_, exec_scrubStep t i 0 ha, ?_⟩
    rw [errorsGrow_zero]
    exact scrubStep_passEnds (s := advance t s) hd hf

end Sys2Proof.Safety
end

section
/-! PROOF. What WEAVE_LOAD answers while the change before it still waits for its boundary (R170), and the statement assembled from
it. -/

namespace Sys2Proof.Machine

/-- Each of R170's three cases alone bars a WEAVE_LOAD, whatever its payload holds and whatever else waits. -/
theorem weaveLoad_barred (c : Cmd) {s : State}
    (h : s.weave.pend ≠ none ∨ s.place.pendProfile ≠ none ∨ s.wall.pending ≠ none) : weaveLoad c s = done c stSTATE s := by
  have waits : (s.weave.pend.isSome || s.weave.building.isSome || s.place.pendProfile.isSome || s.wall.pending.isSome) = true := by
    simp only [Bool.or_eq_true]
    obtain weave | profile | wall := h
    · exact .inl (.inl (.inl (Option.isSome_iff_ne_none.mpr weave)))
    · exact .inl (.inr (Option.isSome_iff_ne_none.mpr profile))
    · exact .inr (Option.isSome_iff_ne_none.mpr wall)
  exact if_pos waits

end Sys2Proof.Machine

namespace Sys2Proof.Safety

open Sys2Proof.Machine

/-- Settles O17: in each of R170's three cases the command ends STATE before its payload is read, and only its end is left. -/
theorem weaveLoadRefused : Obligations.WeaveLoadRefused := by
  intro t r c s ready barred
  dsimp only [exec, execWeaveLoad]
  exact ready_complete ready (weaveLoad_barred (s := advance t s) c barred)

end Sys2Proof.Safety
end

section
/-! SUPPORT. A TAKE that is granted (R182): the token leaves the head of the list for the prefetch queue, and its hank starts only
where the spindle has no pixel still to finish (R176, R181). -/

namespace Sys2Proof.Machine

@[simp] theorem sbOf_modSp (i : Nat) (f : Spindle → Spindle) (s : State) (b : Nat) : sbOf (modSp i f s) b = sbOf s b := rfl

@[simp] theorem spOf_modSb (b : Nat) (f : SBank → SBank) (s : State) (i : Nat) : spOf (modSb b f s) i = spOf s i := rfl

/-- A bank for which the seeder holds no token gets none. -/
theorem seedFill_of_seed_nil {b : Nat} {s : State} (h : (sbOf s b).seed = []) : seedFill b s = s := by
  simp [seedFill, h]

/-- A spindle that finishes a pixel of a hank it had to leave starts no other. -/
theorem startHank_of_last {i : Nat} {l : LastPx} {s : State} (h : (spOf s i).last = some l) : startHank i s = s := by
  simp [startHank, h]

/-- A TAKE's end with a token: it is prefetched, and the TAKE neither blocks nor returned IDLE. -/
def prefetched (h : Hank) (q : Spindle) : Spindle := { q with prefetch := q.prefetch ++ [h], blocked := none, idle := false }

theorem giveToken_of_last {i : Nat} (h : Hank) {l : LastPx} {s : State} (hl : (spOf s i).last = some l) :
    giveToken i h s = modSp i (prefetched h) s := by
  have still : (spOf (modSp i (prefetched h) s) i).last = some l := by rw [spOf_modSp_same]; exact hl
  exact startHank_of_last still

/-- Spindle `i` may TAKE, and its bank, powered, has the token `h` at the head of its list. -/
structure Granted (s : State) (i : Nat) (h : Hank) (rest : List Hank) : Prop where
  may : canTake s i = true
  powered : s.place.inForce.powered.contains (spBank i) = true
  ready : (sbOf s (spBank i)).ready = h :: rest

theorem takeIssue_of_granted {i : Nat} {h : Hank} {rest : List Hank} {s : State} (g : Granted s i h rest) :
    takeIssue i s = seedFill (spBank i) (giveToken i h (modSb (spBank i) (fun k => { k with ready := rest }) s)) := by
  have may := g.may
  simp only [canTake, Bool.and_eq_true, Bool.not_eq_true', decide_eq_true_eq, Option.isNone_iff_eq_none] at may
  obtain ⟨⟨⟨⟨⟨inService, stays⟩, unblocked⟩, notIdle⟩, powerOn⟩, room⟩ := may
  simp only [takeIssue, inService, stays, unblocked, notIdle, powerOn, g.powered, g.ready, Nat.not_le.mpr room, Bool.not_true,
    Option.isSome_none, Bool.or_self, decide_false, Bool.false_eq_true, if_false]

/-- A spindle that still finishes a pixel prefetches the token it TAKEs, and that is all. -/
theorem takeIssue_of_last {i : Nat} {h : Hank} {rest : List Hank} {l : LastPx} {s : State} (g : Granted s i h rest)
    (hs : (sbOf s (spBank i)).seed = []) (hl : (spOf s i).last = some l) :
    takeIssue i s = modSp i (prefetched h) (modSb (spBank i) (fun k => { k with ready := rest }) s) := by
  rw [takeIssue_of_granted g, giveToken_of_last h (by simpa using hl)]
  apply seedFill_of_seed_nil
  rw [sbOf_modSp, sbOf_modSb_same]
  exact hs

end Sys2Proof.Machine
end

section
/-! PROOF. The statement on TAKE and gating leaves out the pixel that a spindle may still have to finish (R181): with one, a granted
TAKE puts the token into the prefetch queue and starts no hank. -/

namespace Sys2Proof.Safety

open Sys2Proof.Machine

theorem exec_takeIssue (t i : Nat) (s : State) :
    exec (.takeIssue t i) s = happens t s fun z => if canTake z i then takeIssue i z else z := rfl

/-- A TAKE granted to a spindle that still finishes a pixel leaves the spindle's hank as it is, and the token waits. -/
theorem takeIssue_last_waits (t : Nat) {i : Nat} {h : Hank} {rest : List Hank} {l : LastPx} {s : State} (ha : awake s = true)
    (hd : PinDriven s) (g : Granted s i h rest) (hs : (sbOf s (spBank i)).seed = []) (hl : (spOf s i).last = some l) :
    ∃ s', exec (.takeIssue t i) s = .next s' ∧ spOf s' i = prefetched h (spOf s i) := by
  have later : Granted (advance t s) i h rest := ⟨g.may, g.powered, g.ready⟩
  rw [exec_takeIssue]
  exact ⟨_, happens_plain ha hd ((if_pos later.may).trans (takeIssue_of_last later hs hl)) rfl rfl rfl rfl rfl,
    spOf_modSp_same i _ _⟩

/-- A pixel of epoch 6 in progress as its epoch is committed: 8 ply-operations, woven into its slot by the commit. -/
def pixelOfSix : LastPx := { px := { tile := 0, epoch := 6, first := 3, count := 1 }, woven := some (8, 0) }

/-- The first token of epoch 7. -/
def tokenOfSeven : Hank := { tile := 0, epoch := 7, first := 0, count := 64 }

/-- Just after the commit of epoch 6: spindle 0 finishes its pixel of that epoch, its hank taken from it and its prefetch queue
discarded (R181), and its bank's list holds the first token of epoch 7. -/
def afterCommit : State :=
  { State.reset with
    boot := { State.reset.boot with stage := 4 }
    place := { State.reset.place with inForce := { State.reset.place.inForce with powered := [0] } }
    sched := { State.reset.sched with
      spindles := [(0, { svc := .up, last := some pixelOfSix })], banks := [(0, { ready := [tokenOfSeven] })] } }

/-- Refutes O26: its first clause has a granted TAKE start the token's hank wherever the spindle has none; spindle 0 of
`afterCommit` has none and a pixel to finish, so the token waits in its prefetch queue (R176, R181). -/
theorem not_takeAndGate : ¬ Obligations.TakeAndGate := by
  unfold Obligations.TakeAndGate
  rintro ⟨⟨granted, -, -, -⟩, -⟩
  have ha : awake afterCommit = true := by decide
  have hd : PinDriven afterCommit := by decide
  have g : Granted afterCommit 0 tokenOfSeven [] := ⟨by decide, rfl, rfl⟩
  obtain ⟨s', hrun, -, starts, -⟩ := granted 0 0 tokenOfSeven [] afterCommit ha hd g.may rfl g.powered g.ready rfl rfl rfl
  obtain ⟨z, hrun', waits⟩ := takeIssue_last_waits 0 ha hd g rfl (l := pixelOfSix) rfl
  obtain rfl : s' = z := by simpa [hrun] using hrun'
  rw [waits] at starts
  have none_starts : (prefetched tokenOfSeven (spOf afterCommit 0)).hank = none := rfl
  exact absurd (none_starts.symm.trans starts) nofun

end Sys2Proof.Safety
end

section
/-! SUPPORT. CUE_CANCEL (R294), the LTC decoder (R286) and the RTC (R287): what each does, a case at a time, and that it reaches
the time unit and the events alone. -/

namespace Sys2Proof.Machine

/-! ## The frame of the time unit -/

/-- A change reaches the time unit's state and the host interface, where its events wait, alone. -/
abbrev OnlyTime (s z : State) : Prop := { z with time := s.time, hif := s.hif } = s

theorem OnlyTime.pinKept {s z : State} (h : OnlyTime s z) : PinKept s z :=
  ⟨congrArg (·.pending) h, congrArg (·.faultLow) h, congrArg (·.flt) h, congrArg (·.power) h, congrArg (·.boot) h⟩

/-! ## CUE_CANCEL (R294) -/

/-- The time unit with other cues. -/
def withCues (l : KMap Cue) (k : TimeSt) : TimeSt := { k with cues := l }

theorem cueCancel_all {c : Cmd} (s : State) (hn : field c.payload 0 2 = 0xFFFF) : cueCancel c s =
    done c stOK (modTime (withCues (kfilter s.time.cues fun _ q => q.state != 1)) s) := by
  simp only [cueCancel, hn]
  rfl

section
variable {c : Cmd} {s : State} (hn : field c.payload 0 2 ≠ 0xFFFF)
include hn

theorem cueCancel_none (hq : kget? s.time.cues (field c.payload 0 2) = none) : cueCancel c s = done c stNOTFOUND s := by
  simp [cueCancel, hn, hq]

theorem cueCancel_fired {q : Cue} (hq : kget? s.time.cues (field c.payload 0 2) = some q) (hs : q.state ≠ 1) :
    cueCancel c s = done c stALREADY s := by
  simp [cueCancel, hn, hq, hs]

theorem cueCancel_pending {q : Cue} (hq : kget? s.time.cues (field c.payload 0 2) = some q) (hs : q.state = 1) :
    cueCancel c s = done c stOK (modTime (withCues (kerase s.time.cues (field c.payload 0 2))) s) := by
  simp only [cueCancel, beq_iff_eq, hn, if_false, hq, hs, bne_self_eq_false, Bool.false_eq_true]
  rfl

end

/-! ## TIME_LTC_SET (R286) -/

/-- A TIME_LTC_SET's ENABLE and RATE are in their ranges. -/
def LtcSound (b : Bytes) : Prop := field b 0 1 ≤ 1 ∧ field b 1 1 ≤ 4

/-- The decoder's state as a TIME_LTC_SET leaves it: kept where it was on at the same rate, else off or searching. -/
def ltcStateSet (b : Bytes) (k : TimeSt) : Nat :=
  if field b 0 1 == 0 then 0 else if k.ltcOn && field b 1 1 == k.ltcRateSet then k.ltcState else 1

/-- The time unit with the decoder switched as a TIME_LTC_SET's payload gives. -/
def withLtc (b : Bytes) (k : TimeSt) : TimeSt :=
  let st := ltcStateSet b k
  { k with ltcOn := field b 0 1 == 1, ltcRateSet := field b 1 1, ltcState := st
           ltcRate := if st == 2 then k.ltcRate else field b 1 1
           ltcRun := if st == k.ltcState then k.ltcRun else 0
           ltcPrev := if st == k.ltcState then k.ltcPrev else none }

/-- The decoder switched, with LTC_STATE where its state changes. -/
def ltcSwitched (b : Bytes) (s : State) : State :=
  if ltcStateSet b s.time == s.time.ltcState then modTime (withLtc b) s else ltcEvent false (modTime (withLtc b) s)

theorem ltcSet_range {c : Cmd} (s : State) (h : ¬ LtcSound c.payload) : ltcSet c s = done c stRANGE s := by
  refine if_pos ?_
  simp only [LtcSound] at h
  simp only [Bool.or_eq_true, decide_eq_true_eq]
  omega

theorem ltcSet_sound {c : Cmd} (s : State) (h : LtcSound c.payload) : ltcSet c s = done c stOK (ltcSwitched c.payload s) := by
  refine if_neg ?_
  simp only [LtcSound] at h
  simp only [Bool.or_eq_true, decide_eq_true_eq]
  omega

theorem ltcSwitched_onlyTime (b : Bytes) (s : State) : OnlyTime s (ltcSwitched b s) := by
  unfold ltcSwitched
  split <;> rfl

/-- LTC_STATE moves the mirrors' TIME_SEQ and nothing else of the time unit. -/
theorem ltcSwitched_time (b : Bytes) (s : State) : ∃ q, (ltcSwitched b s).time = { withLtc b s.time with seq := q } := by
  unfold ltcSwitched
  split
  · exact ⟨s.time.seq, rfl⟩
  · exact ⟨s.time.seq + 2, rfl⟩

theorem ltcStateSet_off {b : Bytes} (k : TimeSt) (h : field b 0 1 = 0) : ltcStateSet b k = 0 := by
  simp [ltcStateSet, h]

theorem ltcStateSet_on {b : Bytes} {k : TimeSt} (h : field b 0 1 = 1) (hk : k.ltcOn = false) : ltcStateSet b k = 1 := by
  simp [ltcStateSet, h, hk]

/-! ## LTC words (R286) -/

theorem ltcTake_off (w : LtcWord) {s : State} (h : s.time.ltcOn = false) : ltcTake w s = s := by
  simp [ltcTake, h]

theorem ltcWord_off (w : LtcWord) {s : State} (h : s.time.ltcOn = false) : ltcWord w s = s := by
  simp [ltcWord, ltcTake_off w h, h]

/-- A word that the decoder, switched on, takes: it has a rate, the one set where one is set. -/
def LtcValid (w : LtcWord) (k : TimeSt) : Prop :=
  k.ltcOn = true ∧ 1 ≤ w.rate ∧ w.rate ≤ 4 ∧ (k.ltcRateSet = 0 ∨ k.ltcRateSet = w.rate)

/-- A word follows the one before it. -/
def LtcFollows (w : LtcWord) (k : TimeSt) : Prop :=
  ∃ q, k.ltcPrev = some q ∧ k.ltcRate = w.rate ∧ (tcFrames w.rate q + 1) % tcDay w.rate = tcFrames w.rate w.tc

/-- The time unit with a word latched at `now`, the `run`-th in a row. -/
def withWord (w : LtcWord) (now run : Nat) (k : TimeSt) : TimeSt :=
  { k with ltcTc := w.tc, ltcRate := w.rate, ltcLatch := now, ltcPrev := some w.tc, ltcRun := run }

/-- The decoder locks. -/
def ltcLocked (s : State) : State := ltcEvent false (modTime (fun k => { k with ltcState := 2 }) s)

theorem ltcTake_locks {w : LtcWord} {s : State} (hv : LtcValid w s.time) (hf : LtcFollows w s.time)
    (hs : s.time.ltcState = 1) (hr : 1 ≤ s.time.ltcRun) :
    ltcTake w s = ltcLocked (modTime (withWord w s.now (s.time.ltcRun + 1)) s) := by
  obtain ⟨hon, hlo, hhi, hset⟩ := hv
  obtain ⟨q, hprev, hrate, hnext⟩ := hf
  have taken : (!s.time.ltcOn || w.rate == 0 || decide (4 < w.rate) || (s.time.ltcRateSet != 0 && w.rate != s.time.ltcRateSet))
      = false := by
    have h0 : w.rate ≠ 0 := by omega
    have hset' : s.time.ltcRateSet = 0 ∨ w.rate = s.time.ltcRateSet := hset.imp_right Eq.symm
    simpa [hon, h0, Nat.not_lt.mpr hhi, ← or_iff_not_imp_left] using hset'
  have second : 2 ≤ s.time.ltcRun + 1 := by omega
  simp only [ltcTake, taken, hprev, hrate, hnext, hs, second, beq_self_eq_true, Bool.and_self, Bool.false_eq_true, if_false,
    if_true, Nat.reduceBEq]
  rfl

theorem ltcCues_of_none (old : Option U32) (w : LtcWord) {s : State} (h : s.time.cues = []) : ltcCues old w s = s := by
  simp [ltcCues, h, forEach]

/-- Where the time unit holds no cue, a word fires none. -/
theorem ltcWord_of_no_cues (w : LtcWord) {s : State} (h : (ltcTake w s).time.cues = []) : ltcWord w s = ltcTake w s := by
  simp [ltcWord, ltcCues_of_none _ w h]

theorem ltcLost_lasts {s : State} (h : s.time.ltcState ≠ 2 ∨ s.now < s.time.ltcLatch + 4 * ltcPeriod s.time.ltcRate) :
    ltcLost s = s := if_pos (by simpa using h)

/-- The time unit with the decoder's lock lost. -/
def withLtcLost (k : TimeSt) : TimeSt := { k with ltcState := 3, ltcRun := 0, ltcPrev := none }

theorem ltcLost_loses {s : State} (hs : s.time.ltcState = 2)
    (ht : s.time.ltcLatch + 4 * ltcPeriod s.time.ltcRate ≤ s.now) : ltcLost s = ltcEvent false (modTime withLtcLost s) :=
  if_neg (by simp [hs, Nat.not_lt.mpr ht])

/-! ## The RTC (R287) -/

/-- The time unit with its RTC set to the second `sec` at the instant `at_`, `off` s from UTC. -/
def withRtc (sec at_ : Nat) (off : Int) (k : TimeSt) : TimeSt :=
  { k with rtcSec := sec, rtcAt := at_, rtcValid := true, utcOffset := off }

/-- The time unit with an alarm `d` seconds from the RTC's time `now`, or with none where `d` is 0. -/
def withAlarm (now d : Nat) (k : TimeSt) : TimeSt :=
  { k with alarm := if d = 0 then none else some (now + d * 1000000000) }

theorem rtcSecond_locked {s : State} (h : s.time.state = 2) : rtcSecond s =
    modTime (withRtc (s.now / 1000000000) (s.now / 1000000000 * 1000000000) s.time.gmUtc) s := if_pos (by simp [h])

theorem rtcSecond_free {s : State} (h : s.time.state ≠ 2) : rtcSecond s = s := if_neg (by simp [h])

section
variable {c : Cmd} {s : State}

theorem rtcSet_range (h : bit (field c.payload 0 1) 0 = true) (ht : 2 ^ 48 ≤ field c.payload 8 8) :
    rtcSet c s = done c stRANGE s := if_pos (by simpa [h] using ht)

theorem rtcSet_locked (h : bit (field c.payload 0 1) 0 = true) (ht : field c.payload 8 8 < 2 ^ 48) (hs : s.time.state = 2) :
    rtcSet c s = done c stSTATE s := by
  have inRange : ¬ (bit (field c.payload 0 1) 0 && decide (2 ^ 48 ≤ field c.payload 8 8)) = true := by simpa [h] using ht
  exact (if_neg inRange).trans (if_pos (by simp [h, hs]))

theorem rtcSet_time (h : bit (field c.payload 0 1) 0 = true) (ht : field c.payload 8 8 < 2 ^ 48) (hs : s.time.state ≠ 2)
    (ha : bit (field c.payload 0 1) 1 = false) :
    rtcSet c s = done c stOK (modTime (withRtc (field c.payload 8 8) s.now (sfield c.payload 2 2)) s) := by
  have inRange : decide (2 ^ 48 ≤ field c.payload 8 8) = false := decide_eq_false (Nat.not_le.mpr ht)
  have free : (s.time.state == 2) = false := by simpa using hs
  simp only [rtcSet, h, inRange, free, ha, Bool.and_false, Bool.false_eq_true, if_false, if_true]
  rfl

theorem rtcSet_alarm (h : bit (field c.payload 0 1) 0 = false) (ha : bit (field c.payload 0 1) 1 = true) :
    rtcSet c s = done c stOK (modTime (withAlarm (rtcNs s) (field c.payload 4 4)) s) := by
  simp only [rtcSet, h, ha, Bool.false_and, Bool.false_eq_true, if_false, if_true, beq_iff_eq]
  rfl

end

end Sys2Proof.Machine
end

section
/-! PROOF. What CUE_CANCEL, the LTC decoder's and the RTC's commands and events answer (R286, R287, R294), and the statements
assembled from it. -/

namespace Sys2Proof.Safety

open Sys2Proof.Machine

/-! ## What a change of the time unit answers -/

/-- A command that changes the time unit, with the events it raises, and ends. -/
theorem ready_onlyTime {op t : Nat} {r : CmdRef} {s z : State} {f : Cmd → State → State} {c : Cmd} {st : Nat} (h : Ready op r c s)
    (e : f c (advance t s) = done c st z) (hz : OnlyTime (advance t s) z) :
    verb op t r s f = .next (complete c st 0 [] z) := by
  obtain ⟨hpending, hlow, hflt, hpower, hboot⟩ := hz.pinKept
  exact ready_plain h e (by simpa using hpending) (by simpa using hlow) (by simpa using hflt) (by simpa using hpower)
    (by simpa using hboot)

theorem happens_onlyTime {t : Nat} {s z : State} {f : State → State} (ha : awake s = true) (hp : PinDriven s)
    (e : f (advance t s) = z) (hz : OnlyTime (advance t s) z) : happens t s f = .next z :=
  happens_pinKept ha hp e hz.pinKept

/-! ## CUE_CANCEL -/

/-- Settles O39: a CUE_CANCEL by whom it names: all, none, a cue that has fired, a pending one. -/
theorem cueCancel : Obligations.CueCancel := by
  intro t r c s ready n
  refine ⟨?all, ?absent, ?fired, ?pending⟩
  case all => exact fun hn => ready_onlyTime ready (cueCancel_all (advance t s) hn) rfl
  case absent => exact fun hn hq => ready_complete ready (cueCancel_none (s := advance t s) hn hq)
  case fired => exact fun q hn hq hs => ready_complete ready (cueCancel_fired (s := advance t s) hn hq hs)
  case pending =>
    intro q hn hq hs
    exact ⟨_, ready_onlyTime ready (cueCancel_pending (s := advance t s) hn hq hs) rfl, kget?_kerase_same _ _,
      fun k hk => kget?_kerase_other _ _ _ hk, rfl⟩

/-! ## LTC -/

theorem timeLtcSet_switches (t : Nat) {r : CmdRef} {c : Cmd} {s : State} (ready : Ready 0x0B06 r c s)
    (h : LtcSound c.payload) : ∃ s', exec (.timeLtcSet t r) s = .next (complete c 0x00 0 [] s')
      ∧ s'.time.ltcOn = decide (field c.payload 0 1 = 1) ∧ s'.time.ltcRateSet = field c.payload 1 1
      ∧ (field c.payload 0 1 = 0 → s'.time.ltcState = 0)
      ∧ (field c.payload 0 1 = 1 → s.time.ltcOn = false → s'.time.ltcState = 1)
      ∧ { s' with time := s.time, hif := s.hif } = advance t s := by
  have frame := ltcSwitched_onlyTime c.payload (advance t s)
  obtain ⟨q, htime⟩ := ltcSwitched_time c.payload (advance t s)
  refine ⟨_, ready_onlyTime ready (ltcSet_sound _ h) frame, ?_, ?_, fun hoff => ?_, fun hon hs => ?_, frame⟩ <;> rw [htime]
  · rfl
  · rfl
  · exact ltcStateSet_off _ hoff
  · exact ltcStateSet_on hon hs

theorem ltcWord_locks (t : Nat) {w : LtcWord} {s : State} (ha : awake s = true) (hp : PinDriven s) (hv : LtcValid w s.time)
    (hf : LtcFollows w s.time) (hs : s.time.ltcState = 1) (hr : 1 ≤ s.time.ltcRun) (hc : s.time.cues = []) :
    exec (.ltcWord t w) s =
      .next (ltcLocked (modTime (withWord w (max s.now t) (s.time.ltcRun + 1)) (advance t s))) := by
  have taken := ltcTake_locks (s := advance t s) hv hf hs hr
  have silent : (ltcTake w (advance t s)).time.cues = [] := by rw [taken]; exact hc
  exact happens_onlyTime ha hp ((ltcWord_of_no_cues w silent).trans taken) rfl

/-! ## The RTC -/

theorem rtcSecond_sets (t : Nat) {s : State} (hp : PinDriven s) (h : s.time.state = 2) : exec (.rtcSecond t) s =
    .next (modTime (withRtc (max s.now t / 1000000000) (max s.now t / 1000000000 * 1000000000) s.time.gmUtc) (advance t s)) :=
  always_plain hp (rtcSecond_locked (s := advance t s) h) rfl rfl rfl rfl rfl

theorem rtcSecond_leaves (t : Nat) {s : State} (hp : PinDriven s) (h : s.time.state ≠ 2) :
    exec (.rtcSecond t) s = .next (advance t s) :=
  always_plain hp (rtcSecond_free (s := advance t s) h) rfl rfl rfl rfl rfl

/-- Settles O37: the decoder switched, a word while it is off and the one that locks it, its loss; then the RTC's second and
TIME_RTC_SET by its two flags. -/
theorem ltcAndRtc : Obligations.LtcAndRtc := by
  refine ⟨⟨?set, ?wordOff, ?wordLocks, ?lost⟩, ?second, ?rtcSet⟩
  case set =>
    intro t r c s ready
    refine ⟨fun h => ready_complete ready (ltcSet_range _ ?_), fun hen hrate => timeLtcSet_switches t ready ⟨hen, hrate⟩⟩
    rintro ⟨hen, hrate⟩
    omega
  case wordOff => exact fun t w s ha hp hoff => happens_onlyTime ha hp (ltcWord_off w (s := advance t s) hoff) rfl
  case wordLocks =>
    intro t w q s ha hp hon hlo hhi hset hs hprev hrate hr hnext hc
    exact ⟨_, ltcWord_locks t ha hp ⟨hon, hlo, hhi, hset⟩ ⟨q, hprev, hrate, hnext⟩ hs hr hc, rfl, rfl, rfl⟩
  case lost =>
    intro t s ha hp
    exact ⟨fun hs ht => ⟨_, happens_onlyTime ha hp (ltcLost_loses (s := advance t s) hs ht) rfl, rfl⟩,
      fun h => happens_onlyTime ha hp (ltcLost_lasts (s := advance t s) h) rfl⟩
  case second =>
    intro t s hp
    split
    next h => exact rtcSecond_sets t hp h
    next h => exact rtcSecond_leaves t hp h
  case rtcSet =>
    intro t r c s ready
    refine ⟨fun h ht => ready_complete ready (rtcSet_range h ht), fun h ht hs => ready_complete ready (rtcSet_locked h ht hs),
      fun h ht hs ha => ?_, fun h ha => ?_⟩
    · exact ready_onlyTime ready (rtcSet_time (s := advance t s) h ht hs ha) rfl
    · exact ready_onlyTime ready (rtcSet_alarm (s := advance t s) h ha) rfl

end Sys2Proof.Safety
end

section
/-! SUPPORT. Frames that a port receives (R109, R268, R269): what counting a frame changes, and that a frame a port takes is
counted and handed on. -/

namespace Sys2Proof.Machine

/-! ## A port's record -/

theorem portOf_modPort_same (p : Nat) (f : Port → Port) (s : State) : portOf (modPort p f s) p = f (portOf s p) :=
  kgetD_kmod_same s.link.ports p {} f

@[simp] theorem portOf_setInt (n : Nat) (s : State) (p : Nat) : portOf (setInt n s) p = portOf s p := by
  simp [portOf]

/-! ## Counters (R268, R269) -/

/-- A port's record with counter `n` raised by `k`. -/
def withCount (n k half : Nat) (q : Port) : Port := { q with cnt := kset q.cnt n (kgetD q.cnt n 0 + k), half := half }

/-- Of the port a raised counter changes the counter and the HALF bits alone. -/
theorem portOf_bumpCnt (p n k : Nat) (s : State) : ∃ half, portOf (bumpCnt p n k s) p = withCount n k half (portOf s p) := by
  unfold bumpCnt
  dsimp only
  split
  · rw [portOf_setInt, portOf_modPort_same, portOf_modPort_same]
    exact ⟨_, rfl⟩
  · rw [portOf_modPort_same]
    exact ⟨(portOf s p).half, rfl⟩

/-- A port's counter. -/
def counter (s : State) (p n : Nat) : Nat := kgetD (portOf s p).cnt n 0

theorem counter_bumpCnt_same (p n k : Nat) (s : State) : counter (bumpCnt p n k s) p n = counter s p n + k := by
  obtain ⟨half, h⟩ := portOf_bumpCnt p n k s
  rw [counter, h, withCount, kgetD_kset_same, counter]

theorem counter_bumpCnt_other (p : Nat) {n m : Nat} (k : Nat) (s : State) (hm : m ≠ n) :
    counter (bumpCnt p n k s) p m = counter s p m := by
  obtain ⟨half, h⟩ := portOf_bumpCnt p n k s
  rw [counter, h, withCount, kgetD_kset_other _ _ _ _ _ hm, counter]

/-- What counting a frame of port `p` keeps: the time unit, the instant, the timestamp bobbins, and the port's role and
service. -/
structure CountKept (p : Nat) (s z : State) : Prop where
  time : z.time = s.time
  now : z.now = s.now
  ts : z.link.ts = s.link.ts
  role : (portOf z p).role = (portOf s p).role
  retired : (portOf z p).retired = (portOf s p).retired

theorem CountKept.refl (p : Nat) (s : State) : CountKept p s s := ⟨rfl, rfl, rfl, rfl, rfl⟩

theorem CountKept.trans {p : Nat} {a b c : State} (h : CountKept p a b) (h' : CountKept p b c) : CountKept p a c :=
  ⟨h'.time.trans h.time, h'.now.trans h.now, h'.ts.trans h.ts, h'.role.trans h.role, h'.retired.trans h.retired⟩

theorem bumpCnt_countKept (p n k : Nat) (s : State) : CountKept p s (bumpCnt p n k s) := by
  obtain ⟨half, h⟩ := portOf_bumpCnt p n k s
  have rest : (bumpCnt p n k s).time = s.time ∧ (bumpCnt p n k s).now = s.now ∧ (bumpCnt p n k s).link.ts = s.link.ts := by
    unfold bumpCnt
    dsimp only
    split
    · rw [setInt_time, setInt_now, setInt_link]
      exact ⟨rfl, rfl, rfl⟩
    · exact ⟨rfl, rfl, rfl⟩
  obtain ⟨time, now, ts⟩ := rest
  exact ⟨time, now, ts, by rw [h, withCount], by rw [h, withCount]⟩

/-- What every raised counter keeps, the counting of a received frame keeps. -/
theorem countRx_keeps {P : State → Prop} {p : Nat} (step : ∀ n k s, P s → P (bumpCnt p n k s)) (len : Nat) (cast : Cast)
    (ez : Option Nat) (ptp pause : Bool) {s : State} (h : P s) : P (countRx p len cast ez ptp pause s) := by
  have sized : P (bumpCnt p (9 + castOff cast) 1 (bumpCnt p (sizeBin len) 1 s)) := step _ _ _ (step _ _ _ h)
  refine step _ _ _ ?_
  split
  · exact step _ _ _ sized
  · split
    · exact step _ _ _ sized
    · split
      · split
        · exact sized
        · exact step _ _ _ sized
      · exact sized

theorem countRx_countKept (p len : Nat) (cast : Cast) (ez : Option Nat) (ptp pause : Bool) (s : State) :
    CountKept p s (countRx p len cast ez ptp pause s) :=
  countRx_keeps (fun n k _ h => h.trans (bumpCnt_countKept p n k _)) len cast ez ptp pause (CountKept.refl p s)

theorem sizeBin_le (len : Nat) : sizeBin len ≤ 8 := by
  unfold sizeBin
  split_ifs <;> decide

/-- A PTP frame counts once among the port's PTP frames (R268). -/
theorem counter_countRx_ptp (p len : Nat) (cast : Cast) (ez : Option Nat) (s : State) :
    counter (countRx p len cast ez true false s) p 13 = counter s p 13 + 1 := by
  have hsize : 13 ≠ sizeBin len := by have := sizeBin_le len; omega
  have hcast : 13 ≠ 9 + castOff cast := by cases cast <;> decide
  have hbytes : 13 ≠ 33 := by decide
  calc counter (countRx p len cast ez true false s) p 13
      = counter (bumpCnt p 13 1 (bumpCnt p (9 + castOff cast) 1 (bumpCnt p (sizeBin len) 1 s))) p 13 :=
        counter_bumpCnt_other p len _ hbytes
    _ = counter (bumpCnt p (9 + castOff cast) 1 (bumpCnt p (sizeBin len) 1 s)) p 13 + 1 := counter_bumpCnt_same p 13 1 _
    _ = counter s p 13 + 1 := by rw [counter_bumpCnt_other p 1 _ hcast, counter_bumpCnt_other p 1 _ hsize]

/-! ## A frame handed on (R109, R259, R261, R273) -/

/-- A frame that a standard port takes is counted and handed on to what receives it. -/
theorem rxGate_receives {p len : Nat} (cast : Cast) (ez : Option Nat) (ptp : Bool) {video : Bool} {s : State} (f : State → State)
    (h : Safety.Receives s p len video) :
    rxGate 1 p len cast ez ptp video s f = f (countRx p len cast ez ptp false s) := by
  obtain ⟨hp, hrole, hret, hdrop, hlo, hhi⟩ := h
  have kept := countRx_countKept p len cast ez ptp false s
  have heard : hears s p = true := by simp [hears, hrole]
  have role : roleAt (countRx p len cast ez ptp false s) p = 1 := by
    have standard : p ≠ 64 := by omega
    simp [roleAt, standard, kept.role, hrole]
  simp [rxGate, heard, hdrop, Nat.not_lt.mpr hlo, Nat.not_lt.mpr hhi, kept.retired, hret, role]

end Sys2Proof.Machine
end

section
/-! SUPPORT. The time unit's PTP (R277 to R282): which parts of it a change of state or of master leaves alone, and what an
Announce, an exchange, a timestamp's entry, a message to send and a timeout do, a case at a time. -/

namespace Sys2Proof.Machine

/-! ## The states of the time unit and its master (R278, R282) -/

/-- A change to the state it is in leaves the time unit as it is. -/
theorem timeState_same {st : Nat} {s : State} (h : s.time.state = st) : timeState st s = s := if_pos (by simp [h])

/-- The time unit in the state `st`, at the instant `now`. -/
def inState (st now : Nat) (k : TimeSt) : TimeSt :=
  { k with state := st, lockRun := 0, overRun := 0, holdSince := if st == 3 then some now else none, seq := k.seq + 2 }

theorem timeState_time {st : Nat} {s : State} (h : s.time.state ≠ st) : (timeState st s).time = inState st s.now s.time := by
  have changed : (s.time.state == st) = false := by simpa using h
  simp only [timeState, changed, Bool.false_eq_true, if_false]
  split
  next h3 => rw [inState, if_pos h3]; rfl
  next h3 => rw [inState, if_neg h3]; rfl

theorem timeState_ports (st : Nat) (s : State) : (timeState st s).time.ports = s.time.ports := by
  by_cases h : s.time.state = st
  · rw [timeState_same h]
  · rw [timeState_time h, inState]

theorem masterLost_ports (s : State) : (masterLost s).time.ports = s.time.ports := by
  simp only [masterLost]
  split
  · rw [timeState_ports]
    rfl
  · rfl

theorem selectMaster_ports (s : State) : (selectMaster s).time.ports = s.time.ports := by
  unfold selectMaster
  dsimp only
  split
  · split
    · rfl
    · exact masterLost_ports s
  · split
    · rfl
    · split
      · rfl
      · rw [timeState_ports]
        rfl

theorem slaveGone_ports (s : State) : (slaveGone s).time.ports = s.time.ports := by
  rw [slaveGone, selectMaster_ports, masterLost_ports]

theorem ptpUp_congr {p : Nat} {s z : State} (h : CountKept p s z) : ptpUp z p = ptpUp s p := by
  simp [ptpUp, h.time, h.role, h.retired]

/-! ## Timestamps (R272, R279) -/

/-- Where no timestamp bobbin holds an entry, the time unit reads none. -/
theorem tsRead_of_no_entries {s : State} (h : s.link.ts.flatMap (fun e => e.2.entries) = []) : tsRead s = s := by
  have emptied : kmap s.link.ts (fun _ g => { g with entries := [] }) = s.link.ts := by
    refine (List.map_congr_left fun e he => ?_).trans (List.map_id _)
    have none_left : e.2.entries = [] := List.flatMap_eq_nil_iff.mp h e he
    change (e.1, { e.2 with entries := [] }) = (e.1, e.2)
    rw [← none_left]
  unfold tsRead
  dsimp only
  rw [h, emptied]
  rfl

/-- The exchanges that an entry's GAP discards: those before its own, of its group, whose timestamp has not come. -/
def discarded (e : TsEntry) (s : State) : List TsWait :=
  (s.time.tsWait.take (s.time.tsWait.takeWhile fun w => w.id != e.id).length).filter fun w =>
    w.at_.isNone && tsGroupOf w.port == tsGroupOf e.port

/-- The time unit without the exchanges `old`, counted as missing. -/
def withDiscarded (old : List TsWait) (k : TimeSt) : TimeSt :=
  { k with tsWait := k.tsWait.filter (fun w => !old.contains w), tsMissing := k.tsMissing + BitVec.ofNat 32 old.length }

/-- An entry taken: a Sync's gets its Follow_Up, and a Delay_Req's gives the exchange its timestamp. -/
def tsTaken (e : TsEntry) (s : State) : State :=
  match s.time.tsWait.find? (fun w => w.id == e.id) with
  | none => s
  | some w =>
    if w.kind == .sync then
      queueTx w.port { kind := .ptp .followUp, len := ptpLen s .followUp }
        (modTime (fun k => { k with tsWait := k.tsWait.filter (· != w) }) s)
    else modTime (fun k => { k with tsWait := modFirst (fun v => v.id == e.id) (fun v => { v with at_ := some e.time }) k.tsWait }) s

theorem tsEntry_of_gap {e : TsEntry} (s : State) (h : e.gap = true) :
    tsEntry e s = tsTaken e (modTime (withDiscarded (discarded e s)) s) := by
  simp only [tsEntry, h, if_true]
  rfl

/-- The exchanges before an entry's own are those it discards, where none has its timestamp and all are of its group. -/
theorem discarded_eq {e : TsEntry} {old rest : List TsWait} {w : TsWait} {s : State} (hs : s.time.tsWait = old ++ w :: rest)
    (hw : w.id = e.id) (hold : ∀ v ∈ old, v.id ≠ e.id ∧ v.at_ = none ∧ tsGroupOf v.port = tsGroupOf e.port) :
    discarded e s = old := by
  have before : s.time.tsWait.takeWhile (fun w => w.id != e.id) = old := by
    rw [hs, List.takeWhile_append_of_pos fun v hv => by simpa using (hold v hv).1]
    simp [hw]
  rw [discarded, before, hs, List.take_left, List.filter_eq_self]
  intro v hv
  obtain ⟨-, hat, hgroup⟩ := hold v hv
  simp [hat, hgroup]

theorem queueTx_time (p : Nat) (f : TxFrame) (s : State) : (queueTx p f s).time = s.time := by
  unfold queueTx
  split <;> rfl

theorem PinKept.trans {a b c : State} (h : PinKept a b) (h' : PinKept b c) : PinKept a c := by
  obtain ⟨hpending, hlow, hflt, hpower, hboot⟩ := h
  obtain ⟨hpending', hlow', hflt', hpower', hboot'⟩ := h'
  exact ⟨hpending'.trans hpending, hlow'.trans hlow, hflt'.trans hflt, hpower'.trans hpower, hboot'.trans hboot⟩

theorem queueTx_pinKept (p : Nat) (f : TxFrame) (s : State) : PinKept s (queueTx p f s) := by
  unfold queueTx
  split <;> exact ⟨rfl, rfl, rfl, rfl, rfl⟩

theorem mem_modFirst {α : Type} {p : α → Bool} {f : α → α} {l : List α} {v : α} (h : v ∈ modFirst p f l) :
    v ∈ l ∨ ∃ u, v = f u := by
  induction l with
  | nil => simp [modFirst] at h
  | cons a r ih =>
    unfold modFirst at h
    split at h
    · obtain rfl | hr := List.mem_cons.mp h
      · exact .inr ⟨a, rfl⟩
      · exact .inl (List.mem_cons_of_mem _ hr)
    · obtain rfl | hr := List.mem_cons.mp h
      · exact .inl List.mem_cons_self
      · exact (ih hr).imp_left (List.mem_cons_of_mem _)

theorem tsTaken_tsMissing (e : TsEntry) (s : State) : (tsTaken e s).time.tsMissing = s.time.tsMissing := by
  unfold tsTaken
  split
  · rfl
  · split
    · rw [queueTx_time]
      rfl
    · rfl

/-- An exchange that waits after an entry is taken waited before, or has its timestamp. -/
theorem mem_tsTaken {e : TsEntry} {s : State} {v : TsWait} (h : v ∈ (tsTaken e s).time.tsWait) :
    v ∈ s.time.tsWait ∨ v.at_ ≠ none := by
  unfold tsTaken at h
  split at h
  · exact .inl h
  · split at h
    · rw [queueTx_time] at h
      exact .inl (List.mem_of_mem_filter h)
    · refine (mem_modFirst h).imp_right ?_
      rintro ⟨u, rfl⟩
      exact nofun

/-! ## An Announce (R278, R282) -/

/-- The time unit with another record of PTP port `p`. -/
def withPtpPort (p : Nat) (q : PtpPort) (k : TimeSt) : TimeSt := { k with ports := kset k.ports p q }

/-- A PTP frame of `len` bytes counted. -/
def ptpCounted (p len : Nat) (s : State) : State := countRx p len .multi none true false s

theorem ptpCounted_countKept (p len : Nat) (s : State) : CountKept p s (ptpCounted p len s) := countRx_countKept _ _ _ _ _ _ _

/-- The length of an Announce on the wire. -/
def announceLen (s : State) : Nat := if s.time.l2 then 82 else 110

theorem announceRx_ignored {a : Announce} {s : State} (hr : Safety.Receives s a.port (announceLen s) false)
    (h : ptpUp s a.port = false ∨ a.domain ≠ s.time.domain) : announceRx a s = ptpCounted a.port (announceLen s) s := by
  have kept := ptpCounted_countKept a.port (announceLen s) s
  refine (rxGate_receives .multi none true _ hr).trans (if_pos ?_)
  change (!ptpUp (ptpCounted a.port (announceLen s) s) a.port
    || a.domain != (ptpCounted a.port (announceLen s) s).time.domain) = true
  simpa [ptpUp_congr kept, kept.time] using h

/-- A port's record with the first Announce it hears, at the instant `now`. -/
def firstHeard (a : Announce) (now : Nat) (q : PtpPort) : PtpPort := { q with best := some a, heardAt := now, count := 1 }

theorem announceRx_first {a : Announce} {s : State} (hr : Safety.Receives s a.port (announceLen s) false)
    (hup : ptpUp s a.port = true) (hd : a.domain = s.time.domain) (hb : (kgetD s.time.ports a.port {}).best = none) :
    announceRx a s = selectMaster (modTime (withPtpPort a.port (firstHeard a s.now (kgetD s.time.ports a.port {})))
      (ptpCounted a.port (announceLen s) s)) := by
  have kept := ptpCounted_countKept a.port (announceLen s) s
  change rxGate 1 a.port (announceLen s) .multi none true false s _ = _
  rw [rxGate_receives .multi none true _ hr, ← ptpCounted]
  generalize ptpCounted a.port (announceLen s) s = z at kept ⊢
  simp only [ptpUp_congr kept, kept.time, kept.now, hup, hd, hb, Bool.not_true, bne_self_eq_false, Bool.or_self, Bool.or_true,
    Bool.true_or, Bool.false_and, Bool.false_eq_true, if_false, if_true]
  rfl

/-! ## An exchange (R279 to R281) -/

/-- The length of a Sync on the wire. -/
def syncLen (s : State) : Nat := if s.time.l2 then 64 else 90

theorem delayStamp_congr (x : PtpExchange) {s z : State} (h : z.time = s.time) : delayStamp x z = delayStamp x s := by
  simp only [delayStamp, h]

/-- The offset from the master that an exchange's four timestamps give, by the port's asymmetry. -/
def exchangeOffset (x : PtpExchange) (t3 : Int) (k : TimeSt) : Int :=
  ((x.t2 - x.t1) - (x.t4 - t3)) / 2 - (kgetD k.ports x.port {}).asym / 64

/-- The mean path that they give. -/
def exchangePath (x : PtpExchange) (t3 : Int) : Nat := (((x.t2 - x.t1) + (x.t4 - t3)) / 2).toNat

/-- An exchange measured, and the frequency corrected by it. -/
def exchangeMeasured (x : PtpExchange) (t3 : Int) (s : State) : State :=
  servo (modTime (fun k => { k with offset := exchangeOffset x t3 s.time, meanPath := exchangePath x t3 })
    (modTime (fun k => { k with tsWait := k.tsWait.filter fun w => !(w.id == x.tsId && w.kind == .delayReq) }) s))

theorem exchangeMeasured_time (x : PtpExchange) (t3 : Int) (s : State) : ∃ f l w, (exchangeMeasured x t3 s).time =
    { s.time with offset := exchangeOffset x t3 s.time, meanPath := exchangePath x t3, freqPpb := f, freqHist := l, tsWait := w } :=
  ⟨_, _, _, rfl⟩

/-- The exchanges in a row within 100 ns of the master, and those beyond 1 µs, by one more of the size `mag` (R282). -/
def withRuns (mag : Nat) (k : TimeSt) : TimeSt :=
  { k with lockRun := if mag ≤ 100 then k.lockRun + 1 else 0, overRun := if 1000 < mag then k.overRun + 1 else 0 }

/-- The time unit's state by its runs: locked after 16 within 100 ns, acquiring again after 4 beyond 1 µs (R282). -/
def disciplined (mag : Nat) (s : State) : State :=
  let z := mirror (modTime (withRuns mag) s)
  if s.time.state == 1 && 16 ≤ (withRuns mag s.time).lockRun then timeState 2 z
  else if s.time.state == 2 && 4 ≤ (withRuns mag s.time).overRun then timeState 1 z
  else z

theorem withRuns_within {mag : Nat} (k : TimeSt) (h : mag ≤ 100) : (withRuns mag k).lockRun = k.lockRun + 1 := if_pos h

theorem withRuns_beyond {mag : Nat} (k : TimeSt) (h : 100 < mag) : (withRuns mag k).lockRun = 0 := if_neg (Nat.not_le.mpr h)

theorem withRuns_under {mag : Nat} (k : TimeSt) (h : mag ≤ 1000) : (withRuns mag k).overRun = 0 := if_neg (Nat.not_lt.mpr h)

/-- The runs and the state they give leave the measure as it is. -/
theorem disciplined_measure (mag : Nat) (s : State) : (disciplined mag s).time.offset = s.time.offset
    ∧ (disciplined mag s).time.meanPath = s.time.meanPath := by
  have kept (st : Nat) (z : State) : (timeState st z).time.offset = z.time.offset
      ∧ (timeState st z).time.meanPath = z.time.meanPath := by
    by_cases h : z.time.state = st
    · rw [timeState_same h]
      exact ⟨rfl, rfl⟩
    · rw [timeState_time h, inState]
      exact ⟨rfl, rfl⟩
  unfold disciplined
  dsimp only
  split
  · exact kept 2 _
  · split
    · exact kept 1 _
    · exact ⟨rfl, rfl⟩

/-- A change of state ends in the state it names. -/
theorem timeState_state (st : Nat) (s : State) : (timeState st s).time.state = st := by
  by_cases h : s.time.state = st
  · rw [timeState_same h, h]
  · rw [timeState_time h, inState]

theorem disciplined_locks {mag : Nat} {s : State} (hs : s.time.state = 1) (hm : mag ≤ 100) (hr : 15 ≤ s.time.lockRun) :
    (disciplined mag s).time.state = 2 := by
  have sixteenth : 16 ≤ (withRuns mag s.time).lockRun := by rw [withRuns_within _ hm]; omega
  rw [disciplined, if_pos (by simp [hs, sixteenth]), timeState_state]

theorem disciplined_searches {mag : Nat} {s : State} (hs : s.time.state = 1) (hm : 100 < mag) :
    (disciplined mag s).time.state = 1 ∧ (disciplined mag s).time.lockRun = 0 := by
  rw [disciplined, if_neg (by simp [withRuns_beyond _ hm]), if_neg (by simp [hs])]
  exact ⟨hs, withRuns_beyond _ hm⟩

theorem disciplined_stays {mag : Nat} {s : State} (hs : s.time.state = 2) (hm : mag ≤ 1000) :
    (disciplined mag s).time.state = 2 := by
  rw [disciplined, if_neg (by simp [hs]), if_neg (by simp [withRuns_under _ hm])]
  exact hs

section
variable {x : PtpExchange} {s : State} (hr : Safety.Receives s x.port (syncLen s) false) (hup : ptpUp s x.port = true)
  (hslave : s.time.slavePort = x.port) (hts : s.link.ts.flatMap (fun e => e.2.entries) = [])
include hr hup hslave hts

theorem ptpExchange_unstamped (hd : delayStamp x s = none) : ptpExchange x s = ptpCounted x.port (syncLen s) s := by
  have kept := ptpCounted_countKept x.port (syncLen s) s
  have read : tsRead (ptpCounted x.port (syncLen s) s) = ptpCounted x.port (syncLen s) s :=
    tsRead_of_no_entries (by rw [kept.ts]; exact hts)
  change rxGate 1 x.port (syncLen s) .multi none true false s _ = _
  rw [rxGate_receives .multi none true _ hr, ← ptpCounted]
  generalize ptpCounted x.port (syncLen s) s = z at kept read ⊢
  simp only [read, ptpUp_congr kept, kept.time, hup, hslave, delayStamp_congr x kept.time, hd, Bool.not_true, bne_self_eq_false,
    Bool.or_self, Bool.false_eq_true, if_false]

theorem ptpExchange_stamped {t3 : Int} (hd : delayStamp x s = some t3)
    (hstep : s.time.step = false ∨ (exchangeOffset x t3 s.time).natAbs < 1000 * s.time.stepUs) :
    ptpExchange x s =
      disciplined (exchangeOffset x t3 s.time).natAbs (exchangeMeasured x t3 (ptpCounted x.port (syncLen s) s)) := by
  have kept := ptpCounted_countKept x.port (syncLen s) s
  have read : tsRead (ptpCounted x.port (syncLen s) s) = ptpCounted x.port (syncLen s) s :=
    tsRead_of_no_entries (by rw [kept.ts]; exact hts)
  change rxGate 1 x.port (syncLen s) .multi none true false s _ = _
  rw [rxGate_receives .multi none true _ hr, ← ptpCounted]
  generalize ptpCounted x.port (syncLen s) s = z at kept read ⊢
  rw [← kept.time] at hslave hstep ⊢
  rw [← ptpUp_congr kept] at hup
  rw [← delayStamp_congr x kept.time] at hd
  have noStep : (z.time.step && decide (1000 * z.time.stepUs ≤ (exchangeOffset x t3 z.time).natAbs) && z.time.stepAt.isNone)
      = false := by
    obtain off | small := hstep
    · simp [off]
    · simp [Nat.not_le.mpr small]
  simp only [read, hup, hslave, hd, Bool.not_true, bne_self_eq_false, Bool.or_self, Bool.false_eq_true, if_false]
  exact if_neg (Bool.eq_false_iff.mp noStep)

end

/-! ## A message to send (R277, R279) -/

theorem ptpSend_down {p : Nat} (k : PtpTx) {s : State} (hts : s.link.ts.flatMap (fun e => e.2.entries) = [])
    (hup : ptpUp s p = false) : ptpSend p k s = s := by
  unfold ptpSend
  rw [tsRead_of_no_entries hts]
  dsimp only
  split
  · rfl
  · exact if_pos (by simp [hup])

/-- The time unit as a Delay_Req of port `p` awaits its timestamp. -/
def withDelayReq (p : Nat) (k : TimeSt) : TimeSt :=
  { k with tsNext := (k.tsNext + 1) % 65536, tsWait := k.tsWait ++ [{ id := k.tsNext, port := p, kind := .delayReq }] }

/-- The Delay_Req of a port: a two-step one bears an identifier for its timestamp (R279). -/
def delayReqFrame (q : PtpPort) (s : State) : TxFrame :=
  { kind := .ptp .delayReq, tsId := if q.oneStep then none else some s.time.tsNext, len := if s.time.l2 then 64 else udpLen 44 }

/-- The state in which it is sent. -/
def delayReqAwaited (p : Nat) (q : PtpPort) (s : State) : State := if q.oneStep then s else modTime (withDelayReq p) s

theorem delayReqAwaited_onlyTime (p : Nat) (q : PtpPort) (s : State) : OnlyTime s (delayReqAwaited p q s) := by
  unfold delayReqAwaited
  split <;> rfl

theorem ptpSend_delayReq {p : Nat} {q : PtpPort} {s : State} (hts : s.link.ts.flatMap (fun e => e.2.entries) = [])
    (hup : ptpUp s p = true) (hslave : s.time.slavePort = p) (hq : kget? s.time.ports p = some q) :
    ptpSend p .delayReq s = queueTx p (delayReqFrame q s) (delayReqAwaited p q s) := by
  unfold ptpSend
  rw [tsRead_of_no_entries hts]
  simp only [hq, hup, hslave, beq_self_eq_true, Bool.not_true, Bool.or_self, Bool.false_eq_true, if_false]
  unfold delayReqFrame delayReqAwaited
  cases q.oneStep <;> rfl

/-! ## A port's Announce that times out (R277, R282) -/

/-- The instant at which a port's last Announce times out. -/
def receiptDue (q : PtpPort) (k : TimeSt) : Nat := q.heardAt + k.timeout * pow2s k.logAnn

theorem announceTimeout_waits {p : Nat} {q : PtpPort} {s : State} (hq : kget? s.time.ports p = some q)
    (ht : s.now < receiptDue q s.time) : announceTimeout p s = s := by
  rw [announceTimeout, hq]
  exact if_pos (by simpa using .inr ht)

/-- A port's record with its Announce forgotten. -/
def forgotten (q : PtpPort) : PtpPort := { q with best := none, count := 0 }

theorem announceTimeout_ports {p : Nat} {q : PtpPort} {s : State} (hq : kget? s.time.ports p = some q)
    (hb : q.best.isSome = true) (ht : receiptDue q s.time ≤ s.now) :
    (announceTimeout p s).time.ports = kset s.time.ports p (forgotten q) := by
  have due : ¬ (q.best.isNone || decide (s.now < receiptDue q s.time)) = true := by
    simp [Nat.not_lt.mpr ht, Option.isSome_iff_ne_none.mp hb]
  rw [announceTimeout, hq]
  dsimp only
  rw [← receiptDue, if_neg due]
  split
  · rw [slaveGone_ports]
    rfl
  · rfl

end Sys2Proof.Machine
end

section
/-! PROOF. What the PTP events answer (R277 to R282), and the statement assembled from it. -/

namespace Sys2Proof.Safety

open Sys2Proof.Machine

/-- What an exchange on the slave port, its four timestamps known and no step called for, leaves of the time unit. -/
theorem ptpEventRx_disciplines (t : Nat) {t3 : Int} {x : PtpExchange} {s : State} (ha : awake s = true)
    (hr : Receives s x.port (syncLen s) false) (hup : ptpUp s x.port = true) (hslave : s.time.slavePort = x.port)
    (hts : s.link.ts.flatMap (fun e => e.2.entries) = []) (hd : delayStamp x s = some t3)
    (hstep : s.time.step = false ∨ (exchangeOffset x t3 s.time).natAbs < 1000 * s.time.stepUs) :
    ∃ s', exec (.ptpEventRx t x) s = .next (settled t s s') ∧ s'.time.offset = exchangeOffset x t3 s.time
      ∧ s'.time.meanPath = exchangePath x t3
      ∧ (s.time.state = 1 → (exchangeOffset x t3 s.time).natAbs ≤ 100 → 15 ≤ s.time.lockRun → s'.time.state = 2)
      ∧ (s.time.state = 1 → 100 < (exchangeOffset x t3 s.time).natAbs → s'.time.state = 1 ∧ s'.time.lockRun = 0)
      ∧ (s.time.state = 2 → (exchangeOffset x t3 s.time).natAbs ≤ 1000 → s'.time.state = 2) := by
  refine ⟨_, occurs_settled ha (ptpExchange_stamped (s := advance t s) hr hup hslave hts hd hstep), ?_⟩
  have kept := ptpCounted_countKept x.port (syncLen (advance t s)) (advance t s)
  generalize ptpCounted x.port (syncLen (advance t s)) (advance t s) = z at kept ⊢
  obtain ⟨f, l, w, htime⟩ := exchangeMeasured_time x t3 z
  rw [kept.time, advance_time] at htime
  have htimeState : (exchangeMeasured x t3 z).time.state = s.time.state := by rw [htime]
  have hrun : (exchangeMeasured x t3 z).time.lockRun = s.time.lockRun := by rw [htime]
  obtain ⟨hoff, hpath⟩ := disciplined_measure (exchangeOffset x t3 s.time).natAbs (exchangeMeasured x t3 z)
  refine ⟨hoff.trans (by rw [htime]), hpath.trans (by rw [htime]), fun hs hm hl => ?_, fun hs hm => ?_, fun hs hm => ?_⟩
  · exact disciplined_locks (htimeState.trans hs) hm (hrun.symm ▸ hl)
  · exact disciplined_searches (htimeState.trans hs) hm
  · exact disciplined_stays (htimeState.trans hs) hm

/-- Settles O36: an Announce ignored or the first of its port, an exchange without its timestamp, a GAP and an exchange measured,
then the messages sent and the timeout. -/
theorem ptpTime : Obligations.PtpTime := by
  refine ⟨?announceIgnored, ?announceFirst, ?unstamped, ?gap, ?measured, ?sendDown, ?sendDelayReq, ?timeout⟩
  case announceIgnored =>
    intro t a s ha hr h
    refine ⟨_, occurs_settled ha (announceRx_ignored (s := advance t s) hr h), (ptpCounted_countKept _ _ _).time, ?_⟩
    exact counter_countRx_ptp _ _ _ _ _
  case announceFirst =>
    intro t a s ha hr hup hd hb
    refine ⟨_, occurs_settled ha (announceRx_first (s := advance t s) hr hup hd hb),
      firstHeard a (max s.now t) (kgetD s.time.ports a.port {}), ?_, rfl, rfl, rfl⟩
    rw [selectMaster_ports]
    exact kget?_kset_same _ _ _
  case unstamped =>
    intro t x s ha hr hup hslave hts hd
    exact ⟨_, occurs_settled ha (ptpExchange_unstamped (s := advance t s) hr hup hslave hts hd),
      (ptpCounted_countKept _ _ _).time⟩
  case gap =>
    intro e old rest w s hgap hs hw hold
    rw [tsEntry_of_gap s hgap, discarded_eq hs hw hold, tsTaken_tsMissing]
    refine ⟨rfl, fun v hv hmem => ?_⟩
    obtain waits | stamped := mem_tsTaken hmem
    · have out := (List.mem_filter.mp waits).2
      simp [hv] at out
    · exact stamped (hold v hv).2.1
  case measured =>
    exact fun t t3 x s ha hr hup hslave hts hd hstep => ptpEventRx_disciplines t ha hr hup hslave hts hd hstep
  case sendDown => exact fun t p k s ha hp hup hts => happens_onlyTime ha hp (ptpSend_down k (s := advance t s) hts hup) rfl
  case sendDelayReq =>
    intro t p q s ha hp hup hslave hq hts
    exact happens_pinKept ha hp (ptpSend_delayReq (s := advance t s) hts hup hslave hq)
      ((delayReqAwaited_onlyTime p q (advance t s)).pinKept.trans (queueTx_pinKept _ _ _))
  case timeout =>
    intro t p q s ha hq
    refine ⟨fun ht => occurs_settled ha (announceTimeout_waits (s := advance t s) hq ht), fun hb ht => ?_⟩
    refine ⟨_, occurs_settled ha rfl, forgotten q, ?_, rfl, rfl⟩
    rw [announceTimeout_ports (s := advance t s) hq hb ht]
    exact kget?_kset_same _ _ _

end Sys2Proof.Safety
end

section
/-! SUPPORT. Drive health's probes and defect map (R300 to R304): a DETECT that falls due, a chain end's probe, a result that is not
complete in time, and the runs of a channel's results, a case at a time. -/

namespace Sys2Proof.Machine

/-! ## The frame of drive health -/

/-- A change reaches drive health alone. -/
abbrev OnlyHealth (s z : State) : Prop := { z with health := s.health } = s

theorem modHealth_onlyHealth (f : Health → Health) (s : State) : OnlyHealth s (modHealth f s) := rfl

theorem OnlyHealth.pinKept {s z : State} (h : OnlyHealth s z) : PinKept s z :=
  ⟨congrArg (·.pending) h, congrArg (·.faultLow) h, congrArg (·.flt) h, congrArg (·.power) h, congrArg (·.boot) h⟩

/-! ## A DETECT that falls due (R302) -/

/-- Drive health as a DETECT falls due on the end `p`, and the next one of that end falls due at `next`. -/
def withDue (p next : Nat) (h : Health) : Health :=
  { h with due := if h.due.contains p then h.due else h.due ++ [p], nextDetect := kset h.nextDetect p next }

theorem withDue_contains (p next : Nat) (h : Health) : (withDue p next h).due.contains p = true := by
  unfold withDue
  dsimp only
  split
  next owed => exact owed
  next => simp

theorem detectDue_off {p : Nat} {s : State} (h : s.health.probeOn = false ∨ (probeEnds s).contains p = false) :
    detectDue p s = s := if_pos (by simpa using h)

theorem detectDue_falls {p at_ : Nat} {s : State} (hon : s.health.probeOn = true) (hend : (probeEnds s).contains p = true)
    (hat : kget? s.health.nextDetect p = some at_) (ht : at_ ≤ s.now) :
    detectDue p s = modHealth (withDue p (at_ + s.health.periodS * 1000000000)) s := by
  refine (if_neg (by rw [hon, hend]; decide)).trans ?_
  rw [hat]
  exact if_neg (Nat.not_lt.mpr ht)

/-! ## The probe of a chain end (R300, R301) -/

/-- R301's cases, and an end that has had its probe of the epoch (R300). -/
theorem probeAllowed_refused {c : ChainRec} {p : Nat} {s : State}
    (h : s.flt.safe = true ∨ (chainLk s c.chain).gen = 1 ∨ s.health.probed.contains p = true) : probeAllowed s c p = false := by
  unfold probeAllowed
  obtain safe | gen1 | probed := h
  · simp [safe]
  · simp [gen1]
  · simp only [probed, Bool.not_true, Bool.and_false, Bool.false_and]

section
variable {p : Nat} {c : ChainRec} {b : Bool} {s : State} (hend : endOfPort s p = some (c, b))
include hend

theorem probeQueue_waits (h : probeAllowed s c p = false) : probeQueue p s = s := by
  rw [probeQueue, hend]
  exact if_pos (by simp [h])

theorem probeQueue_detect (h : probeAllowed s c p = true) (hdue : s.health.due.contains p = true) :
    probeQueue p s = sendDetect c b p s := by
  rw [probeQueue, hend]
  exact (if_neg (by simp [h])).trans (if_pos hdue)

end

/-! ## A result that is not complete in time (R302) -/

/-- Drive health with no result awaited of a tile. -/
def withoutWait (tile : Nat) (h : Health) : Health := { h with waits := kerase h.waits tile }

section
variable {tile : Nat} {w : ProbeWait} {s : State} (hw : kget? s.health.waits tile = some w)
include hw

theorem resultTimeout_late (ht : w.deadline ≤ s.now) : resultTimeout tile s = modHealth (withoutWait tile) s := by
  rw [resultTimeout, hw]
  exact if_pos ht

theorem resultTimeout_early (ht : s.now < w.deadline) : resultTimeout tile s = s := by
  rw [resultTimeout, hw]
  exact if_neg (Nat.not_le.mpr ht)

end

/-! ## The defect map (R304) -/

theorem journal_health (tile px ch st : Nat) (s : State) : (journal tile px ch st s).health = s.health := by
  unfold journal
  split <;> rfl

theorem journal_hif (tile px ch st : Nat) (s : State) : (journal tile px ch st s).hif = s.hif := by
  unfold journal
  split <;> rfl

theorem journal_mode (tile px ch st : Nat) (s : State) : (journal tile px ch st s).mode = s.mode := by
  unfold journal
  split <;> rfl

theorem OnlyMemory.health {s z : State} (h : OnlyMemory s z) : z.health = s.health := congrArg (·.health) h
theorem OnlyMemory.hif {s z : State} (h : OnlyMemory s z) : z.hif = s.hif := congrArg (·.hif) h

theorem bitmapWrite_onlyMemory (tile px : Nat) (s : State) : OnlyMemory s (bitmapWrite tile px s) :=
  storeWrite_onlyMemory _ _ _

theorem defectSet_defects (tile px ch st : Nat) (s : State) :
    (defectSet tile px ch st s).health.defects = kset s.health.defects (chanKey tile px ch) st := by
  rw [defectSet, journal_health, (bitmapWrite_onlyMemory tile px _).health]

theorem defectSet_hif (tile px ch st : Nat) (s : State) : (defectSet tile px ch st s).hif = s.hif := by
  rw [defectSet, journal_hif, (bitmapWrite_onlyMemory tile px _).hif]

theorem defectSet_moved (tile px ch st : Nat) (s : State) : (defectSet tile px ch st s).mode.moved = true := by
  rw [defectSet, journal_mode, (bitmapWrite_onlyMemory tile px _).mode]

theorem defectEvent_health (tile px ch st cause : Nat) (s : State) : (defectEvent tile px ch st cause s).health = s.health := rfl

theorem defectEvent_mode (tile px ch st cause : Nat) (s : State) : (defectEvent tile px ch st cause s).mode = s.mode := rfl

theorem defectEvent_evq (tile px ch st cause : Nat) (s : State) :
    ∃ v, (defectEvent tile px ch st cause s).hif.evq = s.hif.evq ++ [v] ∧ v.code = 0x0D01 := ⟨_, rfl, rfl⟩

/-! ## A channel's run of results (R303) -/

/-- Drive health with a channel's run: the state last reported, and how many results in a row reported it. -/
def withRun (key : Nat) (run : Nat × Nat) (h : Health) : Health := { h with runs := kset h.runs key run }

/-- Drive health without a channel's run. -/
def withoutRun (key : Nat) (h : Health) : Health := { h with runs := kerase h.runs key }

/-- A tile's TRANSIENT counter advanced. -/
def withTransient (h : TileHealth) : TileHealth := { h with transient := h.transient + 1 }

section
variable {tile : Nat} {e : ReportEntry} {s : State}

/-- The first result of a state and the second lengthen the channel's run, and no more. -/
theorem chanReported_short {n : Nat} (hrun : kgetD s.health.runs (chanKey tile e.pixel e.channel) (0, 0) = (e.st, n)) (hn : n < 2) :
    chanReported tile e s = modHealth (withRun (chanKey tile e.pixel e.channel) (e.st, n + 1)) s := by
  have short : n + 1 < 3 := by omega
  simp only [chanReported, hrun, beq_self_eq_true, if_true]
  exact if_pos (by simp [short])

/-- The third enters a channel that the map lacks, with DEFECT_STATE, where the map has room. -/
theorem chanReported_third (hrun : kgetD s.health.runs (chanKey tile e.pixel e.channel) (0, 0) = (e.st, 2))
    (hnew : kget? s.health.defects (chanKey tile e.pixel e.channel) = none) (hroom : s.health.defects.length < mapRoom) :
    chanReported tile e s = defectEvent tile e.pixel e.channel e.st 0 (defectSet tile e.pixel e.channel e.st
      (modHealth (withRun (chanKey tile e.pixel e.channel) (e.st, 3)) s)) := by
  have room : ¬ mapRoom ≤ s.health.defects.length := Nat.not_le.mpr hroom
  simp only [chanReported, hrun, beq_self_eq_true, if_true]
  exact (if_neg (by simp [hnew])).trans ((if_neg (by simp [room])).trans (if_neg (by simp [hnew])))

end

/-- A channel reported clean before its third result, and without an entry, was transient. -/
theorem chanClean_transient {key : Nat} (tile : Nat) {s : State} (hrun : (kgetD s.health.runs key (0, 0)).2 < 3)
    (hno : khas s.health.defects key = false) :
    chanClean tile key s = modTileH tile withTransient (modHealth (withoutRun key) s) :=
  if_pos (by simp [hrun, hno])

end Sys2Proof.Machine
end

section
/-! PROOF. What the events of probes and their results answer, and a channel's results (R300 to R304). -/

namespace Sys2Proof.Safety

open Sys2Proof.Machine

theorem happens_onlyHealth {t : Nat} {s z : State} {f : State → State} (ha : awake s = true) (hp : PinDriven s)
    (e : f (advance t s) = z) (hz : OnlyHealth (advance t s) z) : happens t s f = .next z :=
  happens_pinKept ha hp e hz.pinKept

/-- Settles O42: a DETECT falling due, a chain end's probe, a result that times out, then a channel's runs by their length. -/
theorem probesAndDefects : Obligations.ProbesAndDefects := by
  refine ⟨⟨?detectOff, ?detectFalls, ?probe, ?refused, ?timeout⟩, ?short, ?third, ?clean⟩
  case detectOff => exact fun t p s ha hp h => happens_onlyHealth ha hp (detectDue_off (s := advance t s) h) rfl
  case detectFalls =>
    intro t p at_ s ha hp hon hend hat ht
    refine ⟨_, happens_onlyHealth ha hp (detectDue_falls (s := advance t s) hon hend hat ht) (modHealth_onlyHealth _ _),
      ?_, ?_, rfl⟩
    · exact withDue_contains _ _ _
    · exact kget?_kset_same _ _ _
  case probe =>
    intro t p c b s ha hend
    exact ⟨fun h => occurs_settled ha (probeQueue_waits (s := advance t s) hend h),
      fun h hdue => occurs_settled ha (probeQueue_detect (s := advance t s) hend h hdue)⟩
  case refused => exact fun c p s => probeAllowed_refused
  case timeout =>
    intro t tile w s ha hp hw
    exact ⟨fun ht => happens_onlyHealth ha hp (resultTimeout_late (s := advance t s) hw ht)
        (modHealth_onlyHealth (withoutWait tile) _),
      fun ht => happens_onlyHealth ha hp (resultTimeout_early (s := advance t s) hw ht) rfl⟩
  case short =>
    intro tile n e s key hrun hn
    rw [chanReported_short hrun hn]
    exact ⟨rfl, kgetD_kset_same _ _ _ _, rfl⟩
  case third =>
    intro tile e s key hrun hnew hroom
    rw [chanReported_third hrun hnew hroom]
    obtain ⟨v, hevq, hcode⟩ := defectEvent_evq tile e.pixel e.channel e.st 0 (defectSet tile e.pixel e.channel e.st
      (modHealth (withRun key (e.st, 3)) s))
    refine ⟨?_, ?_, v, ?_, hcode⟩
    · rw [defectEvent_health, defectSet_defects, kget?_kset_same]
    · rw [defectEvent_mode, defectSet_moved]
    · rw [hevq, defectSet_hif, modHealth_hif]
  case clean =>
    intro tile key s hrun hno
    rw [chanClean_transient tile hrun hno]
    exact ⟨congrArg TileHealth.transient (kgetD_kmod_same _ _ _ _), kget?_kerase_same _ _⟩

end Sys2Proof.Safety
end

section
/-! SUPPORT. The fixture engine (R316 to R329): what an output's and a DMX port's record read after a change, and the shared operations
on them, a case at a time. -/

namespace Sys2Proof.Machine

/-! ## Keyed tables -/

theorem kget?_kmod?_same {α : Type} (m : KMap α) (k : Nat) (f : α → α) : kget? (kmod? m k f) k = (kget? m k).map f := by
  induction m with
  | nil => rfl
  | cons e r ih =>
    obtain ⟨j, v⟩ := e
    by_cases hj : j = k
    · simp [kmod?, kget?, hj]
    · simp [kmod?, kget?, hj, ih]

theorem kget?_kmod?_other {α : Type} (m : KMap α) {k i : Nat} (f : α → α) (h : i ≠ k) :
    kget? (kmod? m k f) i = kget? m i := by
  induction m with
  | nil => rfl
  | cons e r ih =>
    obtain ⟨j, v⟩ := e
    by_cases hj : j = k
    · subst hj
      simp [kmod?, kget?, Ne.symm h]
    · simp [kmod?, kget?, hj, ih]

theorem kget?_kmap {α β : Type} (m : KMap α) (f : Nat → α → β) (k : Nat) : kget? (kmap m f) k = (kget? m k).map (f k) := by
  induction m with
  | nil => rfl
  | cons e r ih =>
    obtain ⟨j, v⟩ := e
    rw [kmap] at ih
    by_cases hj : j = k
    · subst hj
      simp [kmap, kget?]
    · simp [kmap, kget?, hj, ih]

/-! ## The frame of the fixture engine -/

/-- A change reaches the fixture engine and what is sent alone. -/
abbrev OnlyFix (s z : State) : Prop := { z with fix := s.fix, out := s.out } = s

theorem OnlyFix.trans {a b c : State} (h : OnlyFix a b) (h' : OnlyFix b c) : OnlyFix a c :=
  (congrArg (fun z => ({ z with fix := a.fix, out := a.out } : State)) h').trans h

theorem OnlyFix.pinKept {s z : State} (h : OnlyFix s z) : PinKept s z :=
  ⟨congrArg (·.pending) h, congrArg (·.faultLow) h, congrArg (·.flt) h, congrArg (·.power) h, congrArg (·.boot) h⟩

theorem OnlyFix.now {s z : State} (h : OnlyFix s z) : z.now = s.now := congrArg (·.now) h

theorem modOut_onlyFix (o : Nat) (f : Output → Output) (s : State) : OnlyFix s (modOut o f s) := rfl
theorem modDmx_onlyFix (p : Nat) (f : DmxPort → DmxPort) (s : State) : OnlyFix s (modDmx p f s) := rfl
theorem put_onlyFix (x : Out) (s : State) : OnlyFix s (put x s) := rfl

/-! ## The records of outputs and DMX ports -/

@[simp] theorem outOf_advance (t : Nat) (s : State) (o : Nat) : outOf (advance t s) o = outOf s o := rfl
@[simp] theorem outOf_modDmx (p : Nat) (f : DmxPort → DmxPort) (s : State) (o : Nat) : outOf (modDmx p f s) o = outOf s o := rfl
@[simp] theorem outOf_put (x : Out) (s : State) (o : Nat) : outOf (put x s) o = outOf s o := rfl

theorem outOf_modOut {o : Nat} {q : Output} (f : Output → Output) {s : State} (h : outOf s o = some q) :
    outOf (modOut o f s) o = some (f q) := (kget?_kmod?_same _ _ _).trans (congrArg (Option.map f) h)

@[simp] theorem dmxOf_advance (t : Nat) (s : State) (p : Nat) : dmxOf (advance t s) p = dmxOf s p := rfl
@[simp] theorem dmxOf_modOut (o : Nat) (f : Output → Output) (s : State) (p : Nat) : dmxOf (modOut o f s) p = dmxOf s p := rfl
@[simp] theorem dmxOf_put (x : Out) (s : State) (p : Nat) : dmxOf (put x s) p = dmxOf s p := rfl

@[simp] theorem dmxOf_modDmx_same (p : Nat) (f : DmxPort → DmxPort) (s : State) : dmxOf (modDmx p f s) p = f (dmxOf s p) :=
  kgetD_kmod_same s.fix.dmx p {} f

/-! ## DMX frames (R326, R327) -/

theorem dmxLatch_onlyFix (p : Nat) (s : State) : OnlyFix s (dmxLatch p s) := by
  unfold dmxLatch
  dsimp only
  split
  · split <;> rfl
  · rfl

@[simp] theorem outOf_dmxLatch (p : Nat) (s : State) (o : Nat) : outOf (dmxLatch p s) o = outOf s o := by
  unfold dmxLatch
  dsimp only
  split
  · split <;> rfl
  · rfl

/-- Of its port a frame whose values are taken changes nothing but that they have been. -/
theorem dmxOf_dmxLatch (p : Nat) (s : State) : ∃ b, dmxOf (dmxLatch p s) p = { dmxOf s p with open_ := b } := by
  unfold dmxLatch
  dsimp only
  split
  · split
    · exact ⟨false, by rw [dmxOf_put, dmxOf_modDmx_same]⟩
    · exact ⟨(dmxOf s p).open_, rfl⟩
  · exact ⟨(dmxOf s p).open_, rfl⟩

theorem dmxLatchAll_onlyFix (s : State) : OnlyFix s (dmxLatchAll s) :=
  forEach_keeps (P := OnlyFix s) (fun p z h => h.trans (dmxLatch_onlyFix p z)) _ s rfl

@[simp] theorem outOf_dmxLatchAll (s : State) (o : Nat) : outOf (dmxLatchAll s) o = outOf s o :=
  forEach_keeps (P := fun z => outOf z o = outOf s o) (fun p z h => (outOf_dmxLatch p z o).trans h) _ s rfl

/-- A DMX port's record with a frame of the definition `d` started at `now` (R326). -/
def withFrame (now : Nat) (d : OutDef) (q : DmxPort) : DmxPort :=
  { q with codeAt := now + 1000 * (d.breakUs + d.mabUs)
           endAt := now + 1000 * (d.breakUs + d.mabUs) + 44000 + d.slots * slotNs d, open_ := true, rdmDone := false }

/-- An output with a packet more counted. -/
def withPacket (q : Output) : Output := { q with packets := q.packets + 1 }

theorem dmxStart_eq {p : Nat} {q : Output} {s : State} (h : outOf s (4096 + p) = some q) :
    dmxStart p s = modOut (4096 + p) withPacket (modDmx p (withFrame s.now q.d) (dmxLatch p s)) := by
  rw [dmxStart, outOf_dmxLatch, h, (dmxLatch_onlyFix p s).now.symm]
  rfl

theorem dmxStart_onlyFix {p : Nat} {q : Output} {s : State} (h : outOf s (4096 + p) = some q) : OnlyFix s (dmxStart p s) := by
  rw [dmxStart_eq h]
  exact (dmxLatch_onlyFix p s).trans ((modDmx_onlyFix _ _ _).trans (modOut_onlyFix _ _ _))

theorem outOf_dmxStart {p : Nat} {q : Output} {s : State} (h : outOf s (4096 + p) = some q) :
    outOf (dmxStart p s) (4096 + p) = some (withPacket q) := by
  rw [dmxStart_eq h]
  exact outOf_modOut _ (by simpa using h)

theorem dmxOf_dmxStart {p : Nat} {q : Output} {s : State} (h : outOf s (4096 + p) = some q) :
    dmxOf (dmxStart p s) p = withFrame s.now q.d (dmxOf s p) := by
  obtain ⟨b, hb⟩ := dmxOf_dmxLatch p s
  rw [dmxStart_eq h, dmxOf_modOut, dmxOf_modDmx_same, hb]
  rfl

/-- With no drain of the port in progress and none of R327's grounds to wait, a frame starts 20 µs after the last ended. -/
theorem dmxFrameStart_cases {p : Nat} {q : Output} {s : State} (hq : outOf s (4096 + p) = some q) (hr : q.redef = none)
    (hlive : outsLive s = true) (hsends : outSends q = true) (ha : q.d.align = false) (hc : (dmxOf s p).cur = none) :
    dmxFrameStart p s = if s.now < (dmxOf s p).endAt + 20000 then s else dmxStart p s := by
  simp [dmxFrameStart, hq, hr, hlive, hsends, ha, hc]

theorem outSends_of_state {q : Output} (hst : q.st ≠ 0) (hterms : q.terms = 0) : outSends q = true := by
  simp [outSends, hst, hterms]

/-! ## The state of an output (R333) -/

/-- An output in another state. -/
def withState (st : Nat) (q : Output) : Output := { q with st }

theorem outOf_outState {o : Nat} {q : Output} {s : State} (st : Nat) (h : outOf s o = some q) :
    outOf (outState o st s) o = some (withState st q) := by
  rw [outState, h]
  dsimp only
  split
  next same =>
    obtain rfl : q.st = st := eq_of_beq same
    exact h
  next => exact outOf_modOut (withState st) h

theorem outState_pinKept (o st : Nat) (s : State) : PinKept s (outState o st s) := by
  unfold outState
  split
  · exact ⟨rfl, rfl, rfl, rfl, rfl⟩
  · split <;> exact ⟨rfl, rfl, rfl, rfl, rfl⟩

theorem outsFill_onlyFix (s : State) : OnlyFix s (outsFill s) := by
  have latched := dmxLatchAll_onlyFix s
  unfold outsFill
  generalize dmxLatchAll s = z at latched ⊢
  exact latched

/-- An output with other slots. -/
def withSlots (b : Bytes) (q : Output) : Output := { q with data := b }

/-- Of an output the slots taken afresh change its slots alone. -/
theorem outOf_outsFill {o : Nat} {q : Output} {s : State} (h : outOf s o = some q) :
    ∃ b, outOf (outsFill s) o = some (withSlots b q) := by
  have latched : outOf (dmxLatchAll s) o = some q := (outOf_dmxLatchAll s o).trans h
  unfold outsFill
  generalize dmxLatchAll s = z at latched ⊢
  exact ⟨outSlots z o q.d, (kget?_kmap z.fix.outs (fun o q => withSlots (outSlots z o q.d) q) o).trans (congrArg _ latched)⟩

/-! ## sACN packets (R323, R324) -/

@[simp] theorem length_beN (n v : Nat) : (beN n v).length = n := by simp [beN]

@[simp] theorem length_padTo (n : Nat) (b : Bytes) : (padTo n b).length = n := by simp [padTo]

theorem length_e131Root (s : State) (v : Nat) (body : Bytes) (h : (cidBytes s).length = 16) :
    (e131Root s v body).length = 38 + body.length := by
  simp [e131Root, h]
  omega

theorem length_e131Data (s : State) (d : OutDef) (seq : U8) (term : Bool) (b : Bytes) (h : (cidBytes s).length = 16) :
    (e131Data s d seq term b).length = 126 + b.length := by
  rw [e131Data, length_e131Root _ _ _ h]
  simp [sourceName]
  omega

/-- An output as a data packet of it is queued at `now`. -/
def withSent (now : Nat) (sent : Bool) (q : Output) : Output :=
  { q with seq := q.seq + 1, packets := q.packets + 1, lastAt := some now, lastData := q.data, sent }

/-- The frame that carries an output's data packet. -/
def dataFrame (s : State) (q : Output) (term : Bool) : TxFrame :=
  { kind := .sacnData q.d.univ q.d.dest, cast := if q.d.dest == 0 then .multi else .uni, body := e131Data s q.d q.seq term q.data
    len := udpLen (e131Data s q.d q.seq term q.data).length }

theorem sacnPacket_live {o : Nat} {q : Output} {s : State} (term : Bool) (h : outOf s o = some q) (hlive : outsLive s = true) :
    sacnPacket o term s = modOut o (withSent s.now !term) (queueTx q.d.port (dataFrame s q term) s) := by
  have now : (queueTx q.d.port (dataFrame s q term) s).now = s.now := by
    unfold queueTx
    split <;> rfl
  rw [sacnPacket, h, ← now]
  simp only [hlive, Bool.not_true, Bool.false_eq_true, if_false]
  rfl

theorem sacnPacket_idle {o : Nat} {s : State} (term : Bool) (hlive : outsLive s = false) : sacnPacket o term s = s := by
  unfold sacnPacket
  split
  · rfl
  · exact if_pos (by simp [hlive])

@[simp] theorem outOf_queueTx (p : Nat) (f : TxFrame) (s : State) (o : Nat) : outOf (queueTx p f s) o = outOf s o := by
  unfold queueTx
  split <;> rfl

theorem outOf_sacnPacket {o : Nat} {q : Output} {s : State} (term : Bool) (h : outOf s o = some q) (hlive : outsLive s = true) :
    outOf (sacnPacket o term s) o = some (withSent s.now (!term) q) := by
  rw [sacnPacket_live term h hlive]
  exact outOf_modOut _ (by simpa using h)

theorem sacnPacket_pinKept {o : Nat} {q : Output} {s : State} (term : Bool) (h : outOf s o = some q) :
    PinKept s (sacnPacket o term s) := by
  cases hlive : outsLive s with
  | false =>
    rw [sacnPacket_idle term hlive]
    exact ⟨rfl, rfl, rfl, rfl, rfl⟩
  | true =>
    rw [sacnPacket_live term h hlive]
    exact (queueTx_pinKept _ _ s).trans (modOut_onlyFix _ _ _).pinKept

/-- A standard port in service takes a frame that is given to it to send. -/
theorem queue_queueTx {p : Nat} (f : TxFrame) {s : State} (hp : p ≤ 63) (he : (portOf s p).enabled = true)
    (hr : (portOf s p).retired = false) (hrole : (portOf s p).role = 1) :
    (portOf (queueTx p f s) p).queue = (portOf s p).queue ++ [f] := by
  have standard : p ≠ 64 := by omega
  have may : maySend p f.kind s = true := by simp [maySend, standard, hr, hrole, he]
  rw [queueTx, if_pos may, portOf_modPort_same]

/-- With a mode in force an sACN output that sends owes a keepalive 800 ms after its last packet, and none sooner. -/
theorem sacnKeepalive_cases {o a : Nat} {q : Output} {s : State} (ho : o ≤ 4095) (h : outOf s o = some q)
    (hsends : outSends q = true) (hm : modeOn s = true) (ha : q.lastAt = some a) :
    sacnKeepalive o s = if a + 800000000 ≤ s.now then sacnPacket o false s else s := by
  have sacn : isDmx o = false := by simp [isDmx]; omega
  simp [sacnKeepalive, h, sacn, hsends, hm, ha]

/-! ## Stream_Terminated packets (R325) -/

theorem streamTerminated_waits {o : Nat} {q : Output} {s : State} (h : outOf s o = some q) (hw : q.terms = 0 ∨ s.now < q.termAt) :
    streamTerminated o s = s := by
  rw [streamTerminated, h]
  exact if_pos (by simpa using hw)

/-- An output as one of its Stream_Terminated packets leaves. -/
def withTerm (q : Output) : Output := { q with terms := q.terms - 1, termAt := q.termAt + 10000000 }

/-- A Stream_Terminated packet sent. -/
def termSent (o : Nat) (s : State) : State := modOut o withTerm (sacnPacket o true s)

/-- A packet sent changes neither an output's state nor what it still has to end. -/
theorem outOf_termSent {o : Nat} {q : Output} {s : State} (h : outOf s o = some q) :
    ∃ q', outOf (termSent o s) o = some q' ∧ q'.terms = q.terms - 1 ∧ q'.termAt = q.termAt + 10000000 ∧ q'.st = q.st
      ∧ q'.redef = q.redef := by
  cases hlive : outsLive s with
  | false => exact ⟨withTerm q, by rw [termSent, sacnPacket_idle true hlive, outOf_modOut _ h], rfl, rfl, rfl, rfl⟩
  | true => exact ⟨_, outOf_modOut _ (outOf_sacnPacket true h hlive), rfl, rfl, rfl, rfl⟩

theorem termSent_pinKept {o : Nat} {q : Output} {s : State} (h : outOf s o = some q) : PinKept s (termSent o s) :=
  (sacnPacket_pinKept true h).trans (modOut_onlyFix _ _ _).pinKept

theorem outRedefine_none {o : Nat} {q : Output} {s : State} (h : outOf s o = some q) (hr : q.redef = none) : outRedefine o s = s := by
  rw [outRedefine, h]
  dsimp only
  rw [hr]

section
variable {o : Nat} {q : Output} {s : State} (h : outOf s o = some q) (ht : q.termAt ≤ s.now)
include h ht

theorem streamTerminated_sends (hn : 2 ≤ q.terms) : streamTerminated o s = termSent o s := by
  have owed : q.terms ≠ 0 := by omega
  have more : q.terms ≠ 1 := by omega
  rw [streamTerminated, h]
  exact (if_neg (by simp [owed, Nat.not_lt.mpr ht])).trans (if_pos (by simp [more]))

/-- After the third packet an output whose definition does not change stops. -/
theorem streamTerminated_stops (hn : q.terms = 1) (hr : q.redef = none) : streamTerminated o s = outState o 0 (termSent o s) := by
  obtain ⟨q', hq', -, -, -, hr'⟩ := outOf_termSent h
  have kept : outRedefine o (outState o 0 (termSent o s)) = outState o 0 (termSent o s) :=
    outRedefine_none (outOf_outState 0 hq') (hr'.trans hr)
  rw [streamTerminated, h]
  refine (if_neg (by simp [hn, Nat.not_lt.mpr ht])).trans ((if_neg (by simp [hn])).trans ?_)
  dsimp only
  split
  · exact kept
  · rfl

end

end Sys2Proof.Machine
end

section
/-! SUPPORT. The FIX commands (R317, R322, R325, R328 to R330, R332): what each does to the state, a case at a time. -/

namespace Sys2Proof.Machine

/-! ## FIX_OUTPUT_DEFINE (R325, R332) -/

/-- An output of a definition, listed in its first state. -/
def outAdded (o : Nat) (d : OutDef) (s : State) : State :=
  { s with fix := { s.fix with outs := kset s.fix.outs o { d := d, st := 0 } } }

/-- The line of an output that is a DMX port, as at reset. -/
def lineFresh (o : Nat) (s : State) : State := if isDmx o then modDmx (o - 4096) (fun _ => {}) s else s

/-- An output of a definition, listed with its line as at reset. -/
def outListed (o : Nat) (d : OutDef) (s : State) : State := lineFresh o (outAdded o d s)

theorem outListed_onlyFix (o : Nat) (d : OutDef) (s : State) : OnlyFix s (outListed o d s) := by
  unfold outListed lineFresh
  split <;> rfl

theorem outOf_outListed (o : Nat) (d : OutDef) (s : State) : outOf (outListed o d s) o = some { d := d, st := 0 } := by
  have added : outOf (outAdded o d s) o = some { d := d, st := 0 } := kget?_kset_same _ _ _
  unfold outListed lineFresh
  split <;> exact added

/-- An output of a definition, listed and started (R325). -/
def outStarted (o : Nat) (d : OutDef) (s : State) : State :=
  outsFill (outState o (startState (outListed o d s) o d) (outListed o d s))

theorem outStarted_pinKept (o : Nat) (d : OutDef) (s : State) : PinKept s (outStarted o d s) :=
  (outListed_onlyFix o d s).pinKept.trans ((outState_pinKept _ _ _).trans (outsFill_onlyFix _).pinKept)

theorem outOf_outStarted (o : Nat) (d : OutDef) (s : State) :
    ∃ q, outOf (outStarted o d s) o = some q ∧ q.d = d ∧ q.st = startState (outListed o d s) o d := by
  obtain ⟨b, hb⟩ := outOf_outsFill (outOf_outState (startState (outListed o d s) o d) (outOf_outListed o d s))
  exact ⟨_, hb, rfl, rfl⟩

theorem startState_of_no_service {s : State} (o : Nat) (d : OutDef) (h : s.fab.svcLevel = 0) : startState s o d = 0 := by
  simp [startState, h]

/-- Pixel service starts every output, and skeleton service every DMX port (R331). -/
theorem startState_of_service {s : State} {o : Nat} (d : OutDef) (h : 2 ≤ s.fab.svcLevel ∨ (s.fab.svcLevel = 1 ∧ 4096 ≤ o)) :
    startState s o d = if s.flt.safe = true then 2 else if s.fab.svcLevel = 1 then 3 else 1 := by
  obtain pixel | ⟨skeleton, dmx⟩ := h
  · have served : s.fab.svcLevel ≠ 0 := by omega
    have full : s.fab.svcLevel ≠ 1 := by omega
    simp [startState, served, full]
  · simp [startState, skeleton, isDmx, dmx]

theorem drainStart_draining (function inst : Nat) (s : State) : draining (drainStart function inst s) function inst = true := by
  simp [draining, drainStart]

/-- A DMX port with requests queued is not idle: its drain goes on. -/
theorem outDrainStart_busy {o : Nat} {s : State} (ho : 4096 ≤ o) (hq : (dmxOf s (o - 4096)).queue ≠ []) :
    outDrainStart o s = drainStart 2 (o - 4096) s := by
  have dmx : isDmx o = true := by simpa [isDmx] using ho
  have busy : outIdle (drainStart 2 (o - 4096) s) o = false := by
    have queued : (dmxOf (drainStart 2 (o - 4096) s) (o - 4096)).queue ≠ [] := hq
    simp [outIdle, dmx, queued]
  simp [outDrainStart, dmx, busy]

/-- An output that a command stops once it has drained. -/
def withStop (r : CmdRef) (q : Output) : Output := { q with redef := some none, ref := some r }

section
variable {c : Cmd} {s : State}

theorem outputDefine_range (h : 4103 < field c.payload 0 2) : outputDefine c s = done c stRANGE s := if_pos h

section
variable (ho : field c.payload 0 2 ≤ 4103)
include ho

section
variable (hoff : bit (field c.payload 3 1) 1 = true)
include hoff

theorem outputDefine_off_undefined (hq : outOf s (field c.payload 0 2) = none) : outputDefine c s = done c stOK s := by
  refine (if_neg (Nat.not_lt.mpr ho)).trans ((if_pos hoff).trans ?_)
  rw [hq]

theorem outputDefine_off_defined {q : Output} (hq : outOf s (field c.payload 0 2) = some q) : outputDefine c s =
    if q.redef.isSome then done c stSTATE s
    else outDrainStart (field c.payload 0 2) (park c (modOut (field c.payload 0 2) (withStop c.ref) s)) := by
  refine (if_neg (Nat.not_lt.mpr ho)).trans ((if_pos hoff).trans ?_)
  rw [hq]
  rfl

end

section
variable (hon : bit (field c.payload 3 1) 1 = false)
include hon

theorem outputDefine_bad (hbad : outDefBad s c.payload = true) : outputDefine c s = done c stRANGE s :=
  (if_neg (Nat.not_lt.mpr ho)).trans ((if_neg (by simp [hon])).trans (if_pos hbad))

variable (hgood : outDefBad s c.payload = false)
include hgood

theorem outputDefine_wrong_port (hsacn : field c.payload 0 2 ≤ 4095) (hrole : (portOf s (field c.payload 2 1)).role ≠ 1) :
    outputDefine c s = done c stSTATE s := by
  have sacn : isDmx (field c.payload 0 2) = false := by simp [isDmx]; omega
  exact (if_neg (Nat.not_lt.mpr ho)).trans ((if_neg (by simp [hon])).trans ((if_neg (by simp [hgood])).trans
    (if_pos (by simp [sacn, hrole]))))

theorem outputDefine_starts (hport : 4096 ≤ field c.payload 0 2 ∨ (portOf s (field c.payload 2 1)).role = 1)
    (hq : outOf s (field c.payload 0 2) = none) :
    outputDefine c s = done c stOK (outStarted (field c.payload 0 2) (outDefOf c.payload) s) := by
  have port : ¬ (!isDmx (field c.payload 0 2) && (portOf s (field c.payload 2 1)).role != 1) = true := by
    obtain dmx | standard := hport
    · simp [isDmx, dmx]
    · simp [standard]
  refine (if_neg (Nat.not_lt.mpr ho)).trans ((if_neg (by simp [hon])).trans ((if_neg (by simp [hgood])).trans
    ((if_neg port).trans ?_)))
  rw [hq]
  rfl

end

end

/-! ## FIX_RDM, FIX_RDM_DISCOVER (R328, R329, R332) -/

/-- The port, the command class and the parameter's length of a FIX_RDM are in range. -/
abbrev RdmSound (p : Bytes) : Prop := field p 0 1 ≤ 7 ∧ (field p 1 1 = 0x20 ∨ field p 1 1 = 0x30) ∧ field p 12 1 ≤ 231

theorem rdmRefused_iff {p : Bytes} : (decide (7 < field p 0 1) || (field p 1 1 != 0x20 && field p 1 1 != 0x30)
    || decide (231 < field p 12 1)) = true ↔ ¬ RdmSound p := by
  simp only [Bool.or_eq_true, Bool.and_eq_true, decide_eq_true_eq, bne_iff_ne]
  omega

/-- The transactions of the host that a port holds, queued or in progress. -/
def rdmHeld (q : DmxPort) : Nat := q.queue.length + (match q.cur with | some (.host ..) => 1 | _ => 0)

/-- The transaction that a FIX_RDM asks for. -/
def rdmAsked (c : Cmd) : RdmJob :=
  .host c.ref (BitVec.ofNat 48 (field c.payload 4 6)) (field c.payload 1 1) (field c.payload 2 2) (field c.payload 10 2)
    (bytesAt c.payload 16 (field c.payload 12 1))

/-- A port's record with a transaction more queued. -/
def withQueued (j : RdmJob) (q : DmxPort) : DmxPort := { q with queue := q.queue ++ [j] }

theorem fixRdm_range (h : ¬ RdmSound c.payload) : fixRdm c s = done c stRANGE s := if_pos (rdmRefused_iff.mpr h)

section
variable (h : RdmSound c.payload)
include h

theorem fixRdm_off (hoff : rdmOn s (field c.payload 0 1) = false) : fixRdm c s = done c stSTATE s :=
  (if_neg fun hr => rdmRefused_iff.mp hr h).trans (if_pos (by simp [hoff]))

variable (hon : rdmOn s (field c.payload 0 1) = true)
include hon

theorem fixRdm_full (hfull : 16 ≤ rdmHeld (dmxOf s (field c.payload 0 1))) : fixRdm c s = done c stBUSY s :=
  (if_neg fun hr => rdmRefused_iff.mp hr h).trans ((if_neg (by simp [hon])).trans (if_pos hfull))

theorem fixRdm_queues (hroom : rdmHeld (dmxOf s (field c.payload 0 1)) < 16) :
    fixRdm c s = modDmx (field c.payload 0 1) (withQueued (rdmAsked c)) (park c s) :=
  (if_neg fun hr => rdmRefused_iff.mp hr h).trans ((if_neg (by simp [hon])).trans (if_neg (Nat.not_le.mpr hroom)))

end

/-- A port's record with a full discovery started: every responder un-muted, those known muted, and the whole range searched. -/
def withSearch (known : List (BitVec 48)) (q : DmxPort) : DmxPort :=
  { q with disc := some { todo := .unmute :: (known.map .muteKnown ++ [.branch 0 (2 ^ 48 - 2)]) } }

theorem fixDiscover_range (h : 7 < field c.payload 0 1 ∨ 1 < field c.payload 1 1) : fixDiscover c s = done c stRANGE s :=
  if_pos (by simpa using h)

theorem fixDiscover_refused (hp : field c.payload 0 1 ≤ 7) (hf : field c.payload 1 1 ≤ 1)
    (h : rdmOn s (field c.payload 0 1) = false ∨ (dmxOf s (field c.payload 0 1)).disc.isSome = true) :
    fixDiscover c s = done c stSTATE s :=
  (if_neg (by simp [Nat.not_lt.mpr hp, Nat.not_lt.mpr hf])).trans (if_pos (by simpa using h))

theorem fixDiscover_full (hp : field c.payload 0 1 ≤ 7) (hf : field c.payload 1 1 = 1) (hon : rdmOn s (field c.payload 0 1) = true)
    (hd : (dmxOf s (field c.payload 0 1)).disc = none) : fixDiscover c s = done c stACCEPTED
      (modDmx (field c.payload 0 1) (withSearch (dmxOf s (field c.payload 0 1)).uids) s) := by
  refine (if_neg (by simp [Nat.not_lt.mpr hp, hf])).trans ((if_neg (by simp [hon, hd])).trans ?_)
  rw [hf]
  rfl

/-! ## FIX_RDM_UIDS, FIX_COUNTERS (R329, R332) -/

/-- The payload of FIX_RDM_UIDS: up to 256 of the UIDs found, from the place `start` on. -/
def uidBytes (start : Nat) (l : List (BitVec 48)) : Bytes :=
  leN 2 ((l.drop start).take 256).length ++ leN 2 l.length ++ ((l.drop start).take 256).flatMap fun u => leN 6 u.toNat

theorem length_fixCounterBytes (q : Output) : (fixCounterBytes q).length = 32 := by simp [fixCounterBytes]

theorem fixCounterBytes_fields (q : Output) : field (fixCounterBytes q) 0 8 = q.packets.toNat
    ∧ field (fixCounterBytes q) 8 4 = q.skipped.toNat ∧ field (fixCounterBytes q) 20 4 = q.rdmTimeout.toNat := by
  have hpackets : q.packets.toNat < 18446744073709551616 := q.packets.isLt
  have hskipped : q.skipped.toNat < 4294967296 := q.skipped.isLt
  have htimeout : q.rdmTimeout.toNat < 4294967296 := q.rdmTimeout.isLt
  simp [fixCounterBytes, field_append_left, field_append_right, field_leN, Nat.mod_eq_of_lt hpackets, Nat.mod_eq_of_lt hskipped,
    Nat.mod_eq_of_lt htimeout]

/-! ## FIX_FIXTURE_DEFINE, FIX_SET (R317, R322, R332) -/

/-- The fixture engine with definitions more that wait for the next epoch. -/
def withPendFix (l : List (Nat × Option FixDef)) (k : Fix) : Fix := { k with pendFix := k.pendFix ++ l }

theorem fixtureDefine_range (h : field c.payload 0 2 = 0 ∨ 127 < field c.payload 0 2) : fixtureDefine c s = done c stRANGE s :=
  if_pos (by simpa using h)

section
variable (h1 : 1 ≤ field c.payload 0 2) (hn : field c.payload 0 2 ≤ 127)
include h1 hn

theorem fixtureDefine_refused {st k : Nat} (h : fixRecords s c.payload (field c.payload 0 2) = .error (st, k)) :
    fixtureDefine c s = complete c st k [] s := by
  refine (if_neg (by simp [Nat.not_lt.mpr hn]; omega)).trans ?_
  rw [h]

theorem fixtureDefine_waits {l : List (Nat × Option FixDef)} (hm : modeOn s = true)
    (h : fixRecords s c.payload (field c.payload 0 2) = .ok l) :
    fixtureDefine c s = done c stOK { s with fix := withPendFix l s.fix } := by
  refine (if_neg (by simp [Nat.not_lt.mpr hn]; omega)).trans ?_
  rw [h]
  exact congrArg (done c stOK) (if_pos hm)

end

/-- The entries of a FIX_SET: fixture, channel and value. -/
def setEntries (p : Bytes) : List (Nat × Nat × Nat) :=
  (List.range (field p 0 2)).map fun i => (field p (8 + 8 * i) 4, field p (12 + 8 * i) 1, field p (14 + 8 * i) 2)

/-- The statuses of the entries of a FIX_SET. -/
def setStatuses (s : State) (p : Bytes) : List Nat := (setEntries p).map fun e => fixEntry s e.1 e.2.1 e.2.2

theorem setStatuses_sound {p : Bytes} (h : ∀ e ∈ setEntries p, fixEntry s e.1 e.2.1 e.2.2 = 0) :
    (setStatuses s p).find? (· != stOK) = none := by
  rw [List.find?_eq_none]
  intro st hst
  obtain ⟨e, he, rfl⟩ := List.mem_map.mp hst
  simp [h e he, stOK]

theorem fixSet_range (h : field c.payload 0 2 = 0 ∨ 511 < field c.payload 0 2) : fixSet c s = done c stRANGE s :=
  if_pos (by simpa using h)

section
variable (h1 : 1 ≤ field c.payload 0 2) (hn : field c.payload 0 2 ≤ 511)
include h1 hn

theorem fixSet_refused {st : Nat} (h : (setStatuses s c.payload).find? (· != stOK) = some st) : fixSet c s = done c st s := by
  refine (if_neg (by simp [Nat.not_lt.mpr hn]; omega)).trans ?_
  rw [← setEntries, ← setStatuses, h]

/-- With a mode in force values that can all be set wait in the update bobbin where it has room. -/
theorem fixSet_queues (hs : (setStatuses s c.payload).find? (· != stOK) = none) (hm : modeOn s = true) : fixSet c s =
    if 512 < s.fix.setq.length + field c.payload 0 2 then done c stBUSY s
    else done c stOK { s with fix := { s.fix with setq := s.fix.setq ++ setEntries c.payload } } := by
  refine (if_neg (by simp [Nat.not_lt.mpr hn]; omega)).trans ?_
  rw [← setEntries, ← setStatuses, hs]
  exact if_pos hm

end

/-! ## FIX_SAFE_SET (R330) -/

/-- The values of an entry of a FIX_SAFE_SET. -/
def safeEntryVals (p : Bytes) (o : Nat) : List Nat := (List.range 32).map fun i => field p (o + 8 + 2 * i) 2

/-- A fixture with another safe setting. -/
def withSafe (mode : Nat) (vals : List Nat) (f : Fixture) : Fixture := { f with safeMode := mode, safeVals := vals }

theorem safeEntry_missing {p : Bytes} {o : Nat} (hid : field p o 4 ≤ 131071) (hmode : field p (o + 4) 1 ≤ 2)
    (hf : kget? s.fix.fixtures (field p o 4) = none) :
    safeEntry s p o = (stNOTFOUND, field p o 4, field p (o + 4) 1, safeEntryVals p o) := by
  refine (if_neg (by simp [Nat.not_lt.mpr hid, Nat.not_lt.mpr hmode])).trans ?_
  rw [hf]
  rfl

theorem safeEntry_sound {p : Bytes} {o : Nat} {f : Fixture} (hid : field p o 4 ≤ 131071) (hmode : field p (o + 4) 1 ≤ 1)
    (hf : kget? s.fix.fixtures (field p o 4) = some f) :
    safeEntry s p o = (stOK, field p o 4, field p (o + 4) 1, safeEntryVals p o) := by
  have given : field p (o + 4) 1 ≤ 2 := by omega
  have hold : field p (o + 4) 1 ≠ 2 := by omega
  refine (if_neg (by simp [Nat.not_lt.mpr hid, Nat.not_lt.mpr given])).trans ?_
  rw [hf]
  exact if_neg (by simp [hold])

theorem fixSafeSet_range (h : field c.payload 0 2 = 0 ∨ 56 < field c.payload 0 2) : fixSafeSet c s = done c stRANGE s :=
  if_pos (by simpa using h)

section
variable (h1 : field c.payload 0 2 = 1)
include h1

theorem fixSafeSet_one_refused {st : Nat} {e : Nat × Nat × List Nat} (he : safeEntry s c.payload 8 = (st, e)) (hst : st ≠ stOK) :
    fixSafeSet c s = done c st s := by
  simp [fixSafeSet, h1, he, hst]

theorem fixSafeSet_one_sound {id mode : Nat} {vals : List Nat} (he : safeEntry s c.payload 8 = (stOK, id, mode, vals)) :
    fixSafeSet c s =
      done c stOK { s with fix := { s.fix with fixtures := kmod? s.fix.fixtures id (withSafe mode vals) } } := by
  simp [fixSafeSet, h1, he]
  rfl

end

end

end Sys2Proof.Machine
end

section
/-! SUPPORT. RDM transactions (R328, R329): a request sent, a response, and a request that stays without one, a case at a time. -/

namespace Sys2Proof.Machine

/-! ## A request sent -/

theorem rdmNext_empty {q : DmxPort} (hq : q.queue = []) (hd : q.disc = none) : rdmNext q = none := by
  simp [rdmNext, hq, hd]

theorem rdmNext_queued {q : DmxPort} {j : RdmJob} {l : List RdmJob} (hq : q.queue = j :: l) :
    rdmNext q = some (j, { q with queue := l }) := by
  simp [rdmNext, hq]

/-- A port with a transaction in progress, or with none to send, sends no request. -/
theorem rdmSend_idle {p : Nat} {s : State}
    (h : (dmxOf s p).cur.isSome = true ∨ ((dmxOf s p).queue = [] ∧ (dmxOf s p).disc = none)) : rdmSend p s = s := by
  unfold rdmSend
  split
  · rfl
  · obtain busy | ⟨hq, hd⟩ := h
    · dsimp only
      split
      · rfl
      · exact if_pos (by simp [busy])
    · simp only [rdmNext_empty hq hd]

/-- A port's record with the transaction `j` in progress, its request of `len` bytes sent at `now`. -/
def withRequest (now len : Nat) (j : RdmJob) (l : List RdmJob) (q : DmxPort) : DmxPort :=
  { q with queue := l, cur := some j, tries := q.tries + 1, tn := q.tn + 1, reqEnd := now + 188000 + 44000 * len, rdmDone := true }

/-- A port's record with the frame of another. -/
def onLineOf (q line : DmxPort) : DmxPort := { q with open_ := line.open_, codeAt := line.codeAt, endAt := line.endAt }

/-- An output with a request more counted. -/
def withRdmTx (q : Output) : Output := { q with rdmTx := q.rdmTx + 1 }

/-- A request of a transaction sent by a port. -/
def requestSent (p : Nat) (j : RdmJob) (l : List RdmJob) (s : State) : State :=
  put (.rdm p (rdmRequest (dmxOf s p).tn j)) (modOut (4096 + p) withRdmTx
    (modDmx p (onLineOf (withRequest s.now (rdmRequest (dmxOf s p).tn j).length j l (dmxOf s p))) (dmxLatch p s)))

theorem requestSent_onlyFix (p : Nat) (j : RdmJob) (l : List RdmJob) (s : State) : OnlyFix s (requestSent p j l s) :=
  (dmxLatch_onlyFix p s).trans ((modDmx_onlyFix _ _ _).trans ((modOut_onlyFix _ _ _).trans (put_onlyFix _ _)))

theorem outOf_requestSent {p : Nat} {q : Output} {s : State} (j : RdmJob) (l : List RdmJob) (h : outOf s (4096 + p) = some q) :
    outOf (requestSent p j l s) (4096 + p) = some (withRdmTx q) :=
  (outOf_put _ _ _).trans (outOf_modOut _ (by simpa using h))

theorem dmxOf_requestSent (p : Nat) (j : RdmJob) (l : List RdmJob) (s : State) : dmxOf (requestSent p j l s) p =
    onLineOf (withRequest s.now (rdmRequest (dmxOf s p).tn j).length j l (dmxOf s p)) (dmxOf (dmxLatch p s) p) := by
  rw [requestSent, dmxOf_put, dmxOf_modOut, dmxOf_modDmx_same]

/-- Between frames a port without ALIGN sends the request that has waited longest, and waits for its response. -/
theorem rdmSend_queued {p : Nat} {q : Output} {j : RdmJob} {l : List RdmJob} {s : State} (h : outOf s (4096 + p) = some q)
    (hrdm : q.d.rdm = true) (ha : q.d.align = false) (hlive : outsLive s = true) (hq : (dmxOf s p).queue = j :: l)
    (hc : (dmxOf s p).cur = none) (hd : (dmxOf s p).rdmDone = false) (ht : (dmxOf s p).endAt ≤ s.now)
    (hj : rdmSilent j = false) : rdmSend p s = requestSent p j l s := by
  rw [rdmSend, h]
  dsimp only
  rw [rdmNext_queued hq]
  refine (if_neg (by simp [hrdm, ha, hlive, hc, hd, Nat.not_lt.mpr ht])).trans ?_
  refine (if_neg (by simp [hj])).trans ?_
  rw [(dmxLatch_onlyFix p s).now]
  rfl

theorem length_rdmPacket (uid : Nat) (tn : U8) (sub cc pid : Nat) (data : Bytes) :
    (rdmPacket uid tn sub cc pid data).length = 26 + data.length := by
  simp [rdmPacket]
  omega

/-! ## A response -/

/-- A port's record with its transaction over. -/
def rdmOver (q : DmxPort) : DmxPort := { q with cur := none, tries := 0 }

theorem finish_inFlight {r : CmdRef} {c : Cmd} {s : State} (st d : Nat) (b : Bytes) (h : findCmd r s = some c) :
    finish r st d b s = complete c st d b s := by
  rw [finish, h]

theorem rdmResponse_none {p : Nat} (a : RdmAnswer) {s : State} (h : (dmxOf s p).cur = none) : rdmResponse p a s = s := by
  simp only [rdmResponse, h]

theorem rdmTimeout_none {p : Nat} {s : State} (h : (dmxOf s p).cur = none) : rdmTimeout p s = s := by
  simp only [rdmTimeout, h]

section
variable {p cc pid sub : Nat} {r : CmdRef} {uid : BitVec 48} {d : Bytes} {s : State}
variable (hc : (dmxOf s p).cur = some (.host r uid cc pid sub d))
include hc

theorem rdmResponse_good {ty : Nat} {data : Bytes} {c : Cmd} (hr : findCmd r s = some c)
    (ht : s.now ≤ (dmxOf s p).reqEnd + 2800000) (hl : data.length ≤ 231) : rdmResponse p (.good ty data) s =
      complete c stOK 0 (leN 1 ty ++ leN 1 data.length ++ zeros 2 ++ data) (modDmx p rdmOver s) := by
  have whole : data.take 231 = data := List.take_of_length_le hl
  have waits : findCmd r (modDmx p rdmOver s) = some c := hr
  simp only [rdmResponse, hc, if_neg (Nat.not_lt.mpr ht), whole]
  exact finish_inFlight _ _ _ waits

/-! ## No response -/

/-- An output with a request more without a response counted. -/
def withRdmTimeout (q : Output) : Output := { q with rdmTimeout := q.rdmTimeout + 1 }

/-- A port's record with a transaction of the host to send again. -/
def withRetry (j : RdmJob) (q : DmxPort) : DmxPort := { q with cur := none, queue := j :: q.queue }

theorem rdmTimeout_waits (ht : s.now < (dmxOf s p).reqEnd + 2800000) : rdmTimeout p s = s := by
  simp only [rdmTimeout, hc, if_pos ht]

section
variable (ht : (dmxOf s p).reqEnd + 2800000 ≤ s.now)
include ht

theorem rdmTimeout_retries (hn : (dmxOf s p).tries < 3) : rdmTimeout p s =
    modDmx p (withRetry (.host r uid cc pid sub d)) (modOut (4096 + p) withRdmTimeout s) := by
  simp only [rdmTimeout, hc, if_neg (Nat.not_lt.mpr ht)]
  exact if_pos hn

theorem rdmTimeout_fails (hn : 3 ≤ (dmxOf s p).tries) : rdmTimeout p s =
    discEnd p (finish r stTIMEOUT 0 [] (modDmx p rdmOver (modOut (4096 + p) withRdmTimeout s))) := by
  simp only [rdmTimeout, hc, if_neg (Nat.not_lt.mpr ht)]
  exact if_neg (Nat.not_lt.mpr hn)

end

end

/-! ## The end of a discovery (R329) -/

theorem discEnd_pinKept (p : Nat) (s : State) : PinKept s (discEnd p s) := by
  unfold discEnd
  dsimp only
  split
  · split <;> exact ⟨rfl, rfl, rfl, rfl, rfl⟩
  · exact ⟨rfl, rfl, rfl, rfl, rfl⟩

theorem findCmd_discEnd (r : CmdRef) (p : Nat) (s : State) : findCmd r (discEnd p s) = findCmd r s := by
  unfold discEnd
  dsimp only
  split
  · split <;> rfl
  · rfl

theorem discEnd_cur (p : Nat) (s : State) : (dmxOf (discEnd p s) p).cur = (dmxOf s p).cur := by
  have ended : (dmxOf (modDmx p (fun q => { q with disc := none }) s) p).cur = (dmxOf s p).cur := by rw [dmxOf_modDmx_same]
  unfold discEnd
  dsimp only
  split
  · split
    · exact ended
    · rfl
  · rfl

/-- A discovery with steps left goes on. -/
theorem discEnd_continues {p : Nat} {e : Disc} {s : State} (hd : (dmxOf s p).disc = some e) (he : e.todo ≠ []) :
    discEnd p s = s := by
  rw [discEnd]
  simp only [hd]
  exact if_neg (by simp [he])

theorem finish_pinKept (r : CmdRef) (st d : Nat) (b : Bytes) (s : State) : PinKept s (finish r st d b s) :=
  ⟨finish_pending _ _ _ _ _, finish_faultLow _ _ _ _ _, finish_flt _ _ _ _ _, finish_power _ _ _ _ _, finish_boot _ _ _ _ _⟩

/-- A branch that nothing answers holds no responder: the discovery goes on with the steps left. -/
theorem rdmTimeout_branch {p lo hi : Nat} {e : Disc} {s : State} (hc : (dmxOf s p).cur = some (.branch lo hi))
    (ht : (dmxOf s p).reqEnd + 2800000 ≤ s.now) (hd : (dmxOf s p).disc = some e) (he : e.todo ≠ []) :
    rdmTimeout p s = modDmx p rdmOver s := by
  have left : (dmxOf (modDmx p rdmOver s) p).disc = some e := by rw [dmxOf_modDmx_same]; exact hd
  simp only [rdmTimeout, hc, if_neg (Nat.not_lt.mpr ht)]
  exact discEnd_continues left he

end Sys2Proof.Machine
end

section
/-! PROOF. What the FIX commands answer (R317, R322, R325, R328 to R330, R332), and the statement assembled from it. -/

namespace Sys2Proof.Safety

open Sys2Proof.Machine

/-- A verb whose effect leaves alone what FAULT_N and the queue rest on answers its effect. -/
theorem ready_pinKept {op t : Nat} {r : CmdRef} {s z : State} {f : Cmd → State → State} {c : Cmd} (h : Ready op r c s)
    (e : f c (advance t s) = z) (hz : PinKept s z) : verb op t r s f = .next z := by
  obtain ⟨hpending, hlow, hflt, hpower, hboot⟩ := hz
  exact ready_plain h e hpending hlow hflt hpower hboot

/-- A command that ends after a change which leaves that alone. -/
theorem ready_donePinKept {op t : Nat} {r : CmdRef} {s z : State} {f : Cmd → State → State} {c : Cmd} {st : Nat}
    (h : Ready op r c s) (e : f c (advance t s) = done c st z) (hz : PinKept s z) :
    verb op t r s f = .next (complete c st 0 [] z) :=
  ready_pinKept h e (hz.trans ⟨done_pending _ _ _, done_faultLow _ _ _, done_flt _ _ _, done_power _ _ _, done_boot _ _ _⟩)

section
variable {t : Nat} {r : CmdRef} {c : Cmd} {s : State}

/-! ## FIX_OUTPUT_DEFINE -/

theorem fixOutputDefine_starts (h : Ready 0x0E01 r c s) (ho : field c.payload 0 2 ≤ 4103) (hon : bit (field c.payload 3 1) 1 = false)
    (hgood : outDefBad s c.payload = false) (hport : 4096 ≤ field c.payload 0 2 ∨ (portOf s (field c.payload 2 1)).role = 1)
    (hq : outOf s (field c.payload 0 2) = none) :
    ∃ s' q, exec (.fixOutputDefine t r) s = .next (complete c 0x00 0 [] s') ∧ outOf s' (field c.payload 0 2) = some q
      ∧ q.d = outDefOf c.payload ∧ (s.fab.svcLevel = 0 → q.st = 0)
      ∧ (2 ≤ s.fab.svcLevel ∨ (s.fab.svcLevel = 1 ∧ 4096 ≤ field c.payload 0 2) →
        q.st = if s.flt.safe = true then 2 else if s.fab.svcLevel = 1 then 3 else 1) := by
  obtain ⟨q, hout, hd, hst⟩ := outOf_outStarted (field c.payload 0 2) (outDefOf c.payload) (advance t s)
  have frame := outListed_onlyFix (field c.payload 0 2) (outDefOf c.payload) (advance t s)
  have fab := congrArg (·.fab) frame
  have flt := congrArg (·.flt) frame
  generalize outListed (field c.payload 0 2) (outDefOf c.payload) (advance t s) = z at hst fab flt
  have level : z.fab.svcLevel = s.fab.svcLevel := congrArg Fab.svcLevel fab
  have safe : z.flt.safe = s.flt.safe := congrArg FaultSt.safe flt
  refine ⟨_, q, ready_donePinKept h (outputDefine_starts ho hon hgood hport hq) (outStarted_pinKept _ _ (advance t s)), hout, hd,
    fun h0 => ?_, fun hserved => ?_⟩
  · rw [hst, startState_of_no_service _ _ (level.trans h0)]
  · rw [hst, startState_of_service _ (by rwa [level]), level, safe]

theorem fixOutputDefine_drains (h : Ready 0x0E01 r c s) (hlo : 4096 ≤ field c.payload 0 2) (hhi : field c.payload 0 2 ≤ 4103)
    (hoff : bit (field c.payload 3 1) 1 = true) {q : Output} (hq : outOf s (field c.payload 0 2) = some q) (hr : q.redef = none)
    (hbusy : (dmxOf s (field c.payload 0 2 - 4096)).queue ≠ []) :
    ∃ s' q', exec (.fixOutputDefine t r) s = .next s' ∧ outOf s' (field c.payload 0 2) = some q'
      ∧ q'.redef = some none ∧ q'.ref = some c.ref ∧ draining s' 2 (field c.payload 0 2 - 4096) = true := by
  have effect : outputDefine c (advance t s) = drainStart 2 (field c.payload 0 2 - 4096)
      (park c (modOut (field c.payload 0 2) (withStop c.ref) (advance t s))) :=
    (outputDefine_off_defined (s := advance t s) hhi hoff hq).trans ((if_neg (by simp [hr])).trans (outDrainStart_busy hlo hbusy))
  exact ⟨_, withStop c.ref q, ready_pinKept h effect ⟨rfl, rfl, rfl, rfl, rfl⟩, outOf_modOut _ hq, rfl, rfl,
    drainStart_draining _ _ _⟩

/-! ## FIX_RDM_UIDS, FIX_COUNTERS -/

theorem fixRdmUids_range (h : Ready 0x0E08 r c s) (hp : 7 < field c.payload 0 1) :
    exec (.fixRdmUids t r) s = .next (complete c 0x21 0 [] (advance t s)) := by
  dsimp only [exec, execFixRdmUids]
  exact ready_complete h (if_pos hp)

theorem fixRdmUids_answers (h : Ready 0x0E08 r c s) (hp : field c.payload 0 1 ≤ 7) : exec (.fixRdmUids t r) s =
    .next (complete c 0x00 0 (uidBytes (field c.payload 2 2) (dmxOf s (field c.payload 0 1)).uids) (advance t s)) := by
  dsimp only [exec, execFixRdmUids]
  exact ready_complete h (if_neg (Nat.not_lt.mpr hp))

theorem fixCounters_range (h : Ready 0x0E09 r c s) (ho : 4103 < field c.payload 0 2) :
    exec (.fixCounters t r) s = .next (complete c 0x21 0 [] (advance t s)) := by
  dsimp only [exec, execFixCounters]
  exact ready_complete h (if_pos ho)

/-- FIX_COUNTERS answers an output's counters, and zeros for one that is not defined. -/
theorem fixCounters_answers (h : Ready 0x0E09 r c s) (ho : field c.payload 0 2 ≤ 4103) : exec (.fixCounters t r) s =
    .next (complete c 0x00 0 (((outOf s (field c.payload 0 2)).map fixCounterBytes).getD (zeros 32)) (advance t s)) := by
  dsimp only [exec, execFixCounters]
  refine ready_complete h ((if_neg (Nat.not_lt.mpr ho)).trans ?_)
  rw [outOf_advance]
  cases outOf s (field c.payload 0 2) <;> rfl

/-! ## FIX_SET -/

section
variable (h : Ready 0x0E03 r c s) (h1 : 1 ≤ field c.payload 0 2) (hn : field c.payload 0 2 ≤ 511)
variable (he : ∀ e ∈ setEntries c.payload, fixEntry s e.1 e.2.1 e.2.2 = 0) (hm : s.mode.mode ≠ 0)
include h h1 hn he hm

theorem fixSet_waits (hroom : s.fix.setq.length + field c.payload 0 2 ≤ 512) : exec (.fixSet t r) s =
    .next (complete c 0x00 0 [] { advance t s with fix := { s.fix with setq := s.fix.setq ++ setEntries c.payload } }) :=
  ready_donePinKept h ((fixSet_queues (s := advance t s) h1 hn (setStatuses_sound (s := advance t s) he)
    (bne_iff_ne.mpr hm)).trans (if_neg (Nat.not_lt.mpr hroom))) ⟨rfl, rfl, rfl, rfl, rfl⟩

theorem fixSet_overfills (hfull : 512 < s.fix.setq.length + field c.payload 0 2) :
    exec (.fixSet t r) s = .next (complete c 0x10 0 [] (advance t s)) :=
  ready_complete h ((fixSet_queues (s := advance t s) h1 hn (setStatuses_sound (s := advance t s) he)
    (bne_iff_ne.mpr hm)).trans (if_pos hfull))

end

/-! ## FIX_SAFE_SET -/

theorem fixSafeSet_missing (h : Ready 0x0E04 r c s) (h1 : field c.payload 0 2 = 1) (hid : field c.payload 8 4 ≤ 131071)
    (hmode : field c.payload 12 1 ≤ 2) (hf : khas s.fix.fixtures (field c.payload 8 4) = false) :
    exec (.fixSafeSet t r) s = .next (complete c 0x22 0 [] (advance t s)) := by
  have missing : kget? s.fix.fixtures (field c.payload 8 4) = none := by simpa [khas] using hf
  exact ready_complete h (fixSafeSet_one_refused h1 (safeEntry_missing hid hmode missing) (by decide))

theorem fixSafeSet_sets (h : Ready 0x0E04 r c s) (h1 : field c.payload 0 2 = 1) (hid : field c.payload 8 4 ≤ 131071)
    (hmode : field c.payload 12 1 ≤ 1) {f : Fixture} (hf : kget? s.fix.fixtures (field c.payload 8 4) = some f) :
    ∃ s' f', exec (.fixSafeSet t r) s = .next (complete c 0x00 0 [] s') ∧ kget? s'.fix.fixtures (field c.payload 8 4) = some f'
      ∧ f'.safeMode = field c.payload 12 1 ∧ f'.d = f.d ∧ f'.shown = f.shown
      ∧ ∀ k, k ≠ field c.payload 8 4 → kget? s'.fix.fixtures k = kget? s.fix.fixtures k := by
  refine ⟨_, withSafe (field c.payload 12 1) (safeEntryVals c.payload 8) f,
    ready_donePinKept h (fixSafeSet_one_sound h1 (safeEntry_sound (s := advance t s) hid hmode hf)) ⟨rfl, rfl, rfl, rfl, rfl⟩,
    ?_, rfl, rfl, rfl, fun k hk => kget?_kmod?_other _ _ hk⟩
  exact (kget?_kmod?_same _ _ _).trans (congrArg (Option.map _) hf)

end

/-- Settles O53: the definition of an output by the cases of its fields and of what is listed, then transactions, the answers, and
the commands on fixtures. -/
theorem fixtureCommands : Obligations.FixtureCommands := by
  refine ⟨⟨?outputDefine, ?rdm, ?discover, ?uids, ?counters⟩, ?fixtureDefine, ?set, ?safeSet, ?config⟩
  case outputDefine =>
    intro t r c s h
    refine ⟨fun ho => ready_complete h (outputDefine_range ho),
      fun ho hoff hq => ready_complete h (outputDefine_off_undefined ho hoff hq),
      fun ho hon hbad => ready_complete h (outputDefine_bad ho hon hbad), ?wrongPort,
      fun ho hon hgood hport hq _ => fixOutputDefine_starts h ho hon hgood hport hq, ?pending,
      fun q hlo hhi hoff hq hr _ hbusy => fixOutputDefine_drains h hlo hhi hoff hq hr hbusy⟩
    case wrongPort =>
      intro ho hon hgood hrole
      exact ready_complete h (outputDefine_wrong_port (Nat.le_trans ho (by decide)) hon hgood ho hrole)
    case pending =>
      intro q ho hoff hq hr
      exact ready_complete h ((outputDefine_off_defined (s := advance t s) ho hoff hq).trans (if_pos hr))
  case rdm =>
    intro t r c s h
    exact ⟨fun hb => ready_complete h (fixRdm_range hb), fun hb hoff => ready_complete h (fixRdm_off hb hoff),
      fun hb hon hfull => ready_complete h (fixRdm_full hb hon hfull),
      fun hb hon hroom => ready_pinKept h (fixRdm_queues hb hon hroom) ⟨rfl, rfl, rfl, rfl, rfl⟩⟩
  case discover =>
    intro t r c s h
    exact ⟨fun hb => ready_complete h (fixDiscover_range hb), fun hp hf hb => ready_complete h (fixDiscover_refused hp hf hb),
      fun hp hf hon hd => ready_donePinKept h (fixDiscover_full hp hf hon hd) (modDmx_onlyFix _ _ _).pinKept⟩
  case uids =>
    exact fun t r c s h => ⟨fun hp => fixRdmUids_range h hp, fun hp => fixRdmUids_answers h hp⟩
  case counters =>
    intro t r c s h
    refine ⟨fun ho => fixCounters_range h ho, fun q ho hq => ⟨fixCounterBytes q, ?_, length_fixCounterBytes q,
      fixCounterBytes_fields q⟩, fun ho hq => ?_⟩ <;> rw [fixCounters_answers h ho, hq] <;> rfl
  case fixtureDefine =>
    intro t r c s h
    exact ⟨fun hn => ready_complete h (fixtureDefine_range hn),
      fun st k h1 hn he => ready_complete h (fixtureDefine_refused (s := advance t s) h1 hn he),
      fun l h1 hn hm hl => ready_donePinKept h (fixtureDefine_waits (s := advance t s) h1 hn (bne_iff_ne.mpr hm) hl)
        ⟨rfl, rfl, rfl, rfl, rfl⟩⟩
  case set =>
    intro t r c s h
    exact ⟨fun hn => ready_complete h (fixSet_range hn), fun h1 hn he hm hroom => fixSet_waits h h1 hn he hm hroom,
      fun h1 hn he hm hfull => fixSet_overfills h h1 hn he hm hfull,
      fun st h1 hn hst => ready_complete h (fixSet_refused (s := advance t s) h1 hn hst)⟩
  case safeSet =>
    intro t r c s h
    exact ⟨fun hn => ready_complete h (fixSafeSet_range hn), fun h1 hid hmode hf => fixSafeSet_missing h h1 hid hmode hf,
      fun f h1 hid hmode _ hf => fixSafeSet_sets h h1 hid hmode hf⟩
  case config =>
    intro t r c s h
    dsimp only [exec, execFixConfig]
    exact ready_donePinKept h rfl ⟨rfl, rfl, rfl, rfl, rfl⟩

end Sys2Proof.Safety
end

section
/-! PROOF. What keepalives, DMX frames, Stream_Terminated packets and RDM transactions answer (R323, R325 to R329), and the statement
assembled from it. -/

namespace Sys2Proof.Safety

open Sys2Proof.Machine

theorem happens_onlyFix {t : Nat} {s z : State} {f : State → State} (ha : awake s = true) (hp : PinDriven s)
    (e : f (advance t s) = z) (hz : OnlyFix (advance t s) z) : happens t s f = .next z :=
  happens_pinKept ha hp e hz.pinKept

/-- What an event of a DMX port answers, where its effect on the port keeps what FAULT_N and the queue rest on. -/
theorem happens_dmxPort {t p : Nat} {s z : State} {f : State → State} (ha : awake s = true) (hp : PinDriven s)
    (hport : p < 8) (e : f (advance t s) = z) (hz : PinKept s z) : happens t s (fun s => if p < 8 then f s else s) = .next z :=
  happens_pinKept ha hp ((if_pos hport).trans e) hz

/-- An event of a port that is not there, or without effect on one that is, answers the instant alone. -/
theorem happens_dmxPort_idle {t p : Nat} {s : State} {f : State → State} (ha : awake s = true) (hp : PinDriven s)
    (e : p < 8 → f (advance t s) = advance t s) : happens t s (fun s => if p < 8 then f s else s) = .next (advance t s) := by
  refine happens_onlyFix ha hp ?_ rfl
  split
  next hport => exact e hport
  next => rfl

section
variable {t : Nat} {s : State} (ha : awake s = true) (hp : PinDriven s)
include ha hp

/-! ## What outputs send -/

theorem sacnKeepalive_waits {o a : Nat} {q : Output} (ho : o ≤ 4095) (hq : outOf s o = some q) (hsends : outSends q = true)
    (hm : s.mode.mode ≠ 0) (hlast : q.lastAt = some a) (ht : max s.now t < a + 800000000) :
    exec (.sacnKeepalive t o) s = .next (advance t s) :=
  happens_onlyFix ha hp ((sacnKeepalive_cases (s := advance t s) ho hq hsends (bne_iff_ne.mpr hm) hlast).trans
    (if_neg (Nat.not_le.mpr ht))) rfl

theorem sacnKeepalive_leaves {o a : Nat} {q : Output} (ho : o ≤ 4095) (hq : outOf s o = some q) (hsends : outSends q = true)
    (hm : s.mode.mode ≠ 0) (hlast : q.lastAt = some a) (ht : a + 800000000 ≤ max s.now t) (hlive : outsLive s = true)
    (he : (portOf s q.d.port).enabled = true) (hr : (portOf s q.d.port).retired = false) (hrole : (portOf s q.d.port).role = 1)
    (hport : q.d.port ≤ 63) :
    ∃ s' q' f, exec (.sacnKeepalive t o) s = .next s' ∧ outOf s' o = some q' ∧ q'.seq = q.seq + 1 ∧ q'.packets = q.packets + 1
      ∧ q'.lastAt = some (max s.now t) ∧ (portOf s' q.d.port).queue = (portOf s q.d.port).queue ++ [f]
      ∧ f.body = e131Data s q.d q.seq false q.data := by
  have effect : sacnKeepalive o (advance t s) = sacnPacket o false (advance t s) :=
    (sacnKeepalive_cases (s := advance t s) ho hq hsends (bne_iff_ne.mpr hm) hlast).trans (if_pos ht)
  have live : outsLive (advance t s) = true := hlive
  refine ⟨_, withSent (max s.now t) true q, dataFrame (advance t s) q false,
    happens_pinKept ha hp effect (sacnPacket_pinKept (s := advance t s) false hq), outOf_sacnPacket false hq live, rfl, rfl, rfl,
    ?_, rfl⟩
  rw [sacnPacket_live (s := advance t s) false hq live]
  exact queue_queueTx _ hport he hr hrole

theorem dmxFrameStart_answers {p : Nat} {q : Output} (hport : p < 8) (hq : outOf s (4096 + p) = some q) (hr : q.redef = none)
    (hlive : outsLive s = true) (hst : q.st ≠ 0) (hterms : q.terms = 0) (halign : q.d.align = false)
    (hc : (dmxOf s p).cur = none) :
    (max s.now t < (dmxOf s p).endAt + 20000 → exec (.dmxFrameStart t p) s = .next (advance t s))
      ∧ ((dmxOf s p).endAt + 20000 ≤ max s.now t → exec (.dmxFrameStart t p) s = .next (dmxStart p (advance t s))) := by
  have answer := dmxFrameStart_cases (s := advance t s) hq hr hlive (outSends_of_state hst hterms) halign hc
  exact ⟨fun ht => happens_dmxPort_idle ha hp fun _ => answer.trans (if_pos ht),
    fun ht => happens_dmxPort ha hp hport (answer.trans (if_neg (Nat.not_lt.mpr ht)))
      (dmxStart_onlyFix (s := advance t s) hq).pinKept⟩

theorem streamTerminatedSend_sends {o : Nat} {q : Output} (hq : outOf s o = some q) (hn : 2 ≤ q.terms)
    (ht : q.termAt ≤ max s.now t) : ∃ s' q', exec (.streamTerminatedSend t o) s = .next s' ∧ outOf s' o = some q'
      ∧ q'.terms = q.terms - 1 ∧ q'.termAt = q.termAt + 10000000 ∧ q'.st = q.st := by
  obtain ⟨q', hout, hterms, hat, hst, -⟩ := outOf_termSent (s := advance t s) hq
  exact ⟨_, q', happens_pinKept ha hp (streamTerminated_sends (s := advance t s) hq ht hn) (termSent_pinKept (s := advance t s) hq),
    hout, hterms, hat, hst⟩

theorem streamTerminatedSend_stops {o : Nat} {q : Output} (hq : outOf s o = some q) (hn : q.terms = 1)
    (ht : q.termAt ≤ max s.now t) (hr : q.redef = none) : ∃ s' q', exec (.streamTerminatedSend t o) s = .next s'
      ∧ outOf s' o = some q' ∧ q'.terms = 0 ∧ q'.st = 0 := by
  obtain ⟨q', hout, hterms, -, -, -⟩ := outOf_termSent (s := advance t s) hq
  refine ⟨_, withState 0 q', happens_pinKept ha hp (streamTerminated_stops (s := advance t s) hq ht hn hr)
    ((termSent_pinKept (s := advance t s) hq).trans (outState_pinKept _ _ _)), outOf_outState 0 hout, ?_, rfl⟩
  exact hterms.trans (by rw [hn])

/-! ## RDM transactions -/

section
variable {p cc pid sub : Nat} {r : CmdRef} {uid : BitVec 48} {d : Bytes}

theorem rdmRequestSend_sends {q : Output} {l : List RdmJob} (hport : p < 8) (hq : outOf s (4096 + p) = some q)
    (hrdm : q.d.rdm = true) (halign : q.d.align = false) (hlive : outsLive s = true)
    (hqueue : (dmxOf s p).queue = .host r uid cc pid sub d :: l) (hc : (dmxOf s p).cur = none)
    (hdone : (dmxOf s p).rdmDone = false) (ht : (dmxOf s p).endAt ≤ max s.now t) (hu : rdmBroadcast uid = false) :
    exec (.rdmRequestSend t p) s = .next (requestSent p (.host r uid cc pid sub d) l (advance t s)) :=
  happens_dmxPort ha hp hport (rdmSend_queued (s := advance t s) hq hrdm halign hlive hqueue hc hdone ht hu)
    (requestSent_onlyFix _ _ _ (advance t s)).pinKept

variable {c : Cmd} (hport : p < 8) (hc : (dmxOf s p).cur = some (.host r uid cc pid sub d))
include hport hc

theorem rdmResponse_answers {ty : Nat} {data : Bytes} (hr : findCmd r s = some c)
    (ht : max s.now t ≤ (dmxOf s p).reqEnd + 2800000) (hl : data.length ≤ 231) :
    exec (.rdmResponse t p (.good ty data)) s = .next (complete c 0x00 0 (leN 1 ty ++ leN 1 data.length ++ zeros 2 ++ data)
      (modDmx p rdmOver (advance t s))) := by
  refine happens_dmxPort ha hp hport (rdmResponse_good (s := advance t s) hc hr ht hl) ?_
  exact (modDmx_onlyFix p rdmOver (advance t s)).pinKept.trans
    ⟨complete_pending _ _ _ _ _, complete_faultLow _ _ _ _ _, complete_flt _ _ _ _ _, complete_power _ _ _ _ _,
      complete_boot _ _ _ _ _⟩

variable (ht : (dmxOf s p).reqEnd + 2800000 ≤ max s.now t)
include ht

theorem rdmResponseTimeout_retries {q : Output} (hq : outOf s (4096 + p) = some q) (hr : findCmd r s = some c)
    (hn : (dmxOf s p).tries < 3) : ∃ s' q', exec (.rdmResponseTimeout t p) s = .next s' ∧ (dmxOf s' p).cur = none
      ∧ (dmxOf s' p).queue = .host r uid cc pid sub d :: (dmxOf s p).queue ∧ outOf s' (4096 + p) = some q'
      ∧ q'.rdmTimeout = q.rdmTimeout + 1 ∧ findCmd r s' = some c := by
  refine ⟨_, withRdmTimeout q, happens_dmxPort ha hp hport (rdmTimeout_retries (s := advance t s) hc ht hn)
    ((modOut_onlyFix _ _ _).trans (modDmx_onlyFix _ _ _)).pinKept, ?_, ?_, outOf_modOut withRdmTimeout hq, rfl, hr⟩
  · rw [dmxOf_modDmx_same, withRetry]
  · rw [dmxOf_modDmx_same, withRetry, dmxOf_modOut, dmxOf_advance]

theorem rdmResponseTimeout_fails (hn : 3 ≤ (dmxOf s p).tries) :
    ∃ s', exec (.rdmResponseTimeout t p) s = .next s' ∧ (dmxOf s' p).cur = none ∧ findCmd r s' = none := by
  have dropped : OnlyFix (advance t s) (modDmx p rdmOver (modOut (4096 + p) withRdmTimeout (advance t s))) :=
    (modOut_onlyFix _ _ _).trans (modDmx_onlyFix _ _ _)
  refine ⟨_, happens_dmxPort ha hp hport (rdmTimeout_fails (s := advance t s) hc ht hn)
    (dropped.pinKept.trans ((finish_pinKept _ _ _ _ _).trans (discEnd_pinKept _ _))), ?_, ?_⟩
  · rw [discEnd_cur, dmxOf, finish_fix, ← dmxOf, dmxOf_modDmx_same, rdmOver]
  · rw [findCmd_discEnd, findCmd_finish]

end

end

/-- Settles O54: keepalives, DMX frames and Stream_Terminated packets by their instants, then a transaction from its request to its
response or its failures. -/
theorem outputsAndRdm : Obligations.OutputsAndRdm := by
  refine ⟨⟨?keepalive, ?frame, ?terminated, ?packet⟩, ?sendIdle, ?send, ?idle, ?response, ?timeout, ?branch, ?request⟩
  case keepalive =>
    intro t o a q s ha hp ho hq hst hterms hm hlast
    exact ⟨fun ht => sacnKeepalive_waits ha hp ho hq (outSends_of_state hst hterms) hm hlast ht,
      fun ht hlive he hr hrole hport =>
        sacnKeepalive_leaves ha hp ho hq (outSends_of_state hst hterms) hm hlast ht hlive he hr hrole hport⟩
  case frame =>
    intro t p q s ha hp hport hq hr hlive hst hterms halign hc
    obtain ⟨waits, starts⟩ := dmxFrameStart_answers (t := t) ha hp hport hq hr hlive hst hterms halign hc
    refine ⟨waits, fun ht => ⟨_, withPacket q, starts ht, outOf_dmxStart (s := advance t s) hq, rfl, ?_, ?_, ?_,
      dmxStart_onlyFix (s := advance t s) hq⟩⟩ <;> rw [dmxOf_dmxStart (s := advance t s) hq] <;> rfl
  case terminated =>
    intro t o q s ha hp hq
    exact ⟨fun hw => happens_onlyFix ha hp (streamTerminated_waits (s := advance t s) hq hw) rfl,
      fun hn ht => streamTerminatedSend_sends ha hp hq hn ht, fun hn ht hr => streamTerminatedSend_stops ha hp hq hn ht hr⟩
  case packet => exact fun s d q term b h => length_e131Data s d q term b h
  case sendIdle =>
    intro t p s ha hp h
    refine happens_dmxPort_idle ha hp fun hport => rdmSend_idle (s := advance t s) (h.resolve_left (Nat.not_le.mpr hport))
  case send =>
    intro t p q r uid cc pid sub d l s ha hp hport hq hrdm halign hlive hqueue hc hdone ht hu
    refine ⟨_, withRdmTx q, rdmRequestSend_sends ha hp hport hq hrdm halign hlive hqueue hc hdone ht hu, ?_, ?_, ?_,
      outOf_requestSent (s := advance t s) _ _ hq, rfl, rfl⟩ <;> rw [dmxOf_requestSent] <;> rfl
  case idle =>
    intro t p a s ha hp h
    have free (hport : p < 8) : (dmxOf (advance t s) p).cur = none := h.resolve_left (Nat.not_le.mpr hport)
    exact ⟨happens_dmxPort_idle ha hp fun hport => rdmResponse_none a (free hport),
      happens_dmxPort_idle ha hp fun hport => rdmTimeout_none (free hport)⟩
  case response =>
    exact fun t p ty data r c uid cc pid sub d s ha hp hport hc hr ht hl => rdmResponse_answers ha hp hport hc hr ht hl
  case timeout =>
    intro t p q r c uid cc pid sub d s ha hp hport hq hc hr
    exact ⟨fun ht => happens_dmxPort_idle ha hp fun _ => rdmTimeout_waits (s := advance t s) hc ht,
      fun ht hn => rdmResponseTimeout_retries ha hp hport hc ht hq hr hn,
      fun ht hn => rdmResponseTimeout_fails ha hp hport hc ht hn⟩
  case branch =>
    intro t p lo hi x y l e s ha hp hport hc ht hd htodo
    exact happens_dmxPort ha hp hport (rdmTimeout_branch (s := advance t s) hc ht hd (by simp [htodo]))
      (modDmx_onlyFix p rdmOver (advance t s)).pinKept
  case request => exact fun uid tn sub cc pid data => length_rdmPacket uid tn sub cc pid data

end Sys2Proof.Safety
end

section
/-! SUPPORT. AIR_RADIO_DEFINE (R358): which definitions it takes; and the status by which a command's completion is told (R66). -/

namespace Sys2Proof.Machine

/-- What AIR_RADIO_DEFINE looks at, with no network defined, is in its ranges (R358). -/
abbrev RadioInRange (p : Bytes) : Prop :=
  field p 0 1 ≤ 3 ∧ (1000 ≤ field p 2 2 ∧ field p 2 2 ≤ 16000) ∧ field p 4 4 ≠ 0 ∧ field p 16 2 ≤ 120
    ∧ (field p 19 1 = 0 ∨ field p 19 1 = 0x80) ∧ (1 ≤ field p 27 1 ∧ field p 27 1 ≤ 3) ∧ field p 31 1 ≤ 1 ∧ field p 32 2 ≤ 128
    ∧ field p 34 1 ≤ 3 ∧ bit (field p 35 1) (field p 34 1) = true ∧ field p 36 1 ≤ 3
    ∧ (field p 38 1 ≤ 3 ∨ field p 38 1 = 0xFF)

/-- A radio of a definition, on its home band; what it had else it keeps. -/
def radioDefined (p : Bytes) (s : State) : State :=
  { s with air := { s.air with
      radios := kset s.air.radios (field p 0 1) { radioOf s (field p 0 1) with cfg := p, band := field p 34 1 } } }

/-- With no network, a definition in range of a radio that is off is taken, whatever BEACON_BANDS says beyond the home band. -/
theorem airRadioDefine_inRange {c : Cmd} {s : State} (h : RadioInRange c.payload) (hnet : s.air.net = none)
    (hoff : (radioOf s (field c.payload 0 1)).st = 0) :
    airRadioDefine c s = done c stOK (radioDefined c.payload s) := by
  obtain ⟨hradio, hspi, hrate, hturn, hflag, hchan, hsafe, hinit, hhome, hbands, hfb, hcrowd⟩ := h
  refine (if_neg ?_).trans (if_neg (by simp [hoff]))
  simp only [hnet, hbands, Option.isSome_none, Bool.false_and, Bool.not_true, Bool.or_false, Bool.or_eq_true, Bool.and_eq_true,
    decide_eq_true_eq, bne_iff_ne, beq_iff_eq]
  omega

/-- The last record of its mailbox tells how a command completed (R66). -/
theorem last_status_complete {c : Cmd} {n tag : Nat} (hc : c.ref = .mbx n tag) (st d : Nat) (b : Bytes) (s : State) :
    (mbxOf (complete c st d b s) n).recs.getLast?.map (·.status) = some st := by
  simp [complete, hc]

/-- A mailbox's command completes with one status alone. -/
theorem complete_status_unique {c : Cmd} {n tag st d st' d' : Nat} {b b' : Bytes} {s s' : State} (hc : c.ref = .mbx n tag)
    (h : complete c st d b s = complete c st' d' b' s') : st = st' := by
  have ends := last_status_complete hc st d b s
  rw [h, last_status_complete hc] at ends
  exact (Option.some.inj ends).symm

end Sys2Proof.Machine
end

section
/-! PROOF. The statement on the AIR commands has an AIR_RADIO_DEFINE end RANGE where BEACON_BANDS has a bit beyond band 3. Such a bit is
reserved (R9): a command with one is refused as a violation when it is taken (R79), and AIR_RADIO_DEFINE itself does not look at it. -/

namespace Sys2Proof.Safety

open Sys2Proof.Machine

theorem airRadioDefine_taken {t : Nat} {r : CmdRef} {c : Cmd} {s : State} (h : Ready 0x0F02 r c s) (hp : RadioInRange c.payload)
    (hnet : s.air.net = none) (hoff : (radioOf s (field c.payload 0 1)).st = 0) :
    exec (.airRadioDefine t r) s = .next (complete c 0x00 0 [] (radioDefined c.payload (advance t s))) :=
  ready_donePinKept h (airRadioDefine_inRange hp hnet hoff) ⟨rfl, rfl, rfl, rfl, rfl⟩

/-- A definition of radio 0 in every range: 8 MHz, 1 Mbit/s, one channel byte, home band 0 and no crowd band. Its BEACON_BANDS, at
offset 35, names band 0 and sets bit 4. -/
def beaconBandFour : Bytes :=
  zeros 2 ++ leN 2 8000 ++ leN 4 1000000 ++ zeros 19 ++ leN 1 1 ++ zeros 7 ++ leN 1 0x11 ++ zeros 2 ++ leN 1 0xFF ++ zeros 1

/-- The command that carries this definition, on a core. -/
def defineBandFour : Cmd := { ref := .mbx 1 7, opcode := 0x0F02, payload := beaconBandFour, core := some 0, phase := .thread }

/-- The device after its boot stages, with that command in flight, and neither a network nor a radio defined. -/
def definingBandFour : State := { State.reset with boot := { State.reset.boot with stage := 4 }, cmds := [defineBandFour] }

/-- Refutes O55: its clause on AIR_RADIO_DEFINE counts BEACON_BANDS at most 15 among the ranges whose breach ends RANGE; the
definition in `definingBandFour` breaks that one alone, and the command ends OK. -/
theorem not_airCommands : ¬ Obligations.AirCommands := by
  unfold Obligations.AirCommands
  rintro ⟨⟨-, radioDefine, -⟩, -⟩
  have ready : Ready 0x0F02 (.mbx 1 7) defineBandFour definingBandFour := by decide
  have inRange : RadioInRange defineBandFour.payload := by decide
  have beyond : ¬ field defineBandFour.payload 35 1 ≤ 15 := by decide
  obtain ⟨refused, -, -⟩ := radioDefine 0 _ _ _ ready
  have ends_range := refused fun ⟨_, _, _, _, _, _, _, _, _, _, _, hbands, _⟩ => beyond hbands
  have ends_ok := airRadioDefine_taken (t := 0) ready inRange rfl rfl
  have status : 0x21 = 0x00 := complete_status_unique rfl (Host.Outcome.next.inj (ends_range.symm.trans ends_ok))
  exact absurd status (by decide)

end Sys2Proof.Safety
end

section
/-! PROOF. The statement on the air's events has an UP received by a device that controls its side, whatever its service; a device that
gives no service (R36) sends and receives nothing on the air. -/

namespace Sys2Proof.Safety

open Sys2Proof.Machine

/-- On the air nothing happens to a distaff (R413), nor to a device that gives no service (R36). -/
theorem airs_idle {t : Nat} {s : State} (f : State → State) (ha : awake s = true) (hp : PinDriven s) (hlive : outsLive s = false) :
    airs t s f = .next (advance t s) := by
  have still : outsLive (advance t s) = false := hlive
  exact happens_pinKept ha hp (if_neg (by simp [still])) ⟨rfl, rfl, rfl, rfl, rfl⟩

theorem upRx_idle (t : Nat) (u : AirUp) {s : State} (ha : awake s = true) (hp : PinDriven s) (hlive : outsLive s = false) :
    exec (.upRx t u) s = .next (advance t s) := airs_idle (upRx u) ha hp hlive

theorem crcErr_modNodeA {n : Nat} {q : ANode} (f : ANode → ANode) {s : State} (h : kget? s.air.nodes n = some q) :
    (kget? (modNodeA n f s).air.nodes n).map (·.crcErr) = some (f q).crcErr := by
  have node : kget? (modNodeA n f s).air.nodes n = (kget? s.air.nodes n).map f := kget?_kmod?_same _ _ _
  rw [node, h]
  rfl

/-- A node of radio 0, its counters at 0. -/
def quietNode : ANode := { cfg := [] }

/-- An UP of node 5 to radio 0 whose CRC is bad. -/
def badUp : AirUp := { radio := 0, node := 5, event := 0, sn := false, nesn := false, kind := 0, body := [], crcOk := false }

/-- A device without a twin, its boot stages done and its skeleton-service units incomplete: it gives no service and FAULT_N is
asserted (R36). Radio 0 still runs, in superframe 0, with node 5 recorded. -/
def withoutService : State :=
  { State.reset with
    boot := { State.reset.boot with stage := 4 }
    flt := { State.reset.flt with noService := true }
    faultLow := true
    air := { k := some 0, radios := [(0, { cfg := [], st := 1 })], nodes := [(5, quietNode)] } }

/-- Refutes O56: its clause on an UP with a bad CRC asks that the device controls its side, and not that it gives service; the one in
`withoutService` does not receive the UP, so its node's CRC_ERR stays 0. -/
theorem not_airEvents : ¬ Obligations.AirEvents := by
  unfold Obligations.AirEvents
  rintro ⟨-, received, -⟩
  have ha : awake withoutService = true := by decide
  have hp : PinDriven withoutService := by decide
  have node : kget? withoutService.air.nodes 5 = some quietNode := rfl
  obtain ⟨badCrc, -⟩ := received 0 0 badUp quietNode withoutService ha hp (by decide) node rfl (by decide) (by decide)
  have same := Host.Outcome.next.inj ((badCrc rfl).symm.trans (upRx_idle 0 badUp ha hp (by decide)))
  have counted : some (quietNode.crcErr + 1) = some quietNode.crcErr := by
    rw [← crcErr_modNodeA (fun q => { q with crcErr := q.crcErr + 1 }) (n := 5) node]
    exact congrArg (fun z => (kget? z.air.nodes 5).map (·.crcErr)) same
  exact absurd counted (by decide)

end Sys2Proof.Safety
end

section
/-! SUPPORT. The TWIN commands (R410, R423, R426): what TWIN_CONFIG and TWIN_DRILL do, a case at a time, what taking the active role
changes beside the twin unit, and the fields of the two responses. -/

namespace Sys2Proof.Machine

/-! ## What the ports and radios change -/

/-- At most the links, the collector, the host interface and what is sent differ. -/
def OnlyLinks (s z : State) : Prop := { z with link := s.link, flt := s.flt, hif := s.hif, out := s.out } = s

theorem OnlyLinks.cmds {s z : State} (h : OnlyLinks s z) : z.cmds = s.cmds := congrArg (·.cmds) h

theorem OnlyLinks.twin {s z : State} (h : OnlyLinks s z) : z.twin = s.twin := congrArg (·.twin) h

theorem OnlyLinks.mode {s z : State} (h : OnlyLinks s z) : z.mode = s.mode := congrArg (·.mode) h

theorem OnlyLinks.trans {a b c : State} (h : OnlyLinks a b) (h' : OnlyLinks b c) : OnlyLinks a c := by
  unfold OnlyLinks at *
  rw [← h, ← h']

theorem queueTx_onlyLinks (p : Nat) (f : TxFrame) (s : State) : OnlyLinks s (queueTx p f s) := by
  unfold queueTx
  split <;> rfl

theorem forEach_onlyLinks {α : Type} {f : α → State → State} (step : ∀ a z, OnlyLinks z (f a z)) (l : List α) (s : State) :
    OnlyLinks s (forEach l s f) :=
  forEach_keeps (P := OnlyLinks s) (fun a z h => h.trans (step a z)) l s rfl

theorem spiWrite_onlyLinks (n reg : Nat) (data : Bytes) (s : State) : OnlyLinks s (spiWrite n reg data s) := rfl

theorem radioInit_onlyLinks (n : Nat) (s : State) : OnlyLinks s (radioInit n s) := by
  unfold radioInit spiMode
  exact (forEach_onlyLinks (fun _ _ => spiWrite_onlyLinks _ _ _ _) _ s).trans (spiWrite_onlyLinks _ _ _ _)

theorem receiverOff_onlyLinks (p : Nat) (s : State) : OnlyLinks s (receiverOff p s) := rfl

theorem portEvent_onlyLinks (p st cause : Nat) (s : State) : OnlyLinks s (portEvent p st cause s) := rfl

theorem modPort_onlyLinks (p : Nat) (f : Port → Port) (s : State) : OnlyLinks s (modPort p f s) := rfl

theorem applyRoles_onlyLinks (s : State) : OnlyLinks s (applyRoles s) := by
  unfold applyRoles
  refine forEach_onlyLinks (fun p z => ?_) _ s
  dsimp only
  split
  · rfl
  · refine .trans ?_ (portEvent_onlyLinks _ _ _ _)
    split
    · exact (modPort_onlyLinks p _ z).trans (receiverOff_onlyLinks p _)
    · exact modPort_onlyLinks p _ z

/-! ## The active role (R410, R420) -/

/-- The twin unit of a device that takes the active role: SIDE and whether twin operation is enabled are as they were. -/
def activeTwin (cause b1 : Nat) (s : State) : Twin :=
  { s.twin with role := 1, cgen := nextGen s.twin, digest := none, segs := [], nsegs := [], inStep := false, whole := []
                lastSwitch := s.now, defJ := [], sent := [], reelFrom := s.reel.next
                pending := if modeOn s then some b1 else none, announce := if modeOn s then some cause else none }

/-- Outside Calm there is nothing to wake from. -/
theorem OnlyLinks.outsideCalm {s z : State} (h : OnlyLinks s z) (hcalm : s.mode.calm = false) :
    OnlyLinks s (if z.mode.calm then calmWakeNow 0 z else z) := by
  rw [if_neg (by rw [h.mode, hcalm]; decide)]
  exact h

/-- Outside Calm, taking the active role changes, beside the twin unit, what the device sends and whether COMMIT is held (R443) alone. -/
theorem takeActive_onlyLinks (cause b1 : Nat) (fault : Bool) {s : State} (hcalm : s.mode.calm = false) :
    OnlyLinks { s with twin := activeTwin cause b1 s } (takeActive cause b1 fault s) := by
  have hushes (z : State) : OnlyLinks z (if z.flt.safe then { z with flt := { z.flt with hushed := true } } else z) := by
    split <;> rfl
  have hello (z : State) : OnlyLinks z (sendHello fault z) := queueTx_onlyLinks _ _ z
  have radios (z : State) : OnlyLinks z (forEach (z.air.radios.filter fun e => radioOn e.2) z fun e s => radioInit e.1 s) :=
    forEach_onlyLinks (fun _ _ => radioInit_onlyLinks _ _) _ z
  have announces (z : State) : OnlyLinks z (if modeOn z then z else twinEvent cause (epochNow z) z) := by split <;> rfl
  have before := (((hushes { s with twin := activeTwin cause b1 s }).trans (hello _)).trans (radios _)).trans (announces _)
  exact before.outsideCalm hcalm

/-- The twin unit as twin operation starts at an instant. -/
def startedTwin (now : Nat) (k : Twin) : Twin :=
  { k with enabled := true, linkFrom := now, force := if k.helloSince then [] else List.range 64 }

/-- Outside Calm, twin operation starts in the role that the level of ROLE_IN asks for, and keeps SIDE. -/
theorem twinStart_frame {s : State} (hcalm : s.mode.calm = false) :
    ∃ k : Twin, k.enabled = true ∧ k.side = s.twin.side ∧ k.role = b2n s.twin.roleIn
      ∧ OnlyLinks { s with twin := k } (twinStart s) := by
  cases hlevel : s.twin.roleIn
  case true =>
    have active : twinStart s = takeActive 0 (takeoverAt s) (faultN s) (modTwin (startedTwin s.now) s) := if_pos hlevel
    exact ⟨activeTwin 0 (takeoverAt s) (modTwin (startedTwin s.now) s), rfl, rfl, rfl,
      active ▸ takeActive_onlyLinks 0 _ _ hcalm⟩
  case false =>
    have distaff : twinStart s = twinEvent 0 (epochNow s) (modTwin (fun k => { startedTwin s.now k with role := 0 }) s) :=
      if_neg (Bool.eq_false_iff.mp hlevel)
    exact ⟨{ startedTwin s.now s.twin with role := 0 }, rfl, rfl, rfl, distaff ▸ rfl⟩

/-! ## TWIN_CONFIG (R426) -/

/-- The heartbeat period that TWIN_CONFIG sets, in µs: 0 stands for 1000. -/
def hbSetting (p : Bytes) : Nat := if field p 2 2 = 0 then 1000 else field p 2 2

/-- TWIN_CONFIG's fields are in their ranges. -/
abbrev TwinSound (p : Bytes) : Prop := field p 0 1 ≤ 1 ∧ field p 1 1 ≤ 1 ∧ 100 ≤ hbSetting p ∧ hbSetting p ≤ 10000

/-- The twin unit with the settings of TWIN_CONFIG. -/
def withSettings (p : Bytes) (k : Twin) : Twin := { k with side := field p 1 1, hbUs := hbSetting p }

/-- The twin unit as twin operation is disabled. -/
def disabledTwin (k : Twin) : Twin :=
  { k with enabled := false, role := 0, pending := none, announce := none, inStep := false, linkUp := false, linkLost := false
           partner := none, lastHello := none }

theorem hbSetting_eq (p : Bytes) : (if field p 2 2 == 0 then 1000 else field p 2 2) = hbSetting p := by
  simp [hbSetting]

theorem twinSettings_bad_iff (p : Bytes) : (decide (1 < field p 0 1) || decide (1 < field p 1 1) || decide (hbSetting p < 100)
    || decide (10000 < hbSetting p)) = true ↔ ¬ TwinSound p := by
  simp only [Bool.or_eq_true, decide_eq_true_eq, TwinSound]
  omega

theorem twinConfig_range {c : Cmd} {s : State} (h : ¬ TwinSound c.payload) : twinConfig c s = done c stRANGE s := by
  unfold twinConfig
  simp only [hbSetting_eq]
  exact if_pos ((twinSettings_bad_iff c.payload).mpr h)

section

variable {c : Cmd} {s : State} (hs : TwinSound c.payload)

include hs

theorem twinConfig_refused (h : (s.twin.enabled = true ∧ field c.payload 1 1 ≠ s.twin.side) ∨ s.twin.drill.isSome = true) :
    twinConfig c s = done c stSTATE s := by
  unfold twinConfig
  simp only [hbSetting_eq]
  rw [if_neg (mt (twinSettings_bad_iff c.payload).mp (not_not_intro hs)), if_pos]
  obtain ⟨hon, hside⟩ | hdrill := h
  · simp [hon, hside]
  · simp [hdrill]

variable (hdrill : s.twin.drill = none) (hside : s.twin.enabled = true → field c.payload 1 1 = s.twin.side)

include hdrill hside

/-- TWIN_CONFIG that is not refused takes the settings, then starts twin operation or ends it. -/
theorem twinConfig_taken (hfree : field c.payload 0 1 = 0 → isDistaff s = false) : twinConfig c s =
    let z := done c stOK (modTwin (withSettings c.payload) s)
    if field c.payload 0 1 = 1 ∧ s.twin.enabled = false then applyRoles (twinStart z)
    else if field c.payload 0 1 = 0 ∧ s.twin.enabled = true then applyRoles (modTwin disabledTwin z)
    else z := by
  have sideKept : (s.twin.enabled && field c.payload 1 1 != s.twin.side) = false := by
    simpa using hside
  have noDistaff : (field c.payload 0 1 == 0 && isDistaff s) = false := by
    simpa using hfree
  unfold twinConfig
  simp only [hbSetting_eq]
  rw [if_neg (mt (twinSettings_bad_iff c.payload).mp (not_not_intro hs)), if_neg (by simp [sideKept, noDistaff, hdrill])]
  simp only [Bool.and_eq_true, Bool.not_eq_true', beq_iff_eq]
  rfl

theorem twinConfig_keepsRole (hen : field c.payload 0 1 = b2n s.twin.enabled) :
    twinConfig c s = done c stOK (modTwin (withSettings c.payload) s) := by
  cases hon : s.twin.enabled
  · rw [twinConfig_taken hs hdrill hside fun _ => by simp [isDistaff, hon]]
    simp [hen, hon, b2n]
  · have h1 : field c.payload 0 1 = 1 := by rw [hen, hon]; rfl
    rw [twinConfig_taken hs hdrill hside fun h0 => absurd (h1.symm.trans h0) (by decide)]
    simp [h1, hon]

theorem twinConfig_starts (hen : field c.payload 0 1 = 1) (hoff : s.twin.enabled = false) :
    twinConfig c s = applyRoles (twinStart (done c stOK (modTwin (withSettings c.payload) s))) := by
  rw [twinConfig_taken hs hdrill hside fun _ => by simp [isDistaff, hoff]]
  exact if_pos ⟨hen, hoff⟩

theorem twinConfig_ends (hen : field c.payload 0 1 = 0) (hon : s.twin.enabled = true) (hactive : s.twin.role = 1) :
    twinConfig c s = applyRoles (modTwin disabledTwin (done c stOK (modTwin (withSettings c.payload) s))) := by
  rw [twinConfig_taken hs hdrill hside fun _ => by simp [isDistaff, hactive]]
  simp [hen, hon]

end

/-! ## TWIN_DRILL (R423) -/

/-- The LATE policy that TWIN_DRILL asks for: 0xFF stands for 0. -/
def drillPolicy (p : Bytes) : Nat := if field p 0 1 = 0xFF then 0 else field p 0 1

/-- The drill of a TWIN_DRILL with WHEN 0: it swaps at the first boundary 8 ms or more after the command was taken. -/
def drillSoon (c : Cmd) (s : State) : Drill :=
  { epoch := epochEnding s (boundaryFrom s (max s.now (c.takenAt + 8000000)))
    swapAt := boundaryFrom s (max s.now (c.takenAt + 8000000))
    check := if field c.payload 3 1 = 0 then 16 else field c.payload 3 1
    revert := bit (field c.payload 2 1) 0 }

theorem drillPolicy_eq (p : Bytes) : (if field p 0 1 == 0xFF then 0 else field p 0 1) = drillPolicy p := by
  simp [drillPolicy]

theorem drillSettings_bad_iff (p : Bytes) : (decide (1 < drillPolicy p) || decide (1 < field p 1 1)) = true
    ↔ 1 < drillPolicy p ∨ 1 < field p 1 1 := by
  simp only [Bool.or_eq_true, decide_eq_true_eq]

section

variable {c : Cmd} {s : State}

theorem twinDrill_range (h : 1 < drillPolicy c.payload ∨ 1 < field c.payload 1 1) : twinDrill c s = done c stRANGE s := by
  unfold twinDrill
  simp only [drillPolicy_eq]
  exact if_pos ((drillSettings_bad_iff c.payload).mpr h)

theorem twinDrill_refused (hpolicy : drillPolicy c.payload ≤ 1) (hwhen : field c.payload 1 1 ≤ 1)
    (h : s.twin.enabled = false ∨ s.twin.role ≠ 1 ∨ s.mode.mode = 0 ∨ s.mode.calm = true ∨ s.twin.drill.isSome = true
      ∨ s.twin.linkUp = false) : twinDrill c s = done c stSTATE s := by
  unfold twinDrill
  simp only [drillPolicy_eq]
  rw [if_neg (mt (drillSettings_bad_iff c.payload).mp (by omega)), if_pos]
  by_cases hactive : s.twin.role = 1
  · obtain hoff | hrole | hmode | hcalm | hdrill | hlink := h
    · simp [hoff]
    · exact absurd hactive hrole
    · simp [modeOn, hmode]
    · simp [hcalm]
    · simp [hdrill]
    · simp [pairInStep, hactive, hlink]
  · simp [hactive]

/-- An active device whose distaff is in step takes a TWIN_DRILL with WHEN 0. -/
theorem twinDrill_soon {k : Hello} (hpolicy : drillPolicy c.payload ≤ 1) (hwhen : field c.payload 1 1 = 0)
    (hon : s.twin.enabled = true) (hactive : s.twin.role = 1) (hmode : s.mode.mode ≠ 0) (hcalm : s.mode.calm = false)
    (hdrill : s.twin.drill = none) (hlink : s.twin.linkUp = true) (hpartner : s.twin.partner = some k)
    (hcode : k.hbCode = 1 ∨ k.hbCode = 2) (hkcalm : k.calm = false) :
    twinDrill c s = complete c stACCEPTED 0 [] (modTwin (fun k => { k with drill := some (drillSoon c s) }) s) := by
  have inStep : pairInStep s = true := by simp [pairInStep, hactive, hlink, hpartner, hcode]
  have inTime (policy grace : Nat) : latePolicy policy grace 0 = (true, stOK) := if_pos (Nat.zero_le grace)
  unfold twinDrill
  simp only [drillPolicy_eq]
  rw [if_neg (mt (drillSettings_bad_iff c.payload).mp (by omega)),
    if_neg (by simp [hon, hactive, modeOn, hmode, inStep, hcalm, hpartner, hkcalm, hdrill])]
  simp [hwhen, inTime, drillSoon, stLATE, stOK]

end

/-! ## The responses (R426) -/

theorem length_twinStatusBytes (s : State) : (twinStatusBytes s).length = 48 := by
  simp [twinStatusBytes]

theorem twinStatusBytes_fields (s : State) : field (twinStatusBytes s) 0 1 = b2n s.twin.enabled
    ∧ field (twinStatusBytes s) 2 1 = s.twin.role % 256 ∧ field (twinStatusBytes s) 4 2 = s.twin.cgen.toNat
    ∧ field (twinStatusBytes s) 12 1 = b2n s.twin.linkUp ∧ field (twinStatusBytes s) 20 4 = (fingerprint s).toNat := by
  have flag (b : Bool) : b2n b % 256 = b2n b := by cases b <;> rfl
  have hgen : s.twin.cgen.toNat < 65536 := s.twin.cgen.isLt
  have hfp : (fingerprint s).toNat < 4294967296 := (fingerprint s).isLt
  simp [twinStatusBytes, field_append_left, field_append_right, field_leN, flag, Nat.mod_eq_of_lt hgen, Nat.mod_eq_of_lt hfp]

/-- The 32 bytes of TWIN_COUNTERS: eight counters of 4 bytes. -/
def twinCounterBytes (k : Twin) : Bytes :=
  [k.digestsTx, k.digestsOk, k.digestsMissed, k.switchovers, k.drills, k.selfDemote, k.conflicts, k.linkLosses].flatMap
    fun v => leN 4 v.toNat

theorem length_twinCounterBytes (k : Twin) : (twinCounterBytes k).length = 32 := by
  simp [twinCounterBytes]

theorem twinCounterBytes_fields (k : Twin) : field (twinCounterBytes k) 0 4 = k.digestsTx.toNat
    ∧ field (twinCounterBytes k) 12 4 = k.switchovers.toNat ∧ field (twinCounterBytes k) 28 4 = k.linkLosses.toNat := by
  have word (v : U32) : v.toNat % 4294967296 = v.toNat := Nat.mod_eq_of_lt v.isLt
  simp [twinCounterBytes, field_append_left, field_append_right, field_leN, word]

end Sys2Proof.Machine
end

section
/-! PROOF. What the TWIN commands answer (R410, R423, R426), and the statement assembled from it. -/

namespace Sys2Proof.Safety

open Sys2Proof.Machine

/-- A command that has ended stays ended through what the twin unit, the ports and the radios do after it. -/
theorem findCmd_ended_onlyLinks {r : CmdRef} {c : Cmd} {st : Nat} {s z : State} {k : Twin} (hr : c.ref = r)
    (h : OnlyLinks { done c st s with twin := k } z) : findCmd r z = none := by
  rw [findCmd, h.cmds]
  exact findCmd_done st s hr

section

variable {t : Nat} {r : CmdRef} {c : Cmd} {s : State} (h : Ready 0x1201 r c s) (hs : TwinSound c.payload)
  (hdrill : s.twin.drill = none)

include h hs hdrill

theorem exec_twinConfig_starts (hoff : s.twin.enabled = false) (hen : field c.payload 0 1 = 1) (hcalm : s.mode.calm = false) :
    ∃ s', exec (.twinConfig t r) s = .next (settled t s s') ∧ findCmd r s' = none ∧ s'.twin.enabled = true
      ∧ s'.twin.side = field c.payload 1 1 ∧ s'.twin.role = b2n s.twin.roleIn := by
  have start := twinConfig_starts (s := advance t s) hs hdrill (fun hon => absurd (hoff.symm.trans hon) (by decide)) hen hoff
  obtain ⟨k, kon, kside, krole, frame⟩ := twinStart_frame (s := done c stOK (modTwin (withSettings c.payload) (advance t s)))
    (by simpa using hcalm)
  have frame := frame.trans (applyRoles_onlyLinks _)
  refine ⟨_, ready_settled h start, findCmd_ended_onlyLinks (ready_ref h) frame, ?_⟩
  rw [frame.twin]
  exact ⟨kon, by rw [kside, done_twin]; rfl, by rw [krole, done_twin]; rfl⟩

theorem exec_twinConfig_ends (hon : s.twin.enabled = true) (hside : field c.payload 1 1 = s.twin.side)
    (hactive : s.twin.role = 1) (hen : field c.payload 0 1 = 0) :
    ∃ s', exec (.twinConfig t r) s = .next (settled t s s') ∧ findCmd r s' = none ∧ s'.twin.enabled = false
      ∧ s'.twin.role = 0 := by
  have stop := twinConfig_ends (s := advance t s) hs hdrill (fun _ => hside) hen hon hactive
  have frame := applyRoles_onlyLinks (modTwin disabledTwin (done c stOK (modTwin (withSettings c.payload) (advance t s))))
  refine ⟨_, ready_settled h stop, findCmd_ended_onlyLinks (ready_ref h) frame, ?_⟩
  rw [frame.twin]
  exact ⟨rfl, rfl⟩

end

theorem exec_twinStatus (t : Nat) {r : CmdRef} {c : Cmd} {s : State} (h : Ready 0x1202 r c s) :
    exec (.twinStatus t r) s = .next (complete c 0x00 0 (twinStatusBytes (advance t s)) (advance t s)) :=
  ready_complete (f := fun c s => reply c (twinStatusBytes s) s) h rfl

theorem exec_twinCounters (t : Nat) {r : CmdRef} {c : Cmd} {s : State} (h : Ready 0x1204 r c s) :
    exec (.twinCounters t r) s = .next (complete c 0x00 0 (twinCounterBytes s.twin) (advance t s)) :=
  ready_complete (f := fun c s => reply c (twinCounterBytes s.twin) s) h rfl

/-- Settles O51: TWIN_CONFIG and TWIN_DRILL a case at a time, the role through the frame of taking it up, and the two responses. -/
theorem twinCommands : Obligations.TwinCommands := by
  unfold Obligations.TwinCommands
  refine ⟨fun t r c s h => ⟨?range, ?refused, ?keeps, ?starts, ?ends⟩, fun t r c s h => ?status, fun t r c s h => ?counters,
    fun t r c s h => ⟨?drillRange, ?drillRefused, ?drillSoon⟩⟩
  case range => exact fun hs => ready_settled h (twinConfig_range hs)
  case refused => exact fun hs hstate => ready_settled h (twinConfig_refused (s := advance t s) hs hstate)
  case keeps =>
    exact fun hs hdrill hside hen => ready_settled h (twinConfig_keepsRole (s := advance t s) hs hdrill hside hen)
  case starts => exact exec_twinConfig_starts h
  case ends => exact exec_twinConfig_ends h
  case status =>
    exact ⟨twinStatusBytes (advance t s), exec_twinStatus t h, length_twinStatusBytes _, twinStatusBytes_fields (advance t s)⟩
  case counters =>
    exact ⟨twinCounterBytes s.twin, exec_twinCounters t h, length_twinCounterBytes _, twinCounterBytes_fields s.twin⟩
  case drillRange => exact fun hbad => ready_settled h (twinDrill_range hbad)
  case drillRefused => exact fun hp hw hstate => ready_settled h (twinDrill_refused (s := advance t s) hp hw hstate)
  case drillSoon =>
    exact fun k hp hw hon hactive hmode hcalm hdrill hlink hpartner hcode hkcalm => ready_settled h
      (twinDrill_soon (s := advance t s) hp hw hon hactive hmode hcalm hdrill hlink hpartner hcode hkcalm)

end Sys2Proof.Safety
end

section
/-! PROOF. What a step is (log 1), that no row touches the queue, and that every row leaves FAULT_N driven as R435 says: each by the
frame its meaning runs in. -/

namespace Sys2Proof.Safety

open Sys2Proof.Machine

/-! ## A step -/

theorem step_cons {i : Instr} {rest : List Instr} {s : State} (h : s.pending = i :: rest) :
    step s = exec i { s with pending := rest } := by
  simp only [step, h]

theorem step_idle {s : State} (h : s.pending = []) : step s = .next s := by
  simp only [step, h]

/-- Settles O1: the two shapes of the queue. -/
theorem stepRunsFront : Obligations.StepRunsFront :=
  ⟨fun _ _ _ h => step_cons h, fun _ h => step_idle h⟩

/-! ## The queue -/

/-- Beyond the absolute maxima of R508 a row stops (log 6). -/
theorem exec_beyondMaxima {i : Instr} (s : State) (hi : withinMaxima i = false) : exec i s = .fault .absoluteMaximum := by
  cases i
  case feedLevelChange t feed mV =>
    simp only [withinMaxima, Bool.and_eq_false_iff, decide_eq_false_iff_not, Int.not_le] at hi
    exact feedLevelChange_absoluteMaximum t feed s hi
  case junctionTempChange t tenths =>
    simp only [withinMaxima, decide_eq_false_iff_not, Int.not_le] at hi
    exact if_pos hi
  all_goals cases hi

/-- A row that answers a next state is within those maxima. -/
theorem withinMaxima_of_next {i : Instr} {s s' : State} (h : exec i s = .next s') : withinMaxima i = true := by
  by_contra hi
  rw [exec_beyondMaxima s (Bool.eq_false_iff.mpr hi)] at h
  cases h

/-- Settles O2: the frame in which every row runs hands the queue on. -/
theorem queueUntouched : Obligations.QueueUntouched := by
  intro i s s' h
  obtain ⟨z, hz, hq⟩ := exec_answers s (withinMaxima_of_next h)
  obtain rfl : z = s' := Host.Outcome.next.inj (hz.symm.trans h)
  exact hq

/-! ## FAULT_N (R435) -/

/-- Every row that answers a next state leaves FAULT_N driven where it was: where the row takes effect its frame drives the pin
last, and elsewhere only the time moves (log 2). -/
theorem exec_pin {i : Instr} {s s' : State} (hp : PinDriven s) (h : exec i s = .next s') : PinDriven s' := by
  cases i <;> dsimp only [exec] at h
  case sysNop | sysIdent | mbxAbort | mbxInbandSet | mbxKeySet | wallDefine | wallStatus | placeReport | weaveLoad |
      weaveTable | weaveParam | weaveStatus | weaveCounters | ingestVideoDefine | ingestAudioDefine | ingestTapDefine |
      ingestSacnMapDefine | ingestPlaneDefine | ingestPlaneSubmit | ingestRemove | ingestCounters | ingestTapRead |
      storeCorrPersist | storeCorrRestore | storeScrubSet | storeStatus | storeCounters | storeInject | schedStatus |
      schedCounters | schedTakeSet | schedDrainSet | schedClassSet | schedThreads | modeStatus | modeCalmSet |
      modeCalmExit | linkStatus | linkEnum | linkTile | linkCounters | linkGenSet | portStatus | portCounters | timeStatus |
      timeTrigger | timeLtcSet | timeRtcSet | cueSchedule | cueCancel | cueStatus | healthProbeSet | healthDefectRead |
      healthDefectClear | healthThermalSet | healthTile | healthZoneSet | healthSensorDefine | healthSensorReference |
      healthZoneRead | healthSensorRead | fixOutputDefine | fixFixtureDefine | fixSet | fixSafeSet | fixConfig | fixRdm |
      fixRdmDiscover | fixRdmUids | fixCounters | airNetSet | airRadioDefine | airBandDefine | airCrowdDefine | airNodeAdd |
      airChmap | airSend | airRecv | airStatus | airNodeStatus | airCounters | powerPaceSet | powerWakeSet | powerCmpSet |
      powerStatus | powerWakeReport | meterInputSet | meterCircuitSet | meterRead | meterMeasure | meterHarmonics |
      meterPulseSet | meterSaveSet | meterClear | meterCoefSet | meterCapSet | meterCapStatus | twinStatus | twinCounters |
      faultStatus | faultReactSet | faultSafeSet | faultCounters | calStatus | calSet | calRun | calTrimRead | calCounters |
      calRestoreFactory | reelStatus | reelRead | reelClear | reelNote | updateConfirm | updateStatus =>
    exact verb_pin hp h
  case wallActivate | placeProfile | placePin | placeUnpin | storeCorrLoad | schedSpindle | modeSet | portConfig |
      timePtpSet | timePtpPort | timeLock | airRadioEnable | powerEnter | powerExit | powerFeedSet | twinConfig |
      twinDrill | faultReturn | faultInject | updateBegin | updateWrite | updateVerify | updateActivate | updateLock =>
    exact verbF_pin hp h
  case mbxTailDoorbell | mbxRheadWrite | mbxEnable | mbxDisable | hifIntMaskWrite | hifIntStatClear | fltViolClear |
      fltStickyClear | macHalfClear | tsOvfClear | underrunClear | reelCursorWrite | reelWindowLoadDone | registerWrite |
      bar0AccessViolation | commandTake | unsupported | threadDispatch | threadQuantumExpiry | classFloorWindow |
      responseWrite | eventWrite | commandDeadline | mailboxDrainTimeout | tagMemoryExpiry | inbandDatagram |
      corrPersistDone | dramTempCross | paceWindowEnd | paceEvaluation | railSettled | bobbinWrite | bobbinRead |
      bobbinFlush | sacnKeepalive | takeIssue | takeTimeout | bankGate | pauseFrame | pauseQuantaExpiry | ptpMessageTx |
      ltcWord | ltcLossTimeout | triggerFire | cueFire | cueCommandDone | detectProbeDue | probeResultTimeout |
      sensorSampleDue | i2cTransactionDone | sensorRetry | tempStaleTimeout | dmxFrameStart | rdmRequestSend | rdmResponse |
      rdmResponseTimeout | streamTerminatedSend | superframeStart | budgetBucketRoll | supervisionTimeout |
      recoveryHoldExpiry | meterSample | meterPowerSample | meterWindowEnd | capCorrectionUpdate | capTargetCompute |
      meterSaveDue | meterSaveVerify | pulseStart | pulseEnd | helloSend | dackRx | heartbeatPulse | dieTempRead |
      calMeasurementDone | calDiscardRetry | beaconSend | recoveryBeaconSend | crowdSend | anchorDownSend | upRx |
      joinReqRx | resyncRx =>
    exact happens_pin hp h
  case planeCopyDone | corrRestoreDone | scrubStep | drainTimeout | updateLoadDone | handoverBlockRead |
      updateConfirmation | healthWindowExpiry | fallbackBlockWritten | frameBoundary | placementLeadExpiry |
      commitCopySend | skeinGuardExpiry | probeQueue | pixelComplete | hankComplete | spindleStall | videoPacket |
      fcsVerdict | audioPacket | audioSampleDue | sacnDataPacket | sacnSyncPacket | sacnSourceTimeout | streamLostTimeout |
      igmpQuery | frameTransmitStart | ackRx | nakRx | ackWaitExpiry | reportRx | replyRx | discoverCollectEnd | echoRx |
      measureRotation | enumerationDone | speedConfirmRx | speedConfirmTimeout | lineRetrained | lockChange |
      lockLossTimeout | ptpAnnounceRx | ptpEventRx | announceTimeout | helloRx | twinLinkTimeout | digestSegmentRx |
      healthWordTimeout | faultDetection | lullExpiry | returnStepDone | calApplyStep | reelRecordWrite | sectorSwitchDone |
      squallWrite | faultSourceQuiet | receivedFrame | corrLoadDone | weaveLoadDone | vmodFoldBack =>
    exact occurs_pin hp h
  case powerOn | resetNAssert | pciePerst | ownerKeyLockoutExpiry | rtcSecond | carryReturnTimeout | lastGaspEnd |
      resetNRelease | feedBusBelow7v =>
    exact always_pin h
  case pcieLinkStateChange | bootStageDone | powerEntryDone | interlockPinChange | feedLiveQualified | railOutOfRange |
      junctionTrip | comparatorDebounced | rtcAlarm | gpioWakeEdge | pcieWake | linkActivityWake | wakeStepDone |
      wakeStepTimeout | wakeRepeat | roleInRegistered =>
    exact alwaysF_pin h
  case feedLevelChange =>
    unfold execFeedLevelChange at h
    split at h
    · cases h
    · exact alwaysF_pin h
  case junctionTempChange =>
    unfold execJunctionTempChange at h
    split at h
    · cases h
    · exact alwaysF_pin h

/-- Settles O3: a step runs one row on the state with the queue's rest, on which the pin does not depend, or idles. -/
theorem faultPinInvariant : Obligations.FaultPinInvariant := by
  intro s s' hp h
  cases hq : s.pending with
  | nil =>
    obtain rfl : s = s' := Host.Outcome.next.inj ((step_idle hq).symm.trans h)
    exact hp
  | cons i rest =>
    have hrest : PinDriven { s with pending := rest } := hp
    exact exec_pin hrest ((step_cons hq).symm.trans h)

end Sys2Proof.Safety
end

section
/-! PROOF. The statement on the fault collector notes every FAULT_DETECTION as one detection of the source it names. A failure of a
DRAM stack's interface is one of all 16 banks of that stack (R131, R138). -/

namespace Sys2Proof.Machine

/-- A stack interface's failure, seen at bank `id`: a detection of each of the 16 banks of its stack (R138). -/
def stackDetected (id : Nat) (vs : List Int) (s : State) : State :=
  forEach (List.range 16) s fun i s => raise (0x2C00 + id % 32 / 16 * 16 + i) 3 vs s

end Sys2Proof.Machine

namespace Sys2Proof.Safety

open Sys2Proof.Machine

theorem exec_faultDetection_stack (t : Nat) {id : Nat} (vs : List Int) {s : State} (ha : awake s = true) (hbank : id / 1024 = 11)
    (hid : srcExists id = true) : exec (.faultDetection t id 3 vs) s = .next (settled t s (stackDetected id vs (advance t s))) := by
  dsimp only [exec, execFaultDetection]
  refine occurs_settled ha ?_
  simp [hid, hbank, stackDetected]

/-- The device after its boot stages, with both DRAM stacks in service and no source in the fault state. -/
def stacksUp : State :=
  { State.reset with
    boot := { State.reset.boot with stage := 4 }
    store := { State.reset.store with up := 2 ^ 32 - 1 } }

/-- Refutes O57: its clause on FAULT_DETECTION has the source named detected and no other; a failure of stack 0's interface in
`stacksUp`, reported for bank 0, is a detection of bank 1 as well. -/
theorem not_faultCollector : ¬ Obligations.FaultCollector := by
  unfold Obligations.FaultCollector
  rintro ⟨-, ⟨detection, -⟩, -⟩
  have ha : awake stacksUp = true := by decide
  have said := (detection 0 0x2C00 3 [] stacksUp ha).1 (by decide)
  have does := exec_faultDetection_stack 0 [] ha (id := 0x2C00) rfl (by decide)
  have same := congrArg (fun z => (srcOf z 0x2C01).detections) (Host.Outcome.next.inj (said.symm.trans does))
  have only_bank0 : (srcOf (settled 0 stacksUp (raise 0x2C00 3 [] (advance 0 stacksUp))) 0x2C01).detections = 0 := by decide
  have bank1_too : (srcOf (settled 0 stacksUp (stackDetected 0x2C00 [] (advance 0 stacksUp))) 0x2C01).detections = 1 := by
    decide +kernel
  have differ : (0 : U32) = 1 := only_bank0.symm.trans (same.trans bank1_too)
  exact absurd differ (by decide)

end Sys2Proof.Safety
end

section
/-! SUPPORT. The UPDATE commands (R480 to R484, R486, R487, R492): what each does to the state, a case at a time. -/

namespace Sys2Proof.Machine

/-! ## The update unit -/

@[simp] theorem interlock_advance (own : Bool) (t : Nat) (s : State) : interlock own (advance t s) = interlock own s := rfl

@[simp] theorem slotOf_advance (t : Nat) (s : State) (n : Nat) : slotOf (advance t s) n = slotOf s n := rfl

@[simp] theorem slotOf_modSlot_same (n : Nat) (f : Slot → Slot) (s : State) : slotOf (modSlot n f s) n = f (slotOf s n) :=
  kgetD_kmod_same _ _ _ _

@[simp] theorem slotOf_restaged (o : Option Nat) (s : State) (n : Nat) :
    slotOf (modUpd (fun u => { u with staging := o }) s) n = slotOf s n := rfl

theorem interlock_le (own : Bool) (s : State) : interlock own s ≤ 8 := by
  unfold interlock
  dsimp only
  split_ifs <;> decide

/-! ## UPDATE_BEGIN (R481, R483) -/

/-- UPDATE_BEGIN names slot A or B, and a length that an image can have. -/
def BeginSound (b : Bytes) : Prop := field b 0 1 ≤ 1 ∧ 257 ≤ field b 4 4 ∧ field b 4 4 ≤ 2097152

theorem beginRefused_iff {b : Bytes} :
    (decide (1 < field b 0 1) || decide (field b 4 4 < 257) || decide (2097152 < field b 4 4)) = true ↔ ¬ BeginSound b := by
  simp only [BeginSound, Bool.or_eq_true, decide_eq_true_eq]
  omega

theorem updBegin_range {c : Cmd} (s : State) (h : ¬ BeginSound c.payload) : updBegin c s = done c stRANGE s :=
  if_pos (beginRefused_iff.mpr h)

theorem updBegin_interlocked {c : Cmd} {s : State} (h : BeginSound c.payload) (hi : interlock false s ≠ 0) :
    updBegin c s = complete c stSTATE (interlock false s) [] s :=
  (if_neg fun hr => beginRefused_iff.mp hr h).trans (if_pos (bne_iff_ne.mpr hi))

/-- With no condition of R481, only the slot that runs is refused. -/
theorem updBegin_free {c : Cmd} {s : State} (h : BeginSound c.payload) (hi : interlock false s = 0) :
    updBegin c s = if field c.payload 0 1 = s.upd.running then done c stSTATE s
      else done c stOK (modUpd (fun u => { u with staging := some (field c.payload 0 1) })
        (modSlot (field c.payload 0 1) (fun _ => { st := 1, length := field c.payload 4 4 }) s)) := by
  refine (if_neg fun hr => beginRefused_iff.mp hr h).trans ((if_neg (by simp [hi])).trans ?_)
  simp only [beq_iff_eq]

/-! ## UPDATE_WRITE (R483) -/

theorem updWrite_range {c : Cmd} (s : State) (h : field c.payload 4 2 = 0 ∨ 4080 < field c.payload 4 2) :
    updWrite c s = done c stRANGE s :=
  if_pos (by simpa using h)

/-- Slot `k` with the bytes of an UPDATE_WRITE behind those it holds; full, it is no longer staged. -/
def slotFilled (c : Cmd) (k : Nat) (s : State) : State :=
  let full := field c.payload 0 4 + field c.payload 4 2 == (slotOf s k).length
  let z := modSlot k (fun q => { q with
    image := q.image ++ bytesAt c.payload 8 (field c.payload 4 2), st := if full then 2 else 1 }) s
  if full then modUpd (fun u => { u with staging := none }) z else z

section

variable {c : Cmd} {s : State} (hmin : 1 ≤ field c.payload 4 2) (hmax : field c.payload 4 2 ≤ 4080) (hi : interlock false s = 0)
include hmin hmax hi

theorem updWrite_unstaged (hs : s.upd.staging = none) : updWrite c s = done c stSTATE s := by
  have size : ¬ (field c.payload 4 2 == 0 || decide (4080 < field c.payload 4 2)) = true := by simp; omega
  simp only [updWrite, if_neg size, hi, hs]
  rfl

/-- Into a staged slot the bytes go in order and up to its length, or not at all. -/
theorem updWrite_staged {k : Nat} (hs : s.upd.staging = some k) : updWrite c s =
    if field c.payload 0 4 ≠ (slotOf s k).image.length ∨ (slotOf s k).length < field c.payload 0 4 + field c.payload 4 2 then
      done c stRANGE s
    else done c stOK (slotFilled c k s) := by
  have size : ¬ (field c.payload 4 2 == 0 || decide (4080 < field c.payload 4 2)) = true := by simp; omega
  simp only [updWrite, if_neg size, hi, hs, bne_self_eq_false, Bool.false_eq_true, if_false]
  exact if_congr (by simp) rfl rfl

end

theorem slotOf_slotFilled (c : Cmd) (k : Nat) (s : State) : slotOf (slotFilled c k s) k = { slotOf s k with
    image := (slotOf s k).image ++ bytesAt c.payload 8 (field c.payload 4 2)
    st := if field c.payload 0 4 + field c.payload 4 2 == (slotOf s k).length then 2 else 1 } := by
  unfold slotFilled
  dsimp only
  split <;> simp

theorem slotFilled_staging {c : Cmd} {k : Nat} {s : State} (hs : s.upd.staging = some k) :
    (slotFilled c k s).upd.staging = if field c.payload 0 4 + field c.payload 4 2 = (slotOf s k).length then none else some k := by
  by_cases full : field c.payload 0 4 + field c.payload 4 2 = (slotOf s k).length <;> simp [slotFilled, full, modSlot, hs]

theorem slotFilled_onlyUpd (c : Cmd) (k : Nat) (s : State) : { slotFilled c k s with upd := s.upd } = s := by
  unfold slotFilled
  dsimp only
  split <;> rfl

/-! ## UPDATE_VERIFY (R480, R483) -/

theorem updVerify_notFound {c : Cmd} {s : State}
    (h : 2 < field c.payload 0 1 ∨ (field c.payload 0 1 < 2 ∧ (slotOf s (field c.payload 0 1)).st = 0)) :
    updVerify c s = done c stNOTFOUND s :=
  if_pos (by simpa using h)

theorem updVerify_staging {c : Cmd} {s : State} (hn : field c.payload 0 1 < 2) (hs : (slotOf s (field c.payload 0 1)).st = 1) :
    updVerify c s = done c stSTATE s :=
  (if_neg (by simp [hs]; omega)).trans (if_pos (by simp [hn, hs]))

/-- The payload of UPDATE_VERIFY's answer for slot `n`. -/
def verifyBytes (u : Update) (n : Nat) : Bytes :=
  leN 4 (imgVersion (slotImage u n)) ++ leN 4 (imgSvn (slotImage u n)) ++ leN 1 (field (slotImage u n) 6 1)
    ++ leN 1 (slotFail u n) ++ zeros 6

theorem length_verifyBytes (u : Update) (n : Nat) : (verifyBytes u n).length = 16 := by
  simp [verifyBytes]

theorem verifyBytes_fail (u : Update) (n : Nat) : field (verifyBytes u n) 9 1 = slotFail u n % 256 := by
  simp [verifyBytes, field_append_left, field_append_right, field_leN]

/-- Slot `n` verified or rejected, as the check of R480 finds it. -/
def slotJudged (n : Nat) (s : State) : State := modSlot n (fun q => { q with st := if slotFail s.upd n = 0 then 3 else 4 }) s

theorem updVerify_judges {c : Cmd} {s : State} (hn : field c.payload 0 1 < 2) (hs : 2 ≤ (slotOf s (field c.payload 0 1)).st) :
    updVerify c s = complete c (if slotFail s.upd (field c.payload 0 1) = 0 then stOK else stDENIED) 0
      (verifyBytes s.upd (field c.payload 0 1)) (slotJudged (field c.payload 0 1) s) := by
  refine (if_neg (by simp; omega)).trans ((if_neg (by simp; omega)).trans ?_)
  simp only [hn, beq_iff_eq]
  rfl

/-! ## UPDATE_ACTIVATE (R481, R484) -/

/-- UPDATE_ACTIVATE names slot A or B, and a window of 20 s to 3600 s or the default. -/
def ActivateSound (b : Bytes) : Prop := field b 0 1 ≤ 1 ∧ (field b 2 2 = 0 ∨ (20 ≤ field b 2 2 ∧ field b 2 2 ≤ 3600))

theorem activateRefused_iff {b : Bytes} : (decide (1 < field b 0 1)
    || (field b 2 2 != 0 && (decide (field b 2 2 < 20) || decide (3600 < field b 2 2)))) = true ↔ ¬ ActivateSound b := by
  simp only [ActivateSound, Bool.or_eq_true, Bool.and_eq_true, bne_iff_ne, decide_eq_true_eq]
  omega

theorem updActivate_range {c : Cmd} (s : State) (h : ¬ ActivateSound c.payload) : updActivate c s = done c stRANGE s :=
  if_pos (activateRefused_iff.mpr h)

/-- The activation that an UPDATE_ACTIVATE begins. -/
def activationOf (c : Cmd) (s : State) : Activation :=
  let n := field c.payload 0 1
  { ref := some c.ref, slot := n, version := imgVersion (slotImage s.upd n), svn := imgSvn (slotImage s.upd n)
    windowS := if field c.payload 2 2 == 0 then 60 else field c.payload 2 2, host := bit (field c.payload 1 1) 0
    part := 1 - s.upd.part, oldSlot := s.upd.running, oldPart := s.upd.part }

/-- The load begun: the command waits, the activation stands, and the upper half of the cores is the load set. -/
def loadBegun (c : Cmd) (s : State) : State :=
  park c (modUpd (fun u => { u with
    act := some (activationOf c s), loadSet := (coresNow s).drop (((coresNow s).length + 1) / 2) }) s)

section

variable {c : Cmd} {s : State} (h : ActivateSound c.payload)
include h

theorem updActivate_notFound (hs : (slotOf s (field c.payload 0 1)).st ≠ 3) : updActivate c s = done c stNOTFOUND s :=
  (if_neg fun hr => activateRefused_iff.mp hr h).trans (if_pos (bne_iff_ne.mpr hs))

variable (hs : (slotOf s (field c.payload 0 1)).st = 3)
include hs

theorem updActivate_verified : updActivate c s =
    if interlock false s ≠ 0 then complete c stSTATE (interlock false s) [] s
    else if statesMeet (runImage s) (slotImage s.upd (field c.payload 0 1)) then loadBegun c s
    else complete c stSTATE 9 [] s := by
  refine (if_neg fun hr => activateRefused_iff.mp hr h).trans ((if_neg (by simp [hs])).trans ?_)
  refine if_congr bne_iff_ne rfl ?_
  cases statesMeet (runImage s) (slotImage s.upd (field c.payload 0 1)) <;> rfl

end

/-- A change that keeps a list's elements as they are for `p` finds the one it changed. -/
theorem find?_modFirst {α : Type} {p : α → Bool} {f : α → α} (hf : ∀ a, p (f a) = p a) (l : List α) :
    (modFirst p f l).find? p = (l.find? p).map f := by
  induction l with
  | nil => rfl
  | cons a r ih => cases ha : p a <;> simp [modFirst, ha, hf, ih]

theorem findCmd_park {r : CmdRef} {c : Cmd} {s : State} (hr : c.ref = r) :
    findCmd r (park c s) = (findCmd r s).map fun d => { d with phase := .async, core := none } := by
  subst hr
  exact find?_modFirst (p := fun d => d.ref == c.ref) (f := fun d => { d with phase := .async, core := none }) (fun _ => rfl) s.cmds

/-! ## UPDATE_CONFIRM, UPDATE_STATUS (R487, R492) -/

theorem updConfirm_none {c : Cmd} {s : State} (h : s.upd.act = none) : updConfirm c s = done c stSTATE s := by
  simp only [updConfirm, h]

theorem updConfirm_refused {c : Cmd} {s : State} {a : Activation} (h : s.upd.act = some a)
    (hno : a.openAt = none ∨ a.host = false) : updConfirm c s = done c stSTATE s := by
  simp only [updConfirm, h]
  exact if_pos (by simpa using hno)

theorem updConfirm_counts {c : Cmd} {s : State} {a : Activation} (h : s.upd.act = some a) (ho : a.openAt.isSome = true)
    (hh : a.host = true) : updConfirm c s =
      done c stOK (modUpd (fun u => { u with act := some { a with confirmed := true } }) s) := by
  have waits : ¬ (a.openAt.isNone || !a.host) = true := by simpa [hh] using Option.isSome_iff_ne_none.mp ho
  simp only [updConfirm, h, if_neg waits, modAct, modUpd, Option.map_some]

theorem length_updStatusBytes (s : State) : (updStatusBytes s).length = 32 := by
  simp [updStatusBytes]

theorem updStatusBytes_fields (s : State) : field (updStatusBytes s) 0 1 = s.upd.running % 256
    ∧ field (updStatusBytes s) 6 1 = interlock false s ∧ field (updStatusBytes s) 20 4 = s.upd.fallbacks.toNat := by
  have hlock : interlock false s < 256 := Nat.lt_of_le_of_lt (interlock_le false s) (by decide)
  have hfall : s.upd.fallbacks.toNat < 4294967296 := s.upd.fallbacks.isLt
  simp [updStatusBytes, field_append_left, field_append_right, field_leN, Nat.mod_eq_of_lt hlock, Nat.mod_eq_of_lt hfall]

/-! ## UPDATE_LOCK (R482) -/

@[simp] theorem lockRecord_upd (code v mbx inb : Nat) (s : State) : (lockRecord code v mbx inb s).upd = s.upd :=
  record_upd _ _ _ _ _

theorem updLock_denied {c : Cmd} {s : State} (h : keyAuthority c = false) : updLock c s = done c stDENIED s :=
  if_pos (by simp [h])

theorem updLock_lockedOut {c : Cmd} {s : State} {u : Nat} (h : s.upd.lockout = some u) (hu : s.now < u) :
    updLock c s = done c stDENIED s :=
  if_pos (by simp [h, hu])

section

variable {c : Cmd} {s : State} (hk : keyAuthority c = true) (hl : s.upd.lockout = none)
include hk hl

theorem updLock_keyless (hkey : s.upd.keyHash = none) (ha : field c.payload 0 1 ≠ 2) : updLock c s = done c stSTATE s := by
  simp [updLock, hk, hl, hkey, ha]

theorem updLock_key (hkey : s.upd.keyHash = some (sha256 (bytesAt c.payload 8 32))) : updLock c s = lockDo c s := by
  simp [updLock, hk, hl, hkey]

end

/-- The lock set or cleared, and recorded, by the owner's key. -/
def lockGiven (c : Cmd) (s : State) : State :=
  lockRecord 0x1681 (field c.payload 0 1) (sender c).1 (sender c).2.1
    (modUpd (fun u => { u with lock := decide (field c.payload 0 1 = 0), wrong := 0 }) s)

theorem lockDo_sets {c : Cmd} (s : State) (h : field c.payload 0 1 ≤ 1) : lockDo c s = done c stOK (lockGiven c s) := by
  obtain h0 | h1 : field c.payload 0 1 = 0 ∨ field c.payload 0 1 = 1 := by omega
  · simp [lockDo, lockGiven, h0]
  · simp [lockDo, lockGiven, h1]

/-- The wrong keys in a row counted: at the fourth the lock is shut for 60 s. -/
def wrongCounted (now : Nat) (u : Update) : Update :=
  { u with wrong := if 4 ≤ u.wrong + 1 then 0 else u.wrong + 1
           lockout := if 4 ≤ u.wrong + 1 then some (now + 60000000000) else u.lockout }

theorem updLock_wrongKey {c : Cmd} {s : State} {h : Bytes} (hk : keyAuthority c = true) (hl : s.upd.lockout = none)
    (hkey : s.upd.keyHash = some h) (hw : sha256 (bytesAt c.payload 8 32) ≠ h) :
    updLock c s = done c stDENIED (lockRecord 0x1682 (s.upd.wrong + 1) (sender c).1 (sender c).2.1
      (modUpd (wrongCounted s.now) s)) := by
  simp only [updLock, hk, hl, hkey, beq_iff_eq, if_neg hw]
  rfl

end Sys2Proof.Machine
end

section
/-! PROOF. What the UPDATE commands answer (R480 to R484, R486, R487, R492), and the statement assembled from it. -/

namespace Sys2Proof.Safety

open Sys2Proof.Machine

/-! ## Staging -/

theorem exec_updateBegin_running {t : Nat} {r : CmdRef} {c : Cmd} {s : State} (h : Ready 0x1601 r c s) (hs : BeginSound c.payload)
    (hi : interlock false s = 0) (hn : field c.payload 0 1 = s.upd.running) :
    exec (.updateBegin t r) s = .next (settled t s (complete c 0x23 0 [] (advance t s))) :=
  ready_settled h ((updBegin_free (s := advance t s) hs hi).trans (if_pos hn))

theorem exec_updateBegin_takes {t : Nat} {r : CmdRef} {c : Cmd} {s : State} (h : Ready 0x1601 r c s) (hs : BeginSound c.payload)
    (hi : interlock false s = 0) (hn : field c.payload 0 1 ≠ s.upd.running) :
    exec (.updateBegin t r) s = .next (settled t s (complete c 0x00 0 [] (modUpd (fun u => { u with
      staging := some (field c.payload 0 1)
      slots := kset u.slots (field c.payload 0 1) { st := 1, length := field c.payload 4 4 } }) (advance t s)))) :=
  ready_settled h ((updBegin_free (s := advance t s) hs hi).trans (if_neg hn))

section

variable {t k : Nat} {r : CmdRef} {c : Cmd} {s : State} (h : Ready 0x1602 r c s) (hmin : 1 ≤ field c.payload 4 2)
  (hmax : field c.payload 4 2 ≤ 4080) (hi : interlock false s = 0) (hs : s.upd.staging = some k)
include h hmin hmax hi hs

theorem exec_updateWrite_outOfOrder (hbad : field c.payload 0 4 ≠ (slotOf s k).image.length
      ∨ (slotOf s k).length < field c.payload 0 4 + field c.payload 4 2) :
    exec (.updateWrite t r) s = .next (settled t s (complete c 0x21 0 [] (advance t s))) :=
  ready_settled h ((updWrite_staged (s := advance t s) hmin hmax hi hs).trans (if_pos hbad))

theorem exec_updateWrite_fills (ho : field c.payload 0 4 = (slotOf s k).image.length)
    (hl : field c.payload 0 4 + field c.payload 4 2 ≤ (slotOf s k).length) :
    exec (.updateWrite t r) s = .next (settled t s (complete c 0x00 0 [] (slotFilled c k (advance t s)))) := by
  have inOrder : ¬ (field c.payload 0 4 ≠ (slotOf s k).image.length
      ∨ (slotOf s k).length < field c.payload 0 4 + field c.payload 4 2) := by omega
  exact ready_settled h ((updWrite_staged (s := advance t s) hmin hmax hi hs).trans (if_neg inOrder))

end

/-! ## Activation -/

section

variable {t : Nat} {r : CmdRef} {c : Cmd} {s : State} (h : Ready 0x1604 r c s) (hp : ActivateSound c.payload)
  (hs : (slotOf s (field c.payload 0 1)).st = 3)
include h hp hs

theorem exec_updateActivate_interlocked (hi : interlock false s ≠ 0) :
    exec (.updateActivate t r) s = .next (settled t s (complete c 0x23 (interlock false s) [] (advance t s))) :=
  ready_settled h ((updActivate_verified (s := advance t s) hp hs).trans (if_pos hi))

variable (hi : interlock false s = 0)
include hi

theorem exec_updateActivate_apart (hm : statesMeet (runImage s) (slotImage s.upd (field c.payload 0 1)) = false) :
    exec (.updateActivate t r) s = .next (settled t s (complete c 0x23 9 [] (advance t s))) :=
  ready_settled h ((updActivate_verified (s := advance t s) hp hs).trans
    ((if_neg (not_not.mpr hi)).trans (if_neg (Bool.eq_false_iff.mp hm))))

theorem exec_updateActivate_loads (hm : statesMeet (runImage s) (slotImage s.upd (field c.payload 0 1)) = true) :
    exec (.updateActivate t r) s = .next (settled t s (loadBegun c (advance t s))) :=
  ready_settled h ((updActivate_verified (s := advance t s) hp hs).trans ((if_neg (not_not.mpr hi)).trans (if_pos hm)))

end

/-- The command that began a load stays in flight. -/
theorem findCmd_loadBegun {op t : Nat} {r : CmdRef} {c : Cmd} {s : State} (h : Ready op r c s) :
    (findCmd r (loadBegun c (advance t s))).isSome = true := by
  rw [loadBegun, findCmd_park (ready_ref h), Option.isSome_map]
  exact Option.isSome_of_eq_some h.1

/-! ## The statement -/

/-- Settles O58: each command a case at a time; what UPDATE_WRITE leaves of its slot, UPDATE_VERIFY's verdict, the load that
UPDATE_ACTIVATE begins and the keys that UPDATE_LOCK counts are read off the state that each leaves. -/
theorem updateCommands : Obligations.UpdateCommands := by
  unfold Obligations.UpdateCommands
  refine ⟨fun t r c s h => ⟨?beginRange, ?beginInterlocked, ?beginRunning, ?beginTakes⟩,
    fun t r c s h => ⟨?writeRange, ?writeUnstaged, ?writeOutOfOrder, ?writeFills⟩,
    fun t r c s h => ⟨?verifyNotFound, ?verifyStaging, ?verifyJudges⟩,
    fun t r c s h => ⟨?activateRange, ?activateNotFound, ?activateInterlocked, ?activateApart, ?activateLoads⟩,
    fun t r c s h => ⟨?confirmNone, ?confirmRefused, ?confirmCounts⟩, fun t r c s h => ?status,
    fun t r c s h => ⟨?lockDenied, ?lockedOut, ?lockKeyless, ?lockSets, ?lockWrongKey⟩⟩
  case beginRange => exact fun hs => ready_settled h (updBegin_range _ hs)
  case beginInterlocked => exact fun hs hi => ready_settled h (updBegin_interlocked (s := advance t s) hs hi)
  case beginRunning => exact exec_updateBegin_running h
  case beginTakes => exact exec_updateBegin_takes h
  case writeRange => exact fun hn => ready_settled h (updWrite_range _ hn)
  case writeUnstaged => exact fun hmin hmax hi hs => ready_settled h (updWrite_unstaged (s := advance t s) hmin hmax hi hs)
  case writeOutOfOrder => exact fun k => exec_updateWrite_outOfOrder h
  case writeFills =>
    intro k hmin hmax hi hs ho hl
    refine ⟨_, exec_updateWrite_fills h hmin hmax hi hs ho hl, ?_, ?_, slotFilled_staging hs, slotFilled_onlyUpd c k _⟩
    · rw [slotOf_slotFilled]
      rfl
    · rw [slotOf_slotFilled]
      simp
  case verifyNotFound => exact fun hn => ready_settled h (updVerify_notFound (s := advance t s) hn)
  case verifyStaging => exact fun hn hs => ready_settled h (updVerify_staging (s := advance t s) hn hs)
  case verifyJudges =>
    intro hn hs
    refine ⟨_, _, ready_settled h (updVerify_judges (s := advance t s) hn hs), length_verifyBytes _ _, verifyBytes_fail _ _,
      ?_, ?_⟩
    all_goals rw [slotJudged, slotOf_modSlot_same]; rfl
  case activateRange => exact fun hp => ready_settled h (updActivate_range _ hp)
  case activateNotFound => exact fun hp hs => ready_settled h (updActivate_notFound (s := advance t s) hp hs)
  case activateInterlocked => exact exec_updateActivate_interlocked h
  case activateApart => exact exec_updateActivate_apart h
  case activateLoads =>
    intro hp hs hi hm
    refine ⟨_, activationOf c (advance t s), exec_updateActivate_loads h hp hs hi hm, findCmd_loadBegun h, rfl, rfl, rfl, ?_, rfl,
      rfl, rfl⟩
    simp only [activationOf, beq_iff_eq]
  case confirmNone => exact fun ha => ready_complete h (updConfirm_none (s := advance t s) ha)
  case confirmRefused => exact fun a ha hno => ready_complete h (updConfirm_refused (s := advance t s) ha hno)
  case confirmCounts =>
    exact fun a ha ho hh => ready_donePinKept h (updConfirm_counts (s := advance t s) ha ho hh) ⟨rfl, rfl, rfl, rfl, rfl⟩
  case status => exact ⟨_, ready_complete h rfl, length_updStatusBytes _, updStatusBytes_fields (advance t s)⟩
  case lockDenied => exact fun hk => ready_settled h (updLock_denied hk)
  case lockedOut => exact fun u hl hu => ready_settled h (updLock_lockedOut (s := advance t s) hl hu)
  case lockKeyless => exact fun hk hl hkey ha => ready_settled h (updLock_keyless (s := advance t s) hk hl hkey ha)
  case lockSets =>
    exact fun hk hl hkey ha => ⟨_, ready_settled h ((updLock_key (s := advance t s) hk hl hkey).trans (lockDo_sets _ ha)),
      lockRecord_upd _ _ _ _ _⟩
  case lockWrongKey =>
    intro k hk hl hkey hw
    refine ⟨_, ready_settled h (updLock_wrongKey (s := advance t s) hk hl hkey hw), ?_⟩
    rw [lockRecord_upd, modUpd_upd]
    refine ⟨rfl, rfl, fun few => ?_, fun many => ?_⟩
    · have more : ¬ 4 ≤ s.upd.wrong + 1 := by omega
      exact ⟨if_neg more, (if_neg more).trans hl⟩
    · have fourth : 4 ≤ s.upd.wrong + 1 := by omega
      exact ⟨if_pos fourth, if_pos fourth⟩

end Sys2Proof.Safety
end

section
/-! SUPPORT. An update's events (R481, R482, R485 to R489): what each does to the state, a case at a time. -/

namespace Sys2Proof.Machine

/-! ## An activation -/

theorem modAct_none {s : State} (f : Activation → Activation) (h : s.upd.act = none) : modAct f s = s := by
  have upd : ({ s.upd with act := s.upd.act.map f } : Update) = s.upd := by rw [h, Option.map_none, ← h]
  exact congrArg (fun u => { s with upd := u }) upd

theorem modAct_some {s : State} {a : Activation} (f : Activation → Activation) (h : s.upd.act = some a) :
    modAct f s = modUpd (fun u => { u with act := some (f a) }) s := by
  simp only [modAct, modUpd, h, Option.map_some]

@[simp] theorem updEvent_upd (st slot cause : Nat) (e : U32) (v : Nat) (s : State) :
    (updEvent st slot cause e v s).upd = s.upd := rfl

/-! ## The load (R484, R486) -/

/-- The image, verified again, in the free run partition. -/
def loadDone (a : Activation) (s : State) : State :=
  modUpd (fun u => { u with runs := kset u.runs a.part (slotImage u a.slot), act := some { a with loadedAt := some s.now } }) s

section

variable {s : State} {a : Activation} (h : s.upd.act = some a)
include h

theorem updCancel_upd (st d cause : Nat) (ho : a.openAt = none) :
    (updCancel st d cause s).upd = { s.upd with act := none, loadSet := [] } := by
  simp only [updCancel, h, ho, Option.isSome_none, Bool.false_eq_true, if_false]
  split <;> simp

theorem slotOf_updCancel (st d cause n : Nat) (ho : a.openAt = none) : slotOf (updCancel st d cause s) n = slotOf s n := by
  rw [slotOf, updCancel_upd h st d cause ho, slotOf]

theorem findCmd_updCancel {r : CmdRef} (st cause : Nat) (ho : a.openAt = none) (hr : a.ref = some r) :
    findCmd r (updCancel st 0 cause s) = none := by
  simp only [updCancel, h, ho, hr, Option.isSome_none, Bool.false_eq_true, if_false]
  exact Safety.findCmd_finish _ _ _

variable (hl : a.loadedAt = none)
include hl

theorem updLoaded_verified (hv : slotFail s.upd a.slot = 0) :
    updLoaded s = updEvent 0 a.slot 0 (epochNow s) a.version (loadDone a s) := by
  simp only [updLoaded, h, hl, hv, modAct, modUpd, Option.map_some]
  rfl

theorem updLoaded_rejected (hv : slotFail s.upd a.slot ≠ 0) :
    updLoaded s = updCancel stNOTFOUND 0 0 (modSlot a.slot (fun q => { q with st := 4 }) s) := by
  simp only [updLoaded, h, hl, bne_iff_ne, if_pos hv]
  rfl

/-- An image that no longer verifies ends the activation: its slot is rejected, and UPDATE_ACTIVATE is no longer in flight. -/
theorem updLoaded_rejected_leaves (ho : a.openAt = none) (hv : slotFail s.upd a.slot ≠ 0) :
    (updLoaded s).upd.act = none ∧ (updLoaded s).upd.running = s.upd.running ∧ (slotOf (updLoaded s) a.slot).st = 4
      ∧ ∀ r, a.ref = some r → findCmd r (updLoaded s) = none := by
  have under : (modSlot a.slot (fun q => { q with st := 4 }) s).upd.act = some a := h
  have upd := updCancel_upd under stNOTFOUND 0 0 ho
  rw [updLoaded_rejected h hl hv]
  refine ⟨by rw [upd], by rw [upd]; rfl, ?_, fun r hr => findCmd_updCancel under _ _ ho hr⟩
  rw [slotOf_updCancel under _ _ _ _ ho, slotOf_modSlot_same]

end

/-! ## The handover block (R485) -/

section

variable {s : State} {a : Activation} (h : s.upd.act = some a)
include h

/-- A window that is open has had its handover. -/
theorem handover_open (e : U32) (ho : a.openAt.isSome = true) : handover e s = s := by
  obtain ⟨b, hb⟩ := Option.isSome_iff_exists.mp ho
  simp only [handover, h, hb]
  cases a.loadedAt <;> rfl

theorem blockRead_open (ho : a.openAt.isSome = true) :
    blockRead s = modUpd (fun u => { u with act := some { a with blockRead := true } }) s := by
  rw [blockRead, handover_open h _ ho, ite_self]
  exact (modAct_some _ h).trans (by rw [if_pos ho])

/-! ## The window's end (R487 to R489) -/

theorem updConfirmation_waits (hm : mayConfirm s a = false) : updConfirmation s = s := by
  simp only [updConfirmation, h, hm]
  rfl

theorem updConfirmation_confirms (hm : mayConfirm s a = true) (hw : s.now < windowEndsAt a) :
    updConfirmation s = updConfirmed a s := by
  have stillOpen : ¬ (!mayConfirm s a || decide (windowEndsAt a < s.now)) = true := by simp [hm]; omega
  simp only [updConfirmation, h, if_neg stillOpen, if_pos hw]

theorem windowExpiry_waits (hw : a.openAt = none ∨ s.now < windowEndsAt a) : windowExpiry s = s := by
  have waits : ¬ (a.openAt.isSome && decide (windowEndsAt a ≤ s.now)) = true := by
    obtain shut | early := hw
    · simp [shut]
    · simp [early]
  simp only [windowExpiry, h, if_neg waits]

theorem windowExpiry_falls (ho : a.openAt.isSome = true) (hw : windowEndsAt a ≤ s.now) (hf : a.fellAt = none) :
    windowExpiry s = modUpd (fun u => { u with act := some { a with fellAt := some s.now, cause := 1 } }) s := by
  simp only [windowExpiry, h, ho, hw, decide_true, Bool.and_self, if_true]
  exact (modAct_some _ h).trans (by rw [if_pos (by simp [ho, hf])])

/-! ## Fallback (R489) -/

variable {f : Nat} (hf : a.fellAt = some f) (hw : a.written = false)
include hf hw

theorem fallbackBlock_written (ht : s.now ≤ f + 100000000) (hm : modeOn s = true) :
    fallbackBlock true s = modUpd (fun u => { u with act := some { a with written := true } }) s := by
  have inTime : (true && decide (s.now ≤ f + 100000000)) = true := by simp [ht]
  have on : modeOn (modAct (fun a => { a with written := true }) s) = true := hm
  rw [← modAct_some (fun a => { a with written := true }) h]
  simp only [fallbackBlock, h, hf, hw, Bool.false_eq_true, if_false, if_pos inTime, if_pos on]

theorem fallbackBlock_late (ht : f + 100000000 ≤ s.now) : fallbackBlock false s = updBack true s := by
  simp only [fallbackBlock, h, hf, hw, Bool.false_and, Bool.false_eq_true, if_false, if_pos ht]

end

/-- The update unit with the old image's slot and partition running again. -/
def backTo (a : Activation) (u : Update) : Update :=
  { u with act := none, loadSet := [], running := a.oldSlot, part := a.oldPart, pendingFlag := false, fallbacks := u.fallbacks + 1 }

/-- With no block the old image starts warm. -/
theorem updBack_warm {s : State} {a : Activation} (h : s.upd.act = some a) : (updBack true s).upd = backTo a s.upd
    ∧ (updBack true s).time = (warmStart s).time ∧ (updBack true s).place = (warmStart s).place := by
  simp only [updBack, h, if_true, updEvent, readyEvent, fallbackRecord, imageDrainStart, emit_upd, emit_time, emit_place,
    record_upd, record_time, record_place]
  exact ⟨rfl, rfl, rfl⟩

/-! ## Nothing under way -/

section

variable {s : State} (h : s.upd.act = none)
include h

theorem updLoaded_none : updLoaded s = s := by
  simp only [updLoaded, h]

theorem handover_none (e : U32) : handover e s = s := by
  simp only [handover, h]

theorem blockRead_none : blockRead s = s := by
  rw [blockRead, handover_none h, ite_self]
  exact modAct_none _ h

theorem updConfirmation_none : updConfirmation s = s := by
  simp only [updConfirmation, h]

theorem windowExpiry_none : windowExpiry s = s := by
  simp only [windowExpiry, h]

theorem fallbackBlock_none (written : Bool) : fallbackBlock written s = s := by
  simp only [fallbackBlock, h]

end

/-! ## The lockout and the pins (R481, R482) -/

theorem lockoutEnd_none {s : State} (h : s.upd.lockout = none) : lockoutEnd s = s := by
  simp only [lockoutEnd, h]

theorem lockoutEnd_waits {s : State} {u : Nat} (h : s.upd.lockout = some u) (hu : s.now < u) : lockoutEnd s = s := by
  simp only [lockoutEnd, h, if_neg (Nat.not_le.mpr hu)]

theorem lockoutEnd_ends {s : State} {u : Nat} (h : s.upd.lockout = some u) (hu : u ≤ s.now) :
    lockoutEnd s = modUpd (fun q => { q with lockout := none }) s := by
  simp only [lockoutEnd, h, if_pos hu]

theorem pinChange_owner (high : Bool) (s : State) : (pinChange 2 high s).upd = { s.upd with ownerPin := high } := by
  simp only [pinChange]
  split
  · next same => rw [← eq_of_beq same]
  · exact lockRecord_upd _ _ _ _ _

end Sys2Proof.Machine
end

section
/-! PROOF. What an update's events answer (R481, R482, R485 to R489), and the statement assembled from it. -/

namespace Sys2Proof.Safety

open Sys2Proof.Machine

/-- Settles O59: with nothing under way each event leaves the state; with an activation, its load, window and fallback a case at a
time; then the lockout and the pins. -/
theorem updateEvents : Obligations.UpdateEvents := by
  unfold Obligations.UpdateEvents
  refine ⟨fun t s ha h => ?idle, fun t a s ha h hl ho => ?load, fun t a s ha h ho => ?block,
    fun t a s ha h => ⟨?waits, ?confirms⟩, fun t a s ha h => ⟨?lasts, ?expires⟩,
    fun t f a s ha h hf hw => ⟨?written, ?late⟩, fun t s hp => ⟨?unlocked, ?locked, ?ends⟩,
    fun t high s => ⟨?motion, ?battery, ?owner⟩⟩
  case idle =>
    have h : (advance t s).upd.act = none := h
    exact ⟨occurs_settled ha (updLoaded_none h), occurs_settled ha (blockRead_none h), occurs_settled ha (updConfirmation_none h),
      occurs_settled ha (windowExpiry_none h), fun b => occurs_settled ha (fallbackBlock_none h b)⟩
  case load =>
    have h : (advance t s).upd.act = some a := h
    by_cases hv : slotFail s.upd a.slot = 0
    · exact ⟨_, occurs_settled ha (updLoaded_verified h hl hv), rfl, fun _ => ⟨rfl, kget?_kset_same _ _ _⟩,
        fun bad => absurd hv bad⟩
    · obtain ⟨hact, hrun, hslot, hcmd⟩ := updLoaded_rejected_leaves h hl ho hv
      exact ⟨_, occurs_settled ha rfl, hrun, fun good => absurd good hv, fun _ => ⟨hact, hslot, hcmd⟩⟩
  case block => exact ⟨_, occurs_settled ha (blockRead_open (s := advance t s) h ho), rfl⟩
  case waits => exact fun hm => occurs_settled ha (updConfirmation_waits (s := advance t s) h hm)
  case confirms =>
    exact fun hm hw => ⟨_, occurs_settled ha (updConfirmation_confirms (s := advance t s) h hm hw), rfl, rfl, rfl, rfl⟩
  case lasts => exact fun hw => occurs_settled ha (windowExpiry_waits (s := advance t s) h hw)
  case expires => exact fun ho hw hf => ⟨_, occurs_settled ha (windowExpiry_falls (s := advance t s) h ho hw hf), rfl⟩
  case written =>
    exact fun ht hm => ⟨_, occurs_settled ha (fallbackBlock_written (s := advance t s) h hf hw ht (bne_iff_ne.mpr hm)), rfl⟩
  case late =>
    intro ht
    obtain ⟨hupd, htime, hplace⟩ := updBack_warm (s := advance t s) h
    refine ⟨_, occurs_settled ha (fallbackBlock_late (s := advance t s) h hf hw ht), ?_⟩
    rw [hupd, htime, hplace]
    exact ⟨rfl, rfl, rfl, rfl, rfl, rfl, rfl⟩
  case unlocked => exact fun hl => always_plain hp (lockoutEnd_none (s := advance t s) hl) rfl rfl rfl rfl rfl
  case locked => exact fun u hl hu => always_plain hp (lockoutEnd_waits (s := advance t s) hl hu) rfl rfl rfl rfl rfl
  case ends => exact fun u hl hu => always_plain hp (lockoutEnd_ends (s := advance t s) hl hu) rfl rfl rfl rfl rfl
  case motion => exact alwaysF_settled rfl
  case battery => exact alwaysF_settled rfl
  case owner => exact ⟨_, alwaysF_settled rfl, pinChange_owner high (advance t s)⟩

end Sys2Proof.Safety
end
